-- ==== Sys2Proof/Word.lean ====
section
/-! DEFINITION. The words of the module (R3, R5): bytes, halfwords, 32-bit registers and 64-bit values, all little-endian
where they lie in memory. -/

namespace Sys2Proof

abbrev Byte := BitVec 8
abbrev Half := BitVec 16
abbrev Word := BitVec 32
abbrev DWord := BitVec 64

end Sys2Proof
end

