-- ==== Sys2Proof/Syntax.lean ====
section
/-! DEFINITION. The commands of the module: one constructor of `Instr` per row of spec/opcode_table.json, with the
operands the sender gives. A command states that its instant has come (log entry 6): a cycle instant, an expiry, a frame
or a signal that arrives, an HMP request, an instruction that issues on a core. Measured quantities, the contents of
received frames and the outcome of cryptographic and die self-checks are operands (log entry 7). -/

namespace Sys2Proof

/-- The status codes of R477. -/
inductive Status where
  | ok | busy | badParam | notPermitted | illegalInMode | loopClosed | tooLong | refused | delayed | locked
  | logFull | authFail | notHolder | timeout | checkFail | pending
  deriving DecidableEq, Repr

/-- The code of a status (R477). -/
def Status.code : Status → Nat
  | .ok => 0x00 | .busy => 0x01 | .badParam => 0x02 | .notPermitted => 0x03 | .illegalInMode => 0x04
  | .loopClosed => 0x05 | .tooLong => 0x06 | .refused => 0x07 | .delayed => 0x08 | .locked => 0x09
  | .logFull => 0x0A | .authFail => 0x0B | .notHolder => 0x0C | .timeout => 0x0D | .checkFail => 0x0E
  | .pending => 0xFF

/-- The HMP roles in ascending order (R479). -/
inductive HmpRole where
  | viewer | operator | engineer | safetyEngineer
  deriving DecidableEq, Repr

def HmpRole.code : HmpRole → Nat
  | .viewer => 0 | .operator => 1 | .engineer => 2 | .safetyEngineer => 3

/-- The port on which an HMP datagram arrives (R478): ETH-M or the station pair. -/
inductive HmpPort where
  | ethM | station
  deriving DecidableEq, Repr

/-- The parts of an HMP request that R480 to R483 decide on. `tagOk` is the outcome of the HMAC check (log entry 7),
`src` the source address. -/
structure Req where
  session : Word
  seq : Word
  tagOk : Bool
  port : HmpPort
  src : Word
  deriving DecidableEq, Repr

/-- Who makes a register write or a read of the management plane (R457, R458): an HMP session in a role, an event core,
or the supervisory firmware. -/
inductive Origin where
  | hmp (role : HmpRole) (session : Word)
  | eventCore (c : Fin 4)
  | supervisory
  deriving DecidableEq, Repr

/-- The six modes (R448). -/
inductive Mode where
  | boot | commission | charge | ready | run | lockout
  deriving DecidableEq, Repr

def Mode.code : Mode → Nat
  | .boot => 0 | .commission => 1 | .charge => 2 | .ready => 3 | .run => 4 | .lockout => 5

/-- The role of the unit (R354). -/
inductive Role where
  | solo | active | standby
  deriving DecidableEq, Repr

def Role.code : Role → Nat
  | .solo => 0 | .active => 1 | .standby => 2

/-- The kinds of flash image (R485). -/
inductive ImageKind where
  | firmware | program | commission
  deriving DecidableEq, Repr

def ImageKind.code : ImageKind → Nat
  | .firmware => 0 | .program => 1 | .commission => 2

/-- Who asks for a mode change (R451, R453): the HMP command MODE_REQ, or a write of SYS_MODE_REQ. -/
inductive Caller where
  | req (r : Req)
  | reg (o : Origin)
  deriving DecidableEq, Repr

/-- Who reads a wide value: a core (0 to 3 cycle cores, 4 to 7 event cores; R224) or an HMP session (R484). -/
inductive Reader where
  | core (c : Fin 8)
  | session (n : Word)
  deriving DecidableEq, Repr

/-- What the boot sequence finds (R459, R467, R487): secure boot, memory self-test, bit 2k + slot of `badImages` for a
flash image of kind k that fails its check at the load, and the words of the five identity structures as the fuses and
the build record hold them. -/
structure BootResult where
  secureOk : Bool
  memOk : Bool
  badImages : BitVec 6
  ids : List (List Word)
  deriving DecidableEq, Repr

/-- The PTP messages of the profile (R335). -/
inductive PtpKind where
  | sync | followUp | announce | pdelayReq | pdelayResp | pdelayRespFollowUp
  deriving DecidableEq, Repr

/-- A received PTP message: its kind, domain and sequence number, and the portState that the state decision of IEEE 1588
gives the port with it (log entry 7). -/
structure PtpMsg where
  kind : PtpKind
  domain : Nat
  seq : Nat
  portState : Nat
  deriving DecidableEq, Repr

/-- What a frame received on the station pair carries for IEC 62439-3 (R344): source, and sequence number and LAN
(true for B) of its trailer, if it has one; and whether it carries an HSR tag. -/
structure PrpInfo where
  src : Nat
  trailer : Option (Nat × Bool)
  hsr : Bool
  deriving DecidableEq, Repr

/-- A dataset element of a received GOOSE frame (R345): a value by type, a quality with validity good or not, or other. -/
inductive GooseData where
  | bool (b : Bool) | int (i : Int) | float (w : Word) | quality (good : Bool) | other
  deriving DecidableEq, Repr

/-- A received GOOSE frame (R345, R346); `tal` in ms. -/
structure GooseFrame where
  mac : BitVec 48
  appid : Half
  idCrc : Word
  confRev : Word
  st : Word
  sq : Word
  tal : Nat
  test : Bool
  ndsCom : Bool
  elems : List GooseData
  prp : PrpInfo
  deriving DecidableEq, Repr

/-- An ASDU of a sampled-values frame (R349): each element with whether its quality is invalid, questionable or test. -/
structure SvAsdu where
  smpCnt : Nat
  synch : Bool
  elems : List (Int × Bool)
  deriving DecidableEq, Repr

/-- A received sampled-values frame (R349). -/
structure SvFrame where
  mac : BitVec 48
  appid : Half
  idCrc : Word
  confRev : Word
  smpRate : Nat
  asdus : List SvAsdu
  deriving DecidableEq, Repr

/-- Where a chronograph command comes from (R325): a write of CHR_CTRL or CHR_SEG_REL, or the first operation that
waits in the chronograph's queue. -/
inductive ChrSrc where
  | reg (o : Origin) (val : Word)
  | op
  deriving DecidableEq, Repr

/-- The die-to-die links of the control die that have a link check (R11). -/
inductive DieLink where
  | frontEnd | safety
  deriving DecidableEq, Repr

/-- Functions of a safety input pair (R421). -/
inductive PairFunc where
  | none | emergency | dead | earthed
  deriving DecidableEq, Repr

/-- Types of a safety input pair (R420). -/
inductive PairType where
  | equivalent | antivalent
  deriving DecidableEq, Repr

/-- Parameters of one safety input pair (R431); times in µs. -/
structure PairPar where
  func : PairFunc
  type : PairType
  filterUs : Nat
  discUs : Nat
  deriving DecidableEq, Repr

/-- Window comparator parameters that the safety parameter block holds for a channel with BLK_EN (R268, R431); the
thresholds are signed codes. -/
structure WinPar where
  blkEn : Bool
  en : Bool
  qual : Nat
  hyst : Nat
  hi : Word
  lo : Word
  deriving DecidableEq, Repr

/-- The fields of the safety parameter block (R431). -/
structure SafetyBlock where
  pairs : List PairPar
  permit : List Bool
  testIntS : Nat
  permitDelayS : Nat
  sf3En : Bool
  win : List WinPar
  id : Nat
  deriving DecidableEq, Repr

/-- The key groups of KEY_ENROL (R483): a role key, or slot 0 to 3 of an image or safety key kind. -/
inductive KeyKind where
  | role (r : HmpRole) | program | commission | safety
  deriving DecidableEq, Repr

/-- The part of a cell's identity that the commissioning map compares (R77, R466): FAB_LOT as two words, and the word
of WAFER, DIE_X and DIE_Y. -/
structure CellIdent where
  lotLo : Word
  lotHi : Word
  die : Word
  deriving DecidableEq, Repr

/-- One chain of the commissioning map (R63). -/
structure ChainMap where
  number : Fin 128
  eastPort : Fin 128
  westPort : Fin 128
  length : Nat
  fibreM : Nat
  deriving DecidableEq, Repr

abbrev ChainMap.num (c : ChainMap) : Nat := c.number.val
abbrev ChainMap.portE (c : ChainMap) : Nat := c.eastPort.val
abbrev ChainMap.portW (c : ChainMap) : Nat := c.westPort.val
abbrev ChainMap.n (c : ChainMap) : Nat := c.length

/-- One bound position of the commissioning map (R64, R77): cell slot and expected identity. -/
structure CellMap where
  chainNumber : Fin 128
  position : Fin 64
  cellSlot : Fin 4096
  ident : CellIdent
  deriving DecidableEq, Repr

abbrev CellMap.chain (m : CellMap) : Nat := m.chainNumber.val
abbrev CellMap.posE (m : CellMap) : Nat := m.position.val
abbrev CellMap.slot (m : CellMap) : Nat := m.cellSlot.val

/-- A dataset element of a published GOOSE block (R348): a constant, or a word of the user output table. -/
inductive GooseElem where
  | const (v : Word) | user (word : Nat)
  deriving DecidableEq, Repr

/-- The commissioning image (R485, R513): register values marked cfg, the map, the cell parameters of R461 and the
GOOSE templates of R348. -/
structure CommImage where
  pair : Bool
  unitB : Bool
  regs : List (Nat × Word)
  chains : List ChainMap
  cells : List CellMap
  /-- COAST, MIN_PULSE, VWARN_HI, VWARN_LO and TWARN (R461), as parameter words of WRITE_PARAM. -/
  params : List Word
  goose : List (List GooseElem)
  hash : Word
  deriving DecidableEq, Repr

/-- One core's part of a program image (R254). -/
structure CoreImage where
  /-- None where the image marks the entry vector absent (R243). -/
  entry : Option Nat
  code : List Byte
  data : List Byte
  engTmo : Word
  engDbase : Word
  deriving DecidableEq, Repr

/-- Whose key verifies the signature of an image: nobody's, Haldacon's fused key, or the key with these 64 bytes (log
entry 7). -/
inductive ImageSig where
  | none | haldacon | key (pk : List Byte)
  deriving DecidableEq, Repr

/-- The timing certificate of a program image (R253): the SHA-256 of the sections it is for, P and t_ref, W_ref
and W_tot, all four in ticks, the latest CEND issue of each core in ns, and the checker version. -/
structure Certificate where
  imgHash : BitVec 256
  period : Nat
  refpt : Nat
  wref : Nat
  wtot : Nat
  coreWc : List Nat
  tool : Word
  deriving DecidableEq, Repr

/-- The program image (R254); `upb` gives the declared length in words of each user parameter block, 0 if undeclared. -/
structure ProgramImage where
  cores : List CoreImage
  barmask : Word
  upb : List Nat
  cert : Certificate
  /-- The hash of the whole image (log entry 7). -/
  hash : Word
  deriving DecidableEq, Repr

/-- What the bytes of a transferred image decode to. -/
inductive ImageContent where
  | firmware (rev : Nat) | program (p : ProgramImage) | commission (c : CommImage)
  deriving DecidableEq, Repr

/-- Handover operations of a heartbeat (R360). -/
inductive HoOp where
  | none | offer | accept | abort
  deriving DecidableEq, Repr

/-- A heartbeat of the pair (R360); `crcOk` is the outcome of its CRC check. -/
structure Heartbeat where
  seq : Nat
  ack : Nat
  role : Role
  unitB : Bool
  ready : Bool
  mode : Mode
  lease : Bool
  hoOp : HoOp
  epoch : Word
  cycle : Word
  hoCycle : Word
  health : Word
  stSeq : Nat
  stRes : Nat
  crcOk : Bool
  deriving DecidableEq, Repr

/-- A loop engine's record on the mirror (R370): the cycle of its last UPDATE, its mode (R194), an input HELD, and its vectors. -/
structure EngineRec where
  cycle : Word
  mode : Nat
  held : Bool
  x : List Word
  z : List Word
  r : List Word
  targets : List Word
  u : List Word
  deriving DecidableEq, Repr

/-- A wheel's header and entries on the mirror (R370, R371). `blocked`: the wheel commits BLOCK for every cell. -/
structure WheelRec where
  cycle : Word
  carry : Word
  desc : Bool
  vern : Option Nat
  run : Nat
  nAvail : Nat
  blocked : Bool
  deltas : List Word
  refresh : List Word
  deriving DecidableEq, Repr

/-- A relayed command, or a stranded report: chain, position from the standby's end, word (R370). -/
structure RelayWord where
  chain : Nat
  pos : Nat
  word : DWord
  deriving DecidableEq, Repr

/-- A part of a cycle record as it arrives (R370); `crcOk` is the outcome of its check. -/
inductive MirrorPart where
  | engine (crcOk : Bool) (cycle epoch : Word) (engs : List EngineRec)
  | rest (crcOk : Bool) (cycle epoch : Word) (cut : Bool) (wheels : List WheelRec) (pbIds : List Word)
      (relay : List RelayWord)
  | standby (crcOk : Bool) (cycle epoch : Word) (map : BitVec 128) (reports : List RelayWord)
  deriving DecidableEq, Repr

/-- A character that arrives within a frame (R89): data, a special character other than EOF, or a code or disparity
violation. -/
inductive LinkChar where
  | data (b : Byte) | special | violation
  deriving DecidableEq, Repr

/-- What a swept chain end tells of one position: Φ, turnaround (0.1 ns) and the identity read, if any. -/
structure PosInfo where
  phi : Nat
  turn : Nat
  ident : Option (List Byte)
  deriving DecidableEq, Repr

/-- Messages of the management channel other than heartbeats (R70, R73, R86, R361, R380, R383): the twin starts or ends a
sweep of its end; the segment at its port, which is the last one seen from this unit's end; the hashes of its images; the
reach of its relay; how many cells its end reaches; the discovery results of this unit's end, for the join; the holder
starts a heal, has measured its segment and named the cycle, or abandons it. -/
inductive MgmtMsg where
  | sweepStart (port : Fin 128)
  | sweepEnd (port : Fin 128) (cells : List PosInfo)
  | lastSegment (port : Fin 128) (delay : Nat)
  | images (prog comm safety : Word)
  | reach (port : Fin 128) (reach tRly : Nat)
  | reached (port : Fin 128) (n : Nat)
  | discovery (port : Fin 128) (cells : List PosInfo) (lap : Nat)
  | healStart (port : Fin 128)
  | healMeasured (port : Fin 128) (delay : Nat) (cycle : Word)
  | healEnd (port : Fin 128)
  | selftest (number : Fin 65536)
  deriving DecidableEq, Repr

/-- The commands: one constructor per row of spec/opcode_table.json, named after its mnemonic. -/
inductive Instr where
  /-- POWER_ON, R459. -/
  | powerOn (key : Bool)
  /-- SUPPLY_LOSS, R494. -/
  | supplyLoss
  /-- SUPPLY_INPUT_FAULT, R494. -/
  | supplyInputFault (input : Fin 2)
  /-- BOOT_COMPLETE, R459. -/
  | bootComplete (b : BootResult)
  /-- SYS_RESET_HARD, R462. -/
  | sysResetHard (r : Req)
  /-- SYS_RESET_SOFT, R462. -/
  | sysResetSoft (r : Req)
  /-- ESCAPEMENT_START, R32. -/
  | escapementStart
  /-- CYCLE_RELEASE, R38. -/
  | cycleRelease (withheld : BitVec 128)
  /-- ESCAPEMENT_STOP, R32. -/
  | escapementStop
  /-- MEASUREMENT_TABLE_PUBLICATION, R41. -/
  | measurementTablePublication
  /-- REFERENCE_POINT, R51. -/
  | referencePoint
  /-- STALE_REF_RUN, R53. -/
  | staleRefRun (w : Fin 12)
  /-- SPECULATIVE_ROUND_START, R159. -/
  | speculativeRoundStart (r : Fin 3)
  /-- SPECULATIVE_PLAN_READY, R164. -/
  | speculativePlanReady (w : Fin 12)
  /-- CONFIRMATION_START, R160. -/
  | confirmationStart (w : Fin 12)
  /-- CONFIRMATION_END, R168. -/
  | confirmationEnd (w : Fin 12)
  /-- COMMIT_PLAN_READY, R169. -/
  | commitPlanReady (w : Fin 12)
  /-- REPAIR_DONE, R171. -/
  | repairDone (w : Fin 12)
  /-- FALLBACK_PLAN_READY, R173. -/
  | fallbackPlanReady (w : Fin 12)
  /-- CUTOFF, R55. -/
  | cutoff
  /-- CUT_RUN, R58. -/
  | cutRun
  /-- POOL_THRESHOLD, R139. -/
  | poolThreshold (w : Fin 12)
  /-- WHL_FALLBACK_RUN, R176. -/
  | whlFallbackRun (w : Fin 12)
  /-- BYPASS_CONFIRM_TIMEOUT, R141. -/
  | bypassConfirmTimeout (slot : Fin 4096)
  /-- CELL_TABLE_PUBLICATION, R161. -/
  | cellTablePublication
  /-- READINESS_REACHED, R452. -/
  | readinessReached
  /-- READINESS_LOST, R452. -/
  | readinessLost
  /-- ESC_TIMING_REGISTER_WRITE, R49. -/
  | escTimingRegisterWrite (o : Origin) (addr : Word) (val : Word)
  /-- ESC_CHECK_GO, R46. -/
  | escCheckGo (o : Origin)
  /-- BUDGET_CHECK_DONE, R48. -/
  | budgetCheckDone
  /-- TIMING_PARAMS_TAKE_EFFECT, R49. -/
  | timingParamsTakeEffect
  /-- DISC_GO, R70. -/
  | discGo (o : Origin)
  /-- DISCOVERY_REPEAT, R70. -/
  | discoveryRepeat (port : Fin 128)
  /-- SWEEP_RESTART, R85. -/
  | sweepRestart (port : Fin 128)
  /-- PROBE_LAUNCH, R71. -/
  | probeLaunch (port : Fin 128)
  /-- PROBE_RETURN, R73. -/
  | probeReturn (port : Fin 128) (frame : List LinkChar) (rtt : Nat)
  /-- PROBE_TIMEOUT, R71. -/
  | probeTimeout (port : Fin 128)
  /-- CHAIN_FRAME_RECEIVE, R81: the frame from SOF to its end, its lap, and the code violations between it and the frame
  before. -/
  | chainFrameReceive (port : Fin 128) (frame : List LinkChar) (lap codes : Nat)
  /-- PORT_LOSS_OF_SIGNAL, R509. -/
  | portLossOfSignal (port : Fin 128)
  /-- CHAIN_FREQ_TIMEOUT, R62. -/
  | chainFreqTimeout (port : Fin 128)
  /-- HEAL_HOLD_EXPIRY, R86. -/
  | healHoldExpiry (port : Fin 128)
  /-- CHAIN_HEAL, R86. -/
  | chainHeal (r : Req) (port : Nat)
  /-- HEAL_COMPLETE, R86. -/
  | healComplete (port : Fin 128)
  /-- ECHO_LAUNCH, R121. -/
  | echoLaunch (port : Fin 128)
  /-- ECHO_RECEIVE, R121. -/
  | echoReceive (port : Fin 128) (frame : List LinkChar) (t : Nat)
  /-- SVC_RESPONSE_RECEIVE, R129. -/
  | svcResponseReceive (port : Fin 128) (seg : List Byte)
  /-- SVC_TIMEOUT, R129. -/
  | svcTimeout (port : Fin 128) (pos : Fin 64)
  /-- CELL_ACCEPT, R79. -/
  | cellAccept (r : Req) (chain pos : Nat)
  /-- WHL_WITHDRAW, R136. -/
  | whlWithdraw (o : Origin) (w : Fin 12) (slot : Fin 4096)
  /-- WHL_RETURN, R137. -/
  | whlReturn (o : Origin) (w : Fin 12) (slot : Fin 4096)
  /-- WHL_BYPASS, R140. -/
  | whlBypass (o : Origin) (w : Fin 12) (slot : Fin 4096)
  /-- WHL_TRC_ENABLE, R182. -/
  | whlTrcEnable (o : Origin) (val : Word)
  /-- LOOP_UPDATE, R184. -/
  | loopUpdate (e : Fin 8) (ns : Nat)
  /-- LOOP_SET_MODE, R194. -/
  | loopSetMode (e : Fin 8)
  /-- LOOP_WRITE_COEF, R197. -/
  | loopWriteCoef (e : Fin 8)
  /-- LOOP_SET_TARGET, R191. -/
  | loopSetTarget (e : Fin 8)
  /-- LOOP_PRESET, R201. -/
  | loopPreset (e : Fin 8)
  /-- LOOP_INPUT_LOST, R188. -/
  | loopInputLost (e : Fin 8)
  /-- LOOP_MODE_CMD, R199. -/
  | loopModeCmd (o : Origin) (e : Fin 8) (val : Word)
  /-- LOOP_PB_COMMIT, R199. -/
  | loopPbCommit (o : Origin) (e : Fin 8) (val : Word)
  /-- ADD, R216. -/
  | add (c : Fin 8) (d a b : Fin 32)
  /-- SUB, R216. -/
  | sub (c : Fin 8) (d a b : Fin 32)
  /-- AND, R216. -/
  | and (c : Fin 8) (d a b : Fin 32)
  /-- OR, R216. -/
  | or (c : Fin 8) (d a b : Fin 32)
  /-- XOR, R216. -/
  | xor (c : Fin 8) (d a b : Fin 32)
  /-- SLL, R216. -/
  | sll (c : Fin 8) (d a b : Fin 32)
  /-- SRL, R216. -/
  | srl (c : Fin 8) (d a b : Fin 32)
  /-- SRA, R216. -/
  | sra (c : Fin 8) (d a b : Fin 32)
  /-- SLT, R216. -/
  | slt (c : Fin 8) (d a b : Fin 32)
  /-- SLTU, R216. -/
  | sltu (c : Fin 8) (d a b : Fin 32)
  /-- MIN, R216. -/
  | min (c : Fin 8) (d a b : Fin 32)
  /-- MAX, R216. -/
  | max (c : Fin 8) (d a b : Fin 32)
  /-- MINU, R216. -/
  | minu (c : Fin 8) (d a b : Fin 32)
  /-- MAXU, R216. -/
  | maxu (c : Fin 8) (d a b : Fin 32)
  /-- ADDS, R216. -/
  | adds (c : Fin 8) (d a b : Fin 32)
  /-- SUBS, R216. -/
  | subs (c : Fin 8) (d a b : Fin 32)
  /-- MUL, R216. -/
  | mul (c : Fin 8) (d a b : Fin 32)
  /-- MULH, R216. -/
  | mulh (c : Fin 8) (d a b : Fin 32)
  /-- MULHU, R216. -/
  | mulhu (c : Fin 8) (d a b : Fin 32)
  /-- DIV, R220. -/
  | div (c : Fin 8) (d a b : Fin 32)
  /-- DIVU, R220. -/
  | divu (c : Fin 8) (d a b : Fin 32)
  /-- REM, R220. -/
  | rem (c : Fin 8) (d a b : Fin 32)
  /-- REMU, R220. -/
  | remu (c : Fin 8) (d a b : Fin 32)
  /-- CLZ, R216. -/
  | clz (c : Fin 8) (d a b : Fin 32)
  /-- POPC, R216. -/
  | popc (c : Fin 8) (d a b : Fin 32)
  /-- SEXTB, R216. -/
  | sextb (c : Fin 8) (d a b : Fin 32)
  /-- SEXTH, R216. -/
  | sexth (c : Fin 8) (d a b : Fin 32)
  /-- ADDI, R215. -/
  | addi (c : Fin 8) (d a : Fin 32) (imm : Half)
  /-- MULI, R215. -/
  | muli (c : Fin 8) (d a : Fin 32) (imm : Half)
  /-- ANDI, R215. -/
  | andi (c : Fin 8) (d a : Fin 32) (imm : Half)
  /-- ORI, R215. -/
  | ori (c : Fin 8) (d a : Fin 32) (imm : Half)
  /-- XORI, R215. -/
  | xori (c : Fin 8) (d a : Fin 32) (imm : Half)
  /-- SLTI, R215. -/
  | slti (c : Fin 8) (d a : Fin 32) (imm : Half)
  /-- SLTIU, R215. -/
  | sltiu (c : Fin 8) (d a : Fin 32) (imm : Half)
  /-- LUI, R215. -/
  | lui (c : Fin 8) (d a : Fin 32) (imm : Half)
  /-- SHI, R215. -/
  | shi (c : Fin 8) (d a : Fin 32) (imm : Half)
  /-- FADD, R221. -/
  | fadd (c : Fin 8) (d a b : Fin 32)
  /-- FSUB, R221. -/
  | fsub (c : Fin 8) (d a b : Fin 32)
  /-- FMUL, R221. -/
  | fmul (c : Fin 8) (d a b : Fin 32)
  /-- FDIV, R221. -/
  | fdiv (c : Fin 8) (d a b : Fin 32)
  /-- FSQRT, R221. -/
  | fsqrt (c : Fin 8) (d a b : Fin 32)
  /-- FMIN, R221. -/
  | fmin (c : Fin 8) (d a b : Fin 32)
  /-- FMAX, R221. -/
  | fmax (c : Fin 8) (d a b : Fin 32)
  /-- FABS, R221. -/
  | fabs (c : Fin 8) (d a b : Fin 32)
  /-- FNEG, R221. -/
  | fneg (c : Fin 8) (d a b : Fin 32)
  /-- FCVTSW, R221. -/
  | fcvtsw (c : Fin 8) (d a b : Fin 32)
  /-- FCVTWS, R221. -/
  | fcvtws (c : Fin 8) (d a b : Fin 32)
  /-- FCVTWSZ, R221. -/
  | fcvtwsz (c : Fin 8) (d a b : Fin 32)
  /-- FEQ, R221. -/
  | feq (c : Fin 8) (d a b : Fin 32)
  /-- FLT, R221. -/
  | flt (c : Fin 8) (d a b : Fin 32)
  /-- FLE, R221. -/
  | fle (c : Fin 8) (d a b : Fin 32)
  /-- FMAC, R221. -/
  | fmac (c : Fin 8) (d a b : Fin 32)
  /-- FMSC, R221. -/
  | fmsc (c : Fin 8) (d a b : Fin 32)
  /-- LDW, R222. -/
  | ldw (c : Fin 8) (d a : Fin 32) (imm : Half)
  /-- LDH, R222. -/
  | ldh (c : Fin 8) (d a : Fin 32) (imm : Half)
  /-- LDHU, R222. -/
  | ldhu (c : Fin 8) (d a : Fin 32) (imm : Half)
  /-- LDBU, R222. -/
  | ldbu (c : Fin 8) (d a : Fin 32) (imm : Half)
  /-- STW, R222. -/
  | stw (c : Fin 8) (d a : Fin 32) (imm : Half)
  /-- STH, R222. -/
  | sth (c : Fin 8) (d a : Fin 32) (imm : Half)
  /-- STB, R222. -/
  | stb (c : Fin 8) (d a : Fin 32) (imm : Half)
  /-- LDWX, R222. -/
  | ldwx (c : Fin 8) (d a b : Fin 32)
  /-- STWX, R222. -/
  | stwx (c : Fin 8) (d a b : Fin 32)
  /-- BEQ, R218. -/
  | beq (c : Fin 8) (a b : Fin 32) (off : Half)
  /-- BNE, R218. -/
  | bne (c : Fin 8) (a b : Fin 32) (off : Half)
  /-- BLT, R218. -/
  | blt (c : Fin 8) (a b : Fin 32) (off : Half)
  /-- BGE, R218. -/
  | bge (c : Fin 8) (a b : Fin 32) (off : Half)
  /-- J, R218. -/
  | j (c : Fin 8) (off : BitVec 26)
  /-- JAL, R218. -/
  | jal (c : Fin 8) (off : BitVec 26)
  /-- JR, R218. -/
  | jr (c : Fin 8) (d a b : Fin 32)
  /-- JALR, R218. -/
  | jalr (c : Fin 8) (d a b : Fin 32)
  /-- BDNZ, R218. -/
  | bdnz (c : Fin 8) (a b : Fin 32) (off : Half)
  /-- VADD, R226. -/
  | vadd (c : Fin 8) (d a b : Fin 32) (pp : Fin 8)
  /-- VSUB, R226. -/
  | vsub (c : Fin 8) (d a b : Fin 32) (pp : Fin 8)
  /-- VAND, R226. -/
  | vand (c : Fin 8) (d a b : Fin 32) (pp : Fin 8)
  /-- VOR, R226. -/
  | vor (c : Fin 8) (d a b : Fin 32) (pp : Fin 8)
  /-- VXOR, R226. -/
  | vxor (c : Fin 8) (d a b : Fin 32) (pp : Fin 8)
  /-- VSLL, R226. -/
  | vsll (c : Fin 8) (d a b : Fin 32) (pp : Fin 8)
  /-- VSRL, R226. -/
  | vsrl (c : Fin 8) (d a b : Fin 32) (pp : Fin 8)
  /-- VSRA, R226. -/
  | vsra (c : Fin 8) (d a b : Fin 32) (pp : Fin 8)
  /-- VMIN, R226. -/
  | vmin (c : Fin 8) (d a b : Fin 32) (pp : Fin 8)
  /-- VMAX, R226. -/
  | vmax (c : Fin 8) (d a b : Fin 32) (pp : Fin 8)
  /-- VMUL, R226. -/
  | vmul (c : Fin 8) (d a b : Fin 32) (pp : Fin 8)
  /-- VFADD, R226. -/
  | vfadd (c : Fin 8) (d a b : Fin 32) (pp : Fin 8)
  /-- VFSUB, R226. -/
  | vfsub (c : Fin 8) (d a b : Fin 32) (pp : Fin 8)
  /-- VFMUL, R226. -/
  | vfmul (c : Fin 8) (d a b : Fin 32) (pp : Fin 8)
  /-- VFMIN, R226. -/
  | vfmin (c : Fin 8) (d a b : Fin 32) (pp : Fin 8)
  /-- VFMAX, R226. -/
  | vfmax (c : Fin 8) (d a b : Fin 32) (pp : Fin 8)
  /-- VFABS, R226. -/
  | vfabs (c : Fin 8) (d a b : Fin 32) (pp : Fin 8)
  /-- VFNEG, R226. -/
  | vfneg (c : Fin 8) (d a b : Fin 32) (pp : Fin 8)
  /-- VFCVTSW, R226. -/
  | vfcvtsw (c : Fin 8) (d a b : Fin 32) (pp : Fin 8)
  /-- VFCVTWS, R226. -/
  | vfcvtws (c : Fin 8) (d a b : Fin 32) (pp : Fin 8)
  /-- VFCVTWSZ, R226. -/
  | vfcvtwsz (c : Fin 8) (d a b : Fin 32) (pp : Fin 8)
  /-- VFMAC, R226. -/
  | vfmac (c : Fin 8) (d a b : Fin 32) (pp : Fin 8)
  /-- VFMSC, R226. -/
  | vfmsc (c : Fin 8) (d a b : Fin 32) (pp : Fin 8)
  /-- VFADD_S, R226. -/
  | vfaddS (c : Fin 8) (d a b : Fin 32) (pp : Fin 8)
  /-- VFMUL_S, R226. -/
  | vfmulS (c : Fin 8) (d a b : Fin 32) (pp : Fin 8)
  /-- VFMAC_S, R226. -/
  | vfmacS (c : Fin 8) (d a b : Fin 32) (pp : Fin 8)
  /-- VFMSC_S, R226. -/
  | vfmscS (c : Fin 8) (d a b : Fin 32) (pp : Fin 8)
  /-- VADD_S, R226. -/
  | vaddS (c : Fin 8) (d a b : Fin 32) (pp : Fin 8)
  /-- VCEQ, R226. -/
  | vceq (c : Fin 8) (d a b : Fin 32) (pp : Fin 8)
  /-- VCNE, R226. -/
  | vcne (c : Fin 8) (d a b : Fin 32) (pp : Fin 8)
  /-- VCLT, R226. -/
  | vclt (c : Fin 8) (d a b : Fin 32) (pp : Fin 8)
  /-- VCLE, R226. -/
  | vcle (c : Fin 8) (d a b : Fin 32) (pp : Fin 8)
  /-- VFCEQ, R226. -/
  | vfceq (c : Fin 8) (d a b : Fin 32) (pp : Fin 8)
  /-- VFCLT, R226. -/
  | vfclt (c : Fin 8) (d a b : Fin 32) (pp : Fin 8)
  /-- VFCLE, R226. -/
  | vfcle (c : Fin 8) (d a b : Fin 32) (pp : Fin 8)
  /-- VREDADD, R227. -/
  | vredadd (c : Fin 8) (d a b : Fin 32) (pp : Fin 8)
  /-- VFREDADD, R227. -/
  | vfredadd (c : Fin 8) (d a b : Fin 32) (pp : Fin 8)
  /-- VFREDMAX, R227. -/
  | vfredmax (c : Fin 8) (d a b : Fin 32) (pp : Fin 8)
  /-- VFREDMIN, R227. -/
  | vfredmin (c : Fin 8) (d a b : Fin 32) (pp : Fin 8)
  /-- VMOV, R226. -/
  | vmov (c : Fin 8) (d a b : Fin 32) (pp : Fin 8)
  /-- VSPLAT, R226. -/
  | vsplat (c : Fin 8) (d a b : Fin 32) (pp : Fin 8)
  /-- VEXT, R226. -/
  | vext (c : Fin 8) (d a b : Fin 32) (pp : Fin 8)
  /-- VINS, R226. -/
  | vins (c : Fin 8) (d a b : Fin 32) (pp : Fin 8)
  /-- VLD, R222. -/
  | vld (c : Fin 8) (d a : Fin 32) (imm : Half)
  /-- VST, R222. -/
  | vst (c : Fin 8) (d a : Fin 32) (imm : Half)
  /-- VLDS, R226. -/
  | vlds (c : Fin 8) (d a b : Fin 32)
  /-- VSTS, R226. -/
  | vsts (c : Fin 8) (d a b : Fin 32)
  /-- MFS, R213. -/
  | mfs (c : Fin 8) (d a : Fin 32) (imm : Half)
  /-- MTS, R213. -/
  | mts (c : Fin 8) (d a : Fin 32) (imm : Half)
  /-- PAND, R216. -/
  | pand (c : Fin 8) (d a b : Fin 32)
  /-- POR, R216. -/
  | por (c : Fin 8) (d a b : Fin 32)
  /-- PXOR, R216. -/
  | pxor (c : Fin 8) (d a b : Fin 32)
  /-- PNOT, R216. -/
  | pnot (c : Fin 8) (d a b : Fin 32)
  /-- PFROM, R216. -/
  | pfrom (c : Fin 8) (d a b : Fin 32)
  /-- PTO, R216. -/
  | pto (c : Fin 8) (d a b : Fin 32)
  /-- PCNT, R216. -/
  | pcnt (c : Fin 8) (d a b : Fin 32)
  /-- BAR, R228. -/
  | bar (c : Fin 8) (d a b : Fin 32)
  /-- CEND, R229. -/
  | cend (c : Fin 8) (d a b : Fin 32)
  /-- TRAP, R237. -/
  | trap (c : Fin 8) (d a b : Fin 32)
  /-- FENCE, R231. -/
  | fence (c : Fin 8) (d a b : Fin 32)
  /-- TWAIT, R230. -/
  | twait (c : Fin 8) (d a b : Fin 32)
  /-- TWAIT_RELEASE, R230. -/
  | twaitRelease (c : Fin 8)
  /-- ENG_GO, R232. -/
  | engGo (c : Fin 8) (cls : Fin 16) (idx : Fin 32) (off : Half)
  /-- ENG_WAIT, R233. -/
  | engWait (c : Fin 8) (cls : Fin 16) (idx : Fin 32) (off : Half)
  /-- ENG_WAIT_TIMEOUT, R233. -/
  | engWaitTimeout (c : Fin 8)
  /-- EVT_TAKE, R239. -/
  | evtTake (c : Fin 8) (d a b : Fin 32)
  /-- EVT_DONE, R400. -/
  | evtDone (c : Fin 8) (d a b : Fin 32)
  /-- EVT_POST, R394. -/
  | evtPost (c : Fin 8) (d a b : Fin 32)
  /-- TRC, R401. -/
  | trc (c : Fin 8) (d a b : Fin 32)
  /-- DCFLUSH, R240. -/
  | dcflush (c : Fin 8) (d a b : Fin 32)
  /-- DCINV, R240. -/
  | dcinv (c : Fin 8) (d a b : Fin 32)
  /-- DCSYNC, R240. -/
  | dcsync (c : Fin 8) (d a b : Fin 32)
  /-- DMA_COPY, R235. -/
  | dmaCopy (c : Fin 8)
  /-- DMA_COPY_DONE, R235. -/
  | dmaCopyDone (c : Fin 8)
  /-- TIME_CAPTURE, R236. -/
  | timeCapture (c : Fin 8)
  /-- TIME_ALARM, R236. -/
  | timeAlarm (c : Fin 8)
  /-- TIME_ALARM_EXPIRY, R236. -/
  | timeAlarmExpiry (c : Fin 8)
  /-- MAILBOX_SVC_REQ, R398. -/
  | mailboxSvcReq
  /-- MAILBOX_MB_REPLY, R398. -/
  | mailboxMbReply
  /-- SYS_UPB_COMMIT, R488. -/
  | sysUpbCommit (o : Origin) (val : Word)
  /-- FAD_OVERRANGE, R257. -/
  | fadOverrange (ch : Fin 24)
  /-- FAD_COMMON_MODE, R257. -/
  | fadCommonMode (ch : Fin 24)
  /-- FGCAL_GO, R262. -/
  | fgcalGo (o : Origin) (val : Word)
  /-- FGCAL_END, R263. -/
  | fgcalEnd (offs gain : List Word)
  /-- BG_CAL_CONVERGED, R261. -/
  | bgCalConverged (pair : Fin 12)
  /-- WINDOW_COMPARATOR_TRIP, R267. -/
  | windowComparatorTrip (ch : Fin 24)
  /-- WINDOW_COMPARATOR_RELEASE, R266. -/
  | windowComparatorRelease (ch : Fin 24)
  /-- HKA_SCAN_GO, R273. -/
  | hkaScanGo (o : Origin)
  /-- HKA_TIMED_SCAN_START, R273. -/
  | hkaTimedScanStart
  /-- HKA_CONVERSION, R276. -/
  | hkaConversion (code : Half)
  /-- HKA_SCAN_END, R274. -/
  | hkaScanEnd
  /-- HKA_INJ_REQ, R279. -/
  | hkaInjReq (o : Origin) (val : Word)
  /-- HKA_INJ_CONVERSION, R280. -/
  | hkaInjConversion (code : Half)
  /-- HKA_INJ_RES_READ, R279. -/
  | hkaInjResRead (slot : Fin 4)
  /-- HKA_CAL_GO, R281. -/
  | hkaCalGo (o : Origin)
  /-- HKA_CAL_END, R281. -/
  | hkaCalEnd
  /-- SYNC_IN_EDGE, R300. -/
  | syncInEdge (falling : Bool)
  /-- FLT_SYNC_GO, R300. -/
  | fltSyncGo (o : Origin)
  /-- SYNC_RESET_APPLY, R301. -/
  | syncResetApply
  /-- FLT_CONFIG_WRITE, R304. -/
  | fltConfigWrite (o : Origin) (addr : Word) (val : Word)
  /-- CHR_ARM, R311. -/
  | chrArm (src : ChrSrc)
  /-- CHR_DISARM, R321. -/
  | chrDisarm (src : ChrSrc)
  /-- CHR_TRIGGER, R325. -/
  | chrTrigger (src : ChrSrc)
  /-- CHR_MARK, R320. -/
  | chrMark
  /-- CHR_RELEASE, R323. -/
  | chrRelease (src : ChrSrc)
  /-- CHR_CONFIG_WRITE, R312. -/
  | chrConfigWrite (o : Origin) (addr : Word) (val : Word)
  /-- TRIG_IN_EDGE, R313. -/
  | trigInEdge (falling : Bool)
  /-- CHR_BLOCK_WRITE, R305. -/
  | chrBlockWrite (room : Bool)
  /-- CHR_RECORD_CLOSE, R321. -/
  | chrRecordClose
  /-- CHR_HOLDOFF_END, R319. -/
  | chrHoldoffEnd
  /-- CHR_REARM, R319. -/
  | chrRearm
  /-- CHR_SEQ_WINDOW_EXPIRY, R316. -/
  | chrSeqWindowExpiry
  /-- CHR_STREAM_DATAGRAM, R323. -/
  | chrStreamDatagram
  /-- TIM_ADJ_COMMIT, R328. -/
  | timAdjCommit (o : Origin) (val : Word)
  /-- TIM_EPOCH_START, R328. -/
  | timEpochStart
  /-- REF10_LOSS, R331. -/
  | ref10Loss
  /-- REF10_RESTORE, R331. -/
  | ref10Restore
  /-- PPS_OUT_PULSE, R332. -/
  | ppsOutPulse
  /-- PPS_IN_EDGE, R333. -/
  | ppsInEdge (falling : Bool)
  /-- SERVO_MEASUREMENT, R334. -/
  | servoMeasurement (offset rate : Int)
  /-- SERVO_HOLDOVER, R334: no valid measurement has come for `silence` ns. -/
  | servoHoldover (silence : Nat)
  /-- SERVO_HOLD_MAX_EXPIRY, R334. -/
  | servoHoldMaxExpiry
  /-- PTP_MESSAGE_RECEIVE, R335. -/
  | ptpMessageReceive (port : Fin 5) (msg : PtpMsg) (phase : Fin 4)
  /-- PTP_MESSAGE_SEND, R340. -/
  | ptpMessageSend (port : Fin 4) (kind : PtpKind) (phase : Fin 4)
  /-- PRP_SUPERVISION_SEND, R344. -/
  | prpSupervisionSend
  /-- TWIN_TIME_COMPARE, R353. -/
  | twinTimeCompare (diff : Int)
  /-- ETH_TXTS_READ, R338. -/
  | ethTxtsRead (rd : Reader) (port : Fin 4)
  /-- LQ_POST, R341. -/
  | lqPost (o : Origin) (port : Fin 5) (q : Fin 4) (addr : Word)
  /-- TIMED_LAUNCH, R343. -/
  | timedLaunch (port : Fin 4) (phase : Fin 4)
  /-- GOOSE_RECEIVE, R345. -/
  | gooseReceive (port : Fin 5) (f : GooseFrame)
  /-- GOOSE_TAL_EXPIRY, R346. -/
  | gooseTalExpiry (e : Fin 64)
  /-- GOOSE_REPEAT, R348. -/
  | gooseRepeat (g : Fin 16)
  /-- SV_FRAME_RECEIVE, R349. -/
  | svFrameReceive (port : Fin 5) (f : SvFrame)
  /-- SV_STREAM_LOST, R351. -/
  | svStreamLost (st : Fin 24)
  /-- ARP_REQUEST_RECEIVE, R352. -/
  | arpRequestReceive (port : Fin 5) (ip : Word)
  /-- ICMP_ECHO_RECEIVE, R352. -/
  | icmpEchoReceive (port : Fin 5) (ip : Word) (src : Word) (data : List Byte)
  /-- ETH_LINK_DOWN, R403. -/
  | ethLinkDown (port : Fin 5)
  /-- HEARTBEAT_SEND, R360. -/
  | heartbeatSend (j : Fin 4)
  /-- HEARTBEAT_RECEIVE, R360. -/
  | heartbeatReceive (hb : Heartbeat)
  /-- SILENCE_TIMEOUT, R364. -/
  | silenceTimeout
  /-- LEASE_EXPIRY, R363. -/
  | leaseExpiry
  /-- MIRROR_LANE_LOSS, R358. -/
  | mirrorLaneLoss (l : Fin 2)
  /-- MIRROR_RECORD_RECEIVE, R370. -/
  | mirrorRecordReceive (part : MirrorPart) (lat : Nat)
  /-- RELAY_FRAME_LAUNCH, R380. -/
  | relayFrameLaunch (ch : Fin 128)
  /-- BTN_SELFTEST_START, R373. -/
  | btnSelftestStart
  /-- BTN_SELFTEST_DONE, R373. -/
  | btnSelftestDone (pass : Bool)
  /-- BTN_SELFTEST_RESULT_TIMEOUT, R373. -/
  | btnSelftestResultTimeout
  /-- BTN_CMD_HANDOVER, R375. -/
  | btnCmdHandover (o : Origin)
  /-- BTN_CMD_READY_ACK, R374. -/
  | btnCmdReadyAck (o : Origin)
  /-- BTN_CMD_SELFTEST, R373. -/
  | btnCmdSelftest (o : Origin)
  /-- HANDOVER_ACCEPT_DEADLINE, R376. -/
  | handoverAcceptDeadline
  /-- MODE_DIFF_TIMEOUT, R374. -/
  | modeDiffTimeout
  /-- PB_DIFF_TIMEOUT, R374. -/
  | pbDiffTimeout
  /-- JOIN_TIMEOUT, R456. -/
  | joinTimeout
  /-- JOIN_COMPLETE, R383. -/
  | joinComplete
  /-- EVENT_DISPATCH, R389. -/
  | eventDispatch (c : Fin 4)
  /-- HELD_EVENT_ENTRY, R394. -/
  | heldEventEntry
  /-- SCH_TIMER_EXPIRY, R387. -/
  | schTimerExpiry (t : Fin 16)
  /-- SCH_TRACE_MARK, R401. -/
  | schTraceMark
  /-- SCH_TRC_ENABLE, R402. -/
  | schTrcEnable (o : Origin) (val : Word)
  /-- EVENT_WATCHDOG_EXPIRY, R403. -/
  | eventWatchdogExpiry (c : Fin 4) (next : Bool)
  /-- FCO_STATUS_CLEAR, R406. -/
  | fcoStatusClear (o : Origin) (n : Fin 2) (val : Word)
  /-- FCO_CAPTURE_RELEASE, R409. -/
  | fcoCaptureRelease (o : Origin)
  /-- FCO_CLASS_WRITE, R404. -/
  | fcoClassWrite (o : Origin) (n : Fin 4) (val : Word)
  /-- FCO_INJECT_GO, R410. -/
  | fcoInjectGo (o : Origin) (val : Word)
  /-- FCO_INJECT_CANCEL, R410. -/
  | fcoInjectCancel (o : Origin)
  /-- SW_FAULT_RAISE, R403. -/
  | swFaultRaise (o : Origin)
  /-- SW_FAULT_CLEAR, R403. -/
  | swFaultClear (o : Origin)
  /-- FCO_FOUT_WRITE, R412. -/
  | fcoFoutWrite (o : Origin) (val : Word)
  /-- FAULT_OUT_TMIN_EXPIRY, R412. -/
  | faultOutTminExpiry
  /-- PLL_LOSS_OF_LOCK, R403. -/
  | pllLossOfLock
  /-- SUPERVISORY_WATCHDOG_EXPIRY, R403. -/
  | supervisoryWatchdogExpiry
  /-- DIE_LINK_LOSS, R11. -/
  | dieLinkLoss (l : DieLink)
  /-- OPTICS_ALARM, R501. -/
  | opticsAlarm (inst : Nat)
  /-- SAFETY_FIRMWARE_STEP, R426. -/
  | safetyFirmwareStep (chA chB : BitVec 8) (svOk selfOk : Bool)
  /-- SAFETY_BLOCK_DECISION, R416. -/
  | safetyBlockDecision
  /-- BLOCK_COMMA_REPEAT, R416. -/
  | blockCommaRepeat
  /-- SF3_WATCHDOG_EXPIRY, R418. -/
  | sf3WatchdogExpiry
  /-- TEST_PULSE, R419. -/
  | testPulse (tp : Fin 2) (missed followedOther : BitVec 8)
  /-- SAFETY_DISCREPANCY_TIMEOUT, R420. -/
  | safetyDiscrepancyTimeout (pair : Fin 8)
  /-- OUTPUT_SWITCH_TEST, R423. -/
  | outputSwitchTest (q : Fin 4) (high : Bool)
  /-- OUTPUT_SWITCH_TEST_END, R423. -/
  | outputSwitchTestEnd (q : Fin 4) (high : Bool) (pass : Bool)
  /-- OUTPUT_READBACK_MISMATCH, R424. -/
  | outputReadbackMismatch (q : Fin 4)
  /-- OUTPUT_OVERCURRENT, R424. -/
  | outputOvercurrent (q : Fin 4)
  /-- PERMIT_DELAY_EXPIRY, R422. -/
  | permitDelayExpiry (q : Fin 4)
  /-- SAFETY_LINK_SILENCE, R426. -/
  | safetyLinkSilence
  /-- SV_SUPPLY_OUT_OF_RANGE, R426. -/
  | svSupplyOutOfRange
  /-- SAFETY_SELFTEST_END, R427. -/
  | safetySelftestEnd (pass : Bool)
  /-- LOCKOUT_RELEASE, R428. -/
  | lockoutRelease (r : Req)
  /-- RELEASE_WINDOW_EXPIRY, R430. -/
  | releaseWindowExpiry
  /-- LOCKOUT_RESET_FALLING_EDGE, R428. -/
  | lockoutResetFallingEdge (heldMs : Nat)
  /-- LOCKOUT_RESET_LONG_PRESS, R430. -/
  | lockoutResetLongPress
  /-- KEY_STUCK_CLEAR, R430. -/
  | keyStuckClear
  /-- SAFE_PB_LOAD, R431. -/
  | safePbLoad (r : Req) (passwordOk : Bool) (sig : ImageSig) (block : SafetyBlock) (image : List Byte)
  /-- SAFE_LOG_ACK, R433. -/
  | safeLogAck (r : Req) (seq crc : Word)
  /-- FIELD_FRAME_TO_LOGIC, R441. -/
  | fieldFrameToLogic (body : List Byte) (crc : Half) (fv : Half) (term oc extv : Half)
  /-- FIELD_FRAME_TO_FIELD, R441. -/
  | fieldFrameToField (body : List Byte) (crc : Half)
  /-- FIELD_LINK_SILENCE_FIELD, R442. -/
  | fieldLinkSilenceField
  /-- FIELD_LINK_SILENCE_LOGIC, R443. -/
  | fieldLinkSilenceLogic
  /-- FIELD_INPUT_CHANGE, R435. -/
  | fieldInputChange (n : Fin 32) (on : Bool)
  /-- FIELD_WIRE_BREAK, R436. -/
  | fieldWireBreak (n : Fin 32)
  /-- FIELD_WIRE_BREAK_CLEAR, R436. -/
  | fieldWireBreakClear (n : Fin 32)
  /-- FIELD_OUTPUT_OVERCURRENT, R437. -/
  | fieldOutputOvercurrent (n : Fin 16)
  /-- FIELD_OUTPUT_EXT_VOLTAGE, R439. -/
  | fieldOutputExtVoltage (n : Fin 16)
  /-- FIELD_SUPPLY_WARN, R444. -/
  | fieldSupplyWarn
  /-- FIELD_SUPPLY_WARN_CLEAR, R444. -/
  | fieldSupplyWarnClear
  /-- FIELD_SUPPLY_OFF, R444. -/
  | fieldSupplyOff
  /-- FIELD_SUPPLY_OK, R444. -/
  | fieldSupplyOk
  /-- SUP_REARM, R444. -/
  | supRearm (o : Origin)
  /-- LINK_REARM, R443. -/
  | linkRearm (o : Origin)
  /-- FIO_DQ_WRITE, R440. -/
  | fioDqWrite (o : Origin) (val : Word)
  /-- MODE_REQ_COMMISSION, R451. -/
  | modeReqCommission (c : Caller)
  /-- MODE_REQ_CHARGE, R451. -/
  | modeReqCharge (c : Caller)
  /-- MODE_REQ_READY, R453. -/
  | modeReqReady (c : Caller)
  /-- MODE_REQ_RUN, R451. -/
  | modeReqRun (c : Caller)
  /-- STAT_BOUNDARY, R464. -/
  | statBoundary
  /-- STAT_PERIOD_WRITE, R465. -/
  | statPeriodWrite (o : Origin) (val : Word)
  /-- STAT_BANK_VAL_READ, R489. -/
  | statBankValRead (m : Fin 4)
  /-- RS_LOW_HALF_READ, R8. -/
  | rsLowHalfRead (rd : Reader) (addr : Word)
  /-- REGISTER_WRITE, R13. -/
  | registerWrite (o : Origin) (addr : Word) (val : Word)
  /-- HMP_OPEN, R480. -/
  | hmpOpen (r : Req) (role : HmpRole) (num : Word)
  /-- HMP_CLOSE, R482. -/
  | hmpClose (r : Req)
  /-- HMP_SESSION_IDLE_TIMEOUT, R482. -/
  | hmpSessionIdleTimeout (num : Word)
  /-- HMP_ADDRESS_BLOCK_EXPIRY, R482. -/
  | hmpAddressBlockExpiry (src : Word)
  /-- REG_READ, R484. -/
  | regRead (r : Req) (bank : Bool) (addr : Word) (count : Nat)
  /-- REG_WRITE, R484. -/
  | regWrite (r : Req) (addr : Word) (vals : List Word)
  /-- MEM_READ, R484. -/
  | memRead (r : Req) (addr : BitVec 40) (len : Nat)
  /-- MEM_WRITE, R471. -/
  | memWrite (r : Req) (addr : Word) (bytes : List Byte)
  /-- RECORD_READ, R483. -/
  | recordRead (r : Req) (kind index offset len : Nat)
  /-- IMAGE_BEGIN, R486. -/
  | imageBegin (r : Req) (kind : Nat) (len : Nat)
  /-- IMAGE_DATA, R486. -/
  | imageData (r : Req) (offset : Nat) (bytes : List Byte)
  /-- IMAGE_END, R485. -/
  | imageEnd (r : Req) (sig : ImageSig) (hashOk limitsOk : Bool) (content : ImageContent)
  /-- IMAGE_ACTIVATE_FIRMWARE, R485. -/
  | imageActivateFirmware (r : Req)
  /-- IMAGE_ACTIVATE_PROGRAM, R255. -/
  | imageActivateProgram (r : Req)
  /-- IMAGE_ACTIVATE_COMMISSION, R485. -/
  | imageActivateCommission (r : Req)
  /-- KEY_ENROL, R483. -/
  | keyEnrol (r : Req) (kind : KeyKind) (slot : Nat) (key : List Byte)
  /-- MB_WRITE, R400. -/
  | mbWrite (r : Req) (mb : Nat) (bytes : List Byte)
  /-- RAW_SAMPLE, R258. -/
  | rawSample (codes : List Int) (commonMode : BitVec 24)
  /-- PORT_SIGNAL_RETURN, R86. -/
  | portSignalReturn (port : Fin 128)
  /-- CHAIN_FREQ_RETURN, R62. -/
  | chainFreqReturn (port : Fin 128)
  /-- MIRROR_LANE_RESTORE, R358. -/
  | mirrorLaneRestore (l : Fin 2)
  /-- ETH_LINK_UP, R403. -/
  | ethLinkUp (port : Fin 5)
  /-- DIE_LINK_RESTORE, R11. -/
  | dieLinkRestore (l : DieLink)
  /-- MB_WRITE_TIMEOUT, R484. -/
  | mbWriteTimeout (mb : Fin 8)
  /-- ARP_REPLY_RECEIVE, R352. -/
  | arpReplyReceive (port : Fin 5) (ip : Word)
  /-- MANAGEMENT_CHANNEL_RECEIVE, R70. -/
  | managementChannelReceive (msg : MgmtMsg)
  deriving DecidableEq, Repr

end Sys2Proof
end

