-- ==== Sys2Proof/Decode.lean ====
section
/-! DEFINITION. What a table word spells, and the instruction words of the Feano cycle instruction set (R214): their
decoder and encoder. -/

namespace Sys2Proof

/-- The command that a table word spells: the table gives no row any bits, so no word spells one. -/
def decodeTableWord (_nbits _w : Nat) : Option Instr := none

/-! ### Formats of instruction words (R214) -/

/-- T format: major, d, a, b, function. -/
def Fci.wordT (m : Nat) (d a b : Fin 32) (f : Nat) : Word :=
  BitVec.ofNat 32 (m * 2 ^ 26 + d.val * 2 ^ 21 + a.val * 2 ^ 16 + b.val * 2 ^ 11 + f)

/-- I, M and B formats: major, two fields, and 16 bits. -/
def Fci.wordI (m : Nat) (d a : Fin 32) (imm : Half) : Word :=
  BitVec.ofNat 32 (m * 2 ^ 26 + d.val * 2 ^ 21 + a.val * 2 ^ 16 + imm.toNat)

/-- J format: major and a word offset. -/
def Fci.wordJ (m : Nat) (off : BitVec 26) : Word := BitVec.ofNat 32 (m * 2 ^ 26 + off.toNat)

/-- V format: as T with the predicate selector in [10:8] and op in [7:0]. -/
def Fci.wordV (m : Nat) (d a b : Fin 32) (pp : Fin 8) (op : Nat) : Word :=
  BitVec.ofNat 32 (m * 2 ^ 26 + d.val * 2 ^ 21 + a.val * 2 ^ 16 + b.val * 2 ^ 11 + pp.val * 2 ^ 8 + op)

/-- E format: 0x3E, class, index, descriptor offset. -/
def Fci.wordE (cls : Nat) (idx : Fin 32) (off : Half) : Word :=
  BitVec.ofNat 32 (0x3E * 2 ^ 26 + cls * 2 ^ 21 + idx.val * 2 ^ 16 + off.toNat)

def Fci.major (w : Word) : Nat := w.toNat / 2 ^ 26
def Fci.fieldD (w : Word) : Fin 32 := Fin.ofNat 32 (w.toNat / 2 ^ 21)
def Fci.fieldA (w : Word) : Fin 32 := Fin.ofNat 32 (w.toNat / 2 ^ 16)
def Fci.fieldB (w : Word) : Fin 32 := Fin.ofNat 32 (w.toNat / 2 ^ 11)
def Fci.func (w : Word) : Nat := w.toNat % 2 ^ 11
def Fci.imm (w : Word) : Half := BitVec.ofNat 16 w.toNat
def Fci.off26 (w : Word) : BitVec 26 := BitVec.ofNat 26 w.toNat
def Fci.fieldP (w : Word) : Fin 8 := Fin.ofNat 8 (w.toNat / 2 ^ 8)
def Fci.op (w : Word) : Nat := w.toNat % 2 ^ 8

/-! ### The opcode map -/

/-- T format, by major and function. -/
def Fci.ofT : Nat → Nat → Option (Fin 8 → Fin 32 → Fin 32 → Fin 32 → Instr)
  | 0x00, 0x000 => some .add
  | 0x00, 0x001 => some .sub
  | 0x00, 0x002 => some .and
  | 0x00, 0x003 => some .or
  | 0x00, 0x004 => some .xor
  | 0x00, 0x005 => some .sll
  | 0x00, 0x006 => some .srl
  | 0x00, 0x007 => some .sra
  | 0x00, 0x008 => some .slt
  | 0x00, 0x009 => some .sltu
  | 0x00, 0x00A => some .min
  | 0x00, 0x00B => some .max
  | 0x00, 0x00C => some .minu
  | 0x00, 0x00D => some .maxu
  | 0x00, 0x00E => some .adds
  | 0x00, 0x00F => some .subs
  | 0x00, 0x010 => some .mul
  | 0x00, 0x011 => some .mulh
  | 0x00, 0x012 => some .mulhu
  | 0x00, 0x014 => some .div
  | 0x00, 0x015 => some .divu
  | 0x00, 0x016 => some .rem
  | 0x00, 0x017 => some .remu
  | 0x00, 0x020 => some .clz
  | 0x00, 0x021 => some .popc
  | 0x00, 0x022 => some .sextb
  | 0x00, 0x023 => some .sexth
  | 0x10, 0x000 => some .fadd
  | 0x10, 0x001 => some .fsub
  | 0x10, 0x002 => some .fmul
  | 0x10, 0x003 => some .fdiv
  | 0x10, 0x004 => some .fsqrt
  | 0x10, 0x005 => some .fmin
  | 0x10, 0x006 => some .fmax
  | 0x10, 0x007 => some .fabs
  | 0x10, 0x008 => some .fneg
  | 0x10, 0x010 => some .fcvtsw
  | 0x10, 0x011 => some .fcvtws
  | 0x10, 0x012 => some .fcvtwsz
  | 0x10, 0x018 => some .feq
  | 0x10, 0x019 => some .flt
  | 0x10, 0x01A => some .fle
  | 0x11, 0x000 => some .fmac
  | 0x11, 0x001 => some .fmsc
  | 0x1F, 0x000 => some .ldwx
  | 0x1F, 0x001 => some .stwx
  | 0x26, 0x000 => some .jr
  | 0x26, 0x001 => some .jalr
  | 0x32, 0x000 => some .vlds
  | 0x33, 0x000 => some .vsts
  | 0x3A, 0x000 => some .pand
  | 0x3A, 0x001 => some .por
  | 0x3A, 0x002 => some .pxor
  | 0x3A, 0x003 => some .pnot
  | 0x3A, 0x004 => some .pfrom
  | 0x3A, 0x005 => some .pto
  | 0x3A, 0x006 => some .pcnt
  | 0x3B, 0x000 => some .bar
  | 0x3B, 0x001 => some .cend
  | 0x3B, 0x002 => some .trap
  | 0x3B, 0x003 => some .fence
  | 0x3C, 0x000 => some .twait
  | 0x3F, 0x000 => some .evtTake
  | 0x3F, 0x001 => some .evtDone
  | 0x3F, 0x002 => some .evtPost
  | 0x3F, 0x003 => some .trc
  | 0x3F, 0x004 => some .dcflush
  | 0x3F, 0x005 => some .dcinv
  | 0x3F, 0x006 => some .dcsync
  | _, _ => none

/-- I and M formats, by major. -/
def Fci.ofI : Nat → Option (Fin 8 → Fin 32 → Fin 32 → Half → Instr)
  | 0x01 => some .addi
  | 0x02 => some .andi
  | 0x03 => some .ori
  | 0x04 => some .xori
  | 0x05 => some .slti
  | 0x06 => some .sltiu
  | 0x07 => some .lui
  | 0x08 => some .shi
  | 0x09 => some .muli
  | 0x18 => some .ldw
  | 0x19 => some .ldh
  | 0x1A => some .ldhu
  | 0x1B => some .ldbu
  | 0x1C => some .stw
  | 0x1D => some .sth
  | 0x1E => some .stb
  | 0x30 => some .vld
  | 0x31 => some .vst
  | 0x38 => some .mfs
  | 0x39 => some .mts
  | _ => none

/-- B format, by major. -/
def Fci.ofB : Nat → Option (Fin 8 → Fin 32 → Fin 32 → Half → Instr)
  | 0x20 => some .beq
  | 0x21 => some .bne
  | 0x22 => some .blt
  | 0x23 => some .bge
  | 0x27 => some .bdnz
  | _ => none

/-- J format, by major. -/
def Fci.ofJ : Nat → Option (Fin 8 → BitVec 26 → Instr)
  | 0x24 => some .j
  | 0x25 => some .jal
  | _ => none

/-- V format, by major and op. -/
def Fci.ofV : Nat → Nat → Option (Fin 8 → Fin 32 → Fin 32 → Fin 32 → Fin 8 → Instr)
  | 0x28, 0x000 => some .vadd
  | 0x28, 0x001 => some .vsub
  | 0x28, 0x002 => some .vand
  | 0x28, 0x003 => some .vor
  | 0x28, 0x004 => some .vxor
  | 0x28, 0x005 => some .vsll
  | 0x28, 0x006 => some .vsrl
  | 0x28, 0x007 => some .vsra
  | 0x28, 0x008 => some .vmin
  | 0x28, 0x009 => some .vmax
  | 0x28, 0x00A => some .vmul
  | 0x29, 0x000 => some .vfadd
  | 0x29, 0x001 => some .vfsub
  | 0x29, 0x002 => some .vfmul
  | 0x29, 0x003 => some .vfmin
  | 0x29, 0x004 => some .vfmax
  | 0x29, 0x005 => some .vfabs
  | 0x29, 0x006 => some .vfneg
  | 0x29, 0x007 => some .vfcvtsw
  | 0x29, 0x008 => some .vfcvtws
  | 0x29, 0x009 => some .vfcvtwsz
  | 0x2A, 0x000 => some .vfmac
  | 0x2A, 0x001 => some .vfmsc
  | 0x2B, 0x000 => some .vfaddS
  | 0x2B, 0x001 => some .vfmulS
  | 0x2B, 0x002 => some .vfmacS
  | 0x2B, 0x003 => some .vfmscS
  | 0x2B, 0x004 => some .vaddS
  | 0x2C, 0x000 => some .vceq
  | 0x2C, 0x001 => some .vcne
  | 0x2C, 0x002 => some .vclt
  | 0x2C, 0x003 => some .vcle
  | 0x2C, 0x008 => some .vfceq
  | 0x2C, 0x009 => some .vfclt
  | 0x2C, 0x00A => some .vfcle
  | 0x2D, 0x000 => some .vredadd
  | 0x2D, 0x001 => some .vfredadd
  | 0x2D, 0x002 => some .vfredmax
  | 0x2D, 0x003 => some .vfredmin
  | 0x2E, 0x000 => some .vmov
  | 0x2E, 0x001 => some .vsplat
  | 0x2E, 0x002 => some .vext
  | 0x2E, 0x003 => some .vins
  | _, _ => none

/-- The instruction of core `c` that a word encodes (R214); a reserved major or function code encodes none and is
ILLEGAL. -/
def Fci.decode (c : Fin 8) (w : Word) : Option Instr :=
  let m := Fci.major w
  if m = 0x3E then
    let cls := (Fci.fieldD w).val
    if cls < 16 then some (.engGo c (Fin.ofNat 16 cls) (Fci.fieldA w) (Fci.imm w))
    else some (.engWait c (Fin.ofNat 16 (cls - 16)) (Fci.fieldA w) (Fci.imm w))
  else match Fci.ofT m (Fci.func w) with
  | some k => some (k c (Fci.fieldD w) (Fci.fieldA w) (Fci.fieldB w))
  | none => match Fci.ofV m (Fci.op w) with
  | some k => some (k c (Fci.fieldD w) (Fci.fieldA w) (Fci.fieldB w) (Fci.fieldP w))
  | none => match Fci.ofI m with
  | some k => some (k c (Fci.fieldD w) (Fci.fieldA w) (Fci.imm w))
  | none => match Fci.ofB m with
  | some k => some (k c (Fci.fieldD w) (Fci.fieldA w) (Fci.imm w))
  | none => match Fci.ofJ m with
  | some k => some (k c (Fci.off26 w))
  | none => none

/-- The core and the word of an instruction; none for a command that is no instruction. -/
def Fci.encode : Instr → Option (Fin 8 × Word)
  | .add c d a b => some (c, Fci.wordT 0x00 d a b 0x000)
  | .sub c d a b => some (c, Fci.wordT 0x00 d a b 0x001)
  | .and c d a b => some (c, Fci.wordT 0x00 d a b 0x002)
  | .or c d a b => some (c, Fci.wordT 0x00 d a b 0x003)
  | .xor c d a b => some (c, Fci.wordT 0x00 d a b 0x004)
  | .sll c d a b => some (c, Fci.wordT 0x00 d a b 0x005)
  | .srl c d a b => some (c, Fci.wordT 0x00 d a b 0x006)
  | .sra c d a b => some (c, Fci.wordT 0x00 d a b 0x007)
  | .slt c d a b => some (c, Fci.wordT 0x00 d a b 0x008)
  | .sltu c d a b => some (c, Fci.wordT 0x00 d a b 0x009)
  | .min c d a b => some (c, Fci.wordT 0x00 d a b 0x00A)
  | .max c d a b => some (c, Fci.wordT 0x00 d a b 0x00B)
  | .minu c d a b => some (c, Fci.wordT 0x00 d a b 0x00C)
  | .maxu c d a b => some (c, Fci.wordT 0x00 d a b 0x00D)
  | .adds c d a b => some (c, Fci.wordT 0x00 d a b 0x00E)
  | .subs c d a b => some (c, Fci.wordT 0x00 d a b 0x00F)
  | .mul c d a b => some (c, Fci.wordT 0x00 d a b 0x010)
  | .mulh c d a b => some (c, Fci.wordT 0x00 d a b 0x011)
  | .mulhu c d a b => some (c, Fci.wordT 0x00 d a b 0x012)
  | .div c d a b => some (c, Fci.wordT 0x00 d a b 0x014)
  | .divu c d a b => some (c, Fci.wordT 0x00 d a b 0x015)
  | .rem c d a b => some (c, Fci.wordT 0x00 d a b 0x016)
  | .remu c d a b => some (c, Fci.wordT 0x00 d a b 0x017)
  | .clz c d a b => some (c, Fci.wordT 0x00 d a b 0x020)
  | .popc c d a b => some (c, Fci.wordT 0x00 d a b 0x021)
  | .sextb c d a b => some (c, Fci.wordT 0x00 d a b 0x022)
  | .sexth c d a b => some (c, Fci.wordT 0x00 d a b 0x023)
  | .fadd c d a b => some (c, Fci.wordT 0x10 d a b 0x000)
  | .fsub c d a b => some (c, Fci.wordT 0x10 d a b 0x001)
  | .fmul c d a b => some (c, Fci.wordT 0x10 d a b 0x002)
  | .fdiv c d a b => some (c, Fci.wordT 0x10 d a b 0x003)
  | .fsqrt c d a b => some (c, Fci.wordT 0x10 d a b 0x004)
  | .fmin c d a b => some (c, Fci.wordT 0x10 d a b 0x005)
  | .fmax c d a b => some (c, Fci.wordT 0x10 d a b 0x006)
  | .fabs c d a b => some (c, Fci.wordT 0x10 d a b 0x007)
  | .fneg c d a b => some (c, Fci.wordT 0x10 d a b 0x008)
  | .fcvtsw c d a b => some (c, Fci.wordT 0x10 d a b 0x010)
  | .fcvtws c d a b => some (c, Fci.wordT 0x10 d a b 0x011)
  | .fcvtwsz c d a b => some (c, Fci.wordT 0x10 d a b 0x012)
  | .feq c d a b => some (c, Fci.wordT 0x10 d a b 0x018)
  | .flt c d a b => some (c, Fci.wordT 0x10 d a b 0x019)
  | .fle c d a b => some (c, Fci.wordT 0x10 d a b 0x01A)
  | .fmac c d a b => some (c, Fci.wordT 0x11 d a b 0x000)
  | .fmsc c d a b => some (c, Fci.wordT 0x11 d a b 0x001)
  | .ldwx c d a b => some (c, Fci.wordT 0x1F d a b 0x000)
  | .stwx c d a b => some (c, Fci.wordT 0x1F d a b 0x001)
  | .jr c d a b => some (c, Fci.wordT 0x26 d a b 0x000)
  | .jalr c d a b => some (c, Fci.wordT 0x26 d a b 0x001)
  | .vlds c d a b => some (c, Fci.wordT 0x32 d a b 0x000)
  | .vsts c d a b => some (c, Fci.wordT 0x33 d a b 0x000)
  | .pand c d a b => some (c, Fci.wordT 0x3A d a b 0x000)
  | .por c d a b => some (c, Fci.wordT 0x3A d a b 0x001)
  | .pxor c d a b => some (c, Fci.wordT 0x3A d a b 0x002)
  | .pnot c d a b => some (c, Fci.wordT 0x3A d a b 0x003)
  | .pfrom c d a b => some (c, Fci.wordT 0x3A d a b 0x004)
  | .pto c d a b => some (c, Fci.wordT 0x3A d a b 0x005)
  | .pcnt c d a b => some (c, Fci.wordT 0x3A d a b 0x006)
  | .bar c d a b => some (c, Fci.wordT 0x3B d a b 0x000)
  | .cend c d a b => some (c, Fci.wordT 0x3B d a b 0x001)
  | .trap c d a b => some (c, Fci.wordT 0x3B d a b 0x002)
  | .fence c d a b => some (c, Fci.wordT 0x3B d a b 0x003)
  | .twait c d a b => some (c, Fci.wordT 0x3C d a b 0x000)
  | .evtTake c d a b => some (c, Fci.wordT 0x3F d a b 0x000)
  | .evtDone c d a b => some (c, Fci.wordT 0x3F d a b 0x001)
  | .evtPost c d a b => some (c, Fci.wordT 0x3F d a b 0x002)
  | .trc c d a b => some (c, Fci.wordT 0x3F d a b 0x003)
  | .dcflush c d a b => some (c, Fci.wordT 0x3F d a b 0x004)
  | .dcinv c d a b => some (c, Fci.wordT 0x3F d a b 0x005)
  | .dcsync c d a b => some (c, Fci.wordT 0x3F d a b 0x006)
  | .addi c d a imm => some (c, Fci.wordI 0x01 d a imm)
  | .andi c d a imm => some (c, Fci.wordI 0x02 d a imm)
  | .ori c d a imm => some (c, Fci.wordI 0x03 d a imm)
  | .xori c d a imm => some (c, Fci.wordI 0x04 d a imm)
  | .slti c d a imm => some (c, Fci.wordI 0x05 d a imm)
  | .sltiu c d a imm => some (c, Fci.wordI 0x06 d a imm)
  | .lui c d a imm => some (c, Fci.wordI 0x07 d a imm)
  | .shi c d a imm => some (c, Fci.wordI 0x08 d a imm)
  | .muli c d a imm => some (c, Fci.wordI 0x09 d a imm)
  | .ldw c d a imm => some (c, Fci.wordI 0x18 d a imm)
  | .ldh c d a imm => some (c, Fci.wordI 0x19 d a imm)
  | .ldhu c d a imm => some (c, Fci.wordI 0x1A d a imm)
  | .ldbu c d a imm => some (c, Fci.wordI 0x1B d a imm)
  | .stw c d a imm => some (c, Fci.wordI 0x1C d a imm)
  | .sth c d a imm => some (c, Fci.wordI 0x1D d a imm)
  | .stb c d a imm => some (c, Fci.wordI 0x1E d a imm)
  | .vld c d a imm => some (c, Fci.wordI 0x30 d a imm)
  | .vst c d a imm => some (c, Fci.wordI 0x31 d a imm)
  | .mfs c d a imm => some (c, Fci.wordI 0x38 d a imm)
  | .mts c d a imm => some (c, Fci.wordI 0x39 d a imm)
  | .beq c a b off => some (c, Fci.wordI 0x20 a b off)
  | .bne c a b off => some (c, Fci.wordI 0x21 a b off)
  | .blt c a b off => some (c, Fci.wordI 0x22 a b off)
  | .bge c a b off => some (c, Fci.wordI 0x23 a b off)
  | .bdnz c a b off => some (c, Fci.wordI 0x27 a b off)
  | .j c off => some (c, Fci.wordJ 0x24 off)
  | .jal c off => some (c, Fci.wordJ 0x25 off)
  | .vadd c d a b pp => some (c, Fci.wordV 0x28 d a b pp 0x00)
  | .vsub c d a b pp => some (c, Fci.wordV 0x28 d a b pp 0x01)
  | .vand c d a b pp => some (c, Fci.wordV 0x28 d a b pp 0x02)
  | .vor c d a b pp => some (c, Fci.wordV 0x28 d a b pp 0x03)
  | .vxor c d a b pp => some (c, Fci.wordV 0x28 d a b pp 0x04)
  | .vsll c d a b pp => some (c, Fci.wordV 0x28 d a b pp 0x05)
  | .vsrl c d a b pp => some (c, Fci.wordV 0x28 d a b pp 0x06)
  | .vsra c d a b pp => some (c, Fci.wordV 0x28 d a b pp 0x07)
  | .vmin c d a b pp => some (c, Fci.wordV 0x28 d a b pp 0x08)
  | .vmax c d a b pp => some (c, Fci.wordV 0x28 d a b pp 0x09)
  | .vmul c d a b pp => some (c, Fci.wordV 0x28 d a b pp 0x0A)
  | .vfadd c d a b pp => some (c, Fci.wordV 0x29 d a b pp 0x00)
  | .vfsub c d a b pp => some (c, Fci.wordV 0x29 d a b pp 0x01)
  | .vfmul c d a b pp => some (c, Fci.wordV 0x29 d a b pp 0x02)
  | .vfmin c d a b pp => some (c, Fci.wordV 0x29 d a b pp 0x03)
  | .vfmax c d a b pp => some (c, Fci.wordV 0x29 d a b pp 0x04)
  | .vfabs c d a b pp => some (c, Fci.wordV 0x29 d a b pp 0x05)
  | .vfneg c d a b pp => some (c, Fci.wordV 0x29 d a b pp 0x06)
  | .vfcvtsw c d a b pp => some (c, Fci.wordV 0x29 d a b pp 0x07)
  | .vfcvtws c d a b pp => some (c, Fci.wordV 0x29 d a b pp 0x08)
  | .vfcvtwsz c d a b pp => some (c, Fci.wordV 0x29 d a b pp 0x09)
  | .vfmac c d a b pp => some (c, Fci.wordV 0x2A d a b pp 0x00)
  | .vfmsc c d a b pp => some (c, Fci.wordV 0x2A d a b pp 0x01)
  | .vfaddS c d a b pp => some (c, Fci.wordV 0x2B d a b pp 0x00)
  | .vfmulS c d a b pp => some (c, Fci.wordV 0x2B d a b pp 0x01)
  | .vfmacS c d a b pp => some (c, Fci.wordV 0x2B d a b pp 0x02)
  | .vfmscS c d a b pp => some (c, Fci.wordV 0x2B d a b pp 0x03)
  | .vaddS c d a b pp => some (c, Fci.wordV 0x2B d a b pp 0x04)
  | .vceq c d a b pp => some (c, Fci.wordV 0x2C d a b pp 0x00)
  | .vcne c d a b pp => some (c, Fci.wordV 0x2C d a b pp 0x01)
  | .vclt c d a b pp => some (c, Fci.wordV 0x2C d a b pp 0x02)
  | .vcle c d a b pp => some (c, Fci.wordV 0x2C d a b pp 0x03)
  | .vfceq c d a b pp => some (c, Fci.wordV 0x2C d a b pp 0x08)
  | .vfclt c d a b pp => some (c, Fci.wordV 0x2C d a b pp 0x09)
  | .vfcle c d a b pp => some (c, Fci.wordV 0x2C d a b pp 0x0A)
  | .vredadd c d a b pp => some (c, Fci.wordV 0x2D d a b pp 0x00)
  | .vfredadd c d a b pp => some (c, Fci.wordV 0x2D d a b pp 0x01)
  | .vfredmax c d a b pp => some (c, Fci.wordV 0x2D d a b pp 0x02)
  | .vfredmin c d a b pp => some (c, Fci.wordV 0x2D d a b pp 0x03)
  | .vmov c d a b pp => some (c, Fci.wordV 0x2E d a b pp 0x00)
  | .vsplat c d a b pp => some (c, Fci.wordV 0x2E d a b pp 0x01)
  | .vext c d a b pp => some (c, Fci.wordV 0x2E d a b pp 0x02)
  | .vins c d a b pp => some (c, Fci.wordV 0x2E d a b pp 0x03)
  | .engGo c cls idx off => some (c, Fci.wordE cls.val idx off)
  | .engWait c cls idx off => some (c, Fci.wordE (16 + cls.val) idx off)
  | _ => none

end Sys2Proof
end

