-- ==== Sys2Proof/Config.lean ====
section
/-! DEFINITION. What the manual leaves open and the model keeps free, and the fixed figures of the module that no
register holds. An `opaque` constant has no body: nothing can be proved of its value. -/

namespace Sys2Proof

/-- A free value (log entry 8): what a quantity the manual leaves undefined reads as at its n-th use. -/
opaque Config.freeWord : Nat → Word

/-- The coefficients of the fractional resampler (R290), fixed in the module and not given by the manual. -/
opaque Config.resampler : Nat → Nat → Int

/-- Whether an inexact quotient is rounded up, where the manual does not say how it is rounded (log entry 8). -/
opaque Config.roundUp : Int → Nat → Bool

/-- The two words of a marker (R320), whose layout the manual does not give: by word, code, source and offset. -/
opaque Config.markerWord : Nat → Nat → Nat → Nat → Word

/-- Where the supervisory firmware puts the payload of user mailbox n, as an offset from the start of DRAM: the manual
does not say (R385, R400; log entry 8). -/
opaque Config.mailboxPlace : Nat → Nat

/-- The bytes of a published GOOSE frame, which its template gives (R348), by control block: at most 1,518 without FCS. -/
opaque Config.gooseBytes : Nat → Nat

/-- The DRAM channel whose ECC checker serves a word (R410): the manual does not say which addresses a channel holds. -/
opaque Config.freeChannel : Nat → BitVec 1

/-- Figures fixed by the manual, in CK_TIME ticks of 2 ns: the adoption margin of R15, the cutoff of R38. -/
def Config.adoptTicks : Nat := 100
def Config.cutTicks : Nat := 150
/-- One second in ticks. -/
def Config.secTicks : Nat := 500000000

/-- Capacities: event ready store and its reserved entries (R391), fault log (R409), command log (R458), safety change
log (R433), HMP sessions (R482). -/
def Config.readyCap : Nat := 1024
def Config.reservedCap : Nat := 128
def Config.faultLogCap : Nat := 16384
def Config.cmdLogCap : Nat := 4096
def Config.safLogCap : Nat := 512
def Config.sessionCap : Nat := 8

/-- Physical address of the first DRAM byte (R470). -/
def Config.dramBase : Nat := 0x8000000000
/-- Map address of shared control memory (R468). -/
def Config.scmBase : Nat := 0x10000000

end Sys2Proof
end

