-- ==== Sys2Proof/Machine/F32.lean ====
section
/-! DEFINITION. FP32 arithmetic (R185, R221): exact values, one rounding to nearest with ties to even, subnormal operands
and results replaced by zero of the same sign, the default NaN, and the flags of FPSR. -/

namespace Sys2Proof.Machine

/-- The default NaN (R221), and the flag bits of FPSR (R213). -/
def F32.nan : Word := 0x7FC00000
def F32.NV : Word := 16
def F32.DZ : Word := 8
def F32.OF : Word := 4
def F32.UF : Word := 2
def F32.NX : Word := 1

/-- A value of FP32: a NaN, signalling or quiet; an infinity; or a finite number (−1)^neg · m · 2^e. -/
inductive Fp where
  | nan (signalling : Bool)
  | inf (neg : Bool)
  | fin (neg : Bool) (m : Nat) (e : Int)
  deriving DecidableEq, Repr

/-- An instruction's FP32 result with the flags it sets. -/
structure FRes where
  val : Word
  flags : Word
  deriving DecidableEq, Repr

/-- The value that a word stands for; a subnormal is a zero of its sign. -/
def Fp.ofWord (w : Word) : Fp :=
  let n := w.toNat
  let neg := decide (2 ^ 31 ≤ n)
  let ex : Nat := n / 2 ^ 23 % 256
  let fr : Nat := n % 2 ^ 23
  if ex = 255 then (if fr = 0 then .inf neg else .nan (decide (fr < 2 ^ 22)))
  else if ex = 0 then .fin neg 0 0
  else .fin neg (2 ^ 23 + fr) ((ex : Int) - 150)

def signBits (neg : Bool) : Nat := if neg then 2 ^ 31 else 0

def F32.zero (neg : Bool) : Word := BitVec.ofNat 32 (signBits neg)
def F32.inf (neg : Bool) : Word := BitVec.ofNat 32 (signBits neg + 0x7F800000)

/-- n / 2^k rounded to nearest, ties to even (R185). -/
def divRne (n d : Nat) : Nat :=
  let q := n / d
  let r := n % d
  if 2 * r < d then q else if d < 2 * r then q + 1 else q + q % 2

/-- The exponent of n / d, both positive: the e with 2^e ≤ n / d < 2^(e + 1). -/
def ratExp (n d : Nat) : Int :=
  let k : Int := (n.log2 : Int) - (d.log2 : Int)
  if n * 2 ^ (-k).toNat < d * 2 ^ k.toNat then k - 1 else k

/-- The positive rational n / d, of sign `neg`, as FP32 (R185, R221). -/
def roundRat (neg : Bool) (n d : Nat) : FRes :=
  if n = 0 then ⟨F32.zero neg, 0⟩
  else
    let e := max (ratExp n d) (-126)
    let num := n * 2 ^ (23 - e).toNat
    let den := d * 2 ^ (e - 23).toNat
    let m := divRne num den
    let nx := if num % den = 0 then 0 else F32.NX
    if m < 2 ^ 23 then ⟨F32.zero neg, F32.UF ||| F32.NX⟩
    else
      let body := (e + 126).toNat * 2 ^ 23 + m
      if 0x7F800000 ≤ body then ⟨F32.inf neg, F32.OF ||| F32.NX⟩
      else ⟨BitVec.ofNat 32 (signBits neg + body), nx⟩

/-- The finite number i · 2^e as FP32; `zeroNeg` is the sign of a zero. -/
def roundInt (zeroNeg : Bool) (i : Int) (e : Int) : FRes :=
  if i = 0 then ⟨F32.zero zeroNeg, 0⟩
  else roundRat (decide (i < 0)) (i.natAbs * 2 ^ e.toNat) (2 ^ (-e).toNat)

def sgn (neg : Bool) (m : Nat) : Int := if neg then -(m : Int) else m

/-- A signalling NaN sets NV (R221). -/
def Fp.snan : Fp → Bool
  | .nan s => s
  | _ => false

def Fp.isNan : Fp → Bool
  | .nan _ => true
  | _ => false

def nvIf (b : Bool) : Word := if b then F32.NV else 0

/-- The word of a value that is not a NaN, and the default NaN for a NaN. -/
def Fp.word : Fp → Word
  | .nan _ => F32.nan
  | .inf neg => F32.inf neg
  | .fin neg m e => (roundInt neg (sgn neg m) e).val

/-- The sum of two values, rounded once. -/
def Fp.add (x y : Fp) : FRes :=
  match x, y with
  | .nan a, .nan b => ⟨F32.nan, nvIf (a || b)⟩
  | .nan a, _ => ⟨F32.nan, nvIf a⟩
  | _, .nan b => ⟨F32.nan, nvIf b⟩
  | .inf a, .inf b => if a = b then ⟨F32.inf a, 0⟩ else ⟨F32.nan, F32.NV⟩
  | .inf a, .fin _ _ _ => ⟨F32.inf a, 0⟩
  | .fin _ _ _, .inf b => ⟨F32.inf b, 0⟩
  | .fin a m e, .fin b n f =>
    let g := min e f
    let i := sgn a m * 2 ^ (e - g).toNat + sgn b n * 2 ^ (f - g).toNat
    roundInt (a && b && m == 0 && n == 0) i g

/-- The exact product of two values that are neither NaN, or none for 0 × ∞. -/
def Fp.mulExact (x y : Fp) : Option Fp :=
  match x, y with
  | .inf a, .inf b => some (.inf (a != b))
  | .inf a, .fin b m _ => if m = 0 then none else some (.inf (a != b))
  | .fin a m _, .inf b => if m = 0 then none else some (.inf (a != b))
  | .fin a m e, .fin b n f => some (.fin (a != b) (m * n) (e + f))
  | _, _ => none

def Fp.neg : Fp → Fp
  | .nan s => .nan s
  | .inf a => .inf (!a)
  | .fin a m e => .fin (!a) m e

/-- A value computed exactly, rounded once. -/
def Fp.round : Fp → FRes
  | .nan s => ⟨F32.nan, nvIf s⟩
  | .inf a => ⟨F32.inf a, 0⟩
  | .fin a m e => roundInt a (sgn a m) e

/-- c ± a × b, fused (R221). -/
def Fp.fma (negProduct : Bool) (c a b : Fp) : FRes :=
  if a.isNan || b.isNan || c.isNan then ⟨F32.nan, nvIf (a.snan || b.snan || c.snan)⟩
  else match a.mulExact b with
  | none => ⟨F32.nan, F32.NV⟩
  | some p => Fp.add c (if negProduct then p.neg else p)

def F32.add (a b : Word) : FRes := Fp.add (.ofWord a) (.ofWord b)
def F32.sub (a b : Word) : FRes := Fp.add (.ofWord a) (Fp.neg (.ofWord b))

def F32.mul (a b : Word) : FRes :=
  let x := Fp.ofWord a
  let y := Fp.ofWord b
  if x.isNan || y.isNan then ⟨F32.nan, nvIf (x.snan || y.snan)⟩
  else match x.mulExact y with
  | none => ⟨F32.nan, F32.NV⟩
  | some p => p.round

def F32.fmac (d a b : Word) : FRes := Fp.fma false (.ofWord d) (.ofWord a) (.ofWord b)
def F32.fmsc (d a b : Word) : FRes := Fp.fma true (.ofWord d) (.ofWord a) (.ofWord b)

/-- a / b (R221): dividing a finite non-zero number by zero gives a signed infinity and sets DZ. -/
def F32.div (a b : Word) : FRes :=
  match Fp.ofWord a, Fp.ofWord b with
  | .nan x, .nan y => ⟨F32.nan, nvIf (x || y)⟩
  | .nan x, _ => ⟨F32.nan, nvIf x⟩
  | _, .nan y => ⟨F32.nan, nvIf y⟩
  | .inf _, .inf _ => ⟨F32.nan, F32.NV⟩
  | .inf x, .fin y _ _ => ⟨F32.inf (x != y), 0⟩
  | .fin x _ _, .inf y => ⟨F32.zero (x != y), 0⟩
  | .fin x m e, .fin y n f =>
    if n = 0 then (if m = 0 then ⟨F32.nan, F32.NV⟩ else ⟨F32.inf (x != y), F32.DZ⟩)
    else roundRat (x != y) (m * 2 ^ (e - f).toNat) (n * 2 ^ (f - e).toNat)

/-- The square root's bits: r with r² ≤ n < (r + 1)². -/
def natSqrt (n : Nat) : Nat :=
  (List.range 33).foldl (fun r i => let t := r + 2 ^ (32 - i); if t * t ≤ n then t else r) 0

/-- √a (R221). The root of m · 2^e is taken to 32 bits with a sticky bit below them. -/
def F32.sqrt (a : Word) : FRes :=
  match Fp.ofWord a with
  | .nan x => ⟨F32.nan, nvIf x⟩
  | .inf true => ⟨F32.nan, F32.NV⟩
  | .inf false => ⟨F32.inf false, 0⟩
  | .fin neg m e =>
    if m = 0 then ⟨F32.zero neg, 0⟩
    else if neg then ⟨F32.nan, F32.NV⟩
    else
      let odd := (e % 2).toNat
      let n := m * 2 ^ (40 + odd)
      let r := natSqrt n
      let s := if r * r = n then 2 * r else 2 * r + 1
      roundInt false s ((e - odd) / 2 - 21)

/-- An order of the words that are no NaN in which −0 lies below +0. -/
def F32.order (w : Word) : Int :=
  let m : Int := (w.toNat % 2 ^ 31 : Nat)
  if 2 ^ 31 ≤ w.toNat then -m - 1 else m

/-- FMIN (R221). -/
def F32.min (a b : Word) : FRes :=
  let x := Fp.ofWord a
  let y := Fp.ofWord b
  let f := nvIf (x.snan || y.snan)
  if x.isNan then ⟨y.word, f⟩ else if y.isNan then ⟨x.word, f⟩
  else ⟨if F32.order x.word ≤ F32.order y.word then x.word else y.word, f⟩

/-- FMAX (R221). -/
def F32.max (a b : Word) : FRes :=
  let x := Fp.ofWord a
  let y := Fp.ofWord b
  let f := nvIf (x.snan || y.snan)
  if x.isNan then ⟨y.word, f⟩ else if y.isNan then ⟨x.word, f⟩
  else ⟨if F32.order y.word ≤ F32.order x.word then x.word else y.word, f⟩

/-- FABS and FNEG change the sign bit and set no flag; a NaN gives the default NaN and a subnormal a zero (R221). -/
def F32.abs (a : Word) : FRes :=
  let x := Fp.ofWord a
  ⟨if x.isNan then F32.nan else x.word &&& 0x7FFFFFFF, 0⟩
def F32.neg (a : Word) : FRes :=
  let x := Fp.ofWord a
  ⟨if x.isNan then F32.nan else x.word ^^^ 0x80000000, 0⟩

/-- FCVTSW. -/
def F32.ofInt (a : Word) : FRes := roundInt false a.toInt 0

/-- The integer nearest to i · 2^e, ties to even, or toward zero. -/
def roundToInt (trunc : Bool) (neg : Bool) (m : Nat) (e : Int) : Int × Bool :=
  let n := m * 2 ^ e.toNat
  let d := 2 ^ (-e).toNat
  (sgn neg (if trunc then n / d else divRne n d), n % d == 0)

/-- FCVTWS and FCVTWSZ (R221). -/
def F32.toInt (trunc : Bool) (a : Word) : FRes :=
  match Fp.ofWord a with
  | .nan _ => ⟨0, F32.NV⟩
  | .inf neg => ⟨if neg then 0x80000000 else 0x7FFFFFFF, F32.NV⟩
  | .fin neg m e =>
    let (i, exact) := roundToInt trunc neg m e
    if i < -(2 ^ 31) then ⟨0x80000000, F32.NV⟩
    else if 2 ^ 31 - 1 < i then ⟨0x7FFFFFFF, F32.NV⟩
    else ⟨BitVec.ofInt 32 i, if exact then 0 else F32.NX⟩

/-- The sign of a − b for values that are no NaN; none when either is. -/
def Fp.cmp (x y : Fp) : Option Ordering :=
  match x, y with
  | .nan _, _ => none
  | _, .nan _ => none
  | x, y =>
    let k := fun (v : Fp) => match v with
      | .fin _ 0 _ => (0 : Int)
      | v => if 2 ^ 31 ≤ v.word.toNat then -((v.word.toNat % 2 ^ 31 : Nat) : Int) else v.word.toNat
    some (compare (k x) (k y))

def relRes (b : Bool) (f : Word) : FRes := ⟨if b then 1 else 0, f⟩

/-- FEQ: only a signalling NaN sets NV. -/
def F32.eq (a b : Word) : FRes :=
  let x := Fp.ofWord a
  let y := Fp.ofWord b
  relRes (x.cmp y == some .eq) (nvIf (x.snan || y.snan))

/-- FLT: any NaN sets NV. -/
def F32.lt (a b : Word) : FRes :=
  let x := Fp.ofWord a
  let y := Fp.ofWord b
  relRes (x.cmp y == some .lt) (nvIf (x.isNan || y.isNan))

/-- FLE: any NaN sets NV. -/
def F32.le (a b : Word) : FRes :=
  let x := Fp.ofWord a
  let y := Fp.ofWord b
  relRes (x.cmp y == some .lt || x.cmp y == some .eq) (nvIf (x.isNan || y.isNan))

/-- The word is no infinity and no NaN. -/
def F32.finite (a : Word) : Bool := a.toNat / 2 ^ 23 % 256 != 255

/-- Subnormals as zeros of their sign (R185). -/
def F32.flush (a : Word) : Word := if a.toNat / 2 ^ 23 % 256 = 0 then F32.zero (decide (2 ^ 31 ≤ a.toNat)) else a

end Sys2Proof.Machine
end

