-- ==== Sys2Proof/Machine/Frac.lean ====
section
/-! DEFINITION. Exact fractions, for what the manual computes exactly (R152, R154). -/

namespace Sys2Proof.Machine

/-- num / den, with den positive. -/
structure Frac where
  num : Int
  den : Nat
  deriving DecidableEq, Repr

def Frac.ofInt (i : Int) : Frac := ⟨i, 1⟩
def Frac.zero : Frac := ⟨0, 1⟩

/-- In lowest terms. -/
def Frac.norm (a : Frac) : Frac :=
  let g := Nat.gcd a.num.natAbs a.den
  if g ≤ 1 then a else ⟨a.num / (g : Int), a.den / g⟩

def Frac.add (a b : Frac) : Frac := if a.den = b.den then ⟨a.num + b.num, a.den⟩ else ⟨a.num * b.den + b.num * a.den, a.den * b.den⟩
def Frac.neg (a : Frac) : Frac := ⟨-a.num, a.den⟩
def Frac.sub (a b : Frac) : Frac := a.add b.neg
def Frac.mul (a b : Frac) : Frac := ⟨a.num * b.num, a.den * b.den⟩
/-- a / b for b not zero. -/
def Frac.div (a b : Frac) : Frac := ⟨a.num * (if b.num < 0 then -(b.den : Int) else b.den), a.den * b.num.natAbs⟩
def Frac.abs (a : Frac) : Frac := ⟨a.num.natAbs, a.den⟩
def Frac.lt (a b : Frac) : Bool := decide (a.num * b.den < b.num * a.den)
def Frac.le (a b : Frac) : Bool := decide (a.num * b.den ≤ b.num * a.den)
def Frac.isZero (a : Frac) : Bool := a.num == 0
def Frac.isNeg (a : Frac) : Bool := decide (a.num < 0)
def Frac.floor (a : Frac) : Int := a.num.fdiv a.den
/-- Rounded to the nearest integer, halves upward. -/
def Frac.round (a : Frac) : Int := (2 * a.num + a.den).fdiv (2 * a.den)
def Frac.sum (l : List Frac) : Frac := l.foldl Frac.add Frac.zero

/-- The nearest FP32 value. -/
def Frac.toF32 (a : Frac) : Word := if a.num = 0 then 0 else (roundRat (decide (a.num < 0)) a.num.natAbs a.den).val

/-- The exact value of a finite FP32 word; 0 for any other. -/
def Frac.ofF32 (w : Word) : Frac :=
  match Fp.ofWord w with
  | .fin neg m e => ⟨sgn neg m * 2 ^ e.toNat, 2 ^ (-e).toNat⟩
  | _ => Frac.zero

end Sys2Proof.Machine
end

