-- ==== Sys2Proof/Machine/Store.lean ====
section
/-! DEFINITION. Sparse stores: a value for every natural-number key, held as a list of the keys whose value differs
from the key's default, keys strictly rising. Equal stores are equal lists, so a state can be compared. Every register
file, memory and per-instance collection of the state is one of these. -/

namespace Sys2Proof.Machine

/-- A sparse store from keys to values of `α`. -/
abbrev Store (α : Type) := List (Nat × α)

/-- The value at key `k`, the first listed; `d` gives what an unlisted key holds. -/
def Store.get {α : Type} (d : Nat → α) : Store α → Nat → α
  | [], k => d k
  | (j, v) :: m, k => if j = k then v else Store.get d m k

/-- Remove key `k`. -/
def Store.erase {α : Type} (m : Store α) (k : Nat) : Store α := m.filter (fun e => decide (e.1 ≠ k))

/-- Put `v` at key `k`, which the list does not hold, in key order. -/
def Store.insert {α : Type} : Store α → Nat → α → Store α
  | [], k, v => [(k, v)]
  | (j, w) :: m, k, v => if k < j then (k, v) :: (j, w) :: m else (j, w) :: Store.insert m k v

/-- Write `v` at key `k`, keeping the canonical form: a default value is not listed. -/
def Store.set {α : Type} [DecidableEq α] (d : Nat → α) (m : Store α) (k : Nat) (v : α) : Store α :=
  if v = d k then Store.erase m k else Store.insert (Store.erase m k) k v

/-- Every key of the list lies above `b`. -/
def Store.above {α : Type} (b : Nat) (m : Store α) : Bool := m.all (fun e => decide (b < e.1))

/-- The canonical form: keys strictly rising, no entry equal to its default. -/
def Store.wf {α : Type} [DecidableEq α] (d : Nat → α) : Store α → Bool
  | [] => true
  | (j, v) :: m => decide (v ≠ d j) && Store.above j m && Store.wf d m

/-- Memory as the host's cells. An unlisted address reads 0 (log entry 3). -/
abbrev Memory := List Host.Cell

/-- What a byte that nothing has written reads as. -/
def Memory.unlisted : Nat → Byte := fun _ => 0

def Memory.read (m : Memory) (a : Nat) : Byte := Store.get Memory.unlisted m a
def Memory.write (m : Memory) (a : Nat) (b : Byte) : Memory := Store.set Memory.unlisted m a b
def Memory.wf (m : Memory) : Bool := Store.wf Memory.unlisted m

/-- Store the bytes `bs` from address `a` upward. -/
def Memory.writeList (m : Memory) (a : Nat) : List Byte → Memory
  | [] => m
  | b :: bs => Memory.writeList (Memory.write m a b) (a + 1) bs

/-- `m` with the bytes from `a` to `a + n − 1` taken from `h`. -/
def Memory.copyRange (a n : Nat) (h m : Memory) : Memory :=
  m.filter (fun e => decide (e.1 < a)) ++ h.filter (fun e => decide (a ≤ e.1 ∧ e.1 < a + n)) ++
    m.filter (fun e => decide (a + n ≤ e.1))

/-- The `n` bytes from address `a` upward. -/
def Memory.readList (m : Memory) (a : Nat) : Nat → List Byte
  | 0 => []
  | n + 1 => Memory.read m a :: Memory.readList m (a + 1) n

end Sys2Proof.Machine
end

