-- ==== Sys2Proof/Machine/Plan.lean ====
section
/-! DEFINITION. What a wheel computes from a set of cell voltages (R142 to R157, R514): selection, edges, vernier and
carry. Voltages and volt-units are exact. -/

namespace Sys2Proof.Machine

/-- State codes of R96. -/
def St.block : Nat := 0
def St.zero : Nat := 1
def St.pos : Nat := 2
def St.neg : Nat := 3
def St.bypassClose : Nat := 5

def St.inserted (x : Nat) : Bool := x == St.pos || x == St.neg

/-- The state part of a command by R150: S0, and E1 with S1, or no edge. -/
structure CellCmd where
  s0 : Nat
  e1 : Option Nat
  s1 : Nat
  deriving DecidableEq, Repr

def CellCmd.hold (x : Nat) : CellCmd := ⟨x, none, x⟩
/-- The final state of a window (R106). -/
def CellCmd.final (c : CellCmd) : Nat := match c.e1 with | some _ => c.s1 | none => c.s0

/-- A pool cell as the selection sees it: basis voltage in volts, final state in the previous committed window, at least
one token, full bridge, excluded from vernier and swaps by STALE_V (R166), and not yet released by a deblock (R156). -/
structure PCell where
  slot : Nat
  v : Frac
  prev : Nat
  tok : Bool
  fb : Bool
  pinned : Bool
  held : Bool
  deriving DecidableEq, Repr

/-- The inputs of a selection. `target` is T after R142, `desc` is d = −1. -/
structure PlanIn where
  cells : List PCell
  target : Frac
  neg : Bool
  desc : Bool
  swapping : Bool
  band : Frac
  swapMax : Nat
  w : Frac
  space : Nat
  nearest : Bool
  refClamp : Bool
  vernPrev : Option Nat
  vernRun : Nat
  vhold : Nat
  /-- Boundary lists of R172: moves beyond this many cells of a list are deferred. -/
  reach : Option Nat
  deriving DecidableEq, Repr

/-- A plan: one command per pool cell, and what R161, R164 and R175 take from it. -/
structure Plan where
  cmds : Store (Option CellCmd)
  ins : List Nat
  out : List Nat
  /-- The cells in the order in which R144, R145 and R156 moved them, and those released from BLOCK to ZERO. -/
  moved : List Nat
  released : List Nat
  neg : Bool
  desc : Bool
  target : Frac
  changes : List Nat
  vern : Option Nat
  tstar : Option Frac
  carry : Frac
  zeroCarry : Bool
  swaps : Nat
  steps : Nat
  gap : Option Frac
  noSwaps : Bool
  stepLimit : Bool
  refClamp : Bool
  carrySat : Bool
  deriving DecidableEq, Repr

/-- Selection order (R143). -/
def pBefore (desc : Bool) (a b : PCell) : Bool :=
  if desc then b.v.lt a.v || (!a.v.lt b.v && decide (a.slot < b.slot))
  else a.v.lt b.v || (!b.v.lt a.v && decide (a.slot < b.slot))

def pInsert (desc : Bool) (x : PCell) : List PCell → List PCell
  | [] => [x]
  | y :: ys => if pBefore desc x y then x :: y :: ys else y :: pInsert desc x ys

def pSort (desc : Bool) (l : List PCell) : List PCell := l.foldl (fun r x => pInsert desc x r) []

/-- The state of a selection under way: the sets in selection order, the order of the moves, released and kept cells. -/
structure Sel where
  i : List PCell
  o : List PCell
  moved : List Nat
  released : List Nat
  /-- Cells of the old polarity that keep their state (R514), and those that are removed. -/
  keep : List Nat
  old : List Nat
  stepLimit : Bool
  swaps : Nat
  steps : Nat
  /-- Moves from the head of O so far. -/
  ups : Nat
  gap : Option Frac
  limit : Bool
  deriving DecidableEq, Repr

def PlanIn.insState (p : PlanIn) : Nat := if p.neg then St.neg else St.pos

/-- The change cap N_CH (R151). -/
def PlanIn.cap (p : PlanIn) : Nat := (p.w.div (Frac.ofInt (2 * p.space))).floor.toNat

def PCell.blocked (x : PCell) : Bool := x.held || x.prev == St.block

/-- The state a pool cell ends the first part of the window in. -/
def Sel.want (p : PlanIn) (z : Sel) (x : PCell) : Nat :=
  if z.keep.contains x.slot then x.prev
  else if z.i.any (fun y => y.slot == x.slot) then p.insState
  else if x.blocked && !z.released.contains x.slot then St.block
  else St.zero

/-- The changes of R151 so far. -/
def Sel.count (p : PlanIn) (z : Sel) : Nat := (p.cells.filter (fun x => z.want p x != x.prev)).length

def Sel.frozen (z : Sel) : Bool := !z.keep.isEmpty

def listIdx (x : PCell) (l : List PCell) : Nat := l.findIdx (fun y => y.slot == x.slot)

/-- A move is allowed by the change cap, R514 and the boundary lists. -/
def Sel.may (p : PlanIn) (z : Sel) (x : PCell) (into : Bool) (rank : Nat) : Bool :=
  let new := if into then p.insState else if x.blocked && !z.released.contains x.slot then St.block else St.zero
  !(into && z.frozen) && (match p.reach with | some r => decide (rank < r) | none => true) &&
    (new == x.prev || z.want p x != x.prev || decide (z.count p < p.cap))

def Sel.note (z : Sel) (x : PCell) : List Nat := z.moved.filter (fun n => n != x.slot) ++ [x.slot]

def Sel.moveIn (p : PlanIn) (z : Sel) (x : PCell) : Sel :=
  { z with i := pInsert p.desc x z.i, o := z.o.filter (fun y => y.slot != x.slot), moved := z.note x,
           steps := z.steps + 1, ups := z.ups + 1 }
def Sel.moveOut (p : PlanIn) (z : Sel) (x : PCell) : Sel :=
  { z with o := pInsert p.desc x z.o, i := z.i.filter (fun y => y.slot != x.slot), moved := z.note x, steps := z.steps + 1 }

def Sel.sum (z : Sel) : Frac := Frac.sum (z.i.map (fun x => x.v))

/-- R144, step 1: the head of O moves to I while the sum stays at or below |T|. -/
def Sel.levelUp (p : PlanIn) : Nat → Nat → Sel → Sel
  | 0, _, z => z
  | n + 1, rank, z =>
    match z.o with
    | [] => z
    | x :: _ =>
      if ((z.sum).add x.v).le p.target.abs then
        if z.may p x true rank then Sel.levelUp p n (rank + 1) (z.moveIn p x) else { z with stepLimit := true }
      else z

/-- R144, step 2: the tail of I moves to O while the sum exceeds |T|. -/
def Sel.levelDown (p : PlanIn) : Nat → Nat → Sel → Sel
  | 0, _, z => z
  | n + 1, rank, z =>
    match z.i.getLast? with
    | none => z
    | some x =>
      if p.target.abs.lt z.sum then
        if z.may p x false rank then Sel.levelDown p n (rank + 1) (z.moveOut p x) else { z with stepLimit := true }
      else z

def Sel.level (p : PlanIn) (z : Sel) : Sel :=
  let n := p.cells.length + 1
  Sel.levelDown p n 0 (Sel.levelUp p n 0 z)

/-- The pair of R145: the last cell of I and the first of O with a token; a cell that a deblock still holds, and one with
STALE_V (R166), is no choice. -/
def Sel.pair (z : Sel) : Option (PCell × PCell) :=
  let ok := fun (x : PCell) => x.tok && !x.pinned
  match (z.i.reverse.find? ok), (z.o.find? (fun x => ok x && (!x.held || z.released.contains x.slot))) with
  | some a, some b => some (a, b)
  | _, _ => none

def gapOf (desc : Bool) (a b : PCell) : Frac := if desc then b.v.sub a.v else a.v.sub b.v

def Sel.gapNow (p : PlanIn) (z : Sel) : Option Frac := z.pair.map (fun ab => gapOf p.desc ab.1 ab.2)

/-- R145: swaps until SWAP_MAX, the cap, or a gap within BAND. A step limit (R170) ends them with `limit`. -/
def Sel.swap (p : PlanIn) (stepMax : Option Nat) : Nat → Sel → Sel
  | 0, z => { z with gap := z.gapNow p }
  | n + 1, z =>
    if p.cap < z.count p + 2 then { z with gap := z.gapNow p }
    else match z.pair with
    | none => { z with gap := none }
    | some (a, b) =>
      if (gapOf p.desc a b).le p.band then { z with gap := z.gapNow p }
      else if (match stepMax with | some m => decide (m ≤ z.steps) | none => false) then { z with limit := true }
      else
        let z' := (z.moveOut p a).moveIn p b
        Sel.swap p stepMax n { z' with swaps := z.swaps + 1, steps := z.steps + 1 }

/-- The start of a selection (R144, R514): `startI` names the cells of I. -/
def Sel.start (p : PlanIn) (startI : PCell → Bool) : Sel :=
  let cand := p.cells.filter (fun x => !p.neg || x.fb)
  let olds := p.cells.filter (fun x => St.inserted x.prev && x.prev != p.insState)
  let isOld := fun (x : PCell) => olds.any (fun y => y.slot == x.slot)
  { i := pSort p.desc (cand.filter startI), o := pSort p.desc (cand.filter (fun x => !startI x && !isOld x)),
    moved := [], released := [], keep := (olds.drop p.cap).map (fun x => x.slot), old := (olds.take p.cap).map (fun x => x.slot),
    stepLimit := decide (p.cap < olds.length), swaps := 0, steps := 0, ups := 0, gap := none, limit := false }

/-- Release blocked cells to ZERO in slot order, within the cap (R156): all held cells, or the others. -/
def Sel.release (p : PlanIn) (held : Bool) (z : Sel) : Sel :=
  p.cells.foldl (fun z x =>
    if x.blocked && x.held == held && !z.released.contains x.slot && !z.keep.contains x.slot &&
        !z.i.any (fun y => y.slot == x.slot) && decide (z.count p < p.cap) then
      { z with released := z.released ++ [x.slot], moved := z.note x }
    else z) z

/-- R149: nearest level rounds up when more than half of the head's voltage is missing. -/
def Sel.nearest (p : PlanIn) (z : Sel) : Sel :=
  match z.o with
  | [] => z
  | x :: _ =>
    if ((x.v).div (Frac.ofInt 2)).lt (p.target.abs.sub z.sum) then
      if z.may p x true z.ups then z.moveIn p x else { z with stepLimit := true }
    else z

/-- R147: the vernier. -/
def Sel.vernier (p : PlanIn) (z : Sel) : Option Nat :=
  if p.nearest || z.frozen then none
  else
    let q := z.o.filter (fun x => (x.prev == St.zero || x.prev == p.insState) && !x.pinned && Frac.zero.lt x.v)
    match q with
    | [] => none
    | x :: r =>
      if p.vernPrev = some x.slot ∧ p.vhold ≤ p.vernRun then (match r with | y :: _ => some y.slot | [] => some x.slot)
      else some x.slot

/-- R151: alternate two lists, the first leading. -/
def alternate : List Nat → List Nat → List Nat
  | [], b => b
  | a, [] => a
  | x :: a, y :: b => x :: y :: alternate a b

def cellOf (p : PlanIn) (slot : Nat) : Option PCell := p.cells.find? (fun x => x.slot == slot)

/-- The change zone in order (R151, R156, R514), the vernier apart. -/
def Sel.zone (p : PlanIn) (z : Sel) (vern : Option Nat) : List Nat :=
  let chg := p.cells.filter (fun x => z.want p x != x.prev && vern != some x.slot)
  let isOld := fun (x : PCell) => z.old.contains x.slot
  let ins := fun (x : PCell) => St.inserted (z.want p x)
  let olds := (chg.filter isOld).map (fun x => x.slot)
  let rel := chg.filter (fun x => !isOld x && x.held)
  let relIn := (z.i.filter (fun x => rel.any (fun y => y.slot == x.slot))).map (fun x => x.slot)
  let relOut := (rel.filter (fun x => !ins x)).map (fun x => x.slot)
  let rest := chg.filter (fun x => !isOld x && !x.held)
  let byMove := fun (l : List PCell) => z.moved.filter (fun n => l.any (fun x => x.slot == n)) ++
    (l.filter (fun x => !z.moved.contains x.slot)).map (fun x => x.slot)
  let rem := byMove (rest.filter (fun x => !ins x))
  let add := byMove (rest.filter ins)
  olds ++ relIn ++ relOut ++
    (if relIn.length + add.length ≤ relOut.length + rem.length then alternate rem add else alternate add rem)

/-- The command of change `j` (R151). -/
def changeCmd (space j prev want : Nat) : CellCmd := if j = 0 then .hold want else ⟨prev, some (j * space), want⟩

/-- Volt-units of a command, counted positive for state `ins` and negative for the other polarity (R152). -/
def voltUnits (w : Frac) (ins : Nat) (v : Frac) (c : CellCmd) : Frac :=
  let sg := fun (x : Nat) => Frac.ofInt (if x = ins then 1 else if St.inserted x then -1 else 0)
  match c.e1 with
  | none => (v.mul w).mul (sg c.s0)
  | some e => v.mul (((Frac.ofInt e).mul (sg c.s0)).add ((w.sub (Frac.ofInt e)).mul (sg c.s1)))

/-- The vernier's command by the table of R152, and whether it takes change slot `n`. -/
def vernCmd (w : Frac) (space ins prev n : Nat) (t : Frac) : CellCmd × Bool :=
  let half : Frac := ⟨space, 2⟩
  let clamp := fun (e : Int) => (min (max e (max n 1 * space)) (w.sub (Frac.ofInt space)).floor).toNat
  if t.le half then
    if prev = ins then (changeCmd space n ins St.zero, true) else (.hold St.zero, false)
  else if (w.sub half).le t then
    if prev = ins then (.hold ins, false) else (changeCmd space n St.zero ins, true)
  else if prev = ins then (⟨ins, some (clamp t.round), St.zero⟩, false)
  else (⟨St.zero, some (clamp (w.sub (Frac.ofInt t.round)).round), ins⟩, false)

/-- R152 and R154 on given commands: the vernier's command, t*, whether it is a change, and the carry. -/
structure Close where
  cmds : Store (Option CellCmd)
  tstar : Option Frac
  extra : Bool
  carry : Frac
  carrySat : Bool
  deriving DecidableEq, Repr

def meanV (cells : List PCell) : Frac :=
  if cells.isEmpty then Frac.zero else (Frac.sum (cells.map (fun x => x.v))).div (Frac.ofInt cells.length)

def getCmd (m : Store (Option CellCmd)) (slot : Nat) : Option CellCmd := Store.get (fun _ => none) m slot
def putCmd (m : Store (Option CellCmd)) (slot : Nat) (c : CellCmd) : Store (Option CellCmd) :=
  Store.set (fun _ => none) m slot (some c)

/-- The carry of R154, clamped to the mean voltage of the available cells. -/
def carryOf (p : PlanIn) (zero : Bool) (owed : Frac) : Frac × Bool :=
  if zero then (Frac.zero, false)
  else
    let c := (owed.div p.w).mul (Frac.ofInt (if p.neg then -1 else 1))
    let m := (meanV p.cells).abs
    if m.lt c.abs then ((if c.isNeg then m.neg else m).norm, true) else (c.norm, false)

def closePlan (p : PlanIn) (cmds : Store (Option CellCmd)) (vern : Option Nat) (n : Nat) (zero : Bool) : Close :=
  let vu := fun (x : PCell) => match getCmd cmds x.slot with
    | some c => voltUnits p.w p.insState x.v c
    | none => Frac.zero
  let fixed := Frac.sum ((p.cells.filter (fun x => vern != some x.slot)).map vu)
  let target := p.target.abs.mul p.w
  match vern.bind (cellOf p) with
  | none =>
    let (c, sat) := carryOf p zero (target.sub fixed)
    ⟨cmds, none, false, c, sat⟩
  | some x =>
    let t := (target.sub fixed).div x.v
    let (cmd, extra) := vernCmd p.w p.space p.insState x.prev n t
    let (c, sat) := carryOf p zero (target.sub (fixed.add (voltUnits p.w p.insState x.v cmd)))
    ⟨putCmd cmds x.slot cmd, some t, extra, c, sat⟩

/-- R148: the candidates' voltages together are less than |T|. -/
def allInserted (p : PlanIn) : Bool :=
  (Frac.sum ((p.cells.filter (fun x => !p.neg || x.fb)).map (fun x => x.v))).lt p.target.abs

/-- Edges, vernier and carry of a finished selection (R147 to R154). -/
def Sel.finish (p : PlanIn) (z : Sel) : Plan :=
  let z := if p.nearest then z.nearest p else z
  let z := z.release p false
  let clamp := p.refClamp || allInserted p
  let zero := clamp || p.nearest || p.cells.any (fun x => x.held)
  let vern := z.vernier p
  let zone := z.zone p vern
  let cmds := p.cells.foldl (fun m x =>
    let want := z.want p x
    let j := zone.findIdx (fun n => n == x.slot)
    putCmd m x.slot (if j < zone.length then changeCmd p.space j x.prev want else .hold want)) []
  let c := closePlan p cmds vern zone.length zero
  { cmds := c.cmds, ins := z.i.map (fun x => x.slot), out := z.o.map (fun x => x.slot),
    moved := z.moved, released := z.released, neg := p.neg, desc := p.desc,
    target := p.target, changes := if c.extra then zone ++ vern.toList else zone, vern := vern, tstar := c.tstar,
    carry := c.carry, zeroCarry := zero, swaps := z.swaps, steps := z.steps, gap := z.gap, noSwaps := !p.swapping,
    stepLimit := z.stepLimit, refClamp := clamp, carrySat := c.carrySat }

/-- The selection of R142 to R154 as the speculative plan makes it (R164). -/
def planSelect (p : PlanIn) : Plan :=
  let z := (Sel.start p (fun x => x.prev == p.insState)).level p
  let z := z.release p true
  let z := if p.swapping then z.swap p none p.swapMax else { z with gap := z.gapNow p }
  (z.level p).finish p

/-- The fallback plan (R172): the level step alone, from the boundary lists. -/
def planFallback (p : PlanIn) : Plan :=
  let z := (Sel.start p (fun x => x.prev == p.insState)).level p
  (z.release p true).finish p

/-- Repair (R170) of the speculative plan `q`: the plan, or none when it would need a 33rd step; and the steps taken. `gone`
counts the cells of I_s no longer available. The changes that `q` made keep their order among the moves (R151). -/
def planRepair (p : PlanIn) (q : Plan) (gone : Nat) : Option Plan × Nat :=
  let z := Sel.start p (fun x => q.ins.contains x.slot && (x.prev == p.insState || !St.inserted x.prev))
  let z := ({ z with steps := gone, moved := q.moved }.level p).release p true
  let z := if p.swapping then z.swap p (some 32) 33 else z
  if z.limit then (none, 32)
  else
    let z := z.level p
    if 32 < z.steps then (none, 32) else (some (z.finish p), z.steps)

/-- R169: the vernier edge and the carry of a confirmed plan, recomputed under measured voltages. -/
def planCommit (p : PlanIn) (q : Plan) : Plan :=
  let zone := match q.vern with | some v => q.changes.filter (fun n => n != v) | none => q.changes
  let c := closePlan p q.cmds q.vern zone.length (q.zeroCarry || allInserted p)
  { q with
    cmds := c.cmds, changes := if c.extra then zone ++ q.vern.toList else zone, tstar := c.tstar, carry := c.carry,
    carrySat := c.carrySat, refClamp := q.refClamp || allInserted p }

/-- What of a plan is carried out: a cell that has left the pool since is commanded BLOCK, and makes no change (R138). -/
def Plan.carriedOut (q : Plan) (usable : Nat → Bool) : Plan :=
  { q with cmds := q.cmds.filter (fun e => usable e.1), changes := q.changes.filter usable }

/-- Cells inserted for any part of the window (R161). -/
def Plan.nIns (q : Plan) : Nat :=
  (q.cmds.filter (fun e => match e.2 with
    | some c => St.inserted c.s0 || (c.e1.isSome && St.inserted c.s1)
    | none => false)).length

end Sys2Proof.Machine
end

