-- ==== Sys2Proof/Machine/RegTable.lean ====
section
/-! DEFINITION. The block registers of the module: every register of the register tables of spec/02 to spec/20, its
address (the block bases of R468), which of its bits each access code of R7 governs, its value after a hardware reset
(R9), and whether it is a statistics counter (R464). A reset value marked `cfg` or `fuse` in the manual is the value of
log entries 1 and 2. -/

namespace Sys2Proof.Machine

/-- One row of the register map: a register, or an array of them.
`dims` gives the stride and the count of each index. -/
structure RegDesc where
  base : Nat
  dims : List (Nat × Nat)
  rw : Nat
  w1c : Nat
  wo : Nat
  rc : Bool
  /-- Number of higher halves that a read of this low half latches (R7, R8); 0 for every other register. -/
  rs : Nat
  /-- For a higher half, how many words above its low half it lies; 0 for every other register. -/
  up : Nat
  stat : Bool
  reset : Nat
  deriving DecidableEq, Repr

/-- A bit field of a register: the address of the register and the field's first and last bit. -/
structure Field where
  reg : Nat
  hi : Nat
  lo : Nat
  deriving DecidableEq, Repr

/-! Block SYS at 0x40000000. -/
def Reg.SYS_MODE : Nat := 0x40000000
def Reg.SYS_MODE_REQ : Nat := 0x40000004
def Reg.SYS_MODE_STAT : Nat := 0x40000008
def Reg.SYS_REJECT_COUNT : Nat := 0x4000000C
def Reg.SYS_BOOT_FAIL : Nat := 0x40000010
def Reg.SYS_RDY_VLO : Nat := 0x40000014
def Reg.SYS_RDY_VHI : Nat := 0x40000018
def Reg.SYS_UPB_COMMIT : Nat := 0x4000001C
def Reg.SYS_UPB_STAT : Nat := 0x40000020
def Reg.SYS_UPB_SUPER_CNT : Nat := 0x40000024
def Reg.SYS_EVT_RGN : Nat := 0x40000030
def Reg.SYS_DWIN (n : Nat) : Nat := 0x40000040 + 0x4 * n
def Reg.SYS_IMG : Nat := 0x40000050
def Reg.SYS_IMG_STAT : Nat := 0x40000054
def Fld.SYS_MODE_REQ_PENDING : Field := ⟨Reg.SYS_MODE, 11, 11⟩
def Fld.SYS_MODE_MODE : Field := ⟨Reg.SYS_MODE, 10, 8⟩
def Fld.SYS_MODE_ROLE : Field := ⟨Reg.SYS_MODE, 5, 4⟩
def Fld.SYS_MODE_REQ_GO : Field := ⟨Reg.SYS_MODE_REQ, 31, 31⟩
def Fld.SYS_MODE_REQ_MODE : Field := ⟨Reg.SYS_MODE_REQ, 2, 0⟩
def Fld.SYS_MODE_STAT_STATUS : Field := ⟨Reg.SYS_MODE_STAT, 7, 0⟩
def Fld.SYS_REJECT_COUNT_REJECT : Field := ⟨Reg.SYS_REJECT_COUNT, 31, 0⟩
def Fld.SYS_BOOT_FAIL_STEP : Field := ⟨Reg.SYS_BOOT_FAIL, 7, 4⟩
def Fld.SYS_BOOT_FAIL_CAUSE : Field := ⟨Reg.SYS_BOOT_FAIL, 3, 0⟩
def Fld.SYS_RDY_VLO_V : Field := ⟨Reg.SYS_RDY_VLO, 15, 0⟩
def Fld.SYS_RDY_VHI_V : Field := ⟨Reg.SYS_RDY_VHI, 15, 0⟩
def Fld.SYS_UPB_COMMIT_ID : Field := ⟨Reg.SYS_UPB_COMMIT, 31, 16⟩
def Fld.SYS_UPB_COMMIT_COMMIT : Field := ⟨Reg.SYS_UPB_COMMIT, 15, 15⟩
def Fld.SYS_UPB_COMMIT_BLOCK : Field := ⟨Reg.SYS_UPB_COMMIT, 14, 11⟩
def Fld.SYS_UPB_COMMIT_LEN : Field := ⟨Reg.SYS_UPB_COMMIT, 10, 0⟩
def Fld.SYS_UPB_STAT_ID : Field := ⟨Reg.SYS_UPB_STAT, 31, 16⟩
def Fld.SYS_UPB_STAT_BLOCK : Field := ⟨Reg.SYS_UPB_STAT, 15, 12⟩
def Fld.SYS_UPB_STAT_STATUS : Field := ⟨Reg.SYS_UPB_STAT, 7, 0⟩
def Fld.SYS_UPB_SUPER_CNT_SUPER : Field := ⟨Reg.SYS_UPB_SUPER_CNT, 31, 0⟩
def Fld.SYS_EVT_RGN_SIZE_MIB : Field := ⟨Reg.SYS_EVT_RGN, 31, 16⟩
def Fld.SYS_EVT_RGN_BASE_MIB : Field := ⟨Reg.SYS_EVT_RGN, 13, 0⟩
def Fld.SYS_DWIN_BASE_GIB (n : Nat) : Field := ⟨Reg.SYS_DWIN n, 3, 0⟩
def Fld.SYS_IMG_LOADABLE : Field := ⟨Reg.SYS_IMG, 21, 16⟩
def Fld.SYS_IMG_FALLBACK : Field := ⟨Reg.SYS_IMG, 10, 8⟩
def Fld.SYS_IMG_ACTIVE : Field := ⟨Reg.SYS_IMG, 2, 0⟩
def Fld.SYS_IMG_STAT_KIND : Field := ⟨Reg.SYS_IMG_STAT, 9, 8⟩
def Fld.SYS_IMG_STAT_STATUS : Field := ⟨Reg.SYS_IMG_STAT, 7, 0⟩

/-! Block ID at 0x40010000. -/
def Reg.ID_DIE (n i : Nat) : Nat := 0x40010000 + 0x40 * n + 0x4 * i
def Reg.ID_MOD (n : Nat) : Nat := 0x40010100 + 0x4 * n
def Reg.ID_STATUS : Nat := 0x40010140
def Fld.ID_DIE_WORD (n i : Nat) : Field := ⟨Reg.ID_DIE n i, 31, 0⟩
def Fld.ID_MOD_WORD (n : Nat) : Field := ⟨Reg.ID_MOD n, 31, 0⟩
def Fld.ID_STATUS_CRC_OK : Field := ⟨Reg.ID_STATUS, 4, 0⟩

/-! Block ESC at 0x40020000. -/
def Reg.ESC_CTRL : Nat := 0x40020000
def Reg.ESC_PERIOD : Nat := 0x40020004
def Reg.ESC_APPLY : Nat := 0x40020008
def Reg.ESC_LEAD : Nat := 0x4002000C
def Reg.ESC_REFPT : Nat := 0x40020010
def Reg.ESC_REPAIR : Nat := 0x40020014
def Reg.ESC_STALE_MAX : Nat := 0x40020018
def Reg.ESC_CHECK : Nat := 0x4002001C
def Reg.ESC_STATUS : Nat := 0x40020020
def Reg.ESC_CYCLE : Nat := 0x40020024
def Reg.ESC_PHASE : Nat := 0x40020028
def Reg.ESC_TALIGN_0 : Nat := 0x40020030
def Reg.ESC_TALIGN_1 : Nat := 0x40020034
def Reg.ESC_TALIGN_2 : Nat := 0x40020038
def Reg.ESC_CUT_CNT : Nat := 0x40020040
def Reg.ESC_STALE_CNT : Nat := 0x40020044
def Reg.ESC_LATE_REF_CNT : Nat := 0x40020048
def Reg.ESC_SLEW_CNT : Nat := 0x4002004C
def Reg.ESC_BUDGET_STAT : Nat := 0x40020080
def Reg.ESC_BUDGET_LAP : Nat := 0x40020084
def Reg.ESC_BUDGET_SPEC : Nat := 0x40020088
def Reg.ESC_BUDGET_CONF : Nat := 0x4002008C
def Reg.ESC_BUDGET_WREF : Nat := 0x40020090
def Reg.ESC_BUDGET_WTOT : Nat := 0x40020094
def Reg.ESC_BUDGET_SLACK : Nat := 0x40020098
def Reg.ESC_BUDGET_NCELL : Nat := 0x4002009C
def Fld.ESC_CTRL_SLEW : Field := ⟨Reg.ESC_CTRL, 11, 8⟩
def Fld.ESC_CTRL_ALIGN_PTP : Field := ⟨Reg.ESC_CTRL, 1, 1⟩
def Fld.ESC_PERIOD_PERIOD : Field := ⟨Reg.ESC_PERIOD, 14, 0⟩
def Fld.ESC_APPLY_APPLY : Field := ⟨Reg.ESC_APPLY, 14, 0⟩
def Fld.ESC_LEAD_LEAD : Field := ⟨Reg.ESC_LEAD, 11, 0⟩
def Fld.ESC_REFPT_REFPT : Field := ⟨Reg.ESC_REFPT, 14, 0⟩
def Fld.ESC_REPAIR_REPAIR : Field := ⟨Reg.ESC_REPAIR, 11, 0⟩
def Fld.ESC_STALE_MAX_STALE_MAX : Field := ⟨Reg.ESC_STALE_MAX, 7, 0⟩
def Fld.ESC_CHECK_GO : Field := ⟨Reg.ESC_CHECK, 0, 0⟩
def Fld.ESC_STATUS_CUT_RUN : Field := ⟨Reg.ESC_STATUS, 23, 16⟩
def Fld.ESC_STATUS_CHECKING : Field := ⟨Reg.ESC_STATUS, 5, 5⟩
def Fld.ESC_STATUS_CUT : Field := ⟨Reg.ESC_STATUS, 4, 4⟩
def Fld.ESC_STATUS_LOCAL : Field := ⟨Reg.ESC_STATUS, 3, 3⟩
def Fld.ESC_STATUS_ALIGNED : Field := ⟨Reg.ESC_STATUS, 2, 2⟩
def Fld.ESC_STATUS_RUNNING : Field := ⟨Reg.ESC_STATUS, 1, 1⟩
def Fld.ESC_CYCLE_CYCLE : Field := ⟨Reg.ESC_CYCLE, 31, 0⟩
def Fld.ESC_PHASE_PHASE : Field := ⟨Reg.ESC_PHASE, 31, 0⟩
def Fld.ESC_TALIGN_0_NS : Field := ⟨Reg.ESC_TALIGN_0, 31, 0⟩
def Fld.ESC_TALIGN_1_SEC_LO : Field := ⟨Reg.ESC_TALIGN_1, 31, 0⟩
def Fld.ESC_TALIGN_2_SEC_HI : Field := ⟨Reg.ESC_TALIGN_2, 15, 0⟩
def Fld.ESC_CUT_CNT_CUT : Field := ⟨Reg.ESC_CUT_CNT, 31, 0⟩
def Fld.ESC_STALE_CNT_STALE : Field := ⟨Reg.ESC_STALE_CNT, 31, 0⟩
def Fld.ESC_LATE_REF_CNT_LATE : Field := ⟨Reg.ESC_LATE_REF_CNT, 31, 0⟩
def Fld.ESC_SLEW_CNT_SLEW : Field := ⟨Reg.ESC_SLEW_CNT, 31, 0⟩
def Fld.ESC_BUDGET_STAT_FIRST_FAIL : Field := ⟨Reg.ESC_BUDGET_STAT, 31, 24⟩
def Fld.ESC_BUDGET_STAT_STATUS : Field := ⟨Reg.ESC_BUDGET_STAT, 7, 0⟩
def Fld.ESC_BUDGET_LAP_LAP : Field := ⟨Reg.ESC_BUDGET_LAP, 14, 0⟩
def Fld.ESC_BUDGET_SPEC_SPEC : Field := ⟨Reg.ESC_BUDGET_SPEC, 14, 0⟩
def Fld.ESC_BUDGET_CONF_CONF : Field := ⟨Reg.ESC_BUDGET_CONF, 14, 0⟩
def Fld.ESC_BUDGET_WREF_WREF : Field := ⟨Reg.ESC_BUDGET_WREF, 14, 0⟩
def Fld.ESC_BUDGET_WTOT_WTOT : Field := ⟨Reg.ESC_BUDGET_WTOT, 14, 0⟩
def Fld.ESC_BUDGET_SLACK_SLACK : Field := ⟨Reg.ESC_BUDGET_SLACK, 31, 0⟩
def Fld.ESC_BUDGET_NCELL_NMAX : Field := ⟨Reg.ESC_BUDGET_NCELL, 31, 16⟩
def Fld.ESC_BUDGET_NCELL_NCELL : Field := ⟨Reg.ESC_BUDGET_NCELL, 15, 0⟩

/-! Block RING at 0x40030000. -/
def Reg.RING_CTRL : Nat := 0x40030000
def Reg.RING_STATUS : Nat := 0x40030004
def Reg.RING_HEAL_HOLD : Nat := 0x40030008
def Reg.RING_DISC_MASK (n : Nat) : Nat := 0x40030010 + 0x4 * n
def Reg.RING_FOREIGN_CNT : Nat := 0x40030020
def Reg.RING_ABSENT_CNT : Nat := 0x40030024
def Reg.RING_SVC_CTRL : Nat := 0x40030100
def Reg.RING_SVC_SENT_CNT : Nat := 0x40030104
def Reg.RING_SVC_DLY_CNT : Nat := 0x40030108
def Reg.RING_SVC_REF_CNT : Nat := 0x4003010C
def Reg.RING_SVC_TMO_CNT : Nat := 0x40030110
def Reg.RING_DUP_CNT : Nat := 0x40030114
def Reg.RING_PROTO_CNT : Nat := 0x40030118
def Reg.RING_EPOCH_LOW_CNT : Nat := 0x4003011C
def Reg.RING_PCFG (n : Nat) : Nat := 0x40031000 + 0x40 * n
def Reg.RING_PSTAT (n : Nat) : Nat := 0x40031004 + 0x40 * n
def Reg.RING_PLAP (n : Nat) : Nat := 0x40031008 + 0x40 * n
def Reg.RING_PLAP_NOW (n : Nat) : Nat := 0x4003100C + 0x40 * n
def Reg.RING_PHCRC_CNT (n : Nat) : Nat := 0x40031020 + 0x40 * n
def Reg.RING_PSCRC_CNT (n : Nat) : Nat := 0x40031024 + 0x40 * n
def Reg.RING_PCODE_CNT (n : Nat) : Nat := 0x40031028 + 0x40 * n
def Reg.RING_PLOS_CNT (n : Nat) : Nat := 0x4003102C + 0x40 * n
def Reg.RING_PFOLD_CNT (n : Nat) : Nat := 0x40031030 + 0x40 * n
def Reg.RING_PLATE_CNT (n : Nat) : Nat := 0x40031034 + 0x40 * n
def Reg.RING_PWHELD_CNT (n : Nat) : Nat := 0x40031038 + 0x40 * n
def Reg.RING_PSVC (n : Nat) : Nat := 0x4003103C + 0x40 * n
def Reg.RING_CELL (n i : Nat) : Nat := 0x40038000 + 0x100 * n + 0x4 * i
def Fld.RING_CTRL_DISC_GO : Field := ⟨Reg.RING_CTRL, 1, 1⟩
def Fld.RING_CTRL_AUTO_HEAL : Field := ⟨Reg.RING_CTRL, 0, 0⟩
def Fld.RING_STATUS_SWEEPING : Field := ⟨Reg.RING_STATUS, 24, 24⟩
def Fld.RING_STATUS_N_OUT : Field := ⟨Reg.RING_STATUS, 23, 16⟩
def Fld.RING_STATUS_N_FOLDED : Field := ⟨Reg.RING_STATUS, 15, 8⟩
def Fld.RING_STATUS_N_SERVICE : Field := ⟨Reg.RING_STATUS, 7, 0⟩
def Fld.RING_HEAL_HOLD_HOLD : Field := ⟨Reg.RING_HEAL_HOLD, 15, 0⟩
def Fld.RING_DISC_MASK_MASK (n : Nat) : Field := ⟨Reg.RING_DISC_MASK n, 31, 0⟩
def Fld.RING_FOREIGN_CNT_FOREIGN : Field := ⟨Reg.RING_FOREIGN_CNT, 12, 0⟩
def Fld.RING_ABSENT_CNT_ABSENT : Field := ⟨Reg.RING_ABSENT_CNT, 12, 0⟩
def Fld.RING_PCFG_NCELL (n : Nat) : Field := ⟨Reg.RING_PCFG n, 22, 16⟩
def Fld.RING_PCFG_PEER (n : Nat) : Field := ⟨Reg.RING_PCFG n, 14, 8⟩
def Fld.RING_PCFG_PAIR (n : Nat) : Field := ⟨Reg.RING_PCFG n, 2, 2⟩
def Fld.RING_PCFG_END (n : Nat) : Field := ⟨Reg.RING_PCFG n, 1, 1⟩
def Fld.RING_PCFG_EN (n : Nat) : Field := ⟨Reg.RING_PCFG n, 0, 0⟩
def Fld.RING_PSTAT_FOLD_POS (n : Nat) : Field := ⟨Reg.RING_PSTAT n, 31, 24⟩
def Fld.RING_PSTAT_REACHED (n : Nat) : Field := ⟨Reg.RING_PSTAT n, 23, 16⟩
def Fld.RING_PSTAT_STATE (n : Nat) : Field := ⟨Reg.RING_PSTAT n, 3, 0⟩
def Fld.RING_PLAP_LAP (n : Nat) : Field := ⟨Reg.RING_PLAP n, 16, 0⟩
def Fld.RING_PLAP_NOW_LAP_NOW (n : Nat) : Field := ⟨Reg.RING_PLAP_NOW n, 16, 0⟩
def Fld.RING_PHCRC_CNT_HCRC (n : Nat) : Field := ⟨Reg.RING_PHCRC_CNT n, 31, 0⟩
def Fld.RING_PSCRC_CNT_SCRC (n : Nat) : Field := ⟨Reg.RING_PSCRC_CNT n, 31, 0⟩
def Fld.RING_PCODE_CNT_CODE (n : Nat) : Field := ⟨Reg.RING_PCODE_CNT n, 31, 0⟩
def Fld.RING_PLOS_CNT_LOS (n : Nat) : Field := ⟨Reg.RING_PLOS_CNT n, 31, 0⟩
def Fld.RING_PFOLD_CNT_FOLD (n : Nat) : Field := ⟨Reg.RING_PFOLD_CNT n, 31, 0⟩
def Fld.RING_PLATE_CNT_LATE (n : Nat) : Field := ⟨Reg.RING_PLATE_CNT n, 31, 0⟩
def Fld.RING_PWHELD_CNT_WHELD (n : Nat) : Field := ⟨Reg.RING_PWHELD_CNT n, 31, 0⟩
def Fld.RING_CELL_OUTCOME (n i : Nat) : Field := ⟨Reg.RING_CELL n i, 31, 30⟩
def Fld.RING_CELL_TURN (n i : Nat) : Field := ⟨Reg.RING_CELL n i, 29, 16⟩
def Fld.RING_CELL_PHI (n i : Nat) : Field := ⟨Reg.RING_CELL n i, 15, 0⟩
def Fld.RING_SVC_CTRL_TMO : Field := ⟨Reg.RING_SVC_CTRL, 15, 8⟩
def Fld.RING_SVC_CTRL_RETRY : Field := ⟨Reg.RING_SVC_CTRL, 5, 4⟩
def Fld.RING_SVC_CTRL_REQ_MAX : Field := ⟨Reg.RING_SVC_CTRL, 3, 0⟩
def Fld.RING_SVC_SENT_CNT_SENT : Field := ⟨Reg.RING_SVC_SENT_CNT, 31, 0⟩
def Fld.RING_SVC_DLY_CNT_DLY : Field := ⟨Reg.RING_SVC_DLY_CNT, 31, 0⟩
def Fld.RING_SVC_REF_CNT_REF : Field := ⟨Reg.RING_SVC_REF_CNT, 31, 0⟩
def Fld.RING_SVC_TMO_CNT_TMO : Field := ⟨Reg.RING_SVC_TMO_CNT, 31, 0⟩
def Fld.RING_DUP_CNT_DUP : Field := ⟨Reg.RING_DUP_CNT, 31, 0⟩
def Fld.RING_PROTO_CNT_PROTO : Field := ⟨Reg.RING_PROTO_CNT, 31, 0⟩
def Fld.RING_EPOCH_LOW_CNT_LOW : Field := ⟨Reg.RING_EPOCH_LOW_CNT, 31, 0⟩
def Fld.RING_PSVC_DEPTH (n : Nat) : Field := ⟨Reg.RING_PSVC n, 21, 16⟩
def Fld.RING_PSVC_REF (n : Nat) : Field := ⟨Reg.RING_PSVC n, 15, 0⟩

/-! Block WHL at 0x40040000. -/
def Reg.WHL_MAP_STAT : Nat := 0x40040000
def Reg.WHL_ROTA (n : Nat) : Nat := 0x40040040 + 0x4 * n
def Reg.WHL_TRC_CTRL : Nat := 0x40040080
def Reg.WHL_TRC_BASE : Nat := 0x40040084
def Reg.WHL_TRC_WPTR : Nat := 0x40040088
def Reg.WHL_TRC_STAT : Nat := 0x4004008C
def Reg.WHL_CFG (n : Nat) : Nat := 0x40041000 + 0x100 * n
def Reg.WHL_SLOTS (n : Nat) : Nat := 0x40041004 + 0x100 * n
def Reg.WHL_COUNT (n : Nat) : Nat := 0x40041008 + 0x100 * n
def Reg.WHL_BAND (n : Nat) : Nat := 0x4004100C + 0x100 * n
def Reg.WHL_BUDGET (n : Nat) : Nat := 0x40041010 + 0x100 * n
def Reg.WHL_EDGE (n : Nat) : Nat := 0x40041014 + 0x100 * n
def Reg.WHL_IDEAD (n : Nat) : Nat := 0x40041018 + 0x100 * n
def Reg.WHL_BYP (n : Nat) : Nat := 0x4004101C + 0x100 * n
def Reg.WHL_IMEAS (n : Nat) : Nat := 0x40041020 + 0x100 * n
def Reg.WHL_CELL_CTRL (n : Nat) : Nat := 0x40041024 + 0x100 * n
def Reg.WHL_CELL_STAT (n : Nat) : Nat := 0x40041028 + 0x100 * n
def Reg.WHL_THR (n : Nat) : Nat := 0x4004102C + 0x100 * n
def Reg.WHL_STATUS (n : Nat) : Nat := 0x40041030 + 0x100 * n
def Reg.WHL_POOL (n : Nat) : Nat := 0x40041034 + 0x100 * n
def Reg.WHL_CARRY (n : Nat) : Nat := 0x40041038 + 0x100 * n
def Reg.WHL_VERN (n : Nat) : Nat := 0x4004103C + 0x100 * n
def Reg.WHL_ENERGY (n : Nat) : Nat := 0x40041040 + 0x100 * n
def Reg.WHL_SPREAD (n : Nat) : Nat := 0x40041044 + 0x100 * n
def Reg.WHL_VSUM (n : Nat) : Nat := 0x40041048 + 0x100 * n
def Reg.WHL_STALE_CNT (n : Nat) : Nat := 0x40041050 + 0x100 * n
def Reg.WHL_LATE_CNT (n : Nat) : Nat := 0x40041054 + 0x100 * n
def Reg.WHL_SWAP_CNT (n : Nat) : Nat := 0x40041058 + 0x100 * n
def Reg.WHL_FORCED_CNT (n : Nat) : Nat := 0x4004105C + 0x100 * n
def Reg.WHL_STEP_CNT (n : Nat) : Nat := 0x40041060 + 0x100 * n
def Reg.WHL_CLAMP_CNT (n : Nat) : Nat := 0x40041064 + 0x100 * n
def Reg.WHL_BYP_CNT (n : Nat) : Nat := 0x40041068 + 0x100 * n
def Reg.WHL_BYPFAIL_CNT (n : Nat) : Nat := 0x4004106C + 0x100 * n
def Reg.WHL_SPEC_CNT (n : Nat) : Nat := 0x40041080 + 0x100 * n
def Reg.WHL_COMMIT_CNT (n : Nat) : Nat := 0x40041084 + 0x100 * n
def Reg.WHL_REPAIR_CNT (n : Nat) : Nat := 0x40041088 + 0x100 * n
def Reg.WHL_FALLBACK_CNT (n : Nat) : Nat := 0x4004108C + 0x100 * n
def Reg.WHL_CHK12_CNT (n : Nat) : Nat := 0x40041090 + 0x100 * n
def Reg.WHL_CHK34_CNT (n : Nat) : Nat := 0x40041094 + 0x100 * n
def Reg.WHL_STALEV_CNT (n : Nat) : Nat := 0x40041098 + 0x100 * n
def Reg.WHL_CONF_LAST (n : Nat) : Nat := 0x4004109C + 0x100 * n
def Reg.WHL_ATTR (n : Nat) : Nat := 0x40048000 + 0x4 * n
def Reg.WHL_CSTATE (n : Nat) : Nat := 0x4004C000 + 0x4 * n
def Fld.WHL_MAP_STAT_REASON : Field := ⟨Reg.WHL_MAP_STAT, 19, 16⟩
def Fld.WHL_MAP_STAT_WHEEL : Field := ⟨Reg.WHL_MAP_STAT, 15, 12⟩
def Fld.WHL_MAP_STAT_STATUS : Field := ⟨Reg.WHL_MAP_STAT, 7, 0⟩
def Fld.WHL_ROTA_USED (n : Nat) : Field := ⟨Reg.WHL_ROTA n, 8, 8⟩
def Fld.WHL_ROTA_FABRIC (n : Nat) : Field := ⟨Reg.WHL_ROTA n, 5, 4⟩
def Fld.WHL_ROTA_ROUND (n : Nat) : Field := ⟨Reg.WHL_ROTA n, 1, 0⟩
def Fld.WHL_CFG_FB_EN (n : Nat) : Field := ⟨Reg.WHL_CFG n, 2, 2⟩
def Fld.WHL_CFG_MODE (n : Nat) : Field := ⟨Reg.WHL_CFG n, 1, 1⟩
def Fld.WHL_CFG_EN (n : Nat) : Field := ⟨Reg.WHL_CFG n, 0, 0⟩
def Fld.WHL_SLOTS_FIRST (n : Nat) : Field := ⟨Reg.WHL_SLOTS n, 27, 16⟩
def Fld.WHL_SLOTS_COUNT (n : Nat) : Field := ⟨Reg.WHL_SLOTS n, 10, 0⟩
def Fld.WHL_COUNT_N_REQ (n : Nat) : Field := ⟨Reg.WHL_COUNT n, 26, 16⟩
def Fld.WHL_COUNT_N_MIN (n : Nat) : Field := ⟨Reg.WHL_COUNT n, 10, 0⟩
def Fld.WHL_BAND_BAND (n : Nat) : Field := ⟨Reg.WHL_BAND n, 15, 0⟩
def Fld.WHL_BUDGET_RATE (n : Nat) : Field := ⟨Reg.WHL_BUDGET n, 26, 16⟩
def Fld.WHL_BUDGET_DEPTH (n : Nat) : Field := ⟨Reg.WHL_BUDGET n, 6, 0⟩
def Fld.WHL_EDGE_VHOLD (n : Nat) : Field := ⟨Reg.WHL_EDGE n, 31, 24⟩
def Fld.WHL_EDGE_SWAP_MAX (n : Nat) : Field := ⟨Reg.WHL_EDGE n, 19, 16⟩
def Fld.WHL_EDGE_SPACE (n : Nat) : Field := ⟨Reg.WHL_EDGE n, 9, 0⟩
def Fld.WHL_IDEAD_IDEAD (n : Nat) : Field := ⟨Reg.WHL_IDEAD n, 31, 0⟩
def Fld.WHL_BYP_POLICY (n : Nat) : Field := ⟨Reg.WHL_BYP n, 11, 8⟩
def Fld.WHL_BYP_BYP_MAX (n : Nat) : Field := ⟨Reg.WHL_BYP n, 7, 0⟩
def Fld.WHL_IMEAS_CHAN (n : Nat) : Field := ⟨Reg.WHL_IMEAS n, 4, 0⟩
def Fld.WHL_THR_THR_HOLD (n : Nat) : Field := ⟨Reg.WHL_THR n, 5, 0⟩
def Fld.WHL_CELL_CTRL_OP (n : Nat) : Field := ⟨Reg.WHL_CELL_CTRL n, 31, 28⟩
def Fld.WHL_CELL_CTRL_SLOT (n : Nat) : Field := ⟨Reg.WHL_CELL_CTRL n, 11, 0⟩
def Fld.WHL_CELL_STAT_SLOT (n : Nat) : Field := ⟨Reg.WHL_CELL_STAT n, 19, 8⟩
def Fld.WHL_CELL_STAT_STATUS (n : Nat) : Field := ⟨Reg.WHL_CELL_STAT n, 7, 0⟩
def Fld.WHL_STATUS_N_CH (n : Nat) : Field := ⟨Reg.WHL_STATUS n, 31, 24⟩
def Fld.WHL_STATUS_POOL_MIN (n : Nat) : Field := ⟨Reg.WHL_STATUS n, 9, 9⟩
def Fld.WHL_STATUS_POOL_LOW (n : Nat) : Field := ⟨Reg.WHL_STATUS n, 8, 8⟩
def Fld.WHL_STATUS_CARRY_SAT (n : Nat) : Field := ⟨Reg.WHL_STATUS n, 7, 7⟩
def Fld.WHL_STATUS_ARM_BLOCKED (n : Nat) : Field := ⟨Reg.WHL_STATUS n, 6, 6⟩
def Fld.WHL_STATUS_DEBLOCKING (n : Nat) : Field := ⟨Reg.WHL_STATUS n, 5, 5⟩
def Fld.WHL_STATUS_STEP_LIMIT (n : Nat) : Field := ⟨Reg.WHL_STATUS n, 4, 4⟩
def Fld.WHL_STATUS_REF_CLAMP (n : Nat) : Field := ⟨Reg.WHL_STATUS n, 3, 3⟩
def Fld.WHL_STATUS_NO_REF (n : Nat) : Field := ⟨Reg.WHL_STATUS n, 2, 2⟩
def Fld.WHL_STATUS_STALE_REF (n : Nat) : Field := ⟨Reg.WHL_STATUS n, 1, 1⟩
def Fld.WHL_STATUS_DIR (n : Nat) : Field := ⟨Reg.WHL_STATUS n, 0, 0⟩
def Fld.WHL_POOL_N_INS (n : Nat) : Field := ⟨Reg.WHL_POOL n, 26, 16⟩
def Fld.WHL_POOL_N_AVAIL (n : Nat) : Field := ⟨Reg.WHL_POOL n, 10, 0⟩
def Fld.WHL_CARRY_CARRY (n : Nat) : Field := ⟨Reg.WHL_CARRY n, 31, 0⟩
def Fld.WHL_VERN_RUN (n : Nat) : Field := ⟨Reg.WHL_VERN n, 31, 24⟩
def Fld.WHL_VERN_NONE (n : Nat) : Field := ⟨Reg.WHL_VERN n, 23, 23⟩
def Fld.WHL_VERN_SLOT (n : Nat) : Field := ⟨Reg.WHL_VERN n, 11, 0⟩
def Fld.WHL_ENERGY_ENERGY (n : Nat) : Field := ⟨Reg.WHL_ENERGY n, 31, 0⟩
def Fld.WHL_SPREAD_SPREAD (n : Nat) : Field := ⟨Reg.WHL_SPREAD n, 31, 0⟩
def Fld.WHL_VSUM_VSUM (n : Nat) : Field := ⟨Reg.WHL_VSUM n, 31, 0⟩
def Fld.WHL_STALE_CNT_STALE (n : Nat) : Field := ⟨Reg.WHL_STALE_CNT n, 31, 0⟩
def Fld.WHL_LATE_CNT_LATE (n : Nat) : Field := ⟨Reg.WHL_LATE_CNT n, 31, 0⟩
def Fld.WHL_SWAP_CNT_SWAP (n : Nat) : Field := ⟨Reg.WHL_SWAP_CNT n, 31, 0⟩
def Fld.WHL_FORCED_CNT_FORCED (n : Nat) : Field := ⟨Reg.WHL_FORCED_CNT n, 31, 0⟩
def Fld.WHL_STEP_CNT_STEP (n : Nat) : Field := ⟨Reg.WHL_STEP_CNT n, 31, 0⟩
def Fld.WHL_CLAMP_CNT_CLAMP (n : Nat) : Field := ⟨Reg.WHL_CLAMP_CNT n, 31, 0⟩
def Fld.WHL_BYP_CNT_BYP (n : Nat) : Field := ⟨Reg.WHL_BYP_CNT n, 31, 0⟩
def Fld.WHL_BYPFAIL_CNT_BYP_FAIL (n : Nat) : Field := ⟨Reg.WHL_BYPFAIL_CNT n, 31, 0⟩
def Fld.WHL_ATTR_CAP (n : Nat) : Field := ⟨Reg.WHL_ATTR n, 31, 16⟩
def Fld.WHL_ATTR_FB (n : Nat) : Field := ⟨Reg.WHL_ATTR n, 1, 1⟩
def Fld.WHL_ATTR_MAPPED (n : Nat) : Field := ⟨Reg.WHL_ATTR n, 0, 0⟩
def Fld.WHL_CSTATE_POOL (n : Nat) : Field := ⟨Reg.WHL_CSTATE n, 31, 28⟩
def Fld.WHL_CSTATE_TOKENS (n : Nat) : Field := ⟨Reg.WHL_CSTATE n, 27, 16⟩
def Fld.WHL_CSTATE_FINAL (n : Nat) : Field := ⟨Reg.WHL_CSTATE n, 15, 13⟩
def Fld.WHL_TRC_CTRL_WMASK : Field := ⟨Reg.WHL_TRC_CTRL, 29, 18⟩
def Fld.WHL_TRC_CTRL_ONLY_FAIL : Field := ⟨Reg.WHL_TRC_CTRL, 3, 3⟩
def Fld.WHL_TRC_CTRL_NO_SPEC : Field := ⟨Reg.WHL_TRC_CTRL, 2, 2⟩
def Fld.WHL_TRC_CTRL_STOP : Field := ⟨Reg.WHL_TRC_CTRL, 1, 1⟩
def Fld.WHL_TRC_CTRL_EN : Field := ⟨Reg.WHL_TRC_CTRL, 0, 0⟩
def Fld.WHL_TRC_BASE_BASE_MIB : Field := ⟨Reg.WHL_TRC_BASE, 13, 0⟩
def Fld.WHL_TRC_WPTR_WPTR : Field := ⟨Reg.WHL_TRC_WPTR, 15, 0⟩
def Fld.WHL_TRC_STAT_LOST : Field := ⟨Reg.WHL_TRC_STAT, 31, 16⟩
def Fld.WHL_TRC_STAT_STOPPED : Field := ⟨Reg.WHL_TRC_STAT, 1, 1⟩
def Fld.WHL_TRC_STAT_WRAPPED : Field := ⟨Reg.WHL_TRC_STAT, 0, 0⟩
def Fld.WHL_SPEC_CNT_SPEC (n : Nat) : Field := ⟨Reg.WHL_SPEC_CNT n, 31, 0⟩
def Fld.WHL_COMMIT_CNT_COMMIT (n : Nat) : Field := ⟨Reg.WHL_COMMIT_CNT n, 31, 0⟩
def Fld.WHL_REPAIR_CNT_REPAIR (n : Nat) : Field := ⟨Reg.WHL_REPAIR_CNT n, 31, 0⟩
def Fld.WHL_FALLBACK_CNT_FALLBACK (n : Nat) : Field := ⟨Reg.WHL_FALLBACK_CNT n, 31, 0⟩
def Fld.WHL_CHK12_CNT_CHK2 (n : Nat) : Field := ⟨Reg.WHL_CHK12_CNT n, 31, 16⟩
def Fld.WHL_CHK12_CNT_CHK1 (n : Nat) : Field := ⟨Reg.WHL_CHK12_CNT n, 15, 0⟩
def Fld.WHL_CHK34_CNT_CHK4 (n : Nat) : Field := ⟨Reg.WHL_CHK34_CNT n, 31, 16⟩
def Fld.WHL_CHK34_CNT_CHK3 (n : Nat) : Field := ⟨Reg.WHL_CHK34_CNT n, 15, 0⟩
def Fld.WHL_STALEV_CNT_STALEV (n : Nat) : Field := ⟨Reg.WHL_STALEV_CNT n, 31, 0⟩
def Fld.WHL_CONF_LAST_TAG (n : Nat) : Field := ⟨Reg.WHL_CONF_LAST n, 31, 30⟩
def Fld.WHL_CONF_LAST_CAUSE (n : Nat) : Field := ⟨Reg.WHL_CONF_LAST n, 27, 24⟩
def Fld.WHL_CONF_LAST_FAILED (n : Nat) : Field := ⟨Reg.WHL_CONF_LAST n, 23, 20⟩
def Fld.WHL_CONF_LAST_FB_RUN (n : Nat) : Field := ⟨Reg.WHL_CONF_LAST n, 15, 8⟩
def Fld.WHL_CONF_LAST_MOVES (n : Nat) : Field := ⟨Reg.WHL_CONF_LAST n, 5, 0⟩

/-! Block LOOP at 0x40050000. -/
def Reg.LOOP_MODES : Nat := 0x40050000
def Reg.LOOP_MODE_CMD (n : Nat) : Nat := 0x40051000 + 0x100 * n
def Reg.LOOP_PB_CTRL (n : Nat) : Nat := 0x40051004 + 0x100 * n
def Reg.LOOP_PB_STAT (n : Nat) : Nat := 0x40051008 + 0x100 * n
def Reg.LOOP_PB_CYCLE (n : Nat) : Nat := 0x4005100C + 0x100 * n
def Reg.LOOP_STATUS (n : Nat) : Nat := 0x40051010 + 0x100 * n
def Reg.LOOP_TUPD (n : Nat) : Nat := 0x40051014 + 0x100 * n
def Reg.LOOP_UPD_CNT (n : Nat) : Nat := 0x40051020 + 0x100 * n
def Reg.LOOP_SAT_CNT (n : Nat) : Nat := 0x40051024 + 0x100 * n
def Reg.LOOP_WINDUP_CNT (n : Nat) : Nat := 0x40051028 + 0x100 * n
def Reg.LOOP_HELD_CNT (n : Nat) : Nat := 0x4005102C + 0x100 * n
def Reg.LOOP_SKIP_CNT (n : Nat) : Nat := 0x40051030 + 0x100 * n
def Reg.LOOP_CLOSED_CNT (n : Nat) : Nat := 0x40051034 + 0x100 * n
def Reg.LOOP_BUSY_CNT (n : Nat) : Nat := 0x40051038 + 0x100 * n
def Reg.LOOP_NONFIN_CNT (n : Nat) : Nat := 0x4005103C + 0x100 * n
def Reg.LOOP_STAGING (n i : Nat) : Nat := 0x40054000 + 0x1000 * n + 0x4 * i
def Fld.LOOP_MODES_MODES : Field := ⟨Reg.LOOP_MODES, 15, 0⟩
def Fld.LOOP_MODE_CMD_GO (n : Nat) : Field := ⟨Reg.LOOP_MODE_CMD n, 31, 31⟩
def Fld.LOOP_MODE_CMD_MODE (n : Nat) : Field := ⟨Reg.LOOP_MODE_CMD n, 1, 0⟩
def Fld.LOOP_PB_CTRL_ID (n : Nat) : Field := ⟨Reg.LOOP_PB_CTRL n, 31, 16⟩
def Fld.LOOP_PB_CTRL_COMMIT (n : Nat) : Field := ⟨Reg.LOOP_PB_CTRL n, 15, 15⟩
def Fld.LOOP_PB_CTRL_REGIONS (n : Nat) : Field := ⟨Reg.LOOP_PB_CTRL n, 10, 0⟩
def Fld.LOOP_PB_STAT_ID (n : Nat) : Field := ⟨Reg.LOOP_PB_STAT n, 31, 16⟩
def Fld.LOOP_PB_STAT_STATUS (n : Nat) : Field := ⟨Reg.LOOP_PB_STAT n, 7, 0⟩
def Fld.LOOP_PB_CYCLE_CYCLE (n : Nat) : Field := ⟨Reg.LOOP_PB_CYCLE n, 31, 0⟩
def Fld.LOOP_STATUS_ATTGT (n : Nat) : Field := ⟨Reg.LOOP_STATUS n, 31, 24⟩
def Fld.LOOP_STATUS_SATMASK (n : Nat) : Field := ⟨Reg.LOOP_STATUS n, 23, 16⟩
def Fld.LOOP_STATUS_NONFINITE (n : Nat) : Field := ⟨Reg.LOOP_STATUS n, 7, 7⟩
def Fld.LOOP_STATUS_NO_PRESET (n : Nat) : Field := ⟨Reg.LOOP_STATUS n, 6, 6⟩
def Fld.LOOP_STATUS_PRESET_CLAMP (n : Nat) : Field := ⟨Reg.LOOP_STATUS n, 5, 5⟩
def Fld.LOOP_STATUS_SKIP (n : Nat) : Field := ⟨Reg.LOOP_STATUS n, 4, 4⟩
def Fld.LOOP_STATUS_HELD (n : Nat) : Field := ⟨Reg.LOOP_STATUS n, 3, 3⟩
def Fld.LOOP_STATUS_WINDUP (n : Nat) : Field := ⟨Reg.LOOP_STATUS n, 2, 2⟩
def Fld.LOOP_STATUS_MODE (n : Nat) : Field := ⟨Reg.LOOP_STATUS n, 1, 0⟩
def Fld.LOOP_TUPD_TUPD (n : Nat) : Field := ⟨Reg.LOOP_TUPD n, 8, 0⟩
def Fld.LOOP_UPD_CNT_UPD (n : Nat) : Field := ⟨Reg.LOOP_UPD_CNT n, 31, 0⟩
def Fld.LOOP_SAT_CNT_SAT (n : Nat) : Field := ⟨Reg.LOOP_SAT_CNT n, 31, 0⟩
def Fld.LOOP_WINDUP_CNT_WINDUP (n : Nat) : Field := ⟨Reg.LOOP_WINDUP_CNT n, 31, 0⟩
def Fld.LOOP_HELD_CNT_HELD (n : Nat) : Field := ⟨Reg.LOOP_HELD_CNT n, 31, 0⟩
def Fld.LOOP_SKIP_CNT_SKIP (n : Nat) : Field := ⟨Reg.LOOP_SKIP_CNT n, 31, 0⟩
def Fld.LOOP_CLOSED_CNT_CLOSED (n : Nat) : Field := ⟨Reg.LOOP_CLOSED_CNT n, 31, 0⟩
def Fld.LOOP_BUSY_CNT_BUSY (n : Nat) : Field := ⟨Reg.LOOP_BUSY_CNT n, 31, 0⟩
def Fld.LOOP_NONFIN_CNT_NONFIN (n : Nat) : Field := ⟨Reg.LOOP_NONFIN_CNT n, 31, 0⟩
def Fld.LOOP_STAGING_WORD (n i : Nat) : Field := ⟨Reg.LOOP_STAGING n i, 31, 0⟩

/-! Block FAD at 0x40060000. -/
def Reg.FAD_CTRL : Nat := 0x40060000
def Reg.FAD_CAL_STAT : Nat := 0x40060004
def Reg.FAD_STATUS : Nat := 0x40060008
def Reg.FAD_OVR : Nat := 0x4006000C
def Reg.FAD_CMR : Nat := 0x40060010
def Reg.FAD_WIN_STAT : Nat := 0x40060014
def Reg.FAD_WIN_LATCH : Nat := 0x40060018
def Reg.FAD_CH_CFG (n : Nat) : Nat := 0x40060100 + 0x20 * n
def Reg.FAD_WIN_CFG (n : Nat) : Nat := 0x40060104 + 0x20 * n
def Reg.FAD_WIN_HI (n : Nat) : Nat := 0x40060108 + 0x20 * n
def Reg.FAD_WIN_LO (n : Nat) : Nat := 0x4006010C + 0x20 * n
def Reg.FAD_CH_OFFS (n : Nat) : Nat := 0x40060110 + 0x20 * n
def Reg.FAD_CH_GAIN (n : Nat) : Nat := 0x40060114 + 0x20 * n
def Reg.FAD_TRIP_CNT (n : Nat) : Nat := 0x40060118 + 0x20 * n
def Reg.FAD_OVR_CNT (n : Nat) : Nat := 0x4006011C + 0x20 * n
def Fld.FAD_CTRL_FGCAL_GO : Field := ⟨Reg.FAD_CTRL, 24, 24⟩
def Fld.FAD_CTRL_CAL_MASK : Field := ⟨Reg.FAD_CTRL, 23, 0⟩
def Fld.FAD_CAL_STAT_ABORT : Field := ⟨Reg.FAD_CAL_STAT, 8, 8⟩
def Fld.FAD_CAL_STAT_STATUS : Field := ⟨Reg.FAD_CAL_STAT, 7, 0⟩
def Fld.FAD_STATUS_FGCAL : Field := ⟨Reg.FAD_STATUS, 31, 31⟩
def Fld.FAD_STATUS_BG_CONV : Field := ⟨Reg.FAD_STATUS, 27, 16⟩
def Fld.FAD_STATUS_IL : Field := ⟨Reg.FAD_STATUS, 11, 0⟩
def Fld.FAD_OVR_OVR : Field := ⟨Reg.FAD_OVR, 23, 0⟩
def Fld.FAD_CMR_CMR : Field := ⟨Reg.FAD_CMR, 23, 0⟩
def Fld.FAD_WIN_STAT_TRIP : Field := ⟨Reg.FAD_WIN_STAT, 23, 0⟩
def Fld.FAD_WIN_LATCH_SEEN : Field := ⟨Reg.FAD_WIN_LATCH, 23, 0⟩
def Fld.FAD_CH_CFG_IL (n : Nat) : Field := ⟨Reg.FAD_CH_CFG n, 1, 1⟩
def Fld.FAD_CH_CFG_EN (n : Nat) : Field := ⟨Reg.FAD_CH_CFG n, 0, 0⟩
def Fld.FAD_WIN_CFG_BLK_EN (n : Nat) : Field := ⟨Reg.FAD_WIN_CFG n, 31, 31⟩
def Fld.FAD_WIN_CFG_HYST (n : Nat) : Field := ⟨Reg.FAD_WIN_CFG n, 27, 16⟩
def Fld.FAD_WIN_CFG_EN (n : Nat) : Field := ⟨Reg.FAD_WIN_CFG n, 8, 8⟩
def Fld.FAD_WIN_CFG_QUAL (n : Nat) : Field := ⟨Reg.FAD_WIN_CFG n, 3, 0⟩
def Fld.FAD_WIN_HI_HI (n : Nat) : Field := ⟨Reg.FAD_WIN_HI n, 31, 0⟩
def Fld.FAD_WIN_LO_LO (n : Nat) : Field := ⟨Reg.FAD_WIN_LO n, 31, 0⟩
def Fld.FAD_CH_OFFS_OFFS (n : Nat) : Field := ⟨Reg.FAD_CH_OFFS n, 31, 0⟩
def Fld.FAD_CH_GAIN_GAIN (n : Nat) : Field := ⟨Reg.FAD_CH_GAIN n, 31, 0⟩
def Fld.FAD_TRIP_CNT_TRIP (n : Nat) : Field := ⟨Reg.FAD_TRIP_CNT n, 31, 0⟩
def Fld.FAD_OVR_CNT_OVR (n : Nat) : Field := ⟨Reg.FAD_OVR_CNT n, 31, 0⟩

/-! Block HKA at 0x40070000. -/
def Reg.HKA_CTRL : Nat := 0x40070000
def Reg.HKA_MASK : Nat := 0x40070004
def Reg.HKA_TIMER : Nat := 0x40070008
def Reg.HKA_ESCDIV : Nat := 0x4007000C
def Reg.HKA_MODE : Nat := 0x40070010
def Reg.HKA_BUF_BASE : Nat := 0x40070014
def Reg.HKA_BUF_CFG : Nat := 0x40070018
def Reg.HKA_EVT : Nat := 0x4007001C
def Reg.HKA_BUF_WPTR : Nat := 0x40070020
def Reg.HKA_STATUS : Nat := 0x40070024
def Reg.HKA_SCAN_T_0 : Nat := 0x40070030
def Reg.HKA_SCAN_T_1 : Nat := 0x40070034
def Reg.HKA_SCAN_T_2 : Nat := 0x40070038
def Reg.HKA_INJ_REQ : Nat := 0x40070040
def Reg.HKA_INJ_STAT : Nat := 0x40070044
def Reg.HKA_INJ_RES (n : Nat) : Nat := 0x40070050 + 0x4 * n
def Reg.HKA_UNDER : Nat := 0x40070060
def Reg.HKA_OVER : Nat := 0x40070064
def Reg.HKA_SCAN_CNT : Nat := 0x40070070
def Reg.HKA_SKIP_BUSY_CNT : Nat := 0x40070074
def Reg.HKA_SKIP_CAL_CNT : Nat := 0x40070078
def Reg.HKA_INJ_REF_CNT : Nat := 0x4007007C
def Reg.HKA_INJ_DBC_CNT : Nat := 0x40070080
def Reg.HKA_LAST (n : Nat) : Nat := 0x40070100 + 0x4 * n
def Fld.HKA_CTRL_CAL_GO : Field := ⟨Reg.HKA_CTRL, 17, 17⟩
def Fld.HKA_CTRL_SCAN_GO : Field := ⟨Reg.HKA_CTRL, 16, 16⟩
def Fld.HKA_CTRL_TRIG : Field := ⟨Reg.HKA_CTRL, 1, 0⟩
def Fld.HKA_MASK_MASK : Field := ⟨Reg.HKA_MASK, 31, 0⟩
def Fld.HKA_TIMER_PERIOD : Field := ⟨Reg.HKA_TIMER, 19, 0⟩
def Fld.HKA_ESCDIV_DIV : Field := ⟨Reg.HKA_ESCDIV, 15, 0⟩
def Fld.HKA_MODE_CUR : Field := ⟨Reg.HKA_MODE, 15, 0⟩
def Fld.HKA_BUF_BASE_BASE_KIB : Field := ⟨Reg.HKA_BUF_BASE, 23, 0⟩
def Fld.HKA_BUF_CFG_WRAP_EN : Field := ⟨Reg.HKA_BUF_CFG, 9, 9⟩
def Fld.HKA_BUF_CFG_HALF_EN : Field := ⟨Reg.HKA_BUF_CFG, 8, 8⟩
def Fld.HKA_BUF_CFG_SIZE : Field := ⟨Reg.HKA_BUF_CFG, 4, 0⟩
def Fld.HKA_EVT_CLASS : Field := ⟨Reg.HKA_EVT, 17, 16⟩
def Fld.HKA_EVT_FLOW : Field := ⟨Reg.HKA_EVT, 15, 0⟩
def Fld.HKA_BUF_WPTR_WPTR : Field := ⟨Reg.HKA_BUF_WPTR, 17, 0⟩
def Fld.HKA_STATUS_CAL : Field := ⟨Reg.HKA_STATUS, 7, 7⟩
def Fld.HKA_STATUS_SCANNING : Field := ⟨Reg.HKA_STATUS, 6, 6⟩
def Fld.HKA_STATUS_POWERED : Field := ⟨Reg.HKA_STATUS, 5, 5⟩
def Fld.HKA_STATUS_CAL_DONE : Field := ⟨Reg.HKA_STATUS, 4, 4⟩
def Fld.HKA_STATUS_SELFTEST_FAIL : Field := ⟨Reg.HKA_STATUS, 3, 3⟩
def Fld.HKA_STATUS_QDEPTH : Field := ⟨Reg.HKA_STATUS, 2, 0⟩
def Fld.HKA_SCAN_T_0_NS : Field := ⟨Reg.HKA_SCAN_T_0, 31, 0⟩
def Fld.HKA_SCAN_T_1_SEC_LO : Field := ⟨Reg.HKA_SCAN_T_1, 31, 0⟩
def Fld.HKA_SCAN_T_2_SEC_HI : Field := ⟨Reg.HKA_SCAN_T_2, 15, 0⟩
def Fld.HKA_INJ_REQ_CHAN : Field := ⟨Reg.HKA_INJ_REQ, 4, 0⟩
def Fld.HKA_INJ_STAT_SLOT : Field := ⟨Reg.HKA_INJ_STAT, 9, 8⟩
def Fld.HKA_INJ_STAT_STATUS : Field := ⟨Reg.HKA_INJ_STAT, 7, 0⟩
def Fld.HKA_INJ_RES_VALID (n : Nat) : Field := ⟨Reg.HKA_INJ_RES n, 31, 31⟩
def Fld.HKA_INJ_RES_DELAYED_BY_CAL (n : Nat) : Field := ⟨Reg.HKA_INJ_RES n, 30, 30⟩
def Fld.HKA_INJ_RES_CHAN (n : Nat) : Field := ⟨Reg.HKA_INJ_RES n, 20, 16⟩
def Fld.HKA_INJ_RES_RESULT (n : Nat) : Field := ⟨Reg.HKA_INJ_RES n, 15, 0⟩
def Fld.HKA_UNDER_UNDER : Field := ⟨Reg.HKA_UNDER, 15, 0⟩
def Fld.HKA_OVER_OVER : Field := ⟨Reg.HKA_OVER, 15, 0⟩
def Fld.HKA_LAST_ENTRY (n : Nat) : Field := ⟨Reg.HKA_LAST n, 31, 0⟩
def Fld.HKA_SCAN_CNT_SCAN : Field := ⟨Reg.HKA_SCAN_CNT, 31, 0⟩
def Fld.HKA_SKIP_BUSY_CNT_BUSY : Field := ⟨Reg.HKA_SKIP_BUSY_CNT, 31, 0⟩
def Fld.HKA_SKIP_CAL_CNT_CAL : Field := ⟨Reg.HKA_SKIP_CAL_CNT, 31, 0⟩
def Fld.HKA_INJ_REF_CNT_REF : Field := ⟨Reg.HKA_INJ_REF_CNT, 31, 0⟩
def Fld.HKA_INJ_DBC_CNT_DBC : Field := ⟨Reg.HKA_INJ_DBC_CNT, 31, 0⟩

/-! Block FLT at 0x40080000. -/
def Reg.FLT_CTRL : Nat := 0x40080000
def Reg.FLT_SYNC_STAT : Nat := 0x40080004
def Reg.FLT_SYNC_T_0 : Nat := 0x40080010
def Reg.FLT_SYNC_T_1 : Nat := 0x40080014
def Reg.FLT_SYNC_T_2 : Nat := 0x40080018
def Reg.FLT_SYNC_CNT : Nat := 0x40080020
def Reg.FLT_SYNC_IGN_CNT : Nat := 0x40080024
def Reg.FLT_CH_CFG (n : Nat) : Nat := 0x40080100 + 0x40 * n
def Reg.FLT_DCB (n : Nat) : Nat := 0x40080104 + 0x40 * n
def Reg.FLT_SV (n : Nat) : Nat := 0x40080108 + 0x40 * n
def Reg.FLT_SV_LAG (n : Nat) : Nat := 0x4008010C + 0x40 * n
def Reg.FLT_SV_DELAY (n : Nat) : Nat := 0x40080110 + 0x40 * n
def Reg.FLT_FILL (n : Nat) : Nat := 0x40080114 + 0x40 * n
def Reg.FLT_GD_0 (n : Nat) : Nat := 0x40080118 + 0x40 * n
def Reg.FLT_GD_1 (n : Nat) : Nat := 0x4008011C + 0x40 * n
def Reg.FLT_RATIO_0 (n : Nat) : Nat := 0x40080120 + 0x40 * n
def Reg.FLT_RATIO_1 (n : Nat) : Nat := 0x40080124 + 0x40 * n
def Reg.FLT_STATUS (n : Nat) : Nat := 0x40080128 + 0x40 * n
def Reg.FLT_DCB_EST (n : Nat) : Nat := 0x4008012C + 0x40 * n
def Reg.FLT_SETTLE_CNT (n : Nat) : Nat := 0x40080130 + 0x40 * n
def Reg.FLT_SVMISS_CNT (n : Nat) : Nat := 0x40080134 + 0x40 * n
def Reg.FLT_SAT_CNT (n : Nat) : Nat := 0x40080138 + 0x40 * n
def Reg.FLT_FIR (n i : Nat) : Nat := 0x40081000 + 0x80 * n + 0x4 * i
def Fld.FLT_CTRL_SYNC_GO : Field := ⟨Reg.FLT_CTRL, 3, 3⟩
def Fld.FLT_CTRL_SYNC_RUN : Field := ⟨Reg.FLT_CTRL, 2, 2⟩
def Fld.FLT_CTRL_SYNC_POL : Field := ⟨Reg.FLT_CTRL, 1, 1⟩
def Fld.FLT_CTRL_SYNC_EN : Field := ⟨Reg.FLT_CTRL, 0, 0⟩
def Fld.FLT_SYNC_STAT_PENDING : Field := ⟨Reg.FLT_SYNC_STAT, 8, 8⟩
def Fld.FLT_SYNC_STAT_STATUS : Field := ⟨Reg.FLT_SYNC_STAT, 7, 0⟩
def Fld.FLT_SYNC_T_0_NS : Field := ⟨Reg.FLT_SYNC_T_0, 31, 0⟩
def Fld.FLT_SYNC_T_1_SEC_LO : Field := ⟨Reg.FLT_SYNC_T_1, 31, 0⟩
def Fld.FLT_SYNC_T_2_SEC_HI : Field := ⟨Reg.FLT_SYNC_T_2, 15, 0⟩
def Fld.FLT_SYNC_CNT_SYNC : Field := ⟨Reg.FLT_SYNC_CNT, 31, 0⟩
def Fld.FLT_SYNC_IGN_CNT_IGN : Field := ⟨Reg.FLT_SYNC_IGN_CNT, 31, 0⟩
def Fld.FLT_CH_CFG_SCS (n : Nat) : Field := ⟨Reg.FLT_CH_CFG n, 31, 31⟩
def Fld.FLT_CH_CFG_SRC (n : Nat) : Field := ⟨Reg.FLT_CH_CFG n, 30, 30⟩
def Fld.FLT_CH_CFG_M (n : Nat) : Field := ⟨Reg.FLT_CH_CFG n, 27, 24⟩
def Fld.FLT_CH_CFG_ORDER (n : Nat) : Field := ⟨Reg.FLT_CH_CFG n, 18, 16⟩
def Fld.FLT_CH_CFG_NTAP (n : Nat) : Field := ⟨Reg.FLT_CH_CFG n, 14, 8⟩
def Fld.FLT_CH_CFG_DEC (n : Nat) : Field := ⟨Reg.FLT_CH_CFG n, 6, 0⟩
def Fld.FLT_DCB_EN (n : Nat) : Field := ⟨Reg.FLT_DCB n, 31, 31⟩
def Fld.FLT_DCB_FREEZE (n : Nat) : Field := ⟨Reg.FLT_DCB n, 30, 30⟩
def Fld.FLT_DCB_RST (n : Nat) : Field := ⟨Reg.FLT_DCB n, 29, 29⟩
def Fld.FLT_DCB_CORNER (n : Nat) : Field := ⟨Reg.FLT_DCB n, 9, 0⟩
def Fld.FLT_SV_STREAM (n : Nat) : Field := ⟨Reg.FLT_SV n, 12, 8⟩
def Fld.FLT_SV_KIND (n : Nat) : Field := ⟨Reg.FLT_SV n, 7, 7⟩
def Fld.FLT_SV_ELEM (n : Nat) : Field := ⟨Reg.FLT_SV n, 3, 0⟩
def Fld.FLT_SV_LAG_LAG (n : Nat) : Field := ⟨Reg.FLT_SV_LAG n, 16, 0⟩
def Fld.FLT_SV_DELAY_DELAY (n : Nat) : Field := ⟨Reg.FLT_SV_DELAY n, 23, 0⟩
def Fld.FLT_FIR_COEF (n i : Nat) : Field := ⟨Reg.FLT_FIR n i, 23, 0⟩
def Fld.FLT_FILL_N_FILL (n : Nat) : Field := ⟨Reg.FLT_FILL n, 19, 0⟩
def Fld.FLT_GD_0_NS_LO (n : Nat) : Field := ⟨Reg.FLT_GD_0 n, 31, 16⟩
def Fld.FLT_GD_0_FRAC (n : Nat) : Field := ⟨Reg.FLT_GD_0 n, 15, 0⟩
def Fld.FLT_GD_1_NS_HI (n : Nat) : Field := ⟨Reg.FLT_GD_1 n, 31, 0⟩
def Fld.FLT_RATIO_0_FRAC (n : Nat) : Field := ⟨Reg.FLT_RATIO_0 n, 31, 0⟩
def Fld.FLT_RATIO_1_INT (n : Nat) : Field := ⟨Reg.FLT_RATIO_1 n, 31, 0⟩
def Fld.FLT_STATUS_SETTLING (n : Nat) : Field := ⟨Reg.FLT_STATUS n, 31, 31⟩
def Fld.FLT_STATUS_FROZEN (n : Nat) : Field := ⟨Reg.FLT_STATUS n, 30, 30⟩
def Fld.FLT_STATUS_SV_SYNC (n : Nat) : Field := ⟨Reg.FLT_STATUS n, 29, 29⟩
def Fld.FLT_STATUS_SAT (n : Nat) : Field := ⟨Reg.FLT_STATUS n, 28, 28⟩
def Fld.FLT_STATUS_FILL_LEFT (n : Nat) : Field := ⟨Reg.FLT_STATUS n, 19, 0⟩
def Fld.FLT_DCB_EST_EST (n : Nat) : Field := ⟨Reg.FLT_DCB_EST n, 31, 0⟩
def Fld.FLT_SETTLE_CNT_SETTLE (n : Nat) : Field := ⟨Reg.FLT_SETTLE_CNT n, 31, 0⟩
def Fld.FLT_SVMISS_CNT_MISS (n : Nat) : Field := ⟨Reg.FLT_SVMISS_CNT n, 31, 0⟩
def Fld.FLT_SAT_CNT_SAT (n : Nat) : Field := ⟨Reg.FLT_SAT_CNT n, 31, 0⟩

/-! Block CHR at 0x40090000. -/
def Reg.CHR_CTRL : Nat := 0x40090000
def Reg.CHR_STATUS : Nat := 0x40090004
def Reg.CHR_PRE : Nat := 0x40090008
def Reg.CHR_POST : Nat := 0x4009000C
def Reg.CHR_HOLD : Nat := 0x40090010
def Reg.CHR_SEGSEL : Nat := 0x40090014
def Reg.CHR_RAW : Nat := 0x40090018
def Reg.CHR_FILT : Nat := 0x4009001C
def Reg.CHR_CONTENT : Nat := 0x40090020
def Reg.CHR_ID : Nat := 0x40090024
def Reg.CHR_TEN : Nat := 0x40090028
def Reg.CHR_SEQ_A : Nat := 0x4009002C
def Reg.CHR_SEQ_WIN : Nat := 0x40090030
def Reg.CHR_TRIGIO : Nat := 0x40090034
def Reg.CHR_FAULT : Nat := 0x40090038
def Reg.CHR_EVT : Nat := 0x4009003C
def Reg.CHR_PAT_VAL (n : Nat) : Nat := 0x40090040 + 0x4 * n
def Reg.CHR_PAT_CARE (n : Nat) : Nat := 0x40090050 + 0x4 * n
def Reg.CHR_AT_CFG (n : Nat) : Nat := 0x40090060 + 0x10 * n
def Reg.CHR_AT_HI (n : Nat) : Nat := 0x40090064 + 0x10 * n
def Reg.CHR_AT_LO (n : Nat) : Nat := 0x40090068 + 0x10 * n
def Reg.CHR_AT_HYST (n : Nat) : Nat := 0x4009006C + 0x10 * n
def Reg.CHR_MASK (n : Nat) : Nat := 0x400900A0 + 0x4 * n
def Reg.CHR_SEG (n : Nat) : Nat := 0x400900C0 + 0x4 * n
def Reg.CHR_SEGSTAT (n : Nat) : Nat := 0x40090100 + 0x4 * n
def Reg.CHR_DERIV (n : Nat) : Nat := 0x40090140 + 0x4 * n
def Reg.CHR_STRM_CFG : Nat := 0x40090180
def Reg.CHR_STRM_ADDR : Nat := 0x40090184
def Reg.CHR_SEG_REL : Nat := 0x40090188
def Reg.CHR_TRIG_T_0 : Nat := 0x40090190
def Reg.CHR_TRIG_T_1 : Nat := 0x40090194
def Reg.CHR_TRIG_T_2 : Nat := 0x40090198
def Reg.CHR_REC_CNT : Nat := 0x400901A0
def Reg.CHR_FS_CNT : Nat := 0x400901A4
def Reg.CHR_OVF_CNT : Nat := 0x400901A8
def Reg.CHR_MARK_LOST_CNT : Nat := 0x400901AC
def Reg.CHR_HURDLE_HI (n i : Nat) : Nat := 0x40098000 + 0x1000 * n + 0x8 * i
def Reg.CHR_HURDLE_LO (n i : Nat) : Nat := 0x40098004 + 0x1000 * n + 0x8 * i
def Fld.CHR_CTRL_ARM : Field := ⟨Reg.CHR_CTRL, 31, 31⟩
def Fld.CHR_CTRL_DISARM : Field := ⟨Reg.CHR_CTRL, 30, 30⟩
def Fld.CHR_CTRL_SW_TRIG : Field := ⟨Reg.CHR_CTRL, 29, 29⟩
def Fld.CHR_CTRL_AUTO_REARM : Field := ⟨Reg.CHR_CTRL, 3, 3⟩
def Fld.CHR_CTRL_HOLD_MODE : Field := ⟨Reg.CHR_CTRL, 2, 2⟩
def Fld.CHR_CTRL_DEST : Field := ⟨Reg.CHR_CTRL, 0, 0⟩
def Fld.CHR_STATUS_STATUS : Field := ⟨Reg.CHR_STATUS, 31, 24⟩
def Fld.CHR_STATUS_SEG : Field := ⟨Reg.CHR_STATUS, 15, 12⟩
def Fld.CHR_STATUS_STAGE_B : Field := ⟨Reg.CHR_STATUS, 4, 4⟩
def Fld.CHR_STATUS_STATE : Field := ⟨Reg.CHR_STATUS, 2, 0⟩
def Fld.CHR_PRE_PRE : Field := ⟨Reg.CHR_PRE, 15, 0⟩
def Fld.CHR_POST_POST : Field := ⟨Reg.CHR_POST, 15, 0⟩
def Fld.CHR_HOLD_HOLD_N : Field := ⟨Reg.CHR_HOLD, 31, 16⟩
def Fld.CHR_HOLD_HOLD_T : Field := ⟨Reg.CHR_HOLD, 15, 0⟩
def Fld.CHR_SEGSEL_SEG_MASK : Field := ⟨Reg.CHR_SEGSEL, 15, 0⟩
def Fld.CHR_RAW_RAW : Field := ⟨Reg.CHR_RAW, 23, 0⟩
def Fld.CHR_FILT_FILT : Field := ⟨Reg.CHR_FILT, 23, 0⟩
def Fld.CHR_CONTENT_NDERIV : Field := ⟨Reg.CHR_CONTENT, 28, 24⟩
def Fld.CHR_CONTENT_DIG_EN : Field := ⟨Reg.CHR_CONTENT, 16, 16⟩
def Fld.CHR_CONTENT_WHEEL : Field := ⟨Reg.CHR_CONTENT, 11, 0⟩
def Fld.CHR_ID_CFG_ID : Field := ⟨Reg.CHR_ID, 15, 0⟩
def Fld.CHR_EVT_CLASS : Field := ⟨Reg.CHR_EVT, 17, 16⟩
def Fld.CHR_EVT_FLOW : Field := ⟨Reg.CHR_EVT, 15, 0⟩
def Fld.CHR_TEN_TEN : Field := ⟨Reg.CHR_TEN, 15, 0⟩
def Fld.CHR_SEQ_A_EN : Field := ⟨Reg.CHR_SEQ_A, 31, 31⟩
def Fld.CHR_SEQ_A_SET_A : Field := ⟨Reg.CHR_SEQ_A, 15, 0⟩
def Fld.CHR_SEQ_WIN_WIN : Field := ⟨Reg.CHR_SEQ_WIN, 23, 0⟩
def Fld.CHR_TRIGIO_IN_EDGE : Field := ⟨Reg.CHR_TRIGIO, 9, 8⟩
def Fld.CHR_TRIGIO_OUT_EN : Field := ⟨Reg.CHR_TRIGIO, 0, 0⟩
def Fld.CHR_FAULT_CLASSES : Field := ⟨Reg.CHR_FAULT, 3, 0⟩
def Fld.CHR_PAT_VAL_VAL (n : Nat) : Field := ⟨Reg.CHR_PAT_VAL n, 31, 0⟩
def Fld.CHR_PAT_CARE_CARE (n : Nat) : Field := ⟨Reg.CHR_PAT_CARE n, 31, 0⟩
def Fld.CHR_AT_CFG_TYPE (n : Nat) : Field := ⟨Reg.CHR_AT_CFG n, 31, 28⟩
def Fld.CHR_AT_CFG_CHAN (n : Nat) : Field := ⟨Reg.CHR_AT_CFG n, 4, 0⟩
def Fld.CHR_AT_HI_VALUE (n : Nat) : Field := ⟨Reg.CHR_AT_HI n, 31, 0⟩
def Fld.CHR_AT_LO_VALUE (n : Nat) : Field := ⟨Reg.CHR_AT_LO n, 31, 0⟩
def Fld.CHR_AT_HYST_VALUE (n : Nat) : Field := ⟨Reg.CHR_AT_HYST n, 31, 0⟩
def Fld.CHR_MASK_EN (n : Nat) : Field := ⟨Reg.CHR_MASK n, 31, 31⟩
def Fld.CHR_MASK_ACTION (n : Nat) : Field := ⟨Reg.CHR_MASK n, 30, 30⟩
def Fld.CHR_MASK_KIND (n : Nat) : Field := ⟨Reg.CHR_MASK n, 29, 29⟩
def Fld.CHR_MASK_CHAN (n : Nat) : Field := ⟨Reg.CHR_MASK n, 20, 16⟩
def Fld.CHR_MASK_NPOS (n : Nat) : Field := ⟨Reg.CHR_MASK n, 9, 0⟩
def Fld.CHR_HURDLE_HI_LIMIT (n i : Nat) : Field := ⟨Reg.CHR_HURDLE_HI n i, 31, 0⟩
def Fld.CHR_HURDLE_LO_LIMIT (n i : Nat) : Field := ⟨Reg.CHR_HURDLE_LO n i, 31, 0⟩
def Fld.CHR_DERIV_KIND (n : Nat) : Field := ⟨Reg.CHR_DERIV n, 31, 28⟩
def Fld.CHR_DERIV_SEL (n : Nat) : Field := ⟨Reg.CHR_DERIV n, 11, 0⟩
def Fld.CHR_SEG_SIZE_MIB (n : Nat) : Field := ⟨Reg.CHR_SEG n, 31, 16⟩
def Fld.CHR_SEG_BASE_MIB (n : Nat) : Field := ⟨Reg.CHR_SEG n, 13, 0⟩
def Fld.CHR_SEGSTAT_STATE (n : Nat) : Field := ⟨Reg.CHR_SEGSTAT n, 31, 30⟩
def Fld.CHR_SEGSTAT_RECORD (n : Nat) : Field := ⟨Reg.CHR_SEGSTAT n, 15, 0⟩
def Fld.CHR_SEG_REL_GO : Field := ⟨Reg.CHR_SEG_REL, 4, 4⟩
def Fld.CHR_SEG_REL_SEG : Field := ⟨Reg.CHR_SEG_REL, 3, 0⟩
def Fld.CHR_STRM_CFG_UDP_PORT : Field := ⟨Reg.CHR_STRM_CFG, 31, 16⟩
def Fld.CHR_STRM_CFG_SEG : Field := ⟨Reg.CHR_STRM_CFG, 15, 12⟩
def Fld.CHR_STRM_CFG_PORT : Field := ⟨Reg.CHR_STRM_CFG, 1, 0⟩
def Fld.CHR_STRM_ADDR_ADDR : Field := ⟨Reg.CHR_STRM_ADDR, 31, 0⟩
def Fld.CHR_TRIG_T_0_NS : Field := ⟨Reg.CHR_TRIG_T_0, 31, 0⟩
def Fld.CHR_TRIG_T_1_SEC_LO : Field := ⟨Reg.CHR_TRIG_T_1, 31, 0⟩
def Fld.CHR_TRIG_T_2_SEC_HI : Field := ⟨Reg.CHR_TRIG_T_2, 15, 0⟩
def Fld.CHR_REC_CNT_REC : Field := ⟨Reg.CHR_REC_CNT, 31, 0⟩
def Fld.CHR_FS_CNT_FS : Field := ⟨Reg.CHR_FS_CNT, 31, 0⟩
def Fld.CHR_OVF_CNT_OVF : Field := ⟨Reg.CHR_OVF_CNT, 31, 0⟩
def Fld.CHR_MARK_LOST_CNT_LOST : Field := ⟨Reg.CHR_MARK_LOST_CNT, 31, 0⟩

/-! Block TIM at 0x400A0000. -/
def Reg.TIM_CTRL : Nat := 0x400A0000
def Reg.TIM_STATUS : Nat := 0x400A0004
def Reg.TIM_SERVO : Nat := 0x400A0008
def Reg.TIM_HOLD : Nat := 0x400A000C
def Reg.TIM_ADJ_CTRL : Nat := 0x400A0010
def Reg.TIM_ADJ_STAT : Nat := 0x400A0014
def Reg.TIM_RATE_NEW : Nat := 0x400A0018
def Reg.TIM_RATE : Nat := 0x400A001C
def Reg.TIM_STEP_0 : Nat := 0x400A0020
def Reg.TIM_STEP_1 : Nat := 0x400A0024
def Reg.TIM_SET_0 : Nat := 0x400A0028
def Reg.TIM_SET_1 : Nat := 0x400A002C
def Reg.TIM_SET_2 : Nat := 0x400A0030
def Reg.TIM_NOW_0 : Nat := 0x400A0040
def Reg.TIM_NOW_1 : Nat := 0x400A0044
def Reg.TIM_NOW_2 : Nat := 0x400A0048
def Reg.TIM_CNT_0 : Nat := 0x400A0050
def Reg.TIM_CNT_1 : Nat := 0x400A0054
def Reg.TIM_EPOCH_0 : Nat := 0x400A0058
def Reg.TIM_EPOCH_1 : Nat := 0x400A005C
def Reg.TIM_PPS : Nat := 0x400A0060
def Reg.TIM_PPSIN_T_0 : Nat := 0x400A0064
def Reg.TIM_PPSIN_T_1 : Nat := 0x400A0068
def Reg.TIM_PPSIN_T_2 : Nat := 0x400A006C
def Reg.TIM_OFFSET_EST : Nat := 0x400A0070
def Reg.TIM_TWIN_DIFF : Nat := 0x400A0074
def Reg.TIM_ADJ_CNT : Nat := 0x400A0080
def Reg.TIM_REF_LOSS_CNT : Nat := 0x400A0084
def Reg.TIM_PPSIN_BAD_CNT : Nat := 0x400A0088
def Fld.TIM_CTRL_REF_SEL : Field := ⟨Reg.TIM_CTRL, 4, 4⟩
def Fld.TIM_CTRL_SRC : Field := ⟨Reg.TIM_CTRL, 1, 0⟩
def Fld.TIM_STATUS_REF_ACTIVE : Field := ⟨Reg.TIM_STATUS, 7, 7⟩
def Fld.TIM_STATUS_REF_LOST : Field := ⟨Reg.TIM_STATUS, 6, 6⟩
def Fld.TIM_STATUS_ADJ_PENDING : Field := ⟨Reg.TIM_STATUS, 5, 5⟩
def Fld.TIM_STATUS_TWIN_ALARM : Field := ⟨Reg.TIM_STATUS, 4, 4⟩
def Fld.TIM_STATUS_VALID : Field := ⟨Reg.TIM_STATUS, 3, 3⟩
def Fld.TIM_STATUS_SERVO : Field := ⟨Reg.TIM_STATUS, 2, 0⟩
def Fld.TIM_SERVO_RUN_STEP : Field := ⟨Reg.TIM_SERVO, 31, 31⟩
def Fld.TIM_SERVO_RUN_MAX : Field := ⟨Reg.TIM_SERVO, 25, 16⟩
def Fld.TIM_SERVO_STEP_THR : Field := ⟨Reg.TIM_SERVO, 15, 0⟩
def Fld.TIM_HOLD_HOLD_MAX : Field := ⟨Reg.TIM_HOLD, 15, 0⟩
def Fld.TIM_ADJ_CTRL_GO : Field := ⟨Reg.TIM_ADJ_CTRL, 31, 31⟩
def Fld.TIM_ADJ_CTRL_SET : Field := ⟨Reg.TIM_ADJ_CTRL, 2, 2⟩
def Fld.TIM_ADJ_CTRL_STEP : Field := ⟨Reg.TIM_ADJ_CTRL, 1, 1⟩
def Fld.TIM_ADJ_CTRL_RATE : Field := ⟨Reg.TIM_ADJ_CTRL, 0, 0⟩
def Fld.TIM_ADJ_STAT_STATUS : Field := ⟨Reg.TIM_ADJ_STAT, 7, 0⟩
def Fld.TIM_RATE_NEW_RATE : Field := ⟨Reg.TIM_RATE_NEW, 31, 0⟩
def Fld.TIM_RATE_RATE : Field := ⟨Reg.TIM_RATE, 31, 0⟩
def Fld.TIM_STEP_0_STEP : Field := ⟨Reg.TIM_STEP_0, 31, 0⟩
def Fld.TIM_STEP_1_STEP : Field := ⟨Reg.TIM_STEP_1, 31, 0⟩
def Fld.TIM_SET_0_NS : Field := ⟨Reg.TIM_SET_0, 31, 0⟩
def Fld.TIM_SET_1_SEC_LO : Field := ⟨Reg.TIM_SET_1, 31, 0⟩
def Fld.TIM_SET_2_SEC_HI : Field := ⟨Reg.TIM_SET_2, 15, 0⟩
def Fld.TIM_NOW_0_NS : Field := ⟨Reg.TIM_NOW_0, 31, 0⟩
def Fld.TIM_NOW_1_SEC_LO : Field := ⟨Reg.TIM_NOW_1, 31, 0⟩
def Fld.TIM_NOW_2_FRAC : Field := ⟨Reg.TIM_NOW_2, 31, 16⟩
def Fld.TIM_NOW_2_SEC_HI : Field := ⟨Reg.TIM_NOW_2, 15, 0⟩
def Fld.TIM_CNT_0_CNT : Field := ⟨Reg.TIM_CNT_0, 31, 0⟩
def Fld.TIM_CNT_1_CNT : Field := ⟨Reg.TIM_CNT_1, 31, 0⟩
def Fld.TIM_EPOCH_0_EPOCH : Field := ⟨Reg.TIM_EPOCH_0, 31, 0⟩
def Fld.TIM_EPOCH_1_EPOCH : Field := ⟨Reg.TIM_EPOCH_1, 31, 0⟩
def Fld.TIM_PPS_EN : Field := ⟨Reg.TIM_PPS, 31, 31⟩
def Fld.TIM_PPS_IN_POL : Field := ⟨Reg.TIM_PPS, 30, 30⟩
def Fld.TIM_PPS_WIDTH : Field := ⟨Reg.TIM_PPS, 18, 0⟩
def Fld.TIM_PPSIN_T_0_NS : Field := ⟨Reg.TIM_PPSIN_T_0, 31, 0⟩
def Fld.TIM_PPSIN_T_1_SEC_LO : Field := ⟨Reg.TIM_PPSIN_T_1, 31, 0⟩
def Fld.TIM_PPSIN_T_2_SEC_HI : Field := ⟨Reg.TIM_PPSIN_T_2, 15, 0⟩
def Fld.TIM_OFFSET_EST_OFS : Field := ⟨Reg.TIM_OFFSET_EST, 31, 0⟩
def Fld.TIM_TWIN_DIFF_DIFF : Field := ⟨Reg.TIM_TWIN_DIFF, 31, 0⟩
def Fld.TIM_ADJ_CNT_ADJ : Field := ⟨Reg.TIM_ADJ_CNT, 31, 0⟩
def Fld.TIM_REF_LOSS_CNT_LOSS : Field := ⟨Reg.TIM_REF_LOSS_CNT, 31, 0⟩
def Fld.TIM_PPSIN_BAD_CNT_BAD : Field := ⟨Reg.TIM_PPSIN_BAD_CNT, 31, 0⟩

/-! Block ETH at 0x400B0000. -/
def Reg.ETH_CFG : Nat := 0x400B0000
def Reg.ETH_PTP_CFG : Nat := 0x400B0004
def Reg.ETH_PTP_VID : Nat := 0x400B0008
def Reg.ETH_IP_S : Nat := 0x400B0010
def Reg.ETH_MASK_S : Nat := 0x400B0014
def Reg.ETH_GW_S : Nat := 0x400B0018
def Reg.ETH_IP_M : Nat := 0x400B0020
def Reg.ETH_MASK_M : Nat := 0x400B0024
def Reg.ETH_GW_M : Nat := 0x400B0028
def Reg.ETH_GSUB_VALID_0 : Nat := 0x400B0030
def Reg.ETH_GSUB_VALID_1 : Nat := 0x400B0034
def Reg.ETH_PRP_DUP_CNT : Nat := 0x400B0040
def Reg.ETH_PRP_WLAN_CNT : Nat := 0x400B0044
def Reg.ETH_GOOSE_OOO_CNT : Nat := 0x400B0048
def Reg.ETH_SV_RATE_CNT : Nat := 0x400B004C
def Reg.ETH_Pn_CFG (n : Nat) : Nat := 0x400B1000 + 0x100 * n
def Reg.ETH_Pn_STAT (n : Nat) : Nat := 0x400B1004 + 0x100 * n
def Reg.ETH_Pn_DLY (n : Nat) : Nat := 0x400B1008 + 0x100 * n
def Reg.ETH_Pn_ASYM (n : Nat) : Nat := 0x400B100C + 0x100 * n
def Reg.ETH_Pn_TXTS_0 (n : Nat) : Nat := 0x400B1010 + 0x100 * n
def Reg.ETH_Pn_TXTS_1 (n : Nat) : Nat := 0x400B1014 + 0x100 * n
def Reg.ETH_Pn_TXTS_2 (n : Nat) : Nat := 0x400B1018 + 0x100 * n
def Reg.ETH_Pn_TXTS_STAT (n : Nat) : Nat := 0x400B101C + 0x100 * n
def Reg.ETH_Pn_LQ_POST_0 (n : Nat) : Nat := 0x400B1020 + 0x100 * n
def Reg.ETH_Pn_LQ_POST_1 (n : Nat) : Nat := 0x400B1024 + 0x100 * n
def Reg.ETH_Pn_LQ_POST_2 (n : Nat) : Nat := 0x400B1028 + 0x100 * n
def Reg.ETH_Pn_LQ_POST_3 (n : Nat) : Nat := 0x400B102C + 0x100 * n
def Reg.ETH_Pn_LQ_STAT (n : Nat) : Nat := 0x400B1030 + 0x100 * n
def Reg.ETH_Pn_TX_CNT (n : Nat) : Nat := 0x400B1040 + 0x100 * n
def Reg.ETH_Pn_RX_CNT (n : Nat) : Nat := 0x400B1044 + 0x100 * n
def Reg.ETH_Pn_RXERR_CNT (n : Nat) : Nat := 0x400B1048 + 0x100 * n
def Reg.ETH_Pn_DISC_CNT (n : Nat) : Nat := 0x400B104C + 0x100 * n
def Reg.ETH_Pn_TXTS_LOST_CNT (n : Nat) : Nat := 0x400B1050 + 0x100 * n
def Reg.ETH_Pn_LQ_REF_CNT (n : Nat) : Nat := 0x400B1054 + 0x100 * n
def Reg.ETH_Pn_LATE_CNT (n : Nat) : Nat := 0x400B1058 + 0x100 * n
def Reg.ETH_Pn_DROP_CNT (n : Nat) : Nat := 0x400B105C + 0x100 * n
def Reg.ETH_GSUB_MACLO (n : Nat) : Nat := 0x400B4000 + 0x20 * n
def Reg.ETH_GSUB_APPID (n : Nat) : Nat := 0x400B4004 + 0x20 * n
def Reg.ETH_GSUB_IDCRC (n : Nat) : Nat := 0x400B4008 + 0x20 * n
def Reg.ETH_GSUB_CONFREV (n : Nat) : Nat := 0x400B400C + 0x20 * n
def Reg.ETH_GSUB_CFG (n : Nat) : Nat := 0x400B4010 + 0x20 * n
def Reg.ETH_GSUB_STAT (n : Nat) : Nat := 0x400B4014 + 0x20 * n
def Reg.ETH_GSUB_STNUM (n : Nat) : Nat := 0x400B4018 + 0x20 * n
def Reg.ETH_GPUB_CFG (n : Nat) : Nat := 0x400B5000 + 0x10 * n
def Reg.ETH_GPUB_T0 (n : Nat) : Nat := 0x400B5004 + 0x10 * n
def Reg.ETH_GPUB_STNUM (n : Nat) : Nat := 0x400B5008 + 0x10 * n
def Reg.ETH_GPUB_SQNUM (n : Nat) : Nat := 0x400B500C + 0x10 * n
def Reg.ETH_SV_MACLO (n : Nat) : Nat := 0x400B6000 + 0x20 * n
def Reg.ETH_SV_APPID (n : Nat) : Nat := 0x400B6004 + 0x20 * n
def Reg.ETH_SV_IDCRC (n : Nat) : Nat := 0x400B6008 + 0x20 * n
def Reg.ETH_SV_CONFREV (n : Nat) : Nat := 0x400B600C + 0x20 * n
def Reg.ETH_SV_CFG (n : Nat) : Nat := 0x400B6010 + 0x20 * n
def Reg.ETH_SV_STAT (n : Nat) : Nat := 0x400B6014 + 0x20 * n
def Reg.ETH_SV_RX (n : Nat) : Nat := 0x400B6018 + 0x20 * n
def Reg.ETH_SV_DUP (n : Nat) : Nat := 0x400B601C + 0x20 * n
def Fld.ETH_CFG_PRP : Field := ⟨Reg.ETH_CFG, 0, 0⟩
def Fld.ETH_PTP_CFG_DOMAIN : Field := ⟨Reg.ETH_PTP_CFG, 31, 24⟩
def Fld.ETH_PTP_CFG_PRIO1 : Field := ⟨Reg.ETH_PTP_CFG, 23, 16⟩
def Fld.ETH_PTP_CFG_PRIO2 : Field := ⟨Reg.ETH_PTP_CFG, 15, 8⟩
def Fld.ETH_PTP_CFG_SLAVE_ONLY : Field := ⟨Reg.ETH_PTP_CFG, 7, 7⟩
def Fld.ETH_PTP_CFG_BC : Field := ⟨Reg.ETH_PTP_CFG, 6, 6⟩
def Fld.ETH_PTP_CFG_VPRIO : Field := ⟨Reg.ETH_PTP_CFG, 5, 3⟩
def Fld.ETH_PTP_CFG_VTAG : Field := ⟨Reg.ETH_PTP_CFG, 2, 2⟩
def Fld.ETH_PTP_VID_VID : Field := ⟨Reg.ETH_PTP_VID, 11, 0⟩
def Fld.ETH_IP_S_ADDR : Field := ⟨Reg.ETH_IP_S, 31, 0⟩
def Fld.ETH_MASK_S_ADDR : Field := ⟨Reg.ETH_MASK_S, 31, 0⟩
def Fld.ETH_GW_S_ADDR : Field := ⟨Reg.ETH_GW_S, 31, 0⟩
def Fld.ETH_IP_M_ADDR : Field := ⟨Reg.ETH_IP_M, 31, 0⟩
def Fld.ETH_MASK_M_ADDR : Field := ⟨Reg.ETH_MASK_M, 31, 0⟩
def Fld.ETH_GW_M_ADDR : Field := ⟨Reg.ETH_GW_M, 31, 0⟩
def Fld.ETH_GSUB_VALID_0_VALID : Field := ⟨Reg.ETH_GSUB_VALID_0, 31, 0⟩
def Fld.ETH_GSUB_VALID_1_VALID : Field := ⟨Reg.ETH_GSUB_VALID_1, 31, 0⟩
def Fld.ETH_PRP_DUP_CNT_DUP : Field := ⟨Reg.ETH_PRP_DUP_CNT, 31, 0⟩
def Fld.ETH_PRP_WLAN_CNT_WLAN : Field := ⟨Reg.ETH_PRP_WLAN_CNT, 31, 0⟩
def Fld.ETH_GOOSE_OOO_CNT_OOO : Field := ⟨Reg.ETH_GOOSE_OOO_CNT, 31, 0⟩
def Fld.ETH_SV_RATE_CNT_RATE : Field := ⟨Reg.ETH_SV_RATE_CNT, 31, 0⟩
def Fld.ETH_Pn_CFG_LATE_POL (n : Nat) : Field := ⟨Reg.ETH_Pn_CFG n, 11, 8⟩
def Fld.ETH_Pn_CFG_ONE_STEP (n : Nat) : Field := ⟨Reg.ETH_Pn_CFG n, 2, 2⟩
def Fld.ETH_Pn_CFG_PTP_EN (n : Nat) : Field := ⟨Reg.ETH_Pn_CFG n, 1, 1⟩
def Fld.ETH_Pn_CFG_EN (n : Nat) : Field := ⟨Reg.ETH_Pn_CFG n, 0, 0⟩
def Fld.ETH_Pn_STAT_PSTATE (n : Nat) : Field := ⟨Reg.ETH_Pn_STAT n, 31, 24⟩
def Fld.ETH_Pn_STAT_PLUG (n : Nat) : Field := ⟨Reg.ETH_Pn_STAT n, 1, 1⟩
def Fld.ETH_Pn_STAT_LINK (n : Nat) : Field := ⟨Reg.ETH_Pn_STAT n, 0, 0⟩
def Fld.ETH_Pn_DLY_TX_DLY (n : Nat) : Field := ⟨Reg.ETH_Pn_DLY n, 31, 16⟩
def Fld.ETH_Pn_DLY_RX_DLY (n : Nat) : Field := ⟨Reg.ETH_Pn_DLY n, 15, 0⟩
def Fld.ETH_Pn_ASYM_ASYM (n : Nat) : Field := ⟨Reg.ETH_Pn_ASYM n, 31, 0⟩
def Fld.ETH_Pn_TXTS_0_VALID (n : Nat) : Field := ⟨Reg.ETH_Pn_TXTS_0 n, 31, 31⟩
def Fld.ETH_Pn_TXTS_0_HALF (n : Nat) : Field := ⟨Reg.ETH_Pn_TXTS_0 n, 30, 30⟩
def Fld.ETH_Pn_TXTS_0_NS (n : Nat) : Field := ⟨Reg.ETH_Pn_TXTS_0 n, 29, 0⟩
def Fld.ETH_Pn_TXTS_1_SEC_LO (n : Nat) : Field := ⟨Reg.ETH_Pn_TXTS_1 n, 31, 0⟩
def Fld.ETH_Pn_TXTS_2_ID (n : Nat) : Field := ⟨Reg.ETH_Pn_TXTS_2 n, 31, 16⟩
def Fld.ETH_Pn_TXTS_2_SEC_HI (n : Nat) : Field := ⟨Reg.ETH_Pn_TXTS_2 n, 15, 0⟩
def Fld.ETH_Pn_TXTS_STAT_LOST_ID (n : Nat) : Field := ⟨Reg.ETH_Pn_TXTS_STAT n, 31, 16⟩
def Fld.ETH_Pn_TXTS_STAT_OVF (n : Nat) : Field := ⟨Reg.ETH_Pn_TXTS_STAT n, 5, 5⟩
def Fld.ETH_Pn_TXTS_STAT_DEPTH (n : Nat) : Field := ⟨Reg.ETH_Pn_TXTS_STAT n, 4, 0⟩
def Fld.ETH_Pn_LQ_POST_0_ADDR (n : Nat) : Field := ⟨Reg.ETH_Pn_LQ_POST_0 n, 31, 0⟩
def Fld.ETH_Pn_LQ_POST_1_ADDR (n : Nat) : Field := ⟨Reg.ETH_Pn_LQ_POST_1 n, 31, 0⟩
def Fld.ETH_Pn_LQ_POST_2_ADDR (n : Nat) : Field := ⟨Reg.ETH_Pn_LQ_POST_2 n, 31, 0⟩
def Fld.ETH_Pn_LQ_POST_3_ADDR (n : Nat) : Field := ⟨Reg.ETH_Pn_LQ_POST_3 n, 31, 0⟩
def Fld.ETH_Pn_LQ_STAT_DEPTH3 (n : Nat) : Field := ⟨Reg.ETH_Pn_LQ_STAT n, 28, 24⟩
def Fld.ETH_Pn_LQ_STAT_DEPTH2 (n : Nat) : Field := ⟨Reg.ETH_Pn_LQ_STAT n, 20, 16⟩
def Fld.ETH_Pn_LQ_STAT_DEPTH1 (n : Nat) : Field := ⟨Reg.ETH_Pn_LQ_STAT n, 12, 8⟩
def Fld.ETH_Pn_LQ_STAT_DEPTH0 (n : Nat) : Field := ⟨Reg.ETH_Pn_LQ_STAT n, 4, 0⟩
def Fld.ETH_GSUB_MACLO_MAC_LO (n : Nat) : Field := ⟨Reg.ETH_GSUB_MACLO n, 31, 0⟩
def Fld.ETH_SV_MACLO_MAC_LO (n : Nat) : Field := ⟨Reg.ETH_SV_MACLO n, 31, 0⟩
def Fld.ETH_GSUB_APPID_APPID (n : Nat) : Field := ⟨Reg.ETH_GSUB_APPID n, 31, 16⟩
def Fld.ETH_SV_APPID_APPID (n : Nat) : Field := ⟨Reg.ETH_SV_APPID n, 31, 16⟩
def Fld.ETH_GSUB_APPID_MAC_HI (n : Nat) : Field := ⟨Reg.ETH_GSUB_APPID n, 15, 0⟩
def Fld.ETH_SV_APPID_MAC_HI (n : Nat) : Field := ⟨Reg.ETH_SV_APPID n, 15, 0⟩
def Fld.ETH_GSUB_IDCRC_ID_CRC (n : Nat) : Field := ⟨Reg.ETH_GSUB_IDCRC n, 31, 0⟩
def Fld.ETH_SV_IDCRC_ID_CRC (n : Nat) : Field := ⟨Reg.ETH_SV_IDCRC n, 31, 0⟩
def Fld.ETH_GSUB_CONFREV_CONFREV (n : Nat) : Field := ⟨Reg.ETH_GSUB_CONFREV n, 31, 0⟩
def Fld.ETH_SV_CONFREV_CONFREV (n : Nat) : Field := ⟨Reg.ETH_SV_CONFREV n, 31, 0⟩
def Fld.ETH_GSUB_CFG_EN (n : Nat) : Field := ⟨Reg.ETH_GSUB_CFG n, 31, 31⟩
def Fld.ETH_GSUB_CFG_ACC_TEST (n : Nat) : Field := ⟨Reg.ETH_GSUB_CFG n, 30, 30⟩
def Fld.ETH_GSUB_CFG_QEN (n : Nat) : Field := ⟨Reg.ETH_GSUB_CFG n, 29, 29⟩
def Fld.ETH_GSUB_CFG_PORTS (n : Nat) : Field := ⟨Reg.ETH_GSUB_CFG n, 28, 26⟩
def Fld.ETH_GSUB_CFG_TYPE (n : Nat) : Field := ⟨Reg.ETH_GSUB_CFG n, 25, 24⟩
def Fld.ETH_GSUB_CFG_QELEM (n : Nat) : Field := ⟨Reg.ETH_GSUB_CFG n, 13, 8⟩
def Fld.ETH_GSUB_CFG_ELEM (n : Nat) : Field := ⟨Reg.ETH_GSUB_CFG n, 5, 0⟩
def Fld.ETH_GSUB_STAT_VALID (n : Nat) : Field := ⟨Reg.ETH_GSUB_STAT n, 31, 31⟩
def Fld.ETH_GSUB_STNUM_STNUM (n : Nat) : Field := ⟨Reg.ETH_GSUB_STNUM n, 31, 0⟩
def Fld.ETH_SV_CFG_EN (n : Nat) : Field := ⟨Reg.ETH_SV_CFG n, 31, 31⟩
def Fld.ETH_SV_CFG_PORTS (n : Nat) : Field := ⟨Reg.ETH_SV_CFG n, 30, 29⟩
def Fld.ETH_SV_CFG_RATE (n : Nat) : Field := ⟨Reg.ETH_SV_CFG n, 28, 27⟩
def Fld.ETH_SV_STAT_STATE (n : Nat) : Field := ⟨Reg.ETH_SV_STAT n, 31, 30⟩
def Fld.ETH_SV_STAT_SYNC (n : Nat) : Field := ⟨Reg.ETH_SV_STAT n, 29, 29⟩
def Fld.ETH_SV_STAT_SMPCNT (n : Nat) : Field := ⟨Reg.ETH_SV_STAT n, 15, 0⟩
def Fld.ETH_SV_RX_RX (n : Nat) : Field := ⟨Reg.ETH_SV_RX n, 31, 0⟩
def Fld.ETH_SV_DUP_DUP (n : Nat) : Field := ⟨Reg.ETH_SV_DUP n, 31, 0⟩
def Fld.ETH_GPUB_CFG_EN (n : Nat) : Field := ⟨Reg.ETH_GPUB_CFG n, 31, 31⟩
def Fld.ETH_GPUB_CFG_STBY (n : Nat) : Field := ⟨Reg.ETH_GPUB_CFG n, 30, 30⟩
def Fld.ETH_GPUB_CFG_PORTS (n : Nat) : Field := ⟨Reg.ETH_GPUB_CFG n, 29, 27⟩
def Fld.ETH_GPUB_CFG_T1 (n : Nat) : Field := ⟨Reg.ETH_GPUB_CFG n, 15, 8⟩
def Fld.ETH_GPUB_T0_T0 (n : Nat) : Field := ⟨Reg.ETH_GPUB_T0 n, 15, 0⟩
def Fld.ETH_GPUB_STNUM_STNUM (n : Nat) : Field := ⟨Reg.ETH_GPUB_STNUM n, 31, 0⟩
def Fld.ETH_GPUB_SQNUM_SQNUM (n : Nat) : Field := ⟨Reg.ETH_GPUB_SQNUM n, 31, 0⟩
def Fld.ETH_Pn_TX_CNT_WORD (n : Nat) : Field := ⟨Reg.ETH_Pn_TX_CNT n, 31, 0⟩
def Fld.ETH_Pn_RX_CNT_WORD (n : Nat) : Field := ⟨Reg.ETH_Pn_RX_CNT n, 31, 0⟩
def Fld.ETH_Pn_RXERR_CNT_WORD (n : Nat) : Field := ⟨Reg.ETH_Pn_RXERR_CNT n, 31, 0⟩
def Fld.ETH_Pn_DISC_CNT_WORD (n : Nat) : Field := ⟨Reg.ETH_Pn_DISC_CNT n, 31, 0⟩
def Fld.ETH_Pn_TXTS_LOST_CNT_WORD (n : Nat) : Field := ⟨Reg.ETH_Pn_TXTS_LOST_CNT n, 31, 0⟩
def Fld.ETH_Pn_LQ_REF_CNT_WORD (n : Nat) : Field := ⟨Reg.ETH_Pn_LQ_REF_CNT n, 31, 0⟩
def Fld.ETH_Pn_LATE_CNT_WORD (n : Nat) : Field := ⟨Reg.ETH_Pn_LATE_CNT n, 31, 0⟩
def Fld.ETH_Pn_DROP_CNT_WORD (n : Nat) : Field := ⟨Reg.ETH_Pn_DROP_CNT n, 31, 0⟩

/-! Block SCH at 0x400C0000. -/
def Reg.SCH_CTRL : Nat := 0x400C0000
def Reg.SCH_CAP : Nat := 0x400C0004
def Reg.SCH_OCC_0 : Nat := 0x400C0008
def Reg.SCH_OCC_1 : Nat := 0x400C000C
def Reg.SCH_STATUS : Nat := 0x400C0010
def Reg.SCH_SRC (n : Nat) : Nat := 0x400C0024 + 0x4 * n
def Reg.SCH_CORE (n : Nat) : Nat := 0x400C0100 + 0x4 * n
def Reg.SCH_REF_BASE : Nat := 0x400C0120
def Reg.SCH_REF_WPTR : Nat := 0x400C0124
def Reg.SCH_TRC_CTRL : Nat := 0x400C0130
def Reg.SCH_TRC_BASE : Nat := 0x400C0134
def Reg.SCH_TRC_WPTR : Nat := 0x400C0138
def Reg.SCH_TRC_STAT : Nat := 0x400C013C
def Reg.SCH_SERVED_CNT (n : Nat) : Nat := 0x400C0200 + 0x4 * n
def Reg.SCH_REF_CNT (n : Nat) : Nat := 0x400C0210 + 0x4 * n
def Reg.SCH_DELAY_CNT : Nat := 0x400C0220
def Reg.SCH_DELAY_MAX : Nat := 0x400C0224
def Reg.SCH_EVICT_CNT : Nat := 0x400C0228
def Reg.SCH_MIG_CNT : Nat := 0x400C022C
def Reg.SCH_MERGE_CNT : Nat := 0x400C0230
def Reg.SCH_FAIL_CNT : Nat := 0x400C0234
def Reg.SCH_DEMOTE_CNT : Nat := 0x400C0238
def Reg.SCH_TIM_CFG (n : Nat) : Nat := 0x400C0300 + 0x10 * n
def Reg.SCH_TIM_PER (n : Nat) : Nat := 0x400C0304 + 0x10 * n
def Reg.SCH_TIM_CNT (n : Nat) : Nat := 0x400C0308 + 0x10 * n
def Fld.SCH_CTRL_MIG_THR : Field := ⟨Reg.SCH_CTRL, 15, 8⟩
def Fld.SCH_CTRL_MIG_EN : Field := ⟨Reg.SCH_CTRL, 0, 0⟩
def Fld.SCH_CAP_CAP1 : Field := ⟨Reg.SCH_CAP, 9, 0⟩
def Fld.SCH_SRC_FLOW_BASE (n : Nat) : Field := ⟨Reg.SCH_SRC n, 31, 16⟩
def Fld.SCH_SRC_PER_INST (n : Nat) : Field := ⟨Reg.SCH_SRC n, 15, 15⟩
def Fld.SCH_SRC_CLASS_HI (n : Nat) : Field := ⟨Reg.SCH_SRC n, 5, 4⟩
def Fld.SCH_SRC_CLASS (n : Nat) : Field := ⟨Reg.SCH_SRC n, 1, 0⟩
def Fld.SCH_TIM_CFG_FLOW (n : Nat) : Field := ⟨Reg.SCH_TIM_CFG n, 31, 16⟩
def Fld.SCH_TIM_CFG_CLASS (n : Nat) : Field := ⟨Reg.SCH_TIM_CFG n, 3, 2⟩
def Fld.SCH_TIM_CFG_ONESHOT (n : Nat) : Field := ⟨Reg.SCH_TIM_CFG n, 1, 1⟩
def Fld.SCH_TIM_CFG_EN (n : Nat) : Field := ⟨Reg.SCH_TIM_CFG n, 0, 0⟩
def Fld.SCH_TIM_PER_PERIOD (n : Nat) : Field := ⟨Reg.SCH_TIM_PER n, 31, 0⟩
def Fld.SCH_TIM_CNT_CNT (n : Nat) : Field := ⟨Reg.SCH_TIM_CNT n, 31, 0⟩
def Fld.SCH_REF_BASE_BASE_KIB : Field := ⟨Reg.SCH_REF_BASE, 23, 0⟩
def Fld.SCH_TRC_CTRL_STOP : Field := ⟨Reg.SCH_TRC_CTRL, 1, 1⟩
def Fld.SCH_TRC_CTRL_EN : Field := ⟨Reg.SCH_TRC_CTRL, 0, 0⟩
def Fld.SCH_TRC_BASE_BASE_MIB : Field := ⟨Reg.SCH_TRC_BASE, 13, 0⟩
def Fld.SCH_OCC_0_CLASS1 : Field := ⟨Reg.SCH_OCC_0, 26, 16⟩
def Fld.SCH_OCC_0_CLASS0 : Field := ⟨Reg.SCH_OCC_0, 10, 0⟩
def Fld.SCH_OCC_1_CLASS3 : Field := ⟨Reg.SCH_OCC_1, 26, 16⟩
def Fld.SCH_OCC_1_CLASS2 : Field := ⟨Reg.SCH_OCC_1, 10, 0⟩
def Fld.SCH_STATUS_HELD : Field := ⟨Reg.SCH_STATUS, 31, 16⟩
def Fld.SCH_STATUS_C0_HELD : Field := ⟨Reg.SCH_STATUS, 0, 0⟩
def Fld.SCH_CORE_BUSY (n : Nat) : Field := ⟨Reg.SCH_CORE n, 31, 31⟩
def Fld.SCH_CORE_READY (n : Nat) : Field := ⟨Reg.SCH_CORE n, 26, 16⟩
def Fld.SCH_CORE_FLOW (n : Nat) : Field := ⟨Reg.SCH_CORE n, 15, 0⟩
def Fld.SCH_REF_WPTR_WRAPPED : Field := ⟨Reg.SCH_REF_WPTR, 31, 31⟩
def Fld.SCH_REF_WPTR_WPTR : Field := ⟨Reg.SCH_REF_WPTR, 7, 0⟩
def Fld.SCH_TRC_WPTR_WPTR : Field := ⟨Reg.SCH_TRC_WPTR, 15, 0⟩
def Fld.SCH_TRC_STAT_LOST : Field := ⟨Reg.SCH_TRC_STAT, 31, 16⟩
def Fld.SCH_TRC_STAT_STOPPED : Field := ⟨Reg.SCH_TRC_STAT, 1, 1⟩
def Fld.SCH_TRC_STAT_WRAPPED : Field := ⟨Reg.SCH_TRC_STAT, 0, 0⟩
def Fld.SCH_SERVED_CNT_SERVED (n : Nat) : Field := ⟨Reg.SCH_SERVED_CNT n, 31, 0⟩
def Fld.SCH_REF_CNT_REF (n : Nat) : Field := ⟨Reg.SCH_REF_CNT n, 31, 0⟩
def Fld.SCH_DELAY_CNT_DELAY : Field := ⟨Reg.SCH_DELAY_CNT, 31, 0⟩
def Fld.SCH_DELAY_MAX_MAX : Field := ⟨Reg.SCH_DELAY_MAX, 31, 0⟩
def Fld.SCH_EVICT_CNT_EVICT : Field := ⟨Reg.SCH_EVICT_CNT, 31, 0⟩
def Fld.SCH_MIG_CNT_MIG : Field := ⟨Reg.SCH_MIG_CNT, 31, 0⟩
def Fld.SCH_MERGE_CNT_MERGE : Field := ⟨Reg.SCH_MERGE_CNT, 31, 0⟩
def Fld.SCH_FAIL_CNT_FAIL : Field := ⟨Reg.SCH_FAIL_CNT, 31, 0⟩
def Fld.SCH_DEMOTE_CNT_DEMOTE : Field := ⟨Reg.SCH_DEMOTE_CNT, 31, 0⟩

/-! Block FCO at 0x400D0000. -/
def Reg.FCO_STATUS_0 : Nat := 0x400D0000
def Reg.FCO_STATUS_1 : Nat := 0x400D0004
def Reg.FCO_ACTIVE_0 : Nat := 0x400D0008
def Reg.FCO_ACTIVE_1 : Nat := 0x400D000C
def Reg.FCO_CLASS (n : Nat) : Nat := 0x400D0010 + 0x4 * n
def Reg.FCO_CAP_0 : Nat := 0x400D0020
def Reg.FCO_CAP_1 : Nat := 0x400D0024
def Reg.FCO_CAP_2 : Nat := 0x400D0028
def Reg.FCO_CAP_3 : Nat := 0x400D002C
def Reg.FCO_CAP_4 : Nat := 0x400D0030
def Reg.FCO_CAP_CTRL : Nat := 0x400D0034
def Reg.FCO_INJECT : Nat := 0x400D0040
def Reg.FCO_INJ_STAT : Nat := 0x400D0044
def Reg.FCO_FOUT : Nat := 0x400D0050
def Reg.FCO_SWFAULT : Nat := 0x400D0054
def Reg.FCO_EVT_WDT : Nat := 0x400D0058
def Reg.FCO_OCC_CNT (n : Nat) : Nat := 0x400D0060 + 0x4 * n
def Reg.FCO_MULTI_CNT : Nat := 0x400D0070
def Reg.FCO_LOG_WPTR : Nat := 0x400D0074
def Fld.FCO_STATUS_0_STATUS : Field := ⟨Reg.FCO_STATUS_0, 31, 0⟩
def Fld.FCO_STATUS_1_STATUS : Field := ⟨Reg.FCO_STATUS_1, 31, 0⟩
def Fld.FCO_ACTIVE_0_ACTIVE : Field := ⟨Reg.FCO_ACTIVE_0, 31, 0⟩
def Fld.FCO_ACTIVE_1_ACTIVE : Field := ⟨Reg.FCO_ACTIVE_1, 31, 0⟩
def Fld.FCO_CLASS_CLASS (n : Nat) : Field := ⟨Reg.FCO_CLASS n, 31, 0⟩
def Fld.FCO_CAP_0_ADDR_LO : Field := ⟨Reg.FCO_CAP_0, 31, 0⟩
def Fld.FCO_CAP_1_VALID : Field := ⟨Reg.FCO_CAP_1, 31, 31⟩
def Fld.FCO_CAP_1_INJ : Field := ⟨Reg.FCO_CAP_1, 30, 30⟩
def Fld.FCO_CAP_1_SOURCE : Field := ⟨Reg.FCO_CAP_1, 29, 24⟩
def Fld.FCO_CAP_1_CLASS : Field := ⟨Reg.FCO_CAP_1, 23, 22⟩
def Fld.FCO_CAP_1_ACCESS : Field := ⟨Reg.FCO_CAP_1, 21, 18⟩
def Fld.FCO_CAP_1_MASTER : Field := ⟨Reg.FCO_CAP_1, 17, 12⟩
def Fld.FCO_CAP_1_ADDR_HI : Field := ⟨Reg.FCO_CAP_1, 7, 0⟩
def Fld.FCO_CAP_2_NS : Field := ⟨Reg.FCO_CAP_2, 31, 0⟩
def Fld.FCO_CAP_3_SEC_LO : Field := ⟨Reg.FCO_CAP_3, 31, 0⟩
def Fld.FCO_CAP_4_SEC_HI : Field := ⟨Reg.FCO_CAP_4, 15, 0⟩
def Fld.FCO_CAP_CTRL_RELEASE : Field := ⟨Reg.FCO_CAP_CTRL, 0, 0⟩
def Fld.FCO_INJECT_GO : Field := ⟨Reg.FCO_INJECT, 31, 31⟩
def Fld.FCO_INJECT_CANCEL : Field := ⟨Reg.FCO_INJECT, 30, 30⟩
def Fld.FCO_INJECT_REACT : Field := ⟨Reg.FCO_INJECT, 29, 29⟩
def Fld.FCO_INJECT_MODE : Field := ⟨Reg.FCO_INJECT, 28, 28⟩
def Fld.FCO_INJECT_CHECKER : Field := ⟨Reg.FCO_INJECT, 15, 8⟩
def Fld.FCO_INJECT_INST : Field := ⟨Reg.FCO_INJECT, 7, 0⟩
def Fld.FCO_INJ_STAT_STATE : Field := ⟨Reg.FCO_INJ_STAT, 9, 8⟩
def Fld.FCO_INJ_STAT_STATUS : Field := ⟨Reg.FCO_INJ_STAT, 7, 0⟩
def Fld.FCO_FOUT_SW : Field := ⟨Reg.FCO_FOUT, 31, 31⟩
def Fld.FCO_FOUT_STATE : Field := ⟨Reg.FCO_FOUT, 30, 30⟩
def Fld.FCO_FOUT_PULSE : Field := ⟨Reg.FCO_FOUT, 29, 29⟩
def Fld.FCO_FOUT_TMIN : Field := ⟨Reg.FCO_FOUT, 6, 0⟩
def Fld.FCO_SWFAULT_CLEAR : Field := ⟨Reg.FCO_SWFAULT, 1, 1⟩
def Fld.FCO_SWFAULT_RAISE : Field := ⟨Reg.FCO_SWFAULT, 0, 0⟩
def Fld.FCO_EVT_WDT_LIMIT : Field := ⟨Reg.FCO_EVT_WDT, 15, 0⟩
def Fld.FCO_OCC_CNT_OCC (n : Nat) : Field := ⟨Reg.FCO_OCC_CNT n, 31, 0⟩
def Fld.FCO_MULTI_CNT_MULTI : Field := ⟨Reg.FCO_MULTI_CNT, 31, 0⟩
def Fld.FCO_LOG_WPTR_WRAPPED : Field := ⟨Reg.FCO_LOG_WPTR, 31, 31⟩
def Fld.FCO_LOG_WPTR_WPTR : Field := ⟨Reg.FCO_LOG_WPTR, 13, 0⟩

/-! Block SAF at 0x400E0000. -/
def Reg.SAF_STATUS : Nat := 0x400E0000
def Reg.SAF_CAUSE : Nat := 0x400E0004
def Reg.SAF_SI : Nat := 0x400E0008
def Reg.SAF_SI_FAULT : Nat := 0x400E000C
def Reg.SAF_SQ : Nat := 0x400E0010
def Reg.SAF_PB : Nat := 0x400E0014
def Reg.SAF_PB_CRC : Nat := 0x400E0018
def Reg.SAF_LOG : Nat := 0x400E001C
def Reg.SAF_LOCK_T_0 : Nat := 0x400E0020
def Reg.SAF_LOCK_T_1 : Nat := 0x400E0024
def Reg.SAF_LOCK_T_2 : Nat := 0x400E0028
def Reg.SAF_TRIP_CNT : Nat := 0x400E0030
def Reg.SAF_TEST_CNT : Nat := 0x400E0034
def Reg.SAF_TESTFAIL_CNT : Nat := 0x400E0038
def Reg.SAF_REL_CNT : Nat := 0x400E003C
def Fld.SAF_STATUS_LOCKOUT : Field := ⟨Reg.SAF_STATUS, 31, 31⟩
def Fld.SAF_STATUS_BLOCKING : Field := ⟨Reg.SAF_STATUS, 30, 30⟩
def Fld.SAF_STATUS_REL_ARMED : Field := ⟨Reg.SAF_STATUS, 29, 29⟩
def Fld.SAF_STATUS_KEY : Field := ⟨Reg.SAF_STATUS, 28, 28⟩
def Fld.SAF_STATUS_KEY_STUCK : Field := ⟨Reg.SAF_STATUS, 27, 27⟩
def Fld.SAF_STATUS_LOG_WARN : Field := ⟨Reg.SAF_STATUS, 26, 26⟩
def Fld.SAF_STATUS_LOG_FULL : Field := ⟨Reg.SAF_STATUS, 25, 25⟩
def Fld.SAF_STATUS_DEMAND : Field := ⟨Reg.SAF_STATUS, 3, 0⟩
def Fld.SAF_CAUSE_FIRST : Field := ⟨Reg.SAF_CAUSE, 31, 24⟩
def Fld.SAF_CAUSE_ALL : Field := ⟨Reg.SAF_CAUSE, 9, 0⟩
def Fld.SAF_SI_HEALTHY : Field := ⟨Reg.SAF_SI, 31, 24⟩
def Fld.SAF_SI_CH_B : Field := ⟨Reg.SAF_SI, 23, 16⟩
def Fld.SAF_SI_CH_A : Field := ⟨Reg.SAF_SI, 15, 8⟩
def Fld.SAF_SI_FAULT_CROSS : Field := ⟨Reg.SAF_SI_FAULT, 15, 8⟩
def Fld.SAF_SI_FAULT_DISC : Field := ⟨Reg.SAF_SI_FAULT, 7, 0⟩
def Fld.SAF_SQ_FAULT : Field := ⟨Reg.SAF_SQ, 27, 24⟩
def Fld.SAF_SQ_RB_L : Field := ⟨Reg.SAF_SQ, 23, 20⟩
def Fld.SAF_SQ_RB_H : Field := ⟨Reg.SAF_SQ, 19, 16⟩
def Fld.SAF_SQ_SW_L : Field := ⟨Reg.SAF_SQ, 15, 12⟩
def Fld.SAF_SQ_SW_H : Field := ⟨Reg.SAF_SQ, 11, 8⟩
def Fld.SAF_SQ_PERMIT : Field := ⟨Reg.SAF_SQ, 7, 4⟩
def Fld.SAF_SQ_ON : Field := ⟨Reg.SAF_SQ, 3, 0⟩
def Fld.SAF_PB_ID : Field := ⟨Reg.SAF_PB, 31, 16⟩
def Fld.SAF_PB_STATUS : Field := ⟨Reg.SAF_PB, 7, 0⟩
def Fld.SAF_PB_CRC_CRC : Field := ⟨Reg.SAF_PB_CRC, 31, 0⟩
def Fld.SAF_LOG_COUNT : Field := ⟨Reg.SAF_LOG, 9, 0⟩
def Fld.SAF_LOCK_T_0_NS : Field := ⟨Reg.SAF_LOCK_T_0, 31, 0⟩
def Fld.SAF_LOCK_T_1_SEC_LO : Field := ⟨Reg.SAF_LOCK_T_1, 31, 0⟩
def Fld.SAF_LOCK_T_2_SEC_HI : Field := ⟨Reg.SAF_LOCK_T_2, 15, 0⟩
def Fld.SAF_TRIP_CNT_TRIP : Field := ⟨Reg.SAF_TRIP_CNT, 31, 0⟩
def Fld.SAF_TEST_CNT_TEST : Field := ⟨Reg.SAF_TEST_CNT, 31, 0⟩
def Fld.SAF_TESTFAIL_CNT_FAIL : Field := ⟨Reg.SAF_TESTFAIL_CNT, 31, 0⟩
def Fld.SAF_REL_CNT_REL : Field := ⟨Reg.SAF_REL_CNT, 31, 0⟩

/-! Block FIO at 0x400F0000. -/
def Reg.FIO_CTRL : Nat := 0x400F0000
def Reg.FIO_CMD_STAT : Nat := 0x400F0004
def Reg.FIO_LINK_TMO : Nat := 0x400F0008
def Reg.FIO_DI_CFG : Nat := 0x400F000C
def Reg.FIO_DI_FILT : Nat := 0x400F0010
def Reg.FIO_DI_WB : Nat := 0x400F0014
def Reg.FIO_DQ_PAR : Nat := 0x400F0018
def Reg.FIO_DQ_SAFE : Nat := 0x400F001C
def Reg.FIO_DQ : Nat := 0x400F0020
def Reg.FIO_DQ_SRC : Nat := 0x400F0024
def Reg.FIO_DQ_UWORD : Nat := 0x400F0028
def Reg.FIO_DQ_LOCK : Nat := 0x400F002C
def Reg.FIO_STATUS : Nat := 0x400F0030
def Reg.FIO_DI : Nat := 0x400F0034
def Reg.FIO_DI_VALID : Nat := 0x400F0038
def Reg.FIO_WB : Nat := 0x400F003C
def Reg.FIO_DQ_FLT : Nat := 0x400F0040
def Reg.FIO_CRC_CNT : Nat := 0x400F0050
def Reg.FIO_LINK_LOSS_CNT : Nat := 0x400F0054
def Reg.FIO_SUPPLY_OFF_CNT : Nat := 0x400F0058
def Reg.FIO_OC_CNT : Nat := 0x400F005C
def Fld.FIO_CTRL_LINK_REARM : Field := ⟨Reg.FIO_CTRL, 1, 1⟩
def Fld.FIO_CTRL_SUP_REARM : Field := ⟨Reg.FIO_CTRL, 0, 0⟩
def Fld.FIO_CMD_STAT_STATUS : Field := ⟨Reg.FIO_CMD_STAT, 7, 0⟩
def Fld.FIO_LINK_TMO_TMO : Field := ⟨Reg.FIO_LINK_TMO, 9, 0⟩
def Fld.FIO_DI_CFG_TYPE3 : Field := ⟨Reg.FIO_DI_CFG, 3, 0⟩
def Fld.FIO_DI_FILT_FILT3 : Field := ⟨Reg.FIO_DI_FILT, 31, 24⟩
def Fld.FIO_DI_FILT_FILT2 : Field := ⟨Reg.FIO_DI_FILT, 23, 16⟩
def Fld.FIO_DI_FILT_FILT1 : Field := ⟨Reg.FIO_DI_FILT, 15, 8⟩
def Fld.FIO_DI_FILT_FILT0 : Field := ⟨Reg.FIO_DI_FILT, 7, 0⟩
def Fld.FIO_DI_WB_WB_EN : Field := ⟨Reg.FIO_DI_WB, 31, 0⟩
def Fld.FIO_DQ_PAR_QUAD : Field := ⟨Reg.FIO_DQ_PAR, 11, 8⟩
def Fld.FIO_DQ_PAR_PAIR : Field := ⟨Reg.FIO_DQ_PAR, 7, 0⟩
def Fld.FIO_DQ_SAFE_SAFE : Field := ⟨Reg.FIO_DQ_SAFE, 31, 0⟩
def Fld.FIO_DQ_LOCK_LOCK : Field := ⟨Reg.FIO_DQ_LOCK, 15, 0⟩
def Fld.FIO_DQ_DQ : Field := ⟨Reg.FIO_DQ, 15, 0⟩
def Fld.FIO_DQ_SRC_SRC : Field := ⟨Reg.FIO_DQ_SRC, 15, 0⟩
def Fld.FIO_DQ_UWORD_WORD : Field := ⟨Reg.FIO_DQ_UWORD, 11, 0⟩
def Fld.FIO_STATUS_FV : Field := ⟨Reg.FIO_STATUS, 31, 16⟩
def Fld.FIO_STATUS_SUP_OK : Field := ⟨Reg.FIO_STATUS, 4, 4⟩
def Fld.FIO_STATUS_SUPPLY_OFF : Field := ⟨Reg.FIO_STATUS, 3, 3⟩
def Fld.FIO_STATUS_WARN : Field := ⟨Reg.FIO_STATUS, 2, 2⟩
def Fld.FIO_STATUS_LINK_SAFE : Field := ⟨Reg.FIO_STATUS, 1, 1⟩
def Fld.FIO_STATUS_LINK_OK : Field := ⟨Reg.FIO_STATUS, 0, 0⟩
def Fld.FIO_DI_DI : Field := ⟨Reg.FIO_DI, 31, 0⟩
def Fld.FIO_DI_VALID_VALID : Field := ⟨Reg.FIO_DI_VALID, 31, 0⟩
def Fld.FIO_WB_WB : Field := ⟨Reg.FIO_WB, 31, 0⟩
def Fld.FIO_DQ_FLT_EXTV : Field := ⟨Reg.FIO_DQ_FLT, 31, 16⟩
def Fld.FIO_DQ_FLT_OC : Field := ⟨Reg.FIO_DQ_FLT, 15, 0⟩
def Fld.FIO_CRC_CNT_CRC : Field := ⟨Reg.FIO_CRC_CNT, 31, 0⟩
def Fld.FIO_LINK_LOSS_CNT_LOSS : Field := ⟨Reg.FIO_LINK_LOSS_CNT, 31, 0⟩
def Fld.FIO_SUPPLY_OFF_CNT_SOFF : Field := ⟨Reg.FIO_SUPPLY_OFF_CNT, 31, 0⟩
def Fld.FIO_OC_CNT_OC : Field := ⟨Reg.FIO_OC_CNT, 31, 0⟩

/-! Block MIR at 0x40100000. -/
def Reg.MIR_CTRL : Nat := 0x40100000
def Reg.MIR_STATUS : Nat := 0x40100004
def Reg.MIR_BUDGET : Nat := 0x40100008
def Reg.MIR_RLY_STAT : Nat := 0x4010000C
def Reg.MIR_ERR_CNT : Nat := 0x40100020
def Reg.MIR_LATE_CNT : Nat := 0x40100024
def Reg.MIR_RLY_REF_CNT : Nat := 0x40100028
def Reg.MIR_DELTA_CNT : Nat := 0x4010002C
def Reg.MIR_RLY (n : Nat) : Nat := 0x40101000 + 0x4 * n
def Fld.MIR_CTRL_REF : Field := ⟨Reg.MIR_CTRL, 8, 8⟩
def Fld.MIR_CTRL_LANE_EN : Field := ⟨Reg.MIR_CTRL, 1, 0⟩
def Fld.MIR_STATUS_LAT : Field := ⟨Reg.MIR_STATUS, 31, 16⟩
def Fld.MIR_STATUS_LOCKED : Field := ⟨Reg.MIR_STATUS, 5, 5⟩
def Fld.MIR_STATUS_SYNC : Field := ⟨Reg.MIR_STATUS, 4, 4⟩
def Fld.MIR_STATUS_SLOW : Field := ⟨Reg.MIR_STATUS, 3, 3⟩
def Fld.MIR_STATUS_LANE1 : Field := ⟨Reg.MIR_STATUS, 2, 2⟩
def Fld.MIR_STATUS_LANE0 : Field := ⟨Reg.MIR_STATUS, 1, 1⟩
def Fld.MIR_STATUS_UP : Field := ⟨Reg.MIR_STATUS, 0, 0⟩
def Fld.MIR_BUDGET_PEAK : Field := ⟨Reg.MIR_BUDGET, 31, 16⟩
def Fld.MIR_BUDGET_LAST : Field := ⟨Reg.MIR_BUDGET, 15, 0⟩
def Fld.MIR_RLY_STAT_GRANTED : Field := ⟨Reg.MIR_RLY_STAT, 25, 16⟩
def Fld.MIR_RLY_STAT_REFUSED : Field := ⟨Reg.MIR_RLY_STAT, 12, 0⟩
def Fld.MIR_RLY_STATE (n : Nat) : Field := ⟨Reg.MIR_RLY n, 31, 30⟩
def Fld.MIR_RLY_CAUSE (n : Nat) : Field := ⟨Reg.MIR_RLY n, 29, 28⟩
def Fld.MIR_RLY_STRANDED (n : Nat) : Field := ⟨Reg.MIR_RLY n, 27, 21⟩
def Fld.MIR_RLY_GRANT (n : Nat) : Field := ⟨Reg.MIR_RLY n, 20, 14⟩
def Fld.MIR_RLY_REACH (n : Nat) : Field := ⟨Reg.MIR_RLY n, 13, 7⟩
def Fld.MIR_RLY_T_RLY (n : Nat) : Field := ⟨Reg.MIR_RLY n, 6, 0⟩
def Fld.MIR_ERR_CNT_ERR : Field := ⟨Reg.MIR_ERR_CNT, 31, 0⟩
def Fld.MIR_LATE_CNT_LATE : Field := ⟨Reg.MIR_LATE_CNT, 31, 0⟩
def Fld.MIR_RLY_REF_CNT_REF : Field := ⟨Reg.MIR_RLY_REF_CNT, 31, 0⟩
def Fld.MIR_DELTA_CNT_DELTA : Field := ⟨Reg.MIR_DELTA_CNT, 31, 0⟩

/-! Block BTN at 0x40110000. -/
def Reg.BTN_CFG : Nat := 0x40110000
def Reg.BTN_START_HOLD : Nat := 0x40110004
def Reg.BTN_PBDIFF_MAX : Nat := 0x40110008
def Reg.BTN_CMD : Nat := 0x4011000C
def Reg.BTN_CMD_STAT : Nat := 0x40110010
def Reg.BTN_STATUS : Nat := 0x40110014
def Reg.BTN_EPOCH : Nat := 0x40110018
def Reg.BTN_LEASE_LEFT : Nat := 0x4011001C
def Reg.BTN_HEALTH : Nat := 0x40110020
def Reg.BTN_TWIN : Nat := 0x40110024
def Reg.BTN_CHECK_STAT : Nat := 0x40110028
def Reg.BTN_LAST_CHG : Nat := 0x4011002C
def Reg.BTN_LAST_T_0 : Nat := 0x40110030
def Reg.BTN_LAST_T_1 : Nat := 0x40110034
def Reg.BTN_LAST_T_2 : Nat := 0x40110038
def Reg.BTN_TOL (n : Nat) : Nat := 0x40110040 + 0x4 * n
def Reg.BTN_CLAIM_CNT : Nat := 0x40110080
def Reg.BTN_HO_CNT : Nat := 0x40110084
def Reg.BTN_DIS_CNT : Nat := 0x40110088
def Reg.BTN_CMPSKIP_CNT : Nat := 0x4011008C
def Reg.BTN_HB_MISS_CNT : Nat := 0x40110090
def Reg.BTN_FENCE_CNT : Nat := 0x40110094
def Fld.BTN_CFG_LEASE : Field := ⟨Reg.BTN_CFG, 25, 16⟩
def Fld.BTN_CFG_DIS_N : Field := ⟨Reg.BTN_CFG, 11, 8⟩
def Fld.BTN_START_HOLD_HOLD : Field := ⟨Reg.BTN_START_HOLD, 15, 0⟩
def Fld.BTN_PBDIFF_MAX_MAX : Field := ⟨Reg.BTN_PBDIFF_MAX, 15, 0⟩
def Fld.BTN_CMD_OP : Field := ⟨Reg.BTN_CMD, 31, 28⟩
def Fld.BTN_CMD_STAT_STATUS : Field := ⟨Reg.BTN_CMD_STAT, 7, 0⟩
def Fld.BTN_TOL_TOL (n : Nat) : Field := ⟨Reg.BTN_TOL n, 31, 0⟩
def Fld.BTN_STATUS_SILENT : Field := ⟨Reg.BTN_STATUS, 7, 7⟩
def Fld.BTN_STATUS_AGE_EVID : Field := ⟨Reg.BTN_STATUS, 6, 6⟩
def Fld.BTN_STATUS_LEASE_OK : Field := ⟨Reg.BTN_STATUS, 5, 5⟩
def Fld.BTN_STATUS_HO_PENDING : Field := ⟨Reg.BTN_STATUS, 4, 4⟩
def Fld.BTN_STATUS_READY : Field := ⟨Reg.BTN_STATUS, 3, 3⟩
def Fld.BTN_STATUS_ROLE : Field := ⟨Reg.BTN_STATUS, 1, 0⟩
def Fld.BTN_EPOCH_EPOCH : Field := ⟨Reg.BTN_EPOCH, 31, 0⟩
def Fld.BTN_LEASE_LEFT_LEFT : Field := ⟨Reg.BTN_LEASE_LEFT, 15, 0⟩
def Fld.BTN_HEALTH_JOINING : Field := ⟨Reg.BTN_HEALTH, 9, 9⟩
def Fld.BTN_HEALTH_IMAGE_DIFF : Field := ⟨Reg.BTN_HEALTH, 8, 8⟩
def Fld.BTN_HEALTH_PB_DIFF : Field := ⟨Reg.BTN_HEALTH, 7, 7⟩
def Fld.BTN_HEALTH_MODE_DIFF : Field := ⟨Reg.BTN_HEALTH, 6, 6⟩
def Fld.BTN_HEALTH_SELFTEST : Field := ⟨Reg.BTN_HEALTH, 5, 5⟩
def Fld.BTN_HEALTH_DISAGREE : Field := ⟨Reg.BTN_HEALTH, 4, 4⟩
def Fld.BTN_HEALTH_FENCED : Field := ⟨Reg.BTN_HEALTH, 3, 3⟩
def Fld.BTN_HEALTH_LEASE : Field := ⟨Reg.BTN_HEALTH, 2, 2⟩
def Fld.BTN_HEALTH_TIME_DIFF : Field := ⟨Reg.BTN_HEALTH, 1, 1⟩
def Fld.BTN_HEALTH_MIR_DOWN : Field := ⟨Reg.BTN_HEALTH, 0, 0⟩
def Fld.BTN_TWIN_ROLE : Field := ⟨Reg.BTN_TWIN, 15, 14⟩
def Fld.BTN_TWIN_READY : Field := ⟨Reg.BTN_TWIN, 13, 13⟩
def Fld.BTN_TWIN_MODE : Field := ⟨Reg.BTN_TWIN, 12, 10⟩
def Fld.BTN_TWIN_SEEN : Field := ⟨Reg.BTN_TWIN, 9, 9⟩
def Fld.BTN_CHECK_STAT_FIRST_FAIL : Field := ⟨Reg.BTN_CHECK_STAT, 31, 24⟩
def Fld.BTN_CHECK_STAT_STATUS : Field := ⟨Reg.BTN_CHECK_STAT, 7, 0⟩
def Fld.BTN_LAST_CHG_CAUSE : Field := ⟨Reg.BTN_LAST_CHG, 31, 28⟩
def Fld.BTN_LAST_T_0_NS : Field := ⟨Reg.BTN_LAST_T_0, 31, 0⟩
def Fld.BTN_LAST_T_1_SEC_LO : Field := ⟨Reg.BTN_LAST_T_1, 31, 0⟩
def Fld.BTN_LAST_T_2_SEC_HI : Field := ⟨Reg.BTN_LAST_T_2, 15, 0⟩
def Fld.BTN_CLAIM_CNT_CLAIM : Field := ⟨Reg.BTN_CLAIM_CNT, 31, 0⟩
def Fld.BTN_HO_CNT_HO : Field := ⟨Reg.BTN_HO_CNT, 31, 0⟩
def Fld.BTN_DIS_CNT_DIS : Field := ⟨Reg.BTN_DIS_CNT, 31, 0⟩
def Fld.BTN_CMPSKIP_CNT_SKIP : Field := ⟨Reg.BTN_CMPSKIP_CNT, 31, 0⟩
def Fld.BTN_HB_MISS_CNT_MISS : Field := ⟨Reg.BTN_HB_MISS_CNT, 31, 0⟩
def Fld.BTN_FENCE_CNT_FENCE : Field := ⟨Reg.BTN_FENCE_CNT, 31, 0⟩

/-! Block STAT at 0x40120000. -/
def Reg.STAT_PERIOD : Nat := 0x40120000
def Reg.STAT_STATUS : Nat := 0x40120004
def Reg.STAT_INDEX_0 : Nat := 0x40120008
def Reg.STAT_INDEX_1 : Nat := 0x4012000C
def Reg.STAT_BOUND_T_0 : Nat := 0x40120010
def Reg.STAT_BOUND_T_1 : Nat := 0x40120014
def Reg.STAT_BOUND_T_2 : Nat := 0x40120018
def Reg.STAT_BANK_SEL (n : Nat) : Nat := 0x40120020 + 0x8 * n
def Reg.STAT_BANK_VAL (n : Nat) : Nat := 0x40120024 + 0x8 * n
def Reg.STAT_BANK_STAT : Nat := 0x40120040
def Fld.STAT_PERIOD_PERIOD : Field := ⟨Reg.STAT_PERIOD, 1, 0⟩
def Fld.STAT_STATUS_PARTIAL : Field := ⟨Reg.STAT_STATUS, 0, 0⟩
def Fld.STAT_INDEX_0_IDX_LO : Field := ⟨Reg.STAT_INDEX_0, 31, 0⟩
def Fld.STAT_INDEX_1_IDX_HI : Field := ⟨Reg.STAT_INDEX_1, 15, 0⟩
def Fld.STAT_BOUND_T_0_NS : Field := ⟨Reg.STAT_BOUND_T_0, 31, 0⟩
def Fld.STAT_BOUND_T_1_SEC_LO : Field := ⟨Reg.STAT_BOUND_T_1, 31, 0⟩
def Fld.STAT_BOUND_T_2_SEC_HI : Field := ⟨Reg.STAT_BOUND_T_2, 15, 0⟩
def Fld.STAT_BANK_SEL_BLOCK (n : Nat) : Field := ⟨Reg.STAT_BANK_SEL n, 28, 24⟩
def Fld.STAT_BANK_SEL_OFFSET (n : Nat) : Field := ⟨Reg.STAT_BANK_SEL n, 15, 0⟩
def Fld.STAT_BANK_VAL_VAL (n : Nat) : Field := ⟨Reg.STAT_BANK_VAL n, 31, 0⟩
def Fld.STAT_BANK_STAT_NOT_COUNTER : Field := ⟨Reg.STAT_BANK_STAT, 3, 0⟩

/-- Register map of block SYS. -/
def regTableSys : List RegDesc :=
  [ ⟨0x40000000, [], 0x0, 0x0, 0x0, false, 0, 0, false, 0x20⟩,
    ⟨0x40000004, [], 0x7, 0x0, 0x80000000, false, 0, 0, false, 0x0⟩,
    ⟨0x40000008, [], 0x0, 0x0, 0x0, false, 0, 0, false, 0x0⟩,
    ⟨0x4000000C, [], 0x0, 0x0, 0x0, false, 0, 0, false, 0x0⟩,
    ⟨0x40000010, [], 0x0, 0x0, 0x0, false, 0, 0, false, 0x0⟩,
    ⟨0x40000014, [], 0xFFFF, 0x0, 0x0, false, 0, 0, false, 0x0⟩,
    ⟨0x40000018, [], 0xFFFF, 0x0, 0x0, false, 0, 0, false, 0x0⟩,
    ⟨0x4000001C, [], 0xFFFF7FFF, 0x0, 0x8000, false, 0, 0, false, 0x0⟩,
    ⟨0x40000020, [], 0x0, 0x0, 0x0, false, 0, 0, false, 0x0⟩,
    ⟨0x40000024, [], 0x0, 0x0, 0x0, false, 0, 0, true, 0x0⟩,
    ⟨0x40000030, [], 0xFFFF3FFF, 0x0, 0x0, false, 0, 0, false, 0x10000⟩,
    ⟨0x40000040, [(0x4, 4)], 0xF, 0x0, 0x0, false, 0, 0, false, 0x0⟩,
    ⟨0x40000050, [], 0x0, 0x0, 0x0, false, 0, 0, false, 0x0⟩,
    ⟨0x40000054, [], 0x0, 0x0, 0x0, false, 0, 0, false, 0x0⟩ ]

/-- Register map of block ID. -/
def regTableId : List RegDesc :=
  [ ⟨0x40010000, [(0x40, 4), (0x4, 12)], 0x0, 0x0, 0x0, false, 0, 0, false, 0x0⟩,
    ⟨0x40010100, [(0x4, 12)], 0x0, 0x0, 0x0, false, 0, 0, false, 0x0⟩,
    ⟨0x40010140, [], 0x0, 0x0, 0x0, false, 0, 0, false, 0x0⟩ ]

/-- Register map of block ESC, part 0. -/
def regTableEsc0 : List RegDesc :=
  [ ⟨0x40020000, [], 0xF02, 0x0, 0x0, false, 0, 0, false, 0x102⟩,
    ⟨0x40020004, [], 0x7FFF, 0x0, 0x0, false, 0, 0, false, 0x1388⟩,
    ⟨0x40020008, [], 0x0, 0x0, 0x0, false, 0, 0, false, 0xABE⟩,
    ⟨0x4002000C, [], 0xFFF, 0x0, 0x0, false, 0, 0, false, 0x1F4⟩,
    ⟨0x40020010, [], 0x7FFF, 0x0, 0x0, false, 0, 0, false, 0x3E8⟩,
    ⟨0x40020014, [], 0xFFF, 0x0, 0x0, false, 0, 0, false, 0x1F4⟩,
    ⟨0x40020018, [], 0xFF, 0x0, 0x0, false, 0, 0, false, 0x8⟩,
    ⟨0x4002001C, [], 0x0, 0x0, 0x1, false, 0, 0, false, 0x0⟩,
    ⟨0x40020020, [], 0x0, 0x0, 0x0, false, 0, 0, false, 0x0⟩,
    ⟨0x40020024, [], 0x0, 0x0, 0x0, false, 0, 0, false, 0x0⟩,
    ⟨0x40020028, [], 0x0, 0x0, 0x0, false, 0, 0, false, 0x0⟩,
    ⟨0x40020030, [], 0x0, 0x0, 0x0, false, 2, 0, false, 0x0⟩,
    ⟨0x40020034, [], 0x0, 0x0, 0x0, false, 0, 1, false, 0x0⟩,
    ⟨0x40020038, [], 0x0, 0x0, 0x0, false, 0, 2, false, 0x0⟩,
    ⟨0x40020040, [], 0x0, 0x0, 0x0, false, 0, 0, true, 0x0⟩,
    ⟨0x40020044, [], 0x0, 0x0, 0x0, false, 0, 0, true, 0x0⟩,
    ⟨0x40020048, [], 0x0, 0x0, 0x0, false, 0, 0, true, 0x0⟩,
    ⟨0x4002004C, [], 0x0, 0x0, 0x0, false, 0, 0, true, 0x0⟩,
    ⟨0x40020080, [], 0x0, 0x0, 0x0, false, 0, 0, false, 0x0⟩,
    ⟨0x40020084, [], 0x0, 0x0, 0x0, false, 0, 0, false, 0x0⟩,
    ⟨0x40020088, [], 0x0, 0x0, 0x0, false, 0, 0, false, 0x0⟩,
    ⟨0x4002008C, [], 0x0, 0x0, 0x0, false, 0, 0, false, 0x0⟩,
    ⟨0x40020090, [], 0x0, 0x0, 0x0, false, 0, 0, false, 0x0⟩,
    ⟨0x40020094, [], 0x0, 0x0, 0x0, false, 0, 0, false, 0x0⟩ ]

/-- Register map of block ESC, part 1. -/
def regTableEsc1 : List RegDesc :=
  [ ⟨0x40020098, [], 0x0, 0x0, 0x0, false, 0, 0, false, 0x0⟩,
    ⟨0x4002009C, [], 0x0, 0x0, 0x0, false, 0, 0, false, 0x0⟩ ]

def regTableEsc : List RegDesc := regTableEsc0 ++ regTableEsc1

/-- Register map of block RING, part 0. -/
def regTableRing0 : List RegDesc :=
  [ ⟨0x40030000, [], 0x1, 0x0, 0x2, false, 0, 0, false, 0x1⟩,
    ⟨0x40030004, [], 0x0, 0x0, 0x0, false, 0, 0, false, 0x0⟩,
    ⟨0x40030008, [], 0xFFFF, 0x0, 0x0, false, 0, 0, false, 0x3E8⟩,
    ⟨0x40030010, [(0x4, 4)], 0xFFFFFFFF, 0x0, 0x0, false, 0, 0, false, 0x0⟩,
    ⟨0x40030020, [], 0x0, 0x0, 0x0, false, 0, 0, false, 0x0⟩,
    ⟨0x40030024, [], 0x0, 0x0, 0x0, false, 0, 0, false, 0x0⟩,
    ⟨0x40030100, [], 0xFF3F, 0x0, 0x0, false, 0, 0, false, 0x1038⟩,
    ⟨0x40030104, [], 0x0, 0x0, 0x0, false, 0, 0, true, 0x0⟩,
    ⟨0x40030108, [], 0x0, 0x0, 0x0, false, 0, 0, true, 0x0⟩,
    ⟨0x4003010C, [], 0x0, 0x0, 0x0, false, 0, 0, true, 0x0⟩,
    ⟨0x40030110, [], 0x0, 0x0, 0x0, false, 0, 0, true, 0x0⟩,
    ⟨0x40030114, [], 0x0, 0x0, 0x0, false, 0, 0, true, 0x0⟩,
    ⟨0x40030118, [], 0x0, 0x0, 0x0, false, 0, 0, true, 0x0⟩,
    ⟨0x4003011C, [], 0x0, 0x0, 0x0, false, 0, 0, true, 0x0⟩,
    ⟨0x40031000, [(0x40, 128)], 0x0, 0x0, 0x0, false, 0, 0, false, 0x0⟩,
    ⟨0x40031004, [(0x40, 128)], 0x0, 0x0, 0x0, false, 0, 0, false, 0xFF000000⟩,
    ⟨0x40031008, [(0x40, 128)], 0x0, 0x0, 0x0, false, 0, 0, false, 0x0⟩,
    ⟨0x4003100C, [(0x40, 128)], 0x0, 0x0, 0x0, false, 0, 0, false, 0x0⟩,
    ⟨0x40031020, [(0x40, 128)], 0x0, 0x0, 0x0, false, 0, 0, true, 0x0⟩,
    ⟨0x40031024, [(0x40, 128)], 0x0, 0x0, 0x0, false, 0, 0, true, 0x0⟩,
    ⟨0x40031028, [(0x40, 128)], 0x0, 0x0, 0x0, false, 0, 0, true, 0x0⟩,
    ⟨0x4003102C, [(0x40, 128)], 0x0, 0x0, 0x0, false, 0, 0, true, 0x0⟩,
    ⟨0x40031030, [(0x40, 128)], 0x0, 0x0, 0x0, false, 0, 0, true, 0x0⟩,
    ⟨0x40031034, [(0x40, 128)], 0x0, 0x0, 0x0, false, 0, 0, true, 0x0⟩ ]

/-- Register map of block RING, part 1. -/
def regTableRing1 : List RegDesc :=
  [ ⟨0x40031038, [(0x40, 128)], 0x0, 0x0, 0x0, false, 0, 0, true, 0x0⟩,
    ⟨0x4003103C, [(0x40, 128)], 0x0, 0x0, 0x0, false, 0, 0, false, 0x0⟩,
    ⟨0x40038000, [(0x100, 128), (0x4, 64)], 0x0, 0x0, 0x0, false, 0, 0, false, 0x0⟩ ]

def regTableRing : List RegDesc := regTableRing0 ++ regTableRing1

/-- Register map of block WHL, part 0. -/
def regTableWhl0 : List RegDesc :=
  [ ⟨0x40040000, [], 0x0, 0x0, 0x0, false, 0, 0, false, 0x0⟩,
    ⟨0x40040040, [(0x4, 12)], 0x0, 0x0, 0x0, false, 0, 0, false, 0x0⟩,
    ⟨0x40040080, [], 0x3FFC000F, 0x0, 0x0, false, 0, 0, false, 0x0⟩,
    ⟨0x40040084, [], 0x3FFF, 0x0, 0x0, false, 0, 0, false, 0x0⟩,
    ⟨0x40040088, [], 0x0, 0x0, 0x0, false, 0, 0, false, 0x0⟩,
    ⟨0x4004008C, [], 0x0, 0x3, 0x0, false, 0, 0, false, 0x0⟩,
    ⟨0x40041000, [(0x100, 12)], 0x7, 0x0, 0x0, false, 0, 0, false, 0x0⟩,
    ⟨0x40041004, [(0x100, 12)], 0xFFF07FF, 0x0, 0x0, false, 0, 0, false, 0x0⟩,
    ⟨0x40041008, [(0x100, 12)], 0x7FF07FF, 0x0, 0x0, false, 0, 0, false, 0x0⟩,
    ⟨0x4004100C, [(0x100, 12)], 0xFFFF, 0x0, 0x0, false, 0, 0, false, 0xFA⟩,
    ⟨0x40041010, [(0x100, 12)], 0x7FF007F, 0x0, 0x0, false, 0, 0, false, 0x960008⟩,
    ⟨0x40041014, [(0x100, 12)], 0xFF0F03FF, 0x0, 0x0, false, 0, 0, false, 0x2004007D⟩,
    ⟨0x40041018, [(0x100, 12)], 0xFFFFFFFF, 0x0, 0x0, false, 0, 0, false, 0x40A00000⟩,
    ⟨0x4004101C, [(0x100, 12)], 0xFFF, 0x0, 0x0, false, 0, 0, false, 0x0⟩,
    ⟨0x40041020, [(0x100, 12)], 0x1F, 0x0, 0x0, false, 0, 0, false, 0x0⟩,
    ⟨0x40041024, [(0x100, 12)], 0x0, 0x0, 0xF0000FFF, false, 0, 0, false, 0x0⟩,
    ⟨0x40041028, [(0x100, 12)], 0x0, 0x0, 0x0, false, 0, 0, false, 0x0⟩,
    ⟨0x4004102C, [(0x100, 12)], 0x3F, 0x0, 0x0, false, 0, 0, false, 0x4⟩,
    ⟨0x40041030, [(0x100, 12)], 0x0, 0x0, 0x0, false, 0, 0, false, 0x0⟩,
    ⟨0x40041034, [(0x100, 12)], 0x0, 0x0, 0x0, false, 0, 0, false, 0x0⟩,
    ⟨0x40041038, [(0x100, 12)], 0x0, 0x0, 0x0, false, 0, 0, false, 0x0⟩,
    ⟨0x4004103C, [(0x100, 12)], 0x0, 0x0, 0x0, false, 0, 0, false, 0x800000⟩,
    ⟨0x40041040, [(0x100, 12)], 0x0, 0x0, 0x0, false, 0, 0, false, 0x0⟩,
    ⟨0x40041044, [(0x100, 12)], 0x0, 0x0, 0x0, false, 0, 0, false, 0x0⟩ ]

/-- Register map of block WHL, part 1. -/
def regTableWhl1 : List RegDesc :=
  [ ⟨0x40041048, [(0x100, 12)], 0x0, 0x0, 0x0, false, 0, 0, false, 0x0⟩,
    ⟨0x40041050, [(0x100, 12)], 0x0, 0x0, 0x0, false, 0, 0, true, 0x0⟩,
    ⟨0x40041054, [(0x100, 12)], 0x0, 0x0, 0x0, false, 0, 0, true, 0x0⟩,
    ⟨0x40041058, [(0x100, 12)], 0x0, 0x0, 0x0, false, 0, 0, true, 0x0⟩,
    ⟨0x4004105C, [(0x100, 12)], 0x0, 0x0, 0x0, false, 0, 0, true, 0x0⟩,
    ⟨0x40041060, [(0x100, 12)], 0x0, 0x0, 0x0, false, 0, 0, true, 0x0⟩,
    ⟨0x40041064, [(0x100, 12)], 0x0, 0x0, 0x0, false, 0, 0, true, 0x0⟩,
    ⟨0x40041068, [(0x100, 12)], 0x0, 0x0, 0x0, false, 0, 0, true, 0x0⟩,
    ⟨0x4004106C, [(0x100, 12)], 0x0, 0x0, 0x0, false, 0, 0, true, 0x0⟩,
    ⟨0x40041080, [(0x100, 12)], 0x0, 0x0, 0x0, false, 0, 0, true, 0x0⟩,
    ⟨0x40041084, [(0x100, 12)], 0x0, 0x0, 0x0, false, 0, 0, true, 0x0⟩,
    ⟨0x40041088, [(0x100, 12)], 0x0, 0x0, 0x0, false, 0, 0, true, 0x0⟩,
    ⟨0x4004108C, [(0x100, 12)], 0x0, 0x0, 0x0, false, 0, 0, true, 0x0⟩,
    ⟨0x40041090, [(0x100, 12)], 0x0, 0x0, 0x0, false, 0, 0, true, 0x0⟩,
    ⟨0x40041094, [(0x100, 12)], 0x0, 0x0, 0x0, false, 0, 0, true, 0x0⟩,
    ⟨0x40041098, [(0x100, 12)], 0x0, 0x0, 0x0, false, 0, 0, true, 0x0⟩,
    ⟨0x4004109C, [(0x100, 12)], 0x0, 0x0, 0x0, false, 0, 0, false, 0x45000000⟩,
    ⟨0x40048000, [(0x4, 4096)], 0xFFFF0002, 0x0, 0x0, false, 0, 0, false, 0x0⟩,
    ⟨0x4004C000, [(0x4, 4096)], 0x0, 0x0, 0x0, false, 0, 0, false, 0x90000000⟩ ]

def regTableWhl : List RegDesc := regTableWhl0 ++ regTableWhl1

/-- Register map of block LOOP. -/
def regTableLoop : List RegDesc :=
  [ ⟨0x40050000, [], 0x0, 0x0, 0x0, false, 0, 0, false, 0x0⟩,
    ⟨0x40051000, [(0x100, 8)], 0x3, 0x0, 0x80000000, false, 0, 0, false, 0x0⟩,
    ⟨0x40051004, [(0x100, 8)], 0xFFFF07FF, 0x0, 0x8000, false, 0, 0, false, 0x0⟩,
    ⟨0x40051008, [(0x100, 8)], 0x0, 0x0, 0x0, false, 0, 0, false, 0x0⟩,
    ⟨0x4005100C, [(0x100, 8)], 0x0, 0x0, 0x0, false, 0, 0, false, 0x0⟩,
    ⟨0x40051010, [(0x100, 8)], 0x0, 0x0, 0x0, false, 0, 0, false, 0x0⟩,
    ⟨0x40051014, [(0x100, 8)], 0x0, 0x0, 0x0, false, 0, 0, false, 0x0⟩,
    ⟨0x40051020, [(0x100, 8)], 0x0, 0x0, 0x0, false, 0, 0, true, 0x0⟩,
    ⟨0x40051024, [(0x100, 8)], 0x0, 0x0, 0x0, false, 0, 0, true, 0x0⟩,
    ⟨0x40051028, [(0x100, 8)], 0x0, 0x0, 0x0, false, 0, 0, true, 0x0⟩,
    ⟨0x4005102C, [(0x100, 8)], 0x0, 0x0, 0x0, false, 0, 0, true, 0x0⟩,
    ⟨0x40051030, [(0x100, 8)], 0x0, 0x0, 0x0, false, 0, 0, true, 0x0⟩,
    ⟨0x40051034, [(0x100, 8)], 0x0, 0x0, 0x0, false, 0, 0, true, 0x0⟩,
    ⟨0x40051038, [(0x100, 8)], 0x0, 0x0, 0x0, false, 0, 0, true, 0x0⟩,
    ⟨0x4005103C, [(0x100, 8)], 0x0, 0x0, 0x0, false, 0, 0, true, 0x0⟩,
    ⟨0x40054000, [(0x1000, 8), (0x4, 1012)], 0xFFFFFFFF, 0x0, 0x0, false, 0, 0, false, 0x0⟩ ]

/-- Register map of block FAD. -/
def regTableFad : List RegDesc :=
  [ ⟨0x40060000, [], 0xFFFFFF, 0x0, 0x1000000, false, 0, 0, false, 0xFFFFFF⟩,
    ⟨0x40060004, [], 0x0, 0x0, 0x0, false, 0, 0, false, 0x0⟩,
    ⟨0x40060008, [], 0x0, 0x0, 0x0, false, 0, 0, false, 0x0⟩,
    ⟨0x4006000C, [], 0x0, 0xFFFFFF, 0x0, false, 0, 0, false, 0x0⟩,
    ⟨0x40060010, [], 0x0, 0xFFFFFF, 0x0, false, 0, 0, false, 0x0⟩,
    ⟨0x40060014, [], 0x0, 0x0, 0x0, false, 0, 0, false, 0x0⟩,
    ⟨0x40060018, [], 0x0, 0xFFFFFF, 0x0, false, 0, 0, false, 0x0⟩,
    ⟨0x40060100, [(0x20, 24)], 0x3, 0x0, 0x0, false, 0, 0, false, 0x0⟩,
    ⟨0x40060104, [(0x20, 24)], 0xFFF010F, 0x0, 0x0, false, 0, 0, false, 0x0⟩,
    ⟨0x40060108, [(0x20, 24)], 0xFFFFFFFF, 0x0, 0x0, false, 0, 0, false, 0x1FFFF⟩,
    ⟨0x4006010C, [(0x20, 24)], 0xFFFFFFFF, 0x0, 0x0, false, 0, 0, false, 0xFFFE0000⟩,
    ⟨0x40060110, [(0x20, 24)], 0x0, 0x0, 0x0, false, 0, 0, false, 0x0⟩,
    ⟨0x40060114, [(0x20, 24)], 0x0, 0x0, 0x0, false, 0, 0, false, 0x40000000⟩,
    ⟨0x40060118, [(0x20, 24)], 0x0, 0x0, 0x0, false, 0, 0, true, 0x0⟩,
    ⟨0x4006011C, [(0x20, 24)], 0x0, 0x0, 0x0, false, 0, 0, true, 0x0⟩ ]

/-- Register map of block HKA. -/
def regTableHka : List RegDesc :=
  [ ⟨0x40070000, [], 0x3, 0x0, 0x30000, false, 0, 0, false, 0x0⟩,
    ⟨0x40070004, [], 0xFFFFFFFF, 0x0, 0x0, false, 0, 0, false, 0x0⟩,
    ⟨0x40070008, [], 0xFFFFF, 0x0, 0x0, false, 0, 0, false, 0x3E8⟩,
    ⟨0x4007000C, [], 0xFFFF, 0x0, 0x0, false, 0, 0, false, 0x64⟩,
    ⟨0x40070010, [], 0xFFFF, 0x0, 0x0, false, 0, 0, false, 0x0⟩,
    ⟨0x40070014, [], 0xFFFFFF, 0x0, 0x0, false, 0, 0, false, 0x0⟩,
    ⟨0x40070018, [], 0x31F, 0x0, 0x0, false, 0, 0, false, 0xA⟩,
    ⟨0x4007001C, [], 0x3FFFF, 0x0, 0x0, false, 0, 0, false, 0x20000⟩,
    ⟨0x40070020, [], 0x0, 0x0, 0x0, false, 0, 0, false, 0x0⟩,
    ⟨0x40070024, [], 0x0, 0x0, 0x0, false, 0, 0, false, 0x0⟩,
    ⟨0x40070030, [], 0x0, 0x0, 0x0, false, 2, 0, false, 0x0⟩,
    ⟨0x40070034, [], 0x0, 0x0, 0x0, false, 0, 1, false, 0x0⟩,
    ⟨0x40070038, [], 0x0, 0x0, 0x0, false, 0, 2, false, 0x0⟩,
    ⟨0x40070040, [], 0x0, 0x0, 0x1F, false, 0, 0, false, 0x0⟩,
    ⟨0x40070044, [], 0x0, 0x0, 0x0, false, 0, 0, false, 0x0⟩,
    ⟨0x40070050, [(0x4, 4)], 0x0, 0x0, 0x0, true, 0, 0, false, 0x0⟩,
    ⟨0x40070060, [], 0x0, 0xFFFF, 0x0, false, 0, 0, false, 0x0⟩,
    ⟨0x40070064, [], 0x0, 0xFFFF, 0x0, false, 0, 0, false, 0x0⟩,
    ⟨0x40070070, [], 0x0, 0x0, 0x0, false, 0, 0, true, 0x0⟩,
    ⟨0x40070074, [], 0x0, 0x0, 0x0, false, 0, 0, true, 0x0⟩,
    ⟨0x40070078, [], 0x0, 0x0, 0x0, false, 0, 0, true, 0x0⟩,
    ⟨0x4007007C, [], 0x0, 0x0, 0x0, false, 0, 0, true, 0x0⟩,
    ⟨0x40070080, [], 0x0, 0x0, 0x0, false, 0, 0, true, 0x0⟩,
    ⟨0x40070100, [(0x4, 32)], 0x0, 0x0, 0x0, false, 0, 0, false, 0x0⟩ ]

/-- Register map of block FLT. -/
def regTableFlt : List RegDesc :=
  [ ⟨0x40080000, [], 0x7, 0x0, 0x8, false, 0, 0, false, 0x1⟩,
    ⟨0x40080004, [], 0x0, 0x0, 0x0, false, 0, 0, false, 0x0⟩,
    ⟨0x40080010, [], 0x0, 0x0, 0x0, false, 2, 0, false, 0x0⟩,
    ⟨0x40080014, [], 0x0, 0x0, 0x0, false, 0, 1, false, 0x0⟩,
    ⟨0x40080018, [], 0x0, 0x0, 0x0, false, 0, 2, false, 0x0⟩,
    ⟨0x40080020, [], 0x0, 0x0, 0x0, false, 0, 0, true, 0x0⟩,
    ⟨0x40080024, [], 0x0, 0x0, 0x0, false, 0, 0, true, 0x0⟩,
    ⟨0x40080100, [(0x40, 24)], 0xCF077F7F, 0x0, 0x0, false, 0, 0, false, 0x1010102⟩,
    ⟨0x40080104, [(0x40, 24)], 0xE00003FF, 0x0, 0x0, false, 0, 0, false, 0x1⟩,
    ⟨0x40080108, [(0x40, 24)], 0x1F8F, 0x0, 0x0, false, 0, 0, false, 0x0⟩,
    ⟨0x4008010C, [(0x40, 24)], 0x1FFFF, 0x0, 0x0, false, 0, 0, false, 0x14⟩,
    ⟨0x40080110, [(0x40, 24)], 0xFFFFFF, 0x0, 0x0, false, 0, 0, false, 0x0⟩,
    ⟨0x40080114, [(0x40, 24)], 0x0, 0x0, 0x0, false, 0, 0, false, 0x0⟩,
    ⟨0x40080118, [(0x40, 24)], 0x0, 0x0, 0x0, false, 1, 0, false, 0x0⟩,
    ⟨0x4008011C, [(0x40, 24)], 0x0, 0x0, 0x0, false, 0, 1, false, 0x0⟩,
    ⟨0x40080120, [(0x40, 24)], 0x0, 0x0, 0x0, false, 1, 0, false, 0x0⟩,
    ⟨0x40080124, [(0x40, 24)], 0x0, 0x0, 0x0, false, 0, 1, false, 0x0⟩,
    ⟨0x40080128, [(0x40, 24)], 0x0, 0x10000000, 0x0, false, 0, 0, false, 0x80000000⟩,
    ⟨0x4008012C, [(0x40, 24)], 0x0, 0x0, 0x0, false, 0, 0, false, 0x0⟩,
    ⟨0x40080130, [(0x40, 24)], 0x0, 0x0, 0x0, false, 0, 0, true, 0x0⟩,
    ⟨0x40080134, [(0x40, 24)], 0x0, 0x0, 0x0, false, 0, 0, true, 0x0⟩,
    ⟨0x40080138, [(0x40, 24)], 0x0, 0x0, 0x0, false, 0, 0, true, 0x0⟩,
    ⟨0x40081000, [(0x80, 24), (0x4, 32)], 0xFFFFFF, 0x0, 0x0, false, 0, 0, false, 0x0⟩ ]

/-- Register map of block CHR, part 0. -/
def regTableChr0 : List RegDesc :=
  [ ⟨0x40090000, [], 0xD, 0x0, 0xE0000000, false, 0, 0, false, 0x0⟩,
    ⟨0x40090004, [], 0x0, 0x0, 0x0, false, 0, 0, false, 0x0⟩,
    ⟨0x40090008, [], 0xFFFF, 0x0, 0x0, false, 0, 0, false, 0x0⟩,
    ⟨0x4009000C, [], 0xFFFF, 0x0, 0x0, false, 0, 0, false, 0x0⟩,
    ⟨0x40090010, [], 0xFFFFFFFF, 0x0, 0x0, false, 0, 0, false, 0x0⟩,
    ⟨0x40090014, [], 0xFFFF, 0x0, 0x0, false, 0, 0, false, 0x0⟩,
    ⟨0x40090018, [], 0xFFFFFF, 0x0, 0x0, false, 0, 0, false, 0x0⟩,
    ⟨0x4009001C, [], 0xFFFFFF, 0x0, 0x0, false, 0, 0, false, 0x0⟩,
    ⟨0x40090020, [], 0x1F010FFF, 0x0, 0x0, false, 0, 0, false, 0x0⟩,
    ⟨0x40090024, [], 0xFFFF, 0x0, 0x0, false, 0, 0, false, 0x0⟩,
    ⟨0x40090028, [], 0xFFFF, 0x0, 0x0, false, 0, 0, false, 0x0⟩,
    ⟨0x4009002C, [], 0x8000FFFF, 0x0, 0x0, false, 0, 0, false, 0x0⟩,
    ⟨0x40090030, [], 0xFFFFFF, 0x0, 0x0, false, 0, 0, false, 0x3E8⟩,
    ⟨0x40090034, [], 0x301, 0x0, 0x0, false, 0, 0, false, 0x0⟩,
    ⟨0x40090038, [], 0xF, 0x0, 0x0, false, 0, 0, false, 0x0⟩,
    ⟨0x4009003C, [], 0x3FFFF, 0x0, 0x0, false, 0, 0, false, 0x20000⟩,
    ⟨0x40090040, [(0x4, 4)], 0xFFFFFFFF, 0x0, 0x0, false, 0, 0, false, 0x0⟩,
    ⟨0x40090050, [(0x4, 4)], 0xFFFFFFFF, 0x0, 0x0, false, 0, 0, false, 0x0⟩,
    ⟨0x40090060, [(0x10, 4)], 0xF000001F, 0x0, 0x0, false, 0, 0, false, 0x0⟩,
    ⟨0x40090064, [(0x10, 4)], 0xFFFFFFFF, 0x0, 0x0, false, 0, 0, false, 0x0⟩,
    ⟨0x40090068, [(0x10, 4)], 0xFFFFFFFF, 0x0, 0x0, false, 0, 0, false, 0x0⟩,
    ⟨0x4009006C, [(0x10, 4)], 0xFFFFFFFF, 0x0, 0x0, false, 0, 0, false, 0x0⟩,
    ⟨0x400900A0, [(0x4, 8)], 0xE01F03FF, 0x0, 0x0, false, 0, 0, false, 0x0⟩,
    ⟨0x400900C0, [(0x4, 16)], 0xFFFF3FFF, 0x0, 0x0, false, 0, 0, false, 0x0⟩ ]

/-- Register map of block CHR, part 1. -/
def regTableChr1 : List RegDesc :=
  [ ⟨0x40090100, [(0x4, 16)], 0x0, 0x0, 0x0, false, 0, 0, false, 0x0⟩,
    ⟨0x40090140, [(0x4, 16)], 0xF0000FFF, 0x0, 0x0, false, 0, 0, false, 0x10000000⟩,
    ⟨0x40090180, [], 0xFFFFF003, 0x0, 0x0, false, 0, 0, false, 0x0⟩,
    ⟨0x40090184, [], 0xFFFFFFFF, 0x0, 0x0, false, 0, 0, false, 0x0⟩,
    ⟨0x40090188, [], 0x0, 0x0, 0x1F, false, 0, 0, false, 0x0⟩,
    ⟨0x40090190, [], 0x0, 0x0, 0x0, false, 2, 0, false, 0x0⟩,
    ⟨0x40090194, [], 0x0, 0x0, 0x0, false, 0, 1, false, 0x0⟩,
    ⟨0x40090198, [], 0x0, 0x0, 0x0, false, 0, 2, false, 0x0⟩,
    ⟨0x400901A0, [], 0x0, 0x0, 0x0, false, 0, 0, true, 0x0⟩,
    ⟨0x400901A4, [], 0x0, 0x0, 0x0, false, 0, 0, true, 0x0⟩,
    ⟨0x400901A8, [], 0x0, 0x0, 0x0, false, 0, 0, true, 0x0⟩,
    ⟨0x400901AC, [], 0x0, 0x0, 0x0, false, 0, 0, true, 0x0⟩,
    ⟨0x40098000, [(0x1000, 8), (0x8, 512)], 0xFFFFFFFF, 0x0, 0x0, false, 0, 0, false, 0x0⟩,
    ⟨0x40098004, [(0x1000, 8), (0x8, 512)], 0xFFFFFFFF, 0x0, 0x0, false, 0, 0, false, 0x0⟩ ]

def regTableChr : List RegDesc := regTableChr0 ++ regTableChr1

/-- Register map of block TIM, part 0. -/
def regTableTim0 : List RegDesc :=
  [ ⟨0x400A0000, [], 0x13, 0x0, 0x0, false, 0, 0, false, 0x0⟩,
    ⟨0x400A0004, [], 0x0, 0x0, 0x0, false, 0, 0, false, 0x0⟩,
    ⟨0x400A0008, [], 0x83FFFFFF, 0x0, 0x0, false, 0, 0, false, 0x64000A⟩,
    ⟨0x400A000C, [], 0xFFFF, 0x0, 0x0, false, 0, 0, false, 0x258⟩,
    ⟨0x400A0010, [], 0x7, 0x0, 0x80000000, false, 0, 0, false, 0x0⟩,
    ⟨0x400A0014, [], 0x0, 0x0, 0x0, false, 0, 0, false, 0x0⟩,
    ⟨0x400A0018, [], 0xFFFFFFFF, 0x0, 0x0, false, 0, 0, false, 0x0⟩,
    ⟨0x400A001C, [], 0x0, 0x0, 0x0, false, 0, 0, false, 0x0⟩,
    ⟨0x400A0020, [], 0xFFFFFFFF, 0x0, 0x0, false, 0, 0, false, 0x0⟩,
    ⟨0x400A0024, [], 0xFFFFFFFF, 0x0, 0x0, false, 0, 0, false, 0x0⟩,
    ⟨0x400A0028, [], 0xFFFFFFFF, 0x0, 0x0, false, 0, 0, false, 0x0⟩,
    ⟨0x400A002C, [], 0xFFFFFFFF, 0x0, 0x0, false, 0, 0, false, 0x0⟩,
    ⟨0x400A0030, [], 0xFFFF, 0x0, 0x0, false, 0, 0, false, 0x0⟩,
    ⟨0x400A0040, [], 0x0, 0x0, 0x0, false, 2, 0, false, 0x0⟩,
    ⟨0x400A0044, [], 0x0, 0x0, 0x0, false, 0, 1, false, 0x0⟩,
    ⟨0x400A0048, [], 0x0, 0x0, 0x0, false, 0, 2, false, 0x0⟩,
    ⟨0x400A0050, [], 0x0, 0x0, 0x0, false, 1, 0, false, 0x0⟩,
    ⟨0x400A0054, [], 0x0, 0x0, 0x0, false, 0, 1, false, 0x0⟩,
    ⟨0x400A0058, [], 0x0, 0x0, 0x0, false, 1, 0, false, 0x0⟩,
    ⟨0x400A005C, [], 0x0, 0x0, 0x0, false, 0, 1, false, 0x0⟩,
    ⟨0x400A0060, [], 0xC007FFFF, 0x0, 0x0, false, 0, 0, false, 0x80000064⟩,
    ⟨0x400A0064, [], 0x0, 0x0, 0x0, false, 2, 0, false, 0x0⟩,
    ⟨0x400A0068, [], 0x0, 0x0, 0x0, false, 0, 1, false, 0x0⟩,
    ⟨0x400A006C, [], 0x0, 0x0, 0x0, false, 0, 2, false, 0x0⟩ ]

/-- Register map of block TIM, part 1. -/
def regTableTim1 : List RegDesc :=
  [ ⟨0x400A0070, [], 0x0, 0x0, 0x0, false, 0, 0, false, 0x0⟩,
    ⟨0x400A0074, [], 0x0, 0x0, 0x0, false, 0, 0, false, 0x0⟩,
    ⟨0x400A0080, [], 0x0, 0x0, 0x0, false, 0, 0, true, 0x0⟩,
    ⟨0x400A0084, [], 0x0, 0x0, 0x0, false, 0, 0, true, 0x0⟩,
    ⟨0x400A0088, [], 0x0, 0x0, 0x0, false, 0, 0, true, 0x0⟩ ]

def regTableTim : List RegDesc := regTableTim0 ++ regTableTim1

/-- Register map of block ETH, part 0. -/
def regTableEth0 : List RegDesc :=
  [ ⟨0x400B0000, [], 0x1, 0x0, 0x0, false, 0, 0, false, 0x1⟩,
    ⟨0x400B0004, [], 0xFFFFFFFC, 0x0, 0x0, false, 0, 0, false, 0x808020⟩,
    ⟨0x400B0008, [], 0xFFF, 0x0, 0x0, false, 0, 0, false, 0x0⟩,
    ⟨0x400B0010, [], 0xFFFFFFFF, 0x0, 0x0, false, 0, 0, false, 0x0⟩,
    ⟨0x400B0014, [], 0xFFFFFFFF, 0x0, 0x0, false, 0, 0, false, 0x0⟩,
    ⟨0x400B0018, [], 0xFFFFFFFF, 0x0, 0x0, false, 0, 0, false, 0x0⟩,
    ⟨0x400B0020, [], 0xFFFFFFFF, 0x0, 0x0, false, 0, 0, false, 0x0⟩,
    ⟨0x400B0024, [], 0xFFFFFFFF, 0x0, 0x0, false, 0, 0, false, 0x0⟩,
    ⟨0x400B0028, [], 0xFFFFFFFF, 0x0, 0x0, false, 0, 0, false, 0x0⟩,
    ⟨0x400B0030, [], 0x0, 0x0, 0x0, false, 1, 0, false, 0x0⟩,
    ⟨0x400B0034, [], 0x0, 0x0, 0x0, false, 0, 1, false, 0x0⟩,
    ⟨0x400B0040, [], 0x0, 0x0, 0x0, false, 0, 0, true, 0x0⟩,
    ⟨0x400B0044, [], 0x0, 0x0, 0x0, false, 0, 0, true, 0x0⟩,
    ⟨0x400B0048, [], 0x0, 0x0, 0x0, false, 0, 0, true, 0x0⟩,
    ⟨0x400B004C, [], 0x0, 0x0, 0x0, false, 0, 0, true, 0x0⟩,
    ⟨0x400B1000, [(0x100, 5)], 0xF07, 0x0, 0x0, false, 0, 0, false, 0x0⟩,
    ⟨0x400B1004, [(0x100, 5)], 0x0, 0x0, 0x0, false, 0, 0, false, 0x3000000⟩,
    ⟨0x400B1008, [(0x100, 5)], 0xFFFFFFFF, 0x0, 0x0, false, 0, 0, false, 0x0⟩,
    ⟨0x400B100C, [(0x100, 5)], 0xFFFFFFFF, 0x0, 0x0, false, 0, 0, false, 0x0⟩,
    ⟨0x400B1010, [(0x100, 5)], 0x0, 0x0, 0x0, false, 2, 0, false, 0x0⟩,
    ⟨0x400B1014, [(0x100, 5)], 0x0, 0x0, 0x0, false, 0, 1, false, 0x0⟩,
    ⟨0x400B1018, [(0x100, 5)], 0x0, 0x0, 0x0, false, 0, 2, false, 0x0⟩,
    ⟨0x400B101C, [(0x100, 5)], 0x0, 0x20, 0x0, false, 0, 0, false, 0x0⟩,
    ⟨0x400B1020, [(0x100, 5)], 0x0, 0x0, 0xFFFFFFFF, false, 0, 0, false, 0x0⟩ ]

/-- Register map of block ETH, part 1. -/
def regTableEth1 : List RegDesc :=
  [ ⟨0x400B1024, [(0x100, 5)], 0x0, 0x0, 0xFFFFFFFF, false, 0, 0, false, 0x0⟩,
    ⟨0x400B1028, [(0x100, 5)], 0x0, 0x0, 0xFFFFFFFF, false, 0, 0, false, 0x0⟩,
    ⟨0x400B102C, [(0x100, 5)], 0x0, 0x0, 0xFFFFFFFF, false, 0, 0, false, 0x0⟩,
    ⟨0x400B1030, [(0x100, 5)], 0x0, 0x0, 0x0, false, 0, 0, false, 0x0⟩,
    ⟨0x400B1040, [(0x100, 5)], 0x0, 0x0, 0x0, false, 0, 0, true, 0x0⟩,
    ⟨0x400B1044, [(0x100, 5)], 0x0, 0x0, 0x0, false, 0, 0, true, 0x0⟩,
    ⟨0x400B1048, [(0x100, 5)], 0x0, 0x0, 0x0, false, 0, 0, true, 0x0⟩,
    ⟨0x400B104C, [(0x100, 5)], 0x0, 0x0, 0x0, false, 0, 0, true, 0x0⟩,
    ⟨0x400B1050, [(0x100, 5)], 0x0, 0x0, 0x0, false, 0, 0, true, 0x0⟩,
    ⟨0x400B1054, [(0x100, 5)], 0x0, 0x0, 0x0, false, 0, 0, true, 0x0⟩,
    ⟨0x400B1058, [(0x100, 5)], 0x0, 0x0, 0x0, false, 0, 0, true, 0x0⟩,
    ⟨0x400B105C, [(0x100, 5)], 0x0, 0x0, 0x0, false, 0, 0, true, 0x0⟩,
    ⟨0x400B4000, [(0x20, 64)], 0xFFFFFFFF, 0x0, 0x0, false, 0, 0, false, 0x0⟩,
    ⟨0x400B4004, [(0x20, 64)], 0xFFFFFFFF, 0x0, 0x0, false, 0, 0, false, 0x0⟩,
    ⟨0x400B4008, [(0x20, 64)], 0xFFFFFFFF, 0x0, 0x0, false, 0, 0, false, 0x0⟩,
    ⟨0x400B400C, [(0x20, 64)], 0xFFFFFFFF, 0x0, 0x0, false, 0, 0, false, 0x0⟩,
    ⟨0x400B4010, [(0x20, 64)], 0xFF003F3F, 0x0, 0x0, false, 0, 0, false, 0x0⟩,
    ⟨0x400B4014, [(0x20, 64)], 0x0, 0x0, 0x0, false, 0, 0, false, 0x0⟩,
    ⟨0x400B4018, [(0x20, 64)], 0x0, 0x0, 0x0, false, 0, 0, false, 0x0⟩,
    ⟨0x400B5000, [(0x10, 16)], 0xF800FF00, 0x0, 0x0, false, 0, 0, false, 0x200⟩,
    ⟨0x400B5004, [(0x10, 16)], 0xFFFF, 0x0, 0x0, false, 0, 0, false, 0x3E8⟩,
    ⟨0x400B5008, [(0x10, 16)], 0x0, 0x0, 0x0, false, 0, 0, false, 0x0⟩,
    ⟨0x400B500C, [(0x10, 16)], 0x0, 0x0, 0x0, false, 0, 0, false, 0x0⟩,
    ⟨0x400B6000, [(0x20, 24)], 0xFFFFFFFF, 0x0, 0x0, false, 0, 0, false, 0x0⟩ ]

/-- Register map of block ETH, part 2. -/
def regTableEth2 : List RegDesc :=
  [ ⟨0x400B6004, [(0x20, 24)], 0xFFFFFFFF, 0x0, 0x0, false, 0, 0, false, 0x0⟩,
    ⟨0x400B6008, [(0x20, 24)], 0xFFFFFFFF, 0x0, 0x0, false, 0, 0, false, 0x0⟩,
    ⟨0x400B600C, [(0x20, 24)], 0xFFFFFFFF, 0x0, 0x0, false, 0, 0, false, 0x0⟩,
    ⟨0x400B6010, [(0x20, 24)], 0xF8000000, 0x0, 0x0, false, 0, 0, false, 0x0⟩,
    ⟨0x400B6014, [(0x20, 24)], 0x0, 0x0, 0x0, false, 0, 0, false, 0x0⟩,
    ⟨0x400B6018, [(0x20, 24)], 0x0, 0x0, 0x0, false, 0, 0, true, 0x0⟩,
    ⟨0x400B601C, [(0x20, 24)], 0x0, 0x0, 0x0, false, 0, 0, true, 0x0⟩ ]

def regTableEth : List RegDesc := regTableEth0 ++ regTableEth1 ++ regTableEth2

/-- Register map of block SCH, part 0. -/
def regTableSch0 : List RegDesc :=
  [ ⟨0x400C0000, [], 0xFF01, 0x0, 0x0, false, 0, 0, false, 0x1001⟩,
    ⟨0x400C0004, [], 0x3FF, 0x0, 0x0, false, 0, 0, false, 0x280⟩,
    ⟨0x400C0008, [], 0x0, 0x0, 0x0, false, 0, 0, false, 0x0⟩,
    ⟨0x400C000C, [], 0x0, 0x0, 0x0, false, 0, 0, false, 0x0⟩,
    ⟨0x400C0010, [], 0x0, 0x0, 0x0, false, 0, 0, false, 0x0⟩,
    ⟨0x400C0024, [(0x4, 10)], 0xFFFF8033, 0x0, 0x0, false, 0, 0, false, 0x0⟩,
    ⟨0x400C0100, [(0x4, 4)], 0x0, 0x0, 0x0, false, 0, 0, false, 0x0⟩,
    ⟨0x400C0120, [], 0xFFFFFF, 0x0, 0x0, false, 0, 0, false, 0x0⟩,
    ⟨0x400C0124, [], 0x0, 0x80000000, 0x0, false, 0, 0, false, 0x0⟩,
    ⟨0x400C0130, [], 0x3, 0x0, 0x0, false, 0, 0, false, 0x0⟩,
    ⟨0x400C0134, [], 0x3FFF, 0x0, 0x0, false, 0, 0, false, 0x0⟩,
    ⟨0x400C0138, [], 0x0, 0x0, 0x0, false, 0, 0, false, 0x0⟩,
    ⟨0x400C013C, [], 0x0, 0x3, 0x0, false, 0, 0, false, 0x0⟩,
    ⟨0x400C0200, [(0x4, 4)], 0x0, 0x0, 0x0, false, 0, 0, true, 0x0⟩,
    ⟨0x400C0210, [(0x4, 4)], 0x0, 0x0, 0x0, false, 0, 0, true, 0x0⟩,
    ⟨0x400C0220, [], 0x0, 0x0, 0x0, false, 0, 0, true, 0x0⟩,
    ⟨0x400C0224, [], 0x0, 0x0, 0x0, false, 0, 0, false, 0x0⟩,
    ⟨0x400C0228, [], 0x0, 0x0, 0x0, false, 0, 0, true, 0x0⟩,
    ⟨0x400C022C, [], 0x0, 0x0, 0x0, false, 0, 0, true, 0x0⟩,
    ⟨0x400C0230, [], 0x0, 0x0, 0x0, false, 0, 0, true, 0x0⟩,
    ⟨0x400C0234, [], 0x0, 0x0, 0x0, false, 0, 0, true, 0x0⟩,
    ⟨0x400C0238, [], 0x0, 0x0, 0x0, false, 0, 0, true, 0x0⟩,
    ⟨0x400C0300, [(0x10, 16)], 0xFFFF000F, 0x0, 0x0, false, 0, 0, false, 0x8⟩,
    ⟨0x400C0304, [(0x10, 16)], 0xFFFFFFFF, 0x0, 0x0, false, 0, 0, false, 0x3E8⟩ ]

/-- Register map of block SCH, part 1. -/
def regTableSch1 : List RegDesc :=
  [ ⟨0x400C0308, [(0x10, 16)], 0x0, 0x0, 0x0, false, 0, 0, false, 0x0⟩ ]

def regTableSch : List RegDesc := regTableSch0 ++ regTableSch1

/-- Register map of block FCO. -/
def regTableFco : List RegDesc :=
  [ ⟨0x400D0000, [], 0x0, 0xFFFFFFFF, 0x0, false, 1, 0, false, 0x0⟩,
    ⟨0x400D0004, [], 0x0, 0xFFFFFFFF, 0x0, false, 0, 1, false, 0x0⟩,
    ⟨0x400D0008, [], 0x0, 0x0, 0x0, false, 1, 0, false, 0x0⟩,
    ⟨0x400D000C, [], 0x0, 0x0, 0x0, false, 0, 1, false, 0x0⟩,
    ⟨0x400D0010, [(0x4, 4)], 0xFFFFFFFF, 0x0, 0x0, false, 0, 0, false, 0x0⟩,
    ⟨0x400D0020, [], 0x0, 0x0, 0x0, false, 4, 0, false, 0x0⟩,
    ⟨0x400D0024, [], 0x0, 0x0, 0x0, false, 0, 1, false, 0x0⟩,
    ⟨0x400D0028, [], 0x0, 0x0, 0x0, false, 0, 2, false, 0x0⟩,
    ⟨0x400D002C, [], 0x0, 0x0, 0x0, false, 0, 3, false, 0x0⟩,
    ⟨0x400D0030, [], 0x0, 0x0, 0x0, false, 0, 4, false, 0x0⟩,
    ⟨0x400D0034, [], 0x0, 0x0, 0x1, false, 0, 0, false, 0x0⟩,
    ⟨0x400D0040, [], 0x3000FFFF, 0x0, 0xC0000000, false, 0, 0, false, 0x0⟩,
    ⟨0x400D0044, [], 0x0, 0x0, 0x0, false, 0, 0, false, 0x0⟩,
    ⟨0x400D0050, [], 0x8000007F, 0x0, 0x0, false, 0, 0, false, 0xC0000014⟩,
    ⟨0x400D0054, [], 0x0, 0x0, 0x3, false, 0, 0, false, 0x0⟩,
    ⟨0x400D0058, [], 0xFFFF, 0x0, 0x0, false, 0, 0, false, 0x64⟩,
    ⟨0x400D0060, [(0x4, 4)], 0x0, 0x0, 0x0, false, 0, 0, true, 0x0⟩,
    ⟨0x400D0070, [], 0x0, 0x0, 0x0, false, 0, 0, true, 0x0⟩,
    ⟨0x400D0074, [], 0x0, 0x80000000, 0x0, false, 0, 0, false, 0x0⟩ ]

/-- Register map of block SAF. -/
def regTableSaf : List RegDesc :=
  [ ⟨0x400E0000, [], 0x0, 0x0, 0x0, false, 0, 0, false, 0xC0000000⟩,
    ⟨0x400E0004, [], 0x0, 0x0, 0x0, false, 0, 0, false, 0x0⟩,
    ⟨0x400E0008, [], 0x0, 0x0, 0x0, false, 0, 0, false, 0x0⟩,
    ⟨0x400E000C, [], 0x0, 0x0, 0x0, false, 0, 0, false, 0x0⟩,
    ⟨0x400E0010, [], 0x0, 0x0, 0x0, false, 0, 0, false, 0x0⟩,
    ⟨0x400E0014, [], 0x0, 0x0, 0x0, false, 0, 0, false, 0x0⟩,
    ⟨0x400E0018, [], 0x0, 0x0, 0x0, false, 0, 0, false, 0x0⟩,
    ⟨0x400E001C, [], 0x0, 0x0, 0x0, false, 0, 0, false, 0x0⟩,
    ⟨0x400E0020, [], 0x0, 0x0, 0x0, false, 2, 0, false, 0x0⟩,
    ⟨0x400E0024, [], 0x0, 0x0, 0x0, false, 0, 1, false, 0x0⟩,
    ⟨0x400E0028, [], 0x0, 0x0, 0x0, false, 0, 2, false, 0x0⟩,
    ⟨0x400E0030, [], 0x0, 0x0, 0x0, false, 0, 0, true, 0x0⟩,
    ⟨0x400E0034, [], 0x0, 0x0, 0x0, false, 0, 0, true, 0x0⟩,
    ⟨0x400E0038, [], 0x0, 0x0, 0x0, false, 0, 0, true, 0x0⟩,
    ⟨0x400E003C, [], 0x0, 0x0, 0x0, false, 0, 0, true, 0x0⟩ ]

/-- Register map of block FIO. -/
def regTableFio : List RegDesc :=
  [ ⟨0x400F0000, [], 0x0, 0x0, 0x3, false, 0, 0, false, 0x0⟩,
    ⟨0x400F0004, [], 0x0, 0x0, 0x0, false, 0, 0, false, 0x0⟩,
    ⟨0x400F0008, [], 0x3FF, 0x0, 0x0, false, 0, 0, false, 0x14⟩,
    ⟨0x400F000C, [], 0xF, 0x0, 0x0, false, 0, 0, false, 0x0⟩,
    ⟨0x400F0010, [], 0xFFFFFFFF, 0x0, 0x0, false, 0, 0, false, 0xA0A0A0A⟩,
    ⟨0x400F0014, [], 0xFFFFFFFF, 0x0, 0x0, false, 0, 0, false, 0x0⟩,
    ⟨0x400F0018, [], 0xFFF, 0x0, 0x0, false, 0, 0, false, 0x0⟩,
    ⟨0x400F001C, [], 0xFFFFFFFF, 0x0, 0x0, false, 0, 0, false, 0x0⟩,
    ⟨0x400F0020, [], 0xFFFF, 0x0, 0x0, false, 0, 0, false, 0x0⟩,
    ⟨0x400F0024, [], 0xFFFF, 0x0, 0x0, false, 0, 0, false, 0x0⟩,
    ⟨0x400F0028, [], 0xFFF, 0x0, 0x0, false, 0, 0, false, 0x0⟩,
    ⟨0x400F002C, [], 0xFFFF, 0x0, 0x0, false, 0, 0, false, 0x0⟩,
    ⟨0x400F0030, [], 0x0, 0x0, 0x0, false, 0, 0, false, 0x0⟩,
    ⟨0x400F0034, [], 0x0, 0x0, 0x0, false, 0, 0, false, 0x0⟩,
    ⟨0x400F0038, [], 0x0, 0x0, 0x0, false, 0, 0, false, 0x0⟩,
    ⟨0x400F003C, [], 0x0, 0xFFFFFFFF, 0x0, false, 0, 0, false, 0x0⟩,
    ⟨0x400F0040, [], 0x0, 0xFFFFFFFF, 0x0, false, 0, 0, false, 0x0⟩,
    ⟨0x400F0050, [], 0x0, 0x0, 0x0, false, 0, 0, true, 0x0⟩,
    ⟨0x400F0054, [], 0x0, 0x0, 0x0, false, 0, 0, true, 0x0⟩,
    ⟨0x400F0058, [], 0x0, 0x0, 0x0, false, 0, 0, true, 0x0⟩,
    ⟨0x400F005C, [], 0x0, 0x0, 0x0, false, 0, 0, true, 0x0⟩ ]

/-- Register map of block MIR. -/
def regTableMir : List RegDesc :=
  [ ⟨0x40100000, [], 0x103, 0x0, 0x0, false, 0, 0, false, 0x3⟩,
    ⟨0x40100004, [], 0x0, 0x0, 0x0, false, 0, 0, false, 0x0⟩,
    ⟨0x40100008, [], 0x0, 0x0, 0x0, false, 0, 0, false, 0x0⟩,
    ⟨0x4010000C, [], 0x0, 0x0, 0x0, false, 0, 0, false, 0x0⟩,
    ⟨0x40100020, [], 0x0, 0x0, 0x0, false, 0, 0, true, 0x0⟩,
    ⟨0x40100024, [], 0x0, 0x0, 0x0, false, 0, 0, true, 0x0⟩,
    ⟨0x40100028, [], 0x0, 0x0, 0x0, false, 0, 0, true, 0x0⟩,
    ⟨0x4010002C, [], 0x0, 0x0, 0x0, false, 0, 0, true, 0x0⟩,
    ⟨0x40101000, [(0x4, 128)], 0x0, 0x0, 0x0, false, 0, 0, false, 0x0⟩ ]

/-- Register map of block BTN. -/
def regTableBtn : List RegDesc :=
  [ ⟨0x40110000, [], 0x3FF0F00, 0x0, 0x0, false, 0, 0, false, 0x3C0300⟩,
    ⟨0x40110004, [], 0xFFFF, 0x0, 0x0, false, 0, 0, false, 0x7D0⟩,
    ⟨0x40110008, [], 0xFFFF, 0x0, 0x0, false, 0, 0, false, 0x3E8⟩,
    ⟨0x4011000C, [], 0x0, 0x0, 0xF0000000, false, 0, 0, false, 0x0⟩,
    ⟨0x40110010, [], 0x0, 0x0, 0x0, false, 0, 0, false, 0x0⟩,
    ⟨0x40110014, [], 0x0, 0x0, 0x0, false, 0, 0, false, 0x2⟩,
    ⟨0x40110018, [], 0x0, 0x0, 0x0, false, 0, 0, false, 0x0⟩,
    ⟨0x4011001C, [], 0x0, 0x0, 0x0, false, 0, 0, false, 0x0⟩,
    ⟨0x40110020, [], 0x0, 0x0, 0x0, false, 0, 0, false, 0x200⟩,
    ⟨0x40110024, [], 0x0, 0x0, 0x0, false, 0, 0, false, 0x0⟩,
    ⟨0x40110028, [], 0x0, 0x0, 0x0, false, 0, 0, false, 0x0⟩,
    ⟨0x4011002C, [], 0x0, 0x0, 0x0, false, 0, 0, false, 0x0⟩,
    ⟨0x40110030, [], 0x0, 0x0, 0x0, false, 2, 0, false, 0x0⟩,
    ⟨0x40110034, [], 0x0, 0x0, 0x0, false, 0, 1, false, 0x0⟩,
    ⟨0x40110038, [], 0x0, 0x0, 0x0, false, 0, 2, false, 0x0⟩,
    ⟨0x40110040, [(0x4, 8)], 0xFFFFFFFF, 0x0, 0x0, false, 0, 0, false, 0x42C80000⟩,
    ⟨0x40110080, [], 0x0, 0x0, 0x0, false, 0, 0, true, 0x0⟩,
    ⟨0x40110084, [], 0x0, 0x0, 0x0, false, 0, 0, true, 0x0⟩,
    ⟨0x40110088, [], 0x0, 0x0, 0x0, false, 0, 0, true, 0x0⟩,
    ⟨0x4011008C, [], 0x0, 0x0, 0x0, false, 0, 0, true, 0x0⟩,
    ⟨0x40110090, [], 0x0, 0x0, 0x0, false, 0, 0, true, 0x0⟩,
    ⟨0x40110094, [], 0x0, 0x0, 0x0, false, 0, 0, true, 0x0⟩ ]

/-- Register map of block STAT. -/
def regTableStat : List RegDesc :=
  [ ⟨0x40120000, [], 0x3, 0x0, 0x0, false, 0, 0, false, 0x1⟩,
    ⟨0x40120004, [], 0x0, 0x0, 0x0, false, 0, 0, false, 0x0⟩,
    ⟨0x40120008, [], 0x0, 0x0, 0x0, false, 1, 0, false, 0x0⟩,
    ⟨0x4012000C, [], 0x0, 0x0, 0x0, false, 0, 1, false, 0x0⟩,
    ⟨0x40120010, [], 0x0, 0x0, 0x0, false, 2, 0, false, 0x0⟩,
    ⟨0x40120014, [], 0x0, 0x0, 0x0, false, 0, 1, false, 0x0⟩,
    ⟨0x40120018, [], 0x0, 0x0, 0x0, false, 0, 2, false, 0x0⟩,
    ⟨0x40120020, [(0x8, 4)], 0x1F00FFFF, 0x0, 0x0, false, 0, 0, false, 0x0⟩,
    ⟨0x40120024, [(0x8, 4)], 0x0, 0x0, 0x0, false, 0, 0, false, 0x0⟩,
    ⟨0x40120040, [], 0x0, 0x0, 0x0, false, 0, 0, false, 0x0⟩ ]

/-- The register map of the block with number `n`, in the order of R468. -/
def regTable (n : Nat) : List RegDesc :=
  match n with
  | 0 => regTableSys
  | 1 => regTableId
  | 2 => regTableEsc
  | 3 => regTableRing
  | 4 => regTableWhl
  | 5 => regTableLoop
  | 6 => regTableFad
  | 7 => regTableHka
  | 8 => regTableFlt
  | 9 => regTableChr
  | 10 => regTableTim
  | 11 => regTableEth
  | 12 => regTableSch
  | 13 => regTableFco
  | 14 => regTableSaf
  | 15 => regTableFio
  | 16 => regTableMir
  | 17 => regTableBtn
  | 18 => regTableStat
  | _ => []

/-- Whether byte offset `o` from a row's base is one of its registers. -/
def RegDesc.inDims : List (Nat × Nat) → Nat → Bool
  | [], o => o == 0
  | [(st, c)], o => o % st == 0 && o / st < c
  | (st, c) :: rest, o => decide (o / st < c) && RegDesc.inDims rest (o % st)

def RegDesc.covers (d : RegDesc) (a : Nat) : Bool := decide (d.base ≤ a) && RegDesc.inDims d.dims (a - d.base)

/-- The row of the register map that address `a` names; none outside the map (R469). -/
def regDesc (a : Nat) : Option RegDesc :=
  if 0x40000000 ≤ a ∧ a < 0x40130000 then (regTable (a / 0x10000 % 0x10000 - 0x4000)).find? (fun d => d.covers a) else none

/-- The FCO_CLASS value at reset: the default class of each source (R403), sixteen sources a word. -/
def fcoClassReset (n : Nat) : Nat :=
  match n with
  | 0 => 0xE7FA5504
  | 1 => 0xBBA1AAAA
  | 2 => 0x6AAABAAB
  | _ => 0xE9AFABEA

/-- A register's value after a hardware reset (R9). -/
def regReset (a : Nat) : Word :=
  match regDesc a with
  | none => 0
  | some d =>
    if 0x400D0010 ≤ a ∧ a < 0x400D0020 then BitVec.ofNat 32 (fcoClassReset ((a - 0x400D0010) / 4))
    else BitVec.ofNat 32 d.reset

end Sys2Proof.Machine
end

