-- ==== Sys2Proof/Machine/State.lean ====
section
/-! DEFINITION. The state of the module: everything the manual gives it, as plain data. Software-visible registers have
one home, `regs` (or the structured field they show); what the manual names without a register stands beside them. -/

namespace Sys2Proof.Machine

/-- A split: PTP seconds and nanoseconds (R4). -/
structure Split where
  sec : Nat
  ns : Nat
  deriving DecidableEq, Repr

/-- The parameters of one time-base epoch (R327): `ofs` in 2⁻¹⁶ ns, `rate` in 2⁻⁴⁰. -/
structure Epoch where
  ce : Nat
  ofs : Nat
  rate : Int
  deriving DecidableEq, Repr

/-- A committed adjustment that awaits its epoch `ce` (R328); step and set in 2⁻¹⁶ ns. -/
structure Adjustment where
  ce : Nat
  rate : Option Int
  step : Option Int
  set : Option Nat
  deriving DecidableEq, Repr

/-- The time base and what the servo and the pulses keep beside the TIM registers (R326 to R334, R353). -/
structure TimeBase where
  cnt : Nat
  epoch : Epoch
  /-- The epochs before it, newest first, as far back as a conversion or the mean of R334 can need them. -/
  prev : List Epoch
  adj : Option Adjustment
  /-- Consecutive measurements with |offset| at most 100 ns (R334). -/
  good : Nat
  /-- CNT at the entry into HOLDOVER. -/
  holdFrom : Nat
  /-- The seconds already pulsed on PPS_OUT, as intervals, newest first (R332), and CNT until which it is high. -/
  pulsed : List (Nat × Nat)
  ppsUntil : Nat
  /-- REF10_IN is present and valid (R331). -/
  ref10Ok : Bool
  /-- Consecutive twin comparisons above, and within, 20 ns (R353). -/
  twinOver : Nat
  twinWithin : Nat
  deriving DecidableEq, Repr

/-- A parameter-block write that awaits its boundary (R13, R15); `at_` is CNT at the commit. -/
structure StagedWrite where
  at_ : Nat
  addr : Nat
  val : Word
  origin : Origin
  deriving DecidableEq, Repr

/-- A mode request that awaits its boundary (R453, R454). -/
structure ModeRequest where
  target : Mode
  at_ : Nat
  caller : Caller
  deriving DecidableEq, Repr

/-- An answer sent to an HMP client (R478): `zeroTag` where R482 sends no tag. -/
structure HmpAnswer where
  session : Word
  seq : Word
  status : Status
  payload : List Byte
  zeroTag : Bool
  deriving DecidableEq, Repr

/-- An open HMP session (R480 to R482). `resp` is the stored response to the last accepted SEQ, none while undecided. -/
structure Session where
  num : Word
  role : HmpRole
  port : HmpPort
  src : Word
  lastSeq : Word
  resp : Option HmpAnswer
  deriving DecidableEq, Repr

/-- A register write request whose answer waits for an adopting boundary (R484). -/
structure AnswerDue where
  session : Word
  seq : Word
  at_ : Nat
  status : Status
  deriving DecidableEq, Repr

/-- A user mailbox written by HMP and not yet answered (R400, R484). -/
structure Mailbox where
  session : Word
  seq : Word
  len : Nat
  /-- CNT when the event occurred, which tells its event from a later one's. -/
  first : Nat
  deriving DecidableEq, Repr

/-- The image transfer that runs (R486). `got` lists the covered byte ranges as (offset, length). -/
structure Transfer where
  session : Word
  kind : ImageKind
  len : Nat
  got : List (Nat × Nat)
  bytes : Memory
  deriving DecidableEq, Repr

/-- A flash slot of one kind: the image it holds and whether it is marked loadable (R485). -/
structure FlashSlot where
  loadable : Bool
  content : ImageContent
  deriving DecidableEq, Repr

/-- The two flash slots of one kind; `bActive` when slot B is the active one. -/
structure FlashKind where
  slotA : FlashSlot
  slotB : FlashSlot
  bActive : Bool
  deriving DecidableEq, Repr

/-- An entry of the command log (R458). -/
structure CmdLogEntry where
  time : Split
  cmd : Nat
  block : Nat
  status : Status
  mode : Mode
  role : Role
  origin : Nat
  session : Word
  chain : Nat
  pos : Nat
  idCrc : Word
  deriving DecidableEq, Repr

/-- The fields of an occurrence that the capture and the fault log hold (R409, R511). -/
structure FaultEntry where
  time : Split
  cycle : Word
  addr : Nat
  capt : Bool
  inj : Bool
  source : Nat
  cls : Nat
  access : Nat
  master : Nat
  seq : Nat
  deriving DecidableEq, Repr

/-- An entry of the safety change log (R433). -/
structure SafetyLogEntry where
  time : Split
  blockId : Nat
  oldCrc : Word
  newCrc : Word
  seq : Nat
  deriving DecidableEq, Repr

/-- A record of the flash archive (R487). -/
inductive ArchiveRec where
  | safetyLog (l : List SafetyLogEntry) | faultLog (l : List FaultEntry)
  deriving DecidableEq, Repr

/-- Supply, modes, management and flash (ch. 19 and 20). -/
structure Sys where
  /-- A supply input is within range. -/
  powered : Bool
  mode : Mode
  role : Role
  waiting : Option ModeRequest
  /-- CNT at the last entry into the present mode. -/
  modeAt : Nat
  /-- CNT at the last entry into COMMISSION (R364, R456). -/
  commAt : Nat
  sessions : List Session
  /-- (source, CNT) of each AUTH_FAIL answer of the last 10 s, and the refused sources (R482). -/
  authFails : List (Word × Nat)
  blockedSrc : List Word
  answer : Option HmpAnswer
  due : List AnswerDue
  mailboxes : Store (Option Mailbox)
  transfer : Option Transfer
  firmware : FlashKind
  program : FlashKind
  commission : FlashKind
  /-- Activations that await the next boundary, with CNT of the request (R485). -/
  activateProgram : Option Nat
  activateCommission : Option Nat
  /-- The images in force. -/
  prog : ProgramImage
  comm : CommImage
  roleKeys : Store (List Byte)
  imageKeys : Store (List Byte)
  cmdLog : List CmdLogEntry
  archive : List ArchiveRec
  /-- Pending copies of the user parameter blocks (R488): identifier, words, CNT of the commit. -/
  upb : Store (Option (Nat × List Word × Nat))
  /-- Identifier of each block last adopted; key 16 + e for loop engine e. -/
  blockIds : Store Word
  /-- Commits superseded before their adoption (R16), by the register whose write commits the block. -/
  superseded : Store Nat
  /-- Seconds value of the last statistics latch, and whether the next latch is partial (R465). -/
  statSec : Option Nat
  statPartial : Bool
  statPeriod : Nat
  /-- Consecutive seconds counted by R452: whether readiness held at the last publication. -/
  readyAt : Option Nat
  notReadyAt : Option Nat
  /-- Accepted identities that await their boundary (R79): CNT, chain, position from the east end. -/
  accepts : List (Nat × Nat × Nat)
  deriving DecidableEq, Repr

/-- Staged timing values (R49). -/
structure StagedTiming where
  period : Option Nat
  lead : Option Nat
  refpt : Option Nat
  repair : Option Nat
  deriving DecidableEq, Repr

/-- The terms that a budget check used (R46, R49), in ticks; `laps` the lap of each chain end it used, 0.1 ns. -/
structure Terms where
  period : Nat
  apply : Nat
  lead : Nat
  refpt : Nat
  repair : Nat
  laps : List (Nat × Nat)
  deriving DecidableEq, Repr

/-- The escapement (ch. 2). -/
structure Esc where
  /-- Seconds value and index of the current cycle (R31). -/
  sec : Nat
  j : Nat
  /-- CNT at T_k and the length of the cycle in ticks. -/
  tk : Nat
  wlen : Nat
  /-- Phase error in ticks still to be slewed out (R33). -/
  phase : Int
  /-- The reference point and the cutoff of this cycle have passed. -/
  refDone : Bool
  cutDone : Bool
  /-- This cycle was cut short by a re-alignment: it carries only BLOCK (R34). -/
  short : Bool
  /-- The second at whose boundary the cycle instants are to be re-aligned (R34). -/
  realign : Option Nat
  /-- The cycle whose tables await the cell table publication. -/
  pubDue : Option Word
  staged : StagedTiming
  /-- The terms of a check that runs, and of an accepted check that awaits its second boundary (R49). -/
  checking : Option Terms
  accepted : Option Terms
  /-- The last check returned OK, and no input has changed since (R50); with the laps it used. -/
  checkOk : Bool
  /-- An input of the check that runs has changed since its GO (R50). -/
  checkVoid : Bool
  usedLaps : List (Nat × Nat)
  deriving DecidableEq, Repr

/-- An event descriptor (R384), with what the scheduler keeps beside it: the instance of its source, CNT of its first
occurrence, and whether it holds a reserved entry (R391). -/
structure Event where
  flow : Nat
  cls : Nat
  src : Nat
  status : Status
  arg0 : Word
  arg1 : Word
  arg2 : Word
  delay : Nat
  ts : Split
  merged : Nat
  inst : Nat
  first : Nat
  reserved : Bool
  deriving DecidableEq, Repr

/-- The event scheduler (ch. 15). Lists are oldest first. -/
structure Sched where
  ready : List Event
  held : List Event
  /-- Preferred core of a flow; its default is FLOW[1:0]. -/
  pref : Store Nat
  next : Store (Option Event)
  cur : Store (Option Event)
  /-- CNT at which the event in a slot came in flight; keys c for the current slot, 4 + c for the next. -/
  since : Store Nat
  /-- The scheduling trace ring has been filled since it was enabled (R402). -/
  trcFull : Bool
  /-- The wheel trace ring has been filled since it was enabled (R182). -/
  whlFull : Bool
  /-- The refusal ring has been filled (R395). -/
  refFull : Bool
  deriving DecidableEq, Repr

/-- The fault collector (ch. 16). -/
structure Fco where
  /-- Condition sources that are raised, by source × 65,536 + instance. -/
  raised : Store Bool
  /-- Words stored with inverted check bits (R411): 1 one bit, 2 all bits; + 2 with REACT. -/
  marks : Store Nat
  /-- FCO_INJECT as the last accepted GO wrote it (R410). -/
  arm : Word
  log : List FaultEntry
  logSeq : Nat
  /-- CNT and SEQ of the occurrence in the capture registers (R409). -/
  capAt : Option (Nat × Nat)
  deriving DecidableEq, Repr

/-- The power-up self-tests of the safety die (R427). -/
inductive SelfTest where
  | running | passed | failed
  deriving DecidableEq, Repr

/-- What the safety die knows of one input pair (R419, R420). -/
structure PairState where
  chA : Bool
  chB : Bool
  healthy : Bool
  /-- CNT since which the channels have shown the opposite of `healthy`. -/
  changeAt : Option Nat
  missA : Nat
  missB : Nat
  cross : Bool
  disc : Bool
  deriving DecidableEq, Repr

/-- One safety output (R413, R422 to R425). -/
structure OutState where
  on : Bool
  fault : Bool
  swH : Bool
  swL : Bool
  rbH : Bool
  rbL : Bool
  /-- The switch under test, if any: true for the high side. -/
  test : Option Bool
  /-- CNT since which the SF2 proofs have held (R422). -/
  proofAt : Option Nat
  deriving DecidableEq, Repr

/-- The safety die (ch. 17). Cause sets are bit masks, bit code − 1. -/
structure Saf where
  selfTest : SelfTest
  /-- The first refresh after the self-tests has happened (SAF_STATUS.LOCKOUT). -/
  refreshed : Bool
  latch : Bool
  first : Nat
  all : BitVec 10
  /-- Causes that reached the die since the previous firmware step began, and causes present now. -/
  pending : BitVec 10
  present : BitVec 10
  pairs : List PairState
  outs : List OutState
  demand1 : Bool
  demand3 : Bool
  /-- Channels with BLK_EN whose comparator is tripped (SF4). -/
  demand4 : BitVec 24
  /-- The die's own oscillator in units of 2 ns: it runs on without any clock of the control die (R10). -/
  osc : Nat
  /-- Its count at which the block comma last left the ports (R416). -/
  commaAt : Option Nat
  relArmed : Bool
  /-- The die's time at which the release was armed (R428). -/
  relAt : Nat
  key : Bool
  keyStuck : Bool
  block : SafetyBlock
  blockCrc : Word
  pbStatus : Status
  log : List SafetyLogEntry
  logSeq : Nat
  lockT : Split
  deriving DecidableEq, Repr

/-- A handover that this holder has started (R376): `offered` once a heartbeat has carried the OFFER. -/
structure Handover where
  j : Word
  tj : Nat
  epoch : Word
  cause : Nat
  offered : Bool
  accepted : Bool
  deriving DecidableEq, Repr

/-- A committed role block that takes effect at the next cycle instant by R15, or at cycle `j` (R24, R365, R376). -/
structure RoleCommit where
  role : Role
  epoch : Word
  at_ : Nat
  j : Option Word
  cause : Nat
  deriving DecidableEq, Repr

/-- The baton controller (ch. 14). -/
structure Baton where
  /-- The baton epoch in MRAM (R357). -/
  mramEpoch : Word
  /-- The epoch of the role block in force, which an ACTIVE unit's frames carry (R24, R354). -/
  roleEpoch : Word
  /-- Highest EPOCH in any frame header received. -/
  seenEpoch : Word
  hbSeq : Nat
  hbOut : Option Heartbeat
  /-- (SEQ, CNT) of the heartbeats sent, newest first. -/
  sent : List (Nat × Nat)
  twin : Option Heartbeat
  twinAt : Nat
  /-- E1 so far in this cycle, and evidence E1 to E3 of the cycle before (R362). -/
  e1Now : Bool
  e1 : Bool
  e2 : Bool
  e3 : Bool
  leaseEnd : Option Nat
  ho : Option Handover
  hoOp : HoOp
  hoCycle : Word
  commit : Option RoleCommit
  /-- Consecutive disagreeing cycles, and cycles compared since READY (R372). -/
  disRun : Nat
  sinceReady : Nat
  /-- Self-test number, whether it runs, whether HMP ordered it, own and twin's result (0 none, 1 PASS, 2 FAIL). -/
  stSeq : Nat
  stRun : Bool
  stCmd : Bool
  stOwn : Nat
  stTwin : Nat
  /-- This unit may send heartbeats (R456). -/
  mayBeat : Bool
  /-- The holder's mode to adopt, and CNT of its heartbeat (R455). -/
  follow : Option (Mode × Nat)
  /-- The parts of the twin's record last published (R370), and the parts last sent. -/
  engIn : Option MirrorPart
  restIn : Option MirrorPart
  otherIn : Option MirrorPart
  /-- The engine part before the last, and own engine outputs of the cycle before (R372). -/
  engPrev : Option MirrorPart
  shadowU : Store (List Word)
  shadowHeld : Bool
  engOut : Option MirrorPart
  restOut : Option MirrorPart
  otherOut : Option MirrorPart
  /-- Ports whose own frame returned folded in this cycle, and ports that received the twin's frame. -/
  ownBack : BitVec 128
  rxTwin : BitVec 128
  /-- Of the table that the last cutoff formed, and of the table last published: chains seen, those that show loss (R364),
  and those of evidence E3 (R362). -/
  chNext : Nat × Nat × Nat
  chSeen : Nat
  chLoss : Nat
  chYoung : Nat
  /-- Chains in the order in which they became stranded, and the granted positions by chain (R378). -/
  stranded : List Nat
  grants : Store Nat
  /-- Cells the twin's end reaches, by port, where it has told (R378). -/
  twinReached : Store (Option Nat)
  /-- N_INS of the own plan latched at the last cutoff but one, by wheel, and whether it can be compared (R372). -/
  shadow : Store Nat
  shadowBlk : List Nat
  wasCut : Bool
  /-- The twin's image hashes are known and equal (R361, R374). -/
  twinImages : Option (Word × Word × Word)
  /-- A parameter block identifier differs from the active unit's (R374). -/
  pbDiffers : Bool
  /-- The messages sent on the management channel since the last cycle instant, oldest first. -/
  mgmtOut : List MgmtMsg
  deriving DecidableEq, Repr
/-- What a core is doing: not started; issuing; waiting in BAR, TWAIT, ENG.WAIT on a descriptor, EVT.TAKE or a held
EVT.POST; ended by CEND; or stopped by an exception or the cutoff. -/
inductive CoreRun where
  | idle | running | bar (n : Nat) | twait (v : Word) | engWait (desc : Nat) | evtTake (d : Nat) | evtPost (d : Nat)
  | ended | stopped
  deriving DecidableEq, Repr

/-- A line of an event core's data cache (R240). -/
structure CacheLine where
  dirty : Bool
  bytes : List Byte
  deriving DecidableEq, Repr

/-- A core (R210, R213). Registers are keyed S i: i, V i lane j: 16 i + j, P i: i; ready times by S i: i, V i: 32 + i,
P i: 48 + i, special register n: 64 + n. -/
structure Core where
  run : CoreRun
  s : Store Word
  v : Store Word
  p : Store (BitVec 16)
  pc : Word
  fpsr : Word
  engTmo : Word
  engStatus : Word
  engDbase : Word
  timeSlo : Word
  timeShi : Word
  epc : Word
  ecause : Word
  eaddr : Word
  ecycle : Word
  ecount : Word
  /-- Clock of the last issue, earliest clock of the next, and clocks at which results are ready, since entry (R216). -/
  issued : Nat
  next : Nat
  ready : Store Nat
  /-- Last issue clock of the latest store to shared control memory (R231). -/
  lastStore : Option Nat
  /-- Event cores: the data cache by DRAM line number, and lines written back and not yet complete (R240). -/
  cache : Store (Option CacheLine)
  writes : List (Nat × List Byte)
  deriving DecidableEq, Repr

/-- An engine operation in a queue (R232): the issuing core, the descriptor's map address, the time of the issue in ns of
CNT (to the core's clock on a cycle core), and whether the engine has started it. -/
structure EngOp where
  core : Nat
  desc : Nat
  at_ : Nat
  started : Bool
  deriving DecidableEq, Repr

/-- A word of shared control memory that a cycle core stored and that is not yet visible to every core (R223): the mask
of the cycle cores that may still see the old value, the word address, that value, and the time in ns from which every
core sees the store. -/
structure RecentStore where
  may : Nat
  addr : Nat
  old : Word
  until_ : Nat
  deriving DecidableEq, Repr


/-! ### Chains and wheels (ch. 3 to 6) -/

/-- What the module keeps of a cell slot (R136 to R141, R146, R472). Its pool code and final state of the last committed
window stand in WHL_CSTATE. -/
structure Cell where
  /-- The last report with a correct slot CRC-8, and whether any has ever arrived. -/
  rpt : DWord
  seen : Bool
  /-- A report of the current cycle has arrived; and it arrived after its wheel's confirmation pass began: the plan of
  this cycle goes by the report before (R165). -/
  here : Bool
  late : Option DWord
  /-- How it arrived: ns after T_k, over the mirror, DIR, port and position of the carrying frame. -/
  arrival : Nat
  mirrored : Bool
  west : Bool
  port : Nat
  pos : Nat
  /-- The ALARM of the last report seen (R116). -/
  alarm : Nat
  withdrawn : Bool
  bypassed : Bool
  faulted : Bool
  /-- Windows of a bypass sequence so far: 0 and 1 command the form, then up to 8 wait (R141). -/
  byp : Option Nat
  /-- A sequence has failed: only a command starts another (R141). -/
  bypFailed : Bool
  /-- Not yet released since the last deblock began (R156). -/
  held : Bool
  /-- Token counter, 2⁻³² token (R146). -/
  tok : Nat
  /-- The committed command for the next window. -/
  cmd : DWord
  /-- The active unit's command seen for this window, on a STANDBY unit (R369). -/
  twinCmd : Option DWord
  deriving DecidableEq, Repr

/-- A wheel descriptor's inputs (R133). -/
structure WheelRef where
  vref : Word
  ipred : Word
  blockArm : Bool
  deriving DecidableEq, Repr

/-- A balance wheel (ch. 5 and 6). -/
structure Wheel where
  /-- The last reference delivered in this cycle, and the latched one (R51). -/
  delivered : Option WheelRef
  ref : WheelRef
  staleRun : Nat
  /-- This cycle's plan is BLOCK for every cell (R155, R157, R34). -/
  block : Bool
  /-- A deblock begins at the next window planned (R156). -/
  deblockDue : Bool
  /-- d was −1 in the last committed window (R143). -/
  desc : Bool
  carry : Frac
  vern : Option Nat
  vernRun : Nat
  /-- v̂ of R163, FP32, by slot. -/
  vhat : Store Word
  sorting : Bool
  spec : Option Plan
  specAt : Nat
  /-- The confirmation pass has started, and at which tick after T_k; has ended, and with which failed checks (bit j − 1)
  and d_m = −1. -/
  conf : Bool
  confAt : Nat
  checks : Option Nat
  dm : Bool
  final : Option Plan
  finalAt : Nat
  gaveUp : Bool
  moves : Nat
  fall : Option Plan
  fallAt : Nat
  fbRun : Nat
  /-- Consecutive cycles with N_AVAIL below N_REQ and below N_MIN, and not below (R139). -/
  lowRun : Nat
  lowOk : Nat
  minRun : Nat
  minOk : Nat
  /-- Slots whose delta entry waits, oldest first, and the next slot of the refresh entries (R371). -/
  delta : List Nat
  refresh : Nat
  deriving DecidableEq, Repr

/-- Who waits for a service request (R129): a sweep, a heal, the writer of cell parameters (R461), or the mailbox
operation of an event core (R398). -/
inductive SvcOwner where
  | sweep | heal | params
  | mailbox (core : Nat) (flow : Nat) (tag : Nat) (ptr : Nat)
  deriving DecidableEq, Repr

/-- A service request in a chain end's queue (R129). Cycle numbers of the enqueue, the first send and the last send. -/
structure SvcReq where
  /-- Tells a request from every other of its chain end. -/
  id : Nat
  pos : Nat
  op : Nat
  payload : List Byte
  owner : SvcOwner
  enq : Word
  seq : Nat
  first : Option Word
  last : Word
  tries : Nat
  /-- To be sent in the next frame that has room. -/
  due : Bool
  deriving DecidableEq, Repr

/-- A returned probe (R73): round trip and tallies, 0.1 ns. -/
structure Probe where
  rtt : Nat
  tf : Nat
  tr : Nat
  deriving DecidableEq, Repr

/-- A sweep of a chain end (R71). `ids` is none while probes run; then the requests still to be answered. `begun` once its
first probe has been launched (R85). -/
structure Sweep where
  probes : List Probe
  flying : Bool
  ids : Option Nat
  found : Store (List Byte)
  /-- Positions whose request ended in TIMEOUT: they keep their outcome and Φ (R85). -/
  lost : List Nat
  begun : Bool
  deriving DecidableEq, Repr

/-- The steps of a heal (R86): the segment echo runs; a STANDBY unit follows the holder's heal; or the fold cells stop at a
named cycle. -/
inductive HealStep where
  | echo (cycle : Word)
  | follow (cycle : Word)
  | stop (cycle : Word)
  deriving DecidableEq, Repr

/-- What a chain port keeps beside its RING registers (ch. 3 and 4). -/
structure Port where
  lit : Bool
  /-- CNT since which the receiver has seen valid commas; none without light. -/
  commaAt : Option Nat
  /-- The returning lane is outside ±2 ppm: code violations count (R62). -/
  freqOff : Bool
  queue : List SvcReq
  sweep : Option Sweep
  /-- A sweep was broken, and starts again by R85. -/
  broken : Bool
  /-- A complete sweep of the end stands. -/
  swept : Bool
  /-- Positions that the last complete sweep reached, and those it could not read: they keep outcome and Φ (R85). -/
  reached : Nat
  kept : List Nat
  idents : Store (List Byte)
  /-- The last segment as the segment echo or the twin measured it, 0.1 ns. -/
  segLast : Option Nat
  /-- The lap register holds a measured lap, not the bound (R74). -/
  measured : Bool
  heal : Option HealStep
  /-- RING_HEAL_HOLD has passed with valid commas at both receivers of the broken segment (R86). -/
  healReady : Bool
  /-- The twin sweeps its end of this chain: frames are withheld (R70). -/
  withheld : Bool
  /-- The last frame sent, and an ECHO this port sent and not yet seen return (identifier). -/
  tx : List Byte
  relayTx : List Byte
  /-- The character of `tx` that the block comma replaced (R25), and the safety die's time of the last block comma sent. -/
  hit : Option Nat
  blockAt : Option Nat
  echo : Option Nat
  /-- The chain is OUT by R78; and by R45. -/
  countOut : Bool
  lapOut : Bool
  /-- The number of the next request. -/
  nextReq : Nat
  /-- Requests of the module that wait for room in the queue. -/
  todo : List SvcReq
  /-- Positions that the twin's last complete sweep reached, and the identities it read, by position from its end. -/
  twinCount : Nat
  twinIds : Store (List Byte)
  /-- What the twin's last complete sweep found, for a twin that joins anew (R383). -/
  twinInfo : List PosInfo
  /-- A sweep was asked for while the chain's other end is swept (R70). -/
  wantSweep : Bool
  deriving DecidableEq, Repr

/-! ### Loop engines (ch. 7) -/

/-- A committed block of coefficient regions that awaits its boundary (R199): CNT at the commit, identifier, mask of
regions, and the staged words of those regions by window offset. -/
structure LoopBlock where
  at_ : Nat
  id : Nat
  regions : Nat
  words : List (Nat × Word)
  deriving DecidableEq, Repr

/-- What a loop engine keeps beside its window (R207) and its registers. -/
structure Loop where
  /-- The next AUTO update is the first after MANUAL or TRACK (R195). -/
  first : Bool
  /-- An UPDATE has run since the last entry into COMMISSION (R204), and one has run in this cycle (R203). -/
  ran : Bool
  ranNow : Bool
  /-- Consecutive UPDATEs for which an input was held (R188): 0 to 7 y, 8 to 15 w, 16 to 23 pacer targets. -/
  held : Store Nat
  /-- The last valid live target of each pacer (R190). -/
  targets : Store Word
  /-- A pending LOOP_MODE_CMD: mode and CNT. -/
  modeCmd : Option (Nat × Nat)
  block : Option LoopBlock
  deriving DecidableEq, Repr


/-! ### Measurement inputs and the filter chain (ch. 10 and 11) -/

/-- A value in a channel's history: its instant in 2⁻¹⁶ ns of corrected time, its code with 12 fractional bits (R283),
the cause for which it is bad (0, 4 SV_MISSING or 5 SV_QUALITY), and whether a stage saturated in it. -/
structure Sample where
  t : Nat
  x : Int
  cause : Nat
  sat : Bool
  deriving DecidableEq, Repr

/-- An output on the cycle grid (R289, R295): its value, SETTLING with its cause, SAT, and its split in 2⁻¹⁶ ns. -/
structure GridOut where
  x : Word
  settling : Bool
  cause : Nat
  sat : Bool
  t : Nat
  deriving DecidableEq, Repr

/-- A fast channel: its filter chain and its window comparator. -/
structure Chan where
  /-- CIC integrators and combs, and raw samples of the present decimation period (R284). -/
  acc : List Int
  comb : List Int
  dec : Nat
  /-- FIR inputs, newest first (R285), and the DC block estimate e in 2⁻⁴⁰ codes (R287). -/
  fir : List Int
  est : Int
  /-- The resampler's inputs, or the raw samples in single-cycle-settling mode, newest first. -/
  hist : List Sample
  /-- Outputs of the running cycle in order, those already given to the trigger units, and the last cycle's outputs. -/
  outs : List GridOut
  tested : Nat
  last : List GridOut
  /-- FLT_CH_CFG and FROZEN as they stood in the cycle of those last outputs (R295). -/
  lastCfg : Word
  lastFrozen : Bool
  /-- t_r of a pending reset of this channel alone, CNT (R301, R304). -/
  resetAt : Option Nat
  /-- Sampled values: the next sample index to enter, and consecutive missing samples (R299). -/
  svNext : Option Nat
  svMiss : Nat
  /-- Consecutive samples outside the thresholds, and inside the narrower window (R265, R266). -/
  runOut : Nat
  runIn : Nat
  /-- Samples with a common-mode fault (R257). -/
  cmCount : Nat
  deriving DecidableEq, Repr

/-- A sample of a sampled-values stream as received (R298, R349): absolute index, CNT of the receipt, and its elements,
each with whether its quality is invalid, questionable or test. -/
structure SvSample where
  idx : Nat
  at_ : Nat
  elems : List (Int × Bool)
  deriving DecidableEq, Repr

/-- The self-calibration of the housekeeping converter (R281): none; pending until so many injected conversions and any
scan have ended; or running since a CNT. -/
inductive HkaCal where
  | none
  | pending (after : Nat)
  | running (from_ : Nat)
  deriving DecidableEq, Repr

/-- An injected conversion that waits (R279). -/
structure InjReq where
  slot : Nat
  ch : Nat
  at_ : Nat
  delayed : Bool
  deriving DecidableEq, Repr

/-- The housekeeping converter (R270 to R281). -/
structure Hka where
  /-- Channels of the running scan still to convert, and its results. -/
  scanning : Bool
  todo : List Nat
  got : List (Nat × Nat)
  seq : Nat
  inj : List InjReq
  slots : Nat
  cal : HkaCal
  /-- Consecutive scans outside, and within, the limits of R504 by channel. -/
  limBad : Store Nat
  limOk : Store Nat
  deriving DecidableEq, Repr

/-- The front-end die: fast channels, foreground calibration, synchronising reset, housekeeping. -/
structure Front where
  chans : Store Chan
  /-- Channels of the foreground calibration that runs (R263). -/
  calMask : Nat
  /-- t_r of a pending synchronising reset, CNT (R301). -/
  syncAt : Option Nat
  /-- Length of the cycle that runs in 2⁻¹⁶ ns, and of the cycle whose outputs the table shows (R295). -/
  span : Nat
  lastSpan : Nat
  /-- Samples received of each stream. -/
  sv : Store (List SvSample)
  hka : Hka
  deriving DecidableEq, Repr


/-! ### The chronograph (ch. 12) -/

/-- What a raw instant gave (R258, R307): its CNT, the codes of the channels that sampled, and, at a 100 ns instant, the
128 digital bits. -/
structure RawRec where
  cnt : Nat
  codes : List (Nat × Int)
  dig : Option Nat
  deriving DecidableEq, Repr

/-- The per-cycle values of a block (R305), as words. -/
structure BlkBody where
  filt : List Word
  deriv : List Word
  cells : List Word
  deriving DecidableEq, Repr

/-- A complete block interval [T_{k−1}, T_k): serial number, k, CNT and corrected time (2⁻¹⁶ ns) of both ends, whether
cycle k was cut, and the per-cycle values once they are published. -/
structure BlkRec where
  ser : Nat
  cycle : Word
  from_ : Nat
  to_ : Nat
  t0 : Nat
  t1 : Nat
  cut : Bool
  body : Option BlkBody
  deriving DecidableEq, Repr

/-- A marker (R320): the serial of its block, its code, its source and its offset from T_{k−1} in ns. -/
structure Marker where
  ser : Nat
  code : Nat
  source : Nat
  off : Nat
  deriving DecidableEq, Repr

/-- The content as armed (R306, R311, R324). -/
structure ChrShape where
  pre : Nat
  post : Nat
  stride : Nat
  raw : Nat
  filt : Nat
  content : Word
  il : Nat
  pTicks : Nat
  counts : List Nat
  derivs : List Word
  cfgId : Nat
  stream : Bool
  deriving DecidableEq, Repr

/-- A trigger taken (R316, R318): the serial and cycle of its block, its split, source and CNT, PRE_ACT, OLDEST, ALSO,
and the false starts before it. -/
structure ChrTrig where
  ser : Nat
  cycle : Word
  split : Split
  src : Nat
  at_ : Nat
  preAct : Nat
  oldest : Nat
  also : Nat
  fsCount : Nat
  fsFirst : Split
  deriving DecidableEq, Repr

/-- Image bytes of a record in stream mode that are written and not yet sent (R322, R323): RECORD, offset, length. -/
structure ChrSend where
  record : Nat
  off : Nat
  len : Nat
  deriving DecidableEq, Repr

/-- What the chronograph keeps beside its registers; its state is CHR_STATUS.STATE. -/
structure Chr where
  shape : Option ChrShape
  /-- Serial of the block interval that runs, the intervals that ended, and the first block of this arming's ring. -/
  ser : Nat
  blks : List BlkRec
  first : Nat
  trig : Option ChrTrig
  /-- Post-trigger blocks written, all blocks written, and the cycle of the last. -/
  post : Nat
  written : Nat
  last : Word
  /-- The record closes after this block: a mask stop (R317), or the last complete block before the escapement stopped
  (R321). And a close that is due with its header FLAGS. -/
  stopSer : Option Nat
  escSer : Option Nat
  due : Option Nat
  record : Nat
  fsCount : Nat
  fsFirst : Split
  /-- Triggers recognised in HOLDOFF, and CNT of the stage A recognition (R316). -/
  holdCount : Nat
  seqAt : Option Nat
  /-- The pattern was met at the last instant; by analogue unit, whether it waits for its re-arm condition, and X_prev. -/
  patMet : Bool
  unitFired : Store Bool
  unitPrev : Store (Option Word)
  /-- Fault latches not yet recognised: class and split. -/
  faults : List (Nat × Split)
  raws : List RawRec
  marks : List Marker
  marksLost : List Nat
  /-- CNT until which TRIG_OUT is high. -/
  trigOut : Nat
  /-- Stream mode: image bytes written and not yet sent, and datagrams sent since arming. -/
  unsent : List ChrSend
  datagrams : Nat
  deriving DecidableEq, Repr

/-! ### Ethernet (ch. 13) -/

/-- An entry of a transmit stamp queue (R338). -/
structure TxStamp where
  id : Nat
  half : Bool
  t : Split
  deriving DecidableEq, Repr

/-- A posted launch descriptor (R341): its queue, poster, physical address, launch instant in ns, and fields. -/
structure Launch where
  q : Nat
  poster : Nat
  desc : Nat
  t : Nat
  txId : Nat
  tsReq : Bool
  frame : Nat
  len : Nat
  /-- The copy on the other port of the pair (R344). -/
  copy : Bool
  deriving DecidableEq, Repr

/-- A PTP message that the module sends (R335, R336, R340): what ETH_PTP_CFG and ETH_PTP_VID give it (priority and VID of
its 802.1Q tag), its timestamp field, and its correctionField in 2⁻¹⁶ ns. -/
structure PtpOut where
  kind : PtpKind
  seq : Nat
  oneStep : Bool
  domain : Nat
  clockClass : Nat
  prio1 : Nat
  prio2 : Nat
  tag : Option (Nat × Nat)
  time : Split
  correction : Int
  deriving DecidableEq, Repr

/-- A frame that the module sends on an Ethernet port (R335 to R352). -/
inductive EthOut where
  | launched (bytes : List Byte)
  | ptp (msg : PtpOut)
  | supervision
  | goose (block : Nat) (st sq : Word) (tal : Nat) (vals : List Word)
  | arpReply (ip : Word)
  | arpRequest (ip : Word)
  | icmpReply (ip : Word) (data : List Byte)
  | datagram (ip : Word) (port : Nat) (bytes : List Byte)
  deriving DecidableEq, Repr

/-- What an Ethernet port keeps beside its registers. -/
structure EthPort where
  stamps : List TxStamp
  /-- Posted launches in launch-time order. -/
  launches : List Launch
  /-- From when the port is free for the stamp instant of another frame, in 0.1 ns of corrected time (R342, R343). -/
  freeAt : Nat
  /-- Sequence numbers of the next Sync, Announce and Pdelay_Req, and the Pdelay_Req to answer: its number and stamp. -/
  seqs : List Nat
  pdelayReq : Option (Nat × Nat)
  /-- The last frame sent, and those held back by the guard of a pending launch (R342), oldest first. -/
  out : Option EthOut
  held : List EthOut
  deriving DecidableEq, Repr

/-- A GOOSE subscription (R345, R346): the last frame taken. -/
structure GSub where
  st : Word
  sq : Word
  val : Word
  until_ : Nat
  deriving DecidableEq, Repr

/-- A published GOOSE block (R348): values last sent, and the interval in ms to the next repetition. -/
structure GPub where
  vals : List Word
  interval : Nat
  deriving DecidableEq, Repr

/-- The Ethernet ports and their services. -/
structure Eth where
  ports : Store EthPort
  /-- First copies completed of launches of the pair (R344): descriptor, status, LATE, and ns of the stamp. -/
  pairDone : List (Nat × Status × Nat × Nat)
  /-- Frames of the pair received once: source and sequence number (R344). -/
  prpSeen : List (Nat × Nat)
  gsubs : Store (Option GSub)
  gpubs : Store GPub
  /-- Consecutive samples taken of each lost stream (R351). -/
  svRun : Store Nat
  /-- The destination of CHR_STRM_ADDR is resolved (R352). -/
  resolved : Bool
  deriving DecidableEq, Repr

/-! ### Field inputs and outputs (ch. 18) -/

/-- The field die. -/
structure FieldDie where
  /-- Evaluated inputs, and inputs with a wire break as now. -/
  di : BitVec 32
  wb : BitVec 32
  warn : Bool
  supOff : Bool
  supOk : Bool
  linkSafe : Bool
  /-- A valid frame has arrived since the last silence. -/
  up : Bool
  /-- The first valid frame has brought a configuration (R442); what the last one carried: commanded states,
  FIO_DQ_SAFE, FIO_DQ_PAR and FIO_DI_WB. -/
  configured : Bool
  cmd : BitVec 16
  safe : Word
  par : Word
  wbEn : Word
  /-- To be reported by the next frame to the logic side: the channels of occurrences of FIELD_WIRING, wire breaks, current limits with
  their number, external voltages, silences, discarded frames and SUPPLY_OFF latches. -/
  wiring : List Nat
  wbSeen : BitVec 32
  ocSeen : BitVec 16
  ocEvents : Nat
  extvSeen : BitVec 16
  silences : Nat
  frameErrs : Nat
  supLatches : Nat
  deriving DecidableEq, Repr

/-- The field die, and on the logic side: the re-arm commands that the next frame carries, and the image words that the
last frame brought (current limit, external voltage, wire break, terminals). -/
structure Fio where
  field : FieldDie
  supRearm : Bool
  linkRearm : Bool
  oc : BitVec 16
  extv : BitVec 16
  wb : BitVec 32
  term : BitVec 16
  deriving DecidableEq, Repr


/-- The state of the module. -/
structure State where
  /-- The commands that wait, first in first out. -/
  pending : List Instr
  /-- The model's own counter of free values drawn. -/
  freeCtr : Nat
  /-- Block registers that differ from their reset value, and the values published at the last boundary (R13). -/
  regs : Store Word
  pub : Store Word
  /-- Latched higher halves (R8), by reader × 2⁴⁰ + address. -/
  latches : Store Word
  /-- The statistics read bank (R464), by register address. -/
  bank : Store Word
  staged : List StagedWrite
  /-- Memory by physical address (R470), and the hidden buffers of the snapshot stores (R17). -/
  mem : Memory
  hidden : Memory
  /-- The hidden buffers as the last cycle instant found them: what the cycle that ended publishes of its user output table
  (R247). -/
  userOut : Memory
  sys : Sys
  time : TimeBase
  esc : Esc
  sch : Sched
  fco : Fco
  saf : Saf
  btn : Baton
  /-- Cores 0 to 3 are the cycle cores, 4 to 7 the event cores. -/
  cores : Store Core
  /-- Operations in the engines' queues, oldest first, by `engKey`. -/
  eng : Store (List EngOp)
  recent : List RecentStore
  cells : Store Cell
  wheels : Store Wheel
  ports : Store Port
  /-- SEQ last used for each cell and requesting end, by port × 64 + position; kept in MRAM (R128). -/
  svcSeq : Store Nat
  loops : Store Loop
  /-- The last valid sample of each measurement channel (R167). -/
  measLast : Store Word
  front : Front
  chr : Chr
  eth : Eth
  fio : Fio
  deriving DecidableEq, Repr

/-- Reasons a step can stop with a fault. None arises in this model: every stop the manual describes is a state. -/
inductive Fault where
  deriving DecidableEq, Repr

/-- Reasons a step can be refused. -/
inductive Refusal where
  /-- Raised by the dispatch for a command without a meaning; safe. -/
  | notModelled (mnemonic : String)
  deriving DecidableEq, Repr

/-! ### Reset values -/

/-- A flash slot as delivered: no image (log entry 9). -/
def FlashSlot.delivery (loadable : Bool) (c : ImageContent) : FlashSlot := ⟨loadable, c⟩

/-- The delivered images (log entry 9): every core's entry absent, no wheel, no chain, cfg registers at their defaults. -/
def ProgramImage.delivery : ProgramImage :=
  { cores := [], barmask := 0, upb := [], hash := 0,
    cert := ⟨0xe3b0c44298fc1c149afbf4c8996fb92427ae41e4649b934ca495991b7852b855, 5000, 1000, 0, 0, [0, 0, 0, 0], 0⟩ }

def CommImage.delivery : CommImage :=
  { pair := false, unitB := false, regs := [], chains := [], cells := [], params := [], goose := [], hash := 0 }

def FlashKind.delivery (c : ImageContent) : FlashKind := ⟨⟨true, c⟩, ⟨false, c⟩, false⟩

def TimeBase.reset : TimeBase :=
  { cnt := 0, epoch := ⟨0, 0, 0⟩, prev := [], adj := none, good := 0, holdFrom := 0, pulsed := [],
    ppsUntil := 0, ref10Ok := false, twinOver := 0, twinWithin := 0 }

def Sys.reset : Sys :=
  { powered := true, mode := .boot, role := .standby, waiting := none, modeAt := 0, commAt := 0, sessions := [], authFails := [],
    blockedSrc := [], answer := none, due := [], mailboxes := [], transfer := none,
    firmware := FlashKind.delivery (.firmware 0), program := FlashKind.delivery (.program ProgramImage.delivery),
    commission := FlashKind.delivery (.commission CommImage.delivery), activateProgram := none,
    activateCommission := none, prog := ProgramImage.delivery, comm := CommImage.delivery, roleKeys := [],
    imageKeys := [], cmdLog := [], archive := [], upb := [], blockIds := [], superseded := [], statSec := none, statPartial := false,
    statPeriod := 1, readyAt := none, notReadyAt := none, accepts := [] }

def Esc.reset : Esc :=
  { sec := 0, j := 0, tk := 0, wlen := 5000, phase := 0, refDone := false, cutDone := false, short := false,
    realign := none, pubDue := none,
    staged := ⟨none, none, none, none⟩, checking := none, accepted := none, checkOk := false, checkVoid := false,
    usedLaps := [] }

def Sched.reset : Sched :=
  { ready := [], held := [], pref := [], next := [], cur := [], since := [], trcFull := false, whlFull := false,
    refFull := false }

def Fco.reset : Fco := { raised := [], marks := [], arm := 0, log := [], logSeq := 0, capAt := none }

def PairState.reset : PairState :=
  { chA := false, chB := false, healthy := false, changeAt := none, missA := 0, missB := 0, cross := false,
    disc := false }

def OutState.reset : OutState :=
  { on := false, fault := false, swH := false, swL := false, rbH := false, rbL := false, test := none, proofAt := none }

/-- The safety parameter block at delivery (R431). -/
def SafetyBlock.delivery : SafetyBlock :=
  { pairs := List.replicate 8 ⟨.none, .equivalent, 3000, 100000⟩, permit := List.replicate 4 false, testIntS := 10,
    permitDelayS := 5, sf3En := true, win := List.replicate 24 ⟨false, false, 0, 0, 0, 0⟩, id := 0 }

def Saf.reset : Saf :=
  { selfTest := .running, refreshed := false, latch := false, first := 0, all := 0, pending := 0, present := 0,
    pairs := List.replicate 8 PairState.reset, outs := List.replicate 4 OutState.reset, demand1 := false,
    demand3 := false, demand4 := 0, osc := 0, commaAt := none, relArmed := false, relAt := 0, key := false, keyStuck := false,
    block := SafetyBlock.delivery, blockCrc := 0, pbStatus := .ok, log := [], logSeq := 0, lockT := ⟨0, 0⟩ }

def Baton.reset : Baton :=
  { mramEpoch := 0, roleEpoch := 0, seenEpoch := 0, hbSeq := 0, hbOut := none, sent := [], twin := none, twinAt := 0, e1Now := false, e1 := false,
    e2 := false, e3 := false, leaseEnd := none, ho := none, hoOp := .none, hoCycle := 0, commit := none, disRun := 0,
    sinceReady := 0, stSeq := 0, stRun := false, stCmd := false, stOwn := 0, stTwin := 0, mayBeat := false,
    follow := none, engIn := none, engPrev := none, shadowU := [], shadowHeld := false, restIn := none, otherIn := none, engOut := none, restOut := none, otherOut := none,
    ownBack := 0, rxTwin := 0, chNext := (0, 0, 0), chSeen := 0, chLoss := 0, chYoung := 0, stranded := [], grants := [], twinReached := [],
    shadow := [], shadowBlk := [], wasCut := false, twinImages := none, pbDiffers := false, mgmtOut := [] }

/-- A core before its first entry (log entry 4). -/
def Core.reset : Core :=
  { run := .idle, s := [], v := [], p := [], pc := 0, fpsr := 0, engTmo := 0, engStatus := 0, engDbase := 0,
    timeSlo := 0, timeShi := 0, epc := 0, ecause := 0, eaddr := 0, ecycle := 0, ecount := 0, issued := 0, next := 0,
    ready := [], lastStore := none, cache := [], writes := [] }

/-- A cell slot before any report. -/
def Cell.reset : Cell :=
  { rpt := 0, seen := false, here := false, late := none, arrival := 0, mirrored := false, west := false, port := 0,
    pos := 0, alarm := 0, withdrawn := false, bypassed := false, faulted := false, byp := none, bypFailed := false, held := false, tok := 0, cmd := 0,
    twinCmd := none }

def Wheel.reset : Wheel :=
  { delivered := none, ref := ⟨0, 0, false⟩, staleRun := 0, block := true, deblockDue := false, desc := false,
    carry := Frac.zero, vern := none, vernRun := 0, vhat := [], sorting := false, spec := none, specAt := 0, conf := false, confAt := 0,
    checks := none, dm := false, final := none, finalAt := 0, gaveUp := false, moves := 0, fall := none, fallAt := 0,
    fbRun := 0, lowRun := 0, lowOk := 0, minRun := 0, minOk := 0, delta := [], refresh := 0 }

def Port.reset : Port :=
  { lit := false, commaAt := none, freqOff := false, queue := [], sweep := none, broken := false,
    swept := false, reached := 0, kept := [], idents := [], segLast := none, measured := false, heal := none, healReady := false, withheld := false,
    tx := [], relayTx := [], hit := none, blockAt := none,
    echo := none, countOut := false, lapOut := false, nextReq := 0, todo := [], twinCount := 0, twinIds := [], twinInfo := [], wantSweep := false }

def Loop.reset : Loop :=
  { first := false, ran := false, ranNow := false, held := [], targets := [], modeCmd := none, block := none }

def Chan.reset : Chan :=
  { acc := [], comb := [], dec := 0, fir := [], est := 0, hist := [], outs := [], tested := 0, last := [],
    lastCfg := 0, lastFrozen := false, resetAt := none, svNext := none, svMiss := 0, runOut := 0, runIn := 0, cmCount := 0 }

def Hka.reset : Hka :=
  { scanning := false, todo := [], got := [], seq := 0, inj := [], slots := 0, cal := .none, limBad := [], limOk := [] }

def Front.reset : Front := { chans := [], calMask := 0, syncAt := none, span := 0, lastSpan := 0, sv := [], hka := Hka.reset }

def Chr.reset : Chr :=
  { shape := none, ser := 0, blks := [], first := 0, trig := none, post := 0, written := 0, last := 0, stopSer := none, escSer := none,
    due := none, record := 0, fsCount := 0, fsFirst := ⟨0, 0⟩, holdCount := 0, seqAt := none, patMet := true,
    unitFired := [], unitPrev := [], faults := [], raws := [], marks := [], marksLost := [], trigOut := 0, unsent := [],
    datagrams := 0 }

def EthPort.reset : EthPort := { stamps := [], launches := [], freeAt := 0, seqs := [0, 0, 0], pdelayReq := none, out := none, held := [] }

def Eth.reset : Eth := { ports := [], pairDone := [], prpSeen := [], gsubs := [], gpubs := [], svRun := [], resolved := false }

/-- The field die at its own power-up: every output off until the first valid frame (R442). -/
def FieldDie.reset : FieldDie :=
  { di := 0, wb := 0, warn := false, supOff := false, supOk := false, linkSafe := false, up := false,
    configured := false, cmd := 0, safe := 0, par := 0, wbEn := 0, wiring := [], wbSeen := 0, ocSeen := 0, ocEvents := 0,
    extvSeen := 0, silences := 0, frameErrs := 0, supLatches := 0 }

def Fio.reset : Fio :=
  { field := FieldDie.reset, supRearm := false, linkRearm := false, oc := 0, extv := 0, wb := 0, term := 0 }

/-- The machine right after a hardware reset (R9, R462, R463), in BOOT. -/
def State.reset : State :=
  { pending := [], freeCtr := 0, regs := [], pub := [], latches := [], bank := [], staged := [], mem := [], hidden := [], userOut := [],
    sys := Sys.reset, time := TimeBase.reset, esc := Esc.reset, sch := Sched.reset, fco := Fco.reset, saf := Saf.reset,
    btn := Baton.reset, cores := [], eng := [], recent := [], cells := [], wheels := [],
    ports := [], svcSeq := [], loops := [], measLast := [],
    front := Front.reset, chr := Chr.reset, eth := Eth.reset, fio := Fio.reset }

end Sys2Proof.Machine
end

