-- ==== Sys2Proof/Machine/Ops.lean ====
section
/-! DEFINITION. The named operations over registers, memory, time, logs, faults and events that the meanings share. -/

namespace Sys2Proof.Machine

/-! ### Bit fields and bytes (R3) -/

/-- Bits `hi` to `lo` of a word. -/
def fieldGet (w : Word) (hi lo : Nat) : Nat := w.toNat / 2 ^ lo % 2 ^ (hi - lo + 1)

/-- The word with bits `hi` to `lo` replaced by the low bits of `v`. -/
def fieldSet (w : Word) (hi lo v : Nat) : Word :=
  BitVec.ofNat 32 (w.toNat - fieldGet w hi lo * 2 ^ lo + v % 2 ^ (hi - lo + 1) * 2 ^ lo)

def boolNat (b : Bool) : Nat := if b then 1 else 0

/-- The signed value of the low `n` bits of `v`. -/
def sext (n v : Nat) : Int := if v % 2 ^ n < 2 ^ (n - 1) then (v % 2 ^ n : Nat) else ((v % 2 ^ n : Nat) : Int) - 2 ^ n

def wordOfInt (i : Int) : Word := BitVec.ofInt 32 i

/-- The four bytes of a word, least significant first (R3). -/
def wordBytes (w : Word) : List Byte :=
  [w.setWidth 8, (w >>> 8).setWidth 8, (w >>> 16).setWidth 8, (w >>> 24).setWidth 8]

def wordsBytes (ws : List Word) : List Byte := ws.flatMap wordBytes

/-- The number that bytes spell, least significant first (R3). -/
def bytesNat : List Byte → Nat
  | [] => 0
  | b :: bs => b.toNat + 256 * bytesNat bs

/-- The n low bits of `m` as booleans are indexed by `Nat.testBit`; this sets bit `i`. -/
def setBit (m i : Nat) (b : Bool) : Nat := if m.testBit i = b then m else if b then m + 2 ^ i else m - 2 ^ i

/-- The number of ones among the low `n` bits. -/
def popCount (n m : Nat) : Nat := ((List.range n).filter (fun i => m.testBit i)).length

/-! ### Check codes (R97, R441) -/

/-- One step of the reflected CRC-32 over a bit. -/
def crc32Bit (c : Nat) : Nat := if c % 2 = 1 then Nat.xor (c / 2) 0xEDB88320 else c / 2

def crc32Byte (c : Nat) (b : Byte) : Nat :=
  crc32Bit (crc32Bit (crc32Bit (crc32Bit (crc32Bit (crc32Bit (crc32Bit (crc32Bit (Nat.xor c b.toNat))))))))

/-- CRC-32 of R97: IEEE 802.3, reflected, initial value and final complement 0xFFFF_FFFF. -/
def crc32 (bs : List Byte) : Word := BitVec.ofNat 32 (Nat.xor (bs.foldl crc32Byte 0xFFFFFFFF) 0xFFFFFFFF)

def crc8Bit (c : Nat) : Nat := if c ≥ 128 then Nat.xor (2 * c % 256) 0x2F else 2 * c % 256

/-- The slot CRC-8 of R97 over bytes in increasing offset. -/
def crc8 (bs : List Byte) : Byte :=
  BitVec.ofNat 8 (Nat.xor (bs.foldl (fun c b =>
    crc8Bit (crc8Bit (crc8Bit (crc8Bit (crc8Bit (crc8Bit (crc8Bit (crc8Bit (Nat.xor c b.toNat))))))))) 0xFF) 0xFF)

/-! ### Registers -/

/-- The stored value of a register. -/
def regGet (s : State) (a : Nat) : Word := Store.get regReset s.regs a

def regSet (a : Nat) (v : Word) (s : State) : State := { s with regs := Store.set regReset s.regs a v }

/-- A field of a register. -/
def fget (s : State) (f : Field) : Nat := fieldGet (regGet s f.reg) f.hi f.lo

def fbit (s : State) (f : Field) : Bool := fget s f == 1

def fset (f : Field) (v : Nat) (s : State) : State := regSet f.reg (fieldSet (regGet s f.reg) f.hi f.lo v) s

/-- Add to a counter, saturating at 0xFFFF_FFFF (R464). -/
def bumpBy (n : Nat) (a : Nat) (s : State) : State :=
  regSet a (BitVec.ofNat 32 (min 0xFFFFFFFF ((regGet s a).toNat + n))) s

/-- Advance a counter by one. -/
def bump (a : Nat) (s : State) : State := bumpBy 1 a s

/-- Set a three-word split register group: nanoseconds, seconds [31:0], seconds [47:32]. -/
def setSplitRegs (a0 : Nat) (t : Split) (s : State) : State :=
  regSet a0 (BitVec.ofNat 32 t.ns) (regSet (a0 + 4) (BitVec.ofNat 32 t.sec)
    (regSet (a0 + 8) (BitVec.ofNat 32 (t.sec / 2 ^ 32 % 2 ^ 16)) s))

/-- The next free value (log entry 8). -/
def drawFree (s : State) : Word × State := (Config.freeWord s.freeCtr, { s with freeCtr := s.freeCtr + 1 })

/-! ### Memory by physical address (R470) -/

def memRead (s : State) (a : Nat) : Byte := Memory.read s.mem a

def memReadWord (s : State) (a : Nat) : Word :=
  (memRead s (a + 3) ++ memRead s (a + 2) ++ memRead s (a + 1) ++ memRead s a : BitVec 32)

def memWriteBytes (a : Nat) (bs : List Byte) (s : State) : State := { s with mem := Memory.writeList s.mem a bs }

def memWriteWord (a : Nat) (w : Word) (s : State) : State := memWriteBytes a (wordBytes w) s

/-- Write into the hidden buffer of a snapshot store (R17). -/
def hideBytes (a : Nat) (bs : List Byte) (s : State) : State := { s with hidden := Memory.writeList s.hidden a bs }

def hideWords (a : Nat) (ws : List Word) (s : State) : State := hideBytes a (wordsBytes ws) s

/-- A word of a wheel's output entry: from T_k on the entry of cycle k−1, which the visible table takes 0.1 µs later and
the hidden buffer holds until the cutoff (R161, R245). -/
def wheelWord (s : State) (a : Nat) : Word :=
  if s.esc.cutDone then memReadWord s a else BitVec.ofNat 32 (bytesNat (Memory.readList s.hidden a 4))

/-- Publish a snapshot store (R17): bytes `a` to `a + n − 1` of the hidden buffer become visible, and the hidden buffer
keeps a copy. -/
def publish (a n : Nat) (s : State) : State := { s with mem := Memory.copyRange a n s.hidden s.mem }

/-- The DRAM window of an event core (R241). -/
def inDramWindow (a n : Nat) : Bool := decide (0x80000000 ≤ a ∧ a + n ≤ 0x100000000)

/-- The physical DRAM address of a window address of event core `c` (R476). -/
def windowPhys (s : State) (c : Nat) (a : Nat) : Nat :=
  Config.dramBase + fget s (Fld.SYS_DWIN_BASE_GIB c) * 2 ^ 30 + (a - 0x80000000)

/-- A range lies in the event cores' own region. -/
def inOwnRegion (s : State) (a n : Nat) : Bool :=
  let lo := Config.dramBase + fget s Fld.SYS_EVT_RGN_BASE_MIB * 2 ^ 20
  decide (lo ≤ a ∧ a + n ≤ lo + fget s Fld.SYS_EVT_RGN_SIZE_MIB * 2 ^ 20)

/-! ### Time (R326 to R329) -/

/-- 2⁴⁸ seconds in units of 2⁻¹⁶ ns: the range of OFS. -/
def timeWrap : Nat := 2 ^ 48 * 1000000000 * 65536

/-- Corrected time of an epoch at counter value `c`, in 2⁻¹⁶ ns (R327). -/
def Epoch.time (e : Epoch) (c : Nat) : Nat :=
  (e.ofs + ((c - e.ce : Nat) * 2 * ((2 : Int) ^ 40 + e.rate)).toNat / 2 ^ 24) % timeWrap

/-- Corrected time at a counter value, with the epoch in force at it (R329). -/
def timeAt (s : State) (c : Nat) : Nat :=
  if s.time.epoch.ce ≤ c then s.time.epoch.time c
  else match s.time.prev.find? (fun e => decide (e.ce ≤ c)) with
    | some e => e.time c
    | none => (s.time.prev.getLastD s.time.epoch).time c

def splitOf (t : Nat) : Split := ⟨t / (1000000000 * 65536), t / 65536 % 1000000000⟩

/-- The quotient n / d rounded by a rule the manual does not give (log entry 8). -/
def roundFree (n : Int) (d : Nat) : Int :=
  if n.fmod d = 0 then n.fdiv d else if Config.roundUp n d then n.fdiv d + 1 else n.fdiv d

/-- The quotient n / d rounded to nearest; the rule for a tie is not given. -/
def roundNear (n : Int) (d : Nat) : Int :=
  let r := n.fmod d
  if 2 * r < d then n.fdiv d else if (d : Int) < 2 * r then n.fdiv d + 1 else roundFree n d

/-- The split of the present instant. -/
def nowSplit (s : State) : Split := splitOf (timeAt s s.time.cnt)

/-- A duration in ticks from one in µs or ms. -/
def usTicks (n : Nat) : Nat := n * 500
def msTicks (n : Nat) : Nat := n * 500000

/-- The split as words, nanoseconds, seconds low, seconds high. -/
def splitNs (t : Split) : Word := BitVec.ofNat 32 t.ns
def splitLo (t : Split) : Word := BitVec.ofNat 32 t.sec
def splitHi (t : Split) : Nat := t.sec / 2 ^ 32 % 2 ^ 16

/-! ### The cycle -/

def escRunning (s : State) : Bool := fbit s Fld.ESC_STATUS_RUNNING

/-- The number of the current cycle (R31). -/
def cycleNo (s : State) : Word := regGet s Reg.ESC_CYCLE

/-- P and D in force, in ticks. -/
def periodTicks (s : State) : Nat := fget s Fld.ESC_PERIOD_PERIOD
def applyTicks (s : State) : Nat := fget s Fld.ESC_APPLY_APPLY

def inRun (s : State) : Bool := s.sys.mode == .run

/-- R50: an input of the budget check changes: the last check no longer stands, nor does one that runs. -/
def voidCheck (s : State) : State := { s with esc := { s.esc with checkOk := false, checkVoid := true } }

/-- Duration in ns since T_k of the current cycle. -/
def sinceTk (s : State) : Nat := (s.time.cnt - s.esc.tk) * 2

/-- A command at an instant that the cycle fixes: the counter has reached it (log entry 6). The safety die's oscillator
runs on by the same time (R10). -/
def reach (t : Nat) (s : State) : State :=
  { s with
    time := { s.time with cnt := max s.time.cnt t }
    saf := { s.saf with osc := s.saf.osc + (t - s.time.cnt) } }

/-! ### Logs -/

/-- Append to a ring that keeps the newest `n`. -/
def ringPush {α : Type} (n : Nat) (x : α) (l : List α) : List α := (l ++ [x]).drop (l.length + 1 - n)

def originCode : Origin → Nat
  | .hmp _ _ => 0 | .eventCore _ => 1 | .supervisory => 2

def originSession : Origin → Word
  | .hmp _ n => n | _ => 0

/-- Enter a refusal in the command log and count it (R458). `block` is 0xFFFF for an HMP command. -/
def logRefusal (cmd block : Nat) (st : Status) (origin : Nat) (session : Word) (s : State) : State :=
  let e : CmdLogEntry :=
    { time := nowSplit s, cmd := cmd, block := block, status := st, mode := s.sys.mode, role := s.sys.role,
      origin := origin, session := session, chain := 0, pos := 0, idCrc := 0 }
  bump Reg.SYS_REJECT_COUNT { s with sys := { s.sys with cmdLog := ringPush Config.cmdLogCap e s.sys.cmdLog } }

/-- A commit that replaces one still waiting counts it in the block's superseded counter (R16); `key` is the register
whose write commits the block. -/
def supersede (replaced : Bool) (key : Nat) (s : State) : State :=
  if replaced then { s with sys := { s.sys with
    superseded := Store.set (fun _ => 0) s.sys.superseded key (Store.get (fun _ => 0) s.sys.superseded key + 1) } }
  else s

/-! ### Writes through the ECC checkers (R410, R411) -/

def injState (s : State) : Nat := fget s Fld.FCO_INJ_STAT_STATE

/-- The checker `c`, instance `i`, is armed. -/
def armed (s : State) (c i : Nat) : Bool :=
  injState s == 1 && fieldGet s.fco.arm 15 8 == c && fieldGet s.fco.arm 7 0 == i

/-- The armed checker marks word `key` and is done (R411). -/
def eccMark (key : Nat) (s : State) : State :=
  let m := 1 + fieldGet s.fco.arm 28 28 + 2 * fieldGet s.fco.arm 29 29
  fset Fld.FCO_INJ_STAT_STATE 2 { s with fco := { s.fco with marks := Store.set (fun _ => 0) s.fco.marks key m } }

/-- A word is written through an ECC checker (R411): an armed checker marks it, any other write ends its mark. -/
def eccStore (c i key : Nat) (s : State) : State :=
  if armed s c i then eccMark key s
  else { s with fco := { s.fco with marks := Store.set (fun _ => 0) s.fco.marks key 0 } }

/-- The DRAM ECC channel of an address is not given (log entry 8). -/
def dramChannel (a : Nat) : Nat := (Config.freeChannel (a / 4)).toNat

/-- The checker of the word at a physical address in shared control memory or DRAM is armed. -/
def armedAt (s : State) (a : Nat) : Bool :=
  if a < Config.dramBase then decide (Config.scmBase ≤ a ∧ a < Config.scmBase + 0x400000) && armed s 3 0
  else armed s 4 (dramChannel a)

/-- Words `lo` to `hi − 1` lose their marks. -/
def eccUnmark (lo hi : Nat) (s : State) : State :=
  { s with fco := { s.fco with marks := s.fco.marks.filter (fun e => !decide (lo ≤ e.1 ∧ e.1 < hi)) } }

/-- The words of bytes `a` to `a + n − 1` are written by any master (R411): each loses its mark, and an armed checker marks
the first that passes it. -/
def eccPass (a n : Nat) (s : State) : State :=
  let lo := a / 4
  let hi := (a + n + 3) / 4
  if injState s ≠ 1 then eccUnmark lo hi s
  else match (List.range (hi - lo)).find? (fun i => armedAt s (4 * (lo + i))) with
    | some i => eccMark (lo + i) (eccUnmark lo hi s)
    | none => eccUnmark lo hi s

/-- A unit of the module writes shared control memory or DRAM by physical address, through the checker. -/
def putBytes (a : Nat) (bs : List Byte) (s : State) : State := memWriteBytes a bs (eccPass a bs.length s)

def putWord (a : Nat) (w : Word) (s : State) : State := putBytes a (wordBytes w) s

/-! ### The scheduling trace and the refusal ring (R395, R401, R402) -/

/-- Write one 64-bit trace record, if tracing is on and the ring is not stopped (R402). -/
def traceRecord (lo hi : Word) (s : State) : State :=
  if !fbit s Fld.SCH_TRC_CTRL_EN then s
  else if fbit s Fld.SCH_TRC_CTRL_STOP && s.sch.trcFull then
    fset Fld.SCH_TRC_STAT_STOPPED 1 (fset Fld.SCH_TRC_STAT_LOST (min 0xFFFF (fget s Fld.SCH_TRC_STAT_LOST + 1)) s)
  else
    let w := fget s Fld.SCH_TRC_WPTR_WPTR
    let a := Config.dramBase + fget s Fld.SCH_TRC_BASE_BASE_MIB * 2 ^ 20 + 8 * w
    let s := if s.sch.trcFull then fset Fld.SCH_TRC_STAT_WRAPPED 1 s else s
    let s := putBytes a (wordBytes lo ++ wordBytes hi) s
    let s := fset Fld.SCH_TRC_WPTR_WPTR (w + 1) s
    if w = 65535 then
      let s := { s with sch := { s.sch with trcFull := true } }
      if fbit s Fld.SCH_TRC_CTRL_STOP then fset Fld.SCH_TRC_STAT_STOPPED 1 s else s
    else s

/-- The record of a scheduling decision (R401): TIME, REASON, CLASS, CORE, SRC, FLOW. -/
def traceEvent (reason cls core src flow : Nat) (s : State) : State :=
  let t := (nowSplit s).ns % 2 ^ 30
  let r := t * 2 ^ 34 + reason * 2 ^ 30 + cls % 4 * 2 ^ 28 + core % 8 * 2 ^ 25 + src % 16 * 2 ^ 21 + flow % 65536
  traceRecord (BitVec.ofNat 32 r) (BitVec.ofNat 32 (r / 2 ^ 32)) s

/-- The words of an event descriptor (R384). -/
def Event.words (e : Event) : List Word :=
  [BitVec.ofNat 32 (e.flow % 65536 * 65536 + e.cls % 4 * 16384 + e.src % 16 * 256 + e.status.code),
   e.arg0, e.arg1, BitVec.ofNat 32 (min e.delay 0xFFFFFFFF), splitNs e.ts, splitLo e.ts,
   BitVec.ofNat 32 (min e.merged 0xFFFF * 65536 + splitHi e.ts), e.arg2]

/-- Write a refused or evicted event to the refusal ring (R395). -/
def refusalRing (e : Event) (s : State) : State :=
  let p := fget s Fld.SCH_REF_WPTR_WPTR
  let a := Config.dramBase + fget s Fld.SCH_REF_BASE_BASE_KIB * 1024 + 32 * p
  let s := if s.sch.refFull then fset Fld.SCH_REF_WPTR_WRAPPED 1 s else s
  let s := putBytes a (wordsBytes { e with status := .refused }.words) s
  let s := fset Fld.SCH_REF_WPTR_WPTR (p + 1) s
  if p = 255 then { s with sch := { s.sch with refFull := true } } else s

/-! ### Occurrences (R405 to R412) and event arrival (R391 to R395) -/

/-- One detection of a fault source: source bit, captured address, master, access, and R411's injection marks. -/
structure Detection where
  src : Nat
  addr : Nat
  master : Nat
  access : Nat
  inj : Bool
  react : Bool
  deriving DecidableEq, Repr

/-- A detection with no bus access and no injection. -/
def detect (src addr master access : Nat) : Detection := ⟨src, addr, master, access, false, true⟩

/-- The class of a source (R404): 0 A, 1 B, 2 C, 3 D. -/
def sourceClass (s : State) (src : Nat) : Nat :=
  fieldGet (regGet s (Reg.FCO_CLASS (src / 16))) (2 * (src % 16) + 1) (2 * (src % 16))

/-- How an arriving event fared (R392). -/
inductive Arrival where
  | entered | held | refused
  deriving DecidableEq, Repr

def Sched.classCount (c : Nat) (l : List Event) : Nat := (l.filter (fun e => e.cls == c)).length

/-- The entry usable by an event of class `cls` (R391): none, or whether it is a reserved one. -/
def usableEntry (s : State) (cls : Nat) : Option Bool :=
  let res := (s.sch.ready.filter (fun e => e.reserved)).length
  let free := decide (s.sch.ready.length - res < Config.readyCap - Config.reservedCap)
  if cls = 0 ∧ res < Config.reservedCap then some true
  else if cls = 1 then
    if free && decide (Sched.classCount 1 s.sch.ready < fget s Fld.SCH_CAP_CAP1) then some false else none
  else if free then some false else none

/-- CNT at the entry of an event into the ready store. -/
def Event.entry (e : Event) : Nat := e.first + e.delay / 2

/-- The ready store with one event more: the last to enter, but in its flow before those that entered in the same clock
from a higher SRC (R388; log entry 149). -/
def queueReady (e : Event) (l : List Event) : List Event :=
  let before := fun (x : Event) => !(x.flow == e.flow && x.entry == e.entry && decide (e.src < x.src))
  l.takeWhile before ++ e :: l.dropWhile before

/-- Take `e` into the ready store (R392, R394): its delay is counted from its first occurrence. -/
def enterReady (e : Event) (res : Bool) (s : State) : State :=
  let d := (s.time.cnt - e.first) * 2
  let e := { e with delay := d, status := if d = 0 then .ok else .delayed, reserved := res }
  let s := { s with sch := { s.sch with ready := queueReady e s.sch.ready } }
  if (regGet s Reg.SCH_DELAY_MAX).toNat < d then regSet Reg.SCH_DELAY_MAX (BitVec.ofNat 32 (min d 0xFFFFFFFF)) s else s

/-- Remove the last event that satisfies `p`, and give it. -/
def takeLast (p : Event → Bool) (l : List Event) : Option (Event × List Event) :=
  match l.reverse.find? p with
  | none => none
  | some e => some (e, (l.reverse.erase e).reverse)

/-- The event that a class 0 arrival evicts (R392): the youngest of class 3, or failing that of class 2. -/
def evictable (l : List Event) : Option (Event × List Event) :=
  match takeLast (fun e => e.cls == 3) l with
  | some r => some r
  | none => takeLast (fun e => e.cls == 2) l

/-- A newer event of one instance replaces the held one `h` (R394). DESIGN CHOICE (log entry 149): of the two classes the
higher one stands. -/
def joinHeld (e h : Event) : Event :=
  { e with cls := min h.cls e.cls, first := h.first, merged := min 0xFFFF (h.merged + 1) }

/-- Refuse an event (R395): count it, trace it, and give its descriptor to the refusal ring unless its source learns of
it otherwise. -/
def refuseEvent (e : Event) (reason : Nat) (toRing : Bool) (s : State) : State :=
  let s := traceEvent reason e.cls 7 e.src e.flow (bump (Reg.SCH_REF_CNT e.cls) s)
  if toRing then refusalRing e s else s

/-- An event enters at once, if an entry is usable, or for class 0 if one can be evicted (R392). -/
def enterNow (e : Event) (s : State) : Option State :=
  match usableEntry s e.cls with
  | some res => some (enterReady e res s)
  | none =>
    if e.cls ≠ 0 then none
    else (evictable s.sch.ready).map (fun r =>
      let s := bump Reg.SCH_EVICT_CNT { s with sch := { s.sch with ready := r.2 } }
      enterReady e r.1.reserved (refuseEvent r.1 4 true s))

/-- Arrival of an event at the scheduler (R391 to R395), all but the source SCH_C0_HELD. A held event that a newer one
raises to class 0 fares as an arrival of that class. The scheduler does not run in BOOT (R399). -/
def arriveCore (e : Event) (s : State) : State × Arrival :=
  if s.sys.mode = .boot then (s, .refused)
  else match s.sch.held.find? (fun h => h.src == e.src && h.inst == e.inst) with
  | some h =>
    let m := joinHeld e h
    let s := bump Reg.SCH_MERGE_CNT s
    match (if m.cls < h.cls then enterNow m { s with sch := { s.sch with held := s.sch.held.erase h } } else none) with
    | some s => (s, .entered)
    | none =>
      ({ s with sch := { s.sch with held := s.sch.held.map (fun x => if x = h then m else x) } }, .held)
  | none =>
    match enterNow e s with
    | some s => (s, .entered)
    | none =>
      if e.cls ≤ 1 then
        (traceEvent 3 e.cls 7 e.src e.flow
          (bump Reg.SCH_DELAY_CNT { s with sch := { s.sch with held := s.sch.held ++ [e] } }), .held)
      else (refuseEvent e 2 (e.src != 10 && e.src != 5) s, .refused)

/-- Flow and class that a source kind takes from its SCH_SRC register (R386). -/
def srcFlow (s : State) (k inst : Nat) : Nat :=
  let r := Reg.SCH_SRC (k - 1)
  if fieldGet (regGet s r) 15 15 = 1 then (fieldGet (regGet s r) 31 16 + inst) % 65536 else fieldGet (regGet s r) 31 16

def srcClass (s : State) (k : Nat) (hi : Bool) : Nat :=
  if hi then fieldGet (regGet s (Reg.SCH_SRC (k - 1))) 5 4 else fieldGet (regGet s (Reg.SCH_SRC (k - 1))) 1 0

/-- A new event of a source kind, occurring now. -/
def mkEvent (s : State) (src inst flow cls : Nat) (a0 a1 a2 : Word) : Event :=
  { flow := flow, cls := cls, src := src, status := .pending, arg0 := a0, arg1 := a1, arg2 := a2, delay := 0,
    ts := nowSplit s, merged := 0, inst := inst, first := s.time.cnt, reserved := false }

/-- The FAULT event of a class C or D reaction (R385, R386, R407). -/
def faultEvent (s : State) (src cls addr : Nat) : Event :=
  mkEvent s 7 src (srcFlow s 7 src) (srcClass s 7 (cls == 2)) (BitVec.ofNat 32 src) (BitVec.ofNat 32 cls)
    (BitVec.ofNat 32 addr)

/-- Assert FAULT_OUT and start TMIN (R412). -/
def assertFaultOut (s : State) : State := fset Fld.FCO_FOUT_STATE 1 (fset Fld.FCO_FOUT_PULSE 1 s)

/-- A source latches in FCO_STATUS: a trigger of the chronograph, recognised at its next sampling instant (R313). -/
def noteLatch (cls : Nat) (s : State) : State :=
  if fget s Fld.CHR_STATUS_STATE = 0 then s
  else { s with chr := { s.chr with faults := s.chr.faults ++ [(cls, nowSplit s)] } }

/-- Latch, count, capture and log an occurrence (R405, R409, R511). In the clock in which the capture was filled, a more
severe occurrence, or one of the same class from a lower source, takes its place (log entry 150). -/
def latchOccurrence (d : Detection) (s : State) : State :=
  let cls := sourceClass s d.src
  let st := Reg.FCO_STATUS_0 + 4 * (d.src / 32)
  let s := if (regGet s st).getLsbD (d.src % 32) then s else noteLatch cls s
  let s := regSet st (BitVec.ofNat 32 (setBit (regGet s st).toNat (d.src % 32) true)) s
  let s := bump (Reg.FCO_OCC_CNT cls) s
  let valid := fbit s Fld.FCO_CAP_1_VALID
  let rank := cls * 64 + d.src
  let held := fget s Fld.FCO_CAP_1_CLASS * 64 + fget s Fld.FCO_CAP_1_SOURCE
  let out := if valid then s.fco.capAt.filter (fun c => c.1 == s.time.cnt && decide (rank < held)) else none
  let fills := !valid || out.isSome
  let t := nowSplit s
  let cap1 := 2 ^ 31 + boolNat d.inj * 2 ^ 30 + d.src % 64 * 2 ^ 24 + cls * 2 ^ 22 + d.access % 16 * 2 ^ 18 +
    d.master % 64 * 2 ^ 12 + d.addr / 2 ^ 32 % 256
  let s := if valid then bump Reg.FCO_MULTI_CNT s else s
  let s := if fills then
      setSplitRegs Reg.FCO_CAP_2 t (regSet Reg.FCO_CAP_1 (BitVec.ofNat 32 cap1)
        (regSet Reg.FCO_CAP_0 (BitVec.ofNat 32 d.addr)
          { s with fco := { s.fco with capAt := some (s.time.cnt, s.fco.logSeq) } }))
    else s
  let full := decide (Config.faultLogCap ≤ s.fco.log.length)
  let e : FaultEntry :=
    { time := t, cycle := if escRunning s then cycleNo s else 0, addr := d.addr, capt := fills,
      inj := d.inj, source := d.src, cls := cls, access := d.access, master := d.master, seq := s.fco.logSeq }
  let log := match out with
    | some c => s.fco.log.map (fun x => if x.seq = c.2 then { x with capt := false } else x)
    | none => s.fco.log
  let s := { s with fco := { s.fco with log := ringPush Config.faultLogCap e log, logSeq := s.fco.logSeq + 1 } }
  let s := fset Fld.FCO_LOG_WPTR_WPTR (fget s Fld.FCO_LOG_WPTR_WPTR + 1) s
  if full then fset Fld.FCO_LOG_WPTR_WRAPPED 1 s else s

/-- A cause code of R426 reaches the safety die. -/
def safetyCause (code : Nat) (s : State) : State :=
  { s with saf := { s.saf with pending := s.saf.pending ||| BitVec.ofNat 10 (2 ^ (code - 1)) } }

/-- The epoch with which this unit would take the baton (R357): one above the highest it knows. -/
def nextEpoch (s : State) : Nat :=
  let tw := match s.btn.twin with | some h => h.epoch.toNat | none => 0
  max s.btn.mramEpoch.toNat (max tw s.btn.seenEpoch.toNat) + 1

/-- A self-test starts (R373): a new number, no results yet. -/
def startSelftest (seq : Nat) (cmd : Bool) (s : State) : State :=
  { s with btn := { s.btn with
      stSeq := seq % 65536, stRun := true, stCmd := cmd, stOwn := 0, stTwin := 0, disRun := 0 } }

/-- Start a handover (R376): j is the first cycle with T_j at least P/2 + 4.0 µs from now. -/
def startHandover (cause : Nat) (s : State) : State :=
  let p := periodTicks s
  let need := s.time.cnt + p / 2 + 2000
  let first := s.esc.tk + s.esc.wlen
  let n := if need ≤ first then 0 else (need - first + p - 1) / (max p 1)
  let j := cycleNo s + 1 + BitVec.ofNat 32 n
  let h : Handover :=
    { j := j, tj := first + n * p, epoch := BitVec.ofNat 32 (min (2 ^ 32 - 1) (nextEpoch s)), cause := cause,
      offered := false, accepted := false }
  fset Fld.BTN_STATUS_HO_PENDING 1 { s with btn := { s.btn with ho := some h, hoOp := .offer, hoCycle := j } }

/-- The twin is READY by its last heartbeat (R374). -/
def twinReady (s : State) : Bool := match s.btn.twin with | some h => h.ready | none => false

/-- The reaction to an occurrence by class (R407, R408, R411), the FAULT event of classes C and D apart. -/
def reactClassAB (src cls : Nat) (s : State) : State :=
  let s := assertFaultOut s
  if s.sys.mode = .lockout then s
  else if cls = 0 then (if src = 2 then s else safetyCause 4 s)
  else match s.sys.role with
  | .solo => safetyCause 5 s
  | .active =>
    let passing := s.btn.ho.isSome || s.btn.commit.any (fun c => c.role == .standby && c.j.isSome)
    if !twinReady s then safetyCause 5 s else if passing then s else startHandover 3 s
  | .standby => fset Fld.BTN_HEALTH_SELFTEST 1 s

/-- The class by which an occurrence is reacted to (R411): an injected one with REACT 0 as class D. -/
def reactClass (d : Detection) (s : State) : Nat := if d.inj && !d.react then 3 else sourceClass s d.src

/-- One occurrence, but for a SCH_C0_HELD occurrence that its own FAULT event may cause; the flag says whether it did. -/
def occurOnce (d : Detection) (s : State) : State × Bool :=
  let rc := reactClass d s
  let s := latchOccurrence d s
  if rc ≤ 1 then (reactClassAB d.src rc s, false)
  else
    let e := faultEvent s d.src rc d.addr
    let (s, r) := arriveCore e s
    (s, r == .held && e.cls == 0)

def Fco.key (src inst : Nat) : Nat := src * 65536 + inst

/-- Some instance of a condition source is raised. -/
def raisedSrc (s : State) (src : Nat) : Bool := s.fco.raised.any (fun e => e.1 / 65536 == src)

def setRaised (src inst : Nat) (b : Bool) (s : State) : State :=
  { s with fco := { s.fco with raised := Store.set (fun _ => false) s.fco.raised (Fco.key src inst) b } }

/-- Raise SCH_C0_HELD (R392, R393) after a class 0 event has been held. -/
def noteC0Held (s : State) : State :=
  if raisedSrc s 48 then s
  else (occurOnce (detect 48 0 0x3F 0) (setRaised 48 0 true (fset Fld.SCH_STATUS_C0_HELD 1 s))).1

/-- An occurrence of a source (R405): latch, capture, log and reaction. -/
def occur (d : Detection) (s : State) : State :=
  let (s, c0) := occurOnce d s
  if c0 then noteC0Held s else s

/-- Arrival of an event at the scheduler (R391 to R395). -/
def arrive (e : Event) (s : State) : State × Arrival :=
  let (s, r) := arriveCore e s
  if r = .held ∧ e.cls = 0 then (noteC0Held s, r) else (s, r)

/-- A source of the module posts an event; what becomes of it is the scheduler's (R395). -/
def post (e : Event) (s : State) : State := (arrive e s).1

/-- An instance of a condition source becomes raised (R403): an occurrence if no instance was. -/
def raiseCond (src inst master access : Nat) (s : State) : State :=
  if raisedSrc s src then setRaised src inst true s
  else occur (detect src inst master access) (setRaised src inst true s)

/-- An instance of a condition source stops being raised. -/
def clearCond (src inst : Nat) (s : State) : State := setRaised src inst false s

/-! ### The archive of the flash (R487) -/

/-- The bytes of a record: 32 for each entry of its log (R433, R511). -/
def ArchiveRec.size : ArchiveRec → Nat
  | .safetyLog l => 32 * l.length
  | .faultLog l => 32 * l.length

/-- The 1.5 GiB of the archive. -/
def archiveCap : Nat := 3 * 2 ^ 29

/-- Of the records before a new one of `n` bytes the newest that fit with it: the oldest are overwritten. -/
def archiveKept (n : Nat) : List ArchiveRec → List ArchiveRec
  | [] => []
  | x :: xs => if n + ((x :: xs).map ArchiveRec.size).sum ≤ archiveCap then x :: xs else archiveKept n xs

/-- A record enters the archive, oldest first. -/
def archiveAdd (x : ArchiveRec) (s : State) : State :=
  { s with sys := { s.sys with archive := archiveKept x.size s.sys.archive ++ [x] } }

def condIs (b : Bool) (src inst master : Nat) (s : State) : State :=
  if b then (if Store.get (fun _ => false) s.fco.raised (Fco.key src inst) then s else raiseCond src inst master 0 s)
  else clearCond src inst s

end Sys2Proof.Machine
end

