-- ==== Sys2Proof/Machine/Fault.lean ====
section
/-! DEFINITION. Fault collection (16_fault_collection.md): the FCO commands, injection, FAULT_OUT, and the fault sources
that have a command of their own. -/

namespace Sys2Proof.Machine

/-! ### Register writes of the management plane (R457, R458) -/

/-- Refuse a register write: it has no effect but the log entry and the count of R458. -/
def refuseWrite (a : Nat) (st : Status) (o : Origin) (s : State) : State × Status :=
  (logRefusal (a % 65536) (a / 65536 % 0x4000) st (originCode o) (originSession o) s, st)

/-- Decide a write by the first check that fails (R457). -/
def checkWrite (a : Nat) (o : Origin) (checks : List (Bool × Status)) (act : State → State) (s : State) : State × Status :=
  match checks.find? (fun c => !c.1) with
  | some (_, st) => refuseWrite a st o s
  | none => (act s, .ok)

/-- The writer is HMP in at least role `r`, or the supervisory firmware. -/
def roleAtLeast (r : HmpRole) : Origin → Bool
  | .hmp q _ => decide (r.code ≤ q.code)
  | .supervisory => true
  | .eventCore _ => false

/-- As `roleAtLeast`, with event cores admitted as operators (R457, R458). -/
def roleOrCore (r : HmpRole) : Origin → Bool
  | .eventCore _ => decide (r.code ≤ HmpRole.operator.code)
  | o => roleAtLeast r o

/-! ### Clearing, capture and classes -/

/-- The sources of word `n` raised now (FCO_ACTIVE). -/
def activeWord (s : State) (n : Nat) : Nat :=
  (List.range 32).foldl (fun m i => setBit m i (raisedSrc s (32 * n + i))) 0

/-- R406: a 1 clears a bit only while its source is not raised. -/
def fcoStatusClear (o : Origin) (n : Nat) (val : Word) (s : State) : State × Status :=
  checkWrite (Reg.FCO_STATUS_0 + 4 * n) o [(roleAtLeast .engineer o, .notPermitted)] (fun s =>
    let a := Reg.FCO_STATUS_0 + 4 * n
    regSet a (regGet s a &&& ~~~(val &&& ~~~(BitVec.ofNat 32 (activeWord s n)))) s) s

def execFcoStatusClear (o : Origin) (n : Fin 2) (val : Word) (s : State) : Host.Outcome State Fault Refusal :=
  .next (fcoStatusClear o n.val val s).1

/-- R409: RELEASE clears VALID. -/
def fcoCaptureRelease (o : Origin) (s : State) : State × Status :=
  checkWrite Reg.FCO_CAP_CTRL o [(roleAtLeast .engineer o, .notPermitted)] (fset Fld.FCO_CAP_1_VALID 0) s

def execFcoCaptureRelease (o : Origin) (s : State) : Host.Outcome State Fault Refusal := .next (fcoCaptureRelease o s).1

/-- The lowest class of each source (R403), as the FCO_CLASS word `n` would hold it. -/
def lowestClassWord (n : Nat) : Nat :=
  match n with
  | 0 => 0xF7FE6904
  | 1 => 0xFBF1FEFF
  | 2 => 0x6ABBFFFF
  | _ => 0xFDFFBFFE

def classWordLegal (n : Nat) (val : Word) : Bool :=
  (List.range 16).all (fun j => decide (val.toNat / 4 ^ j % 4 ≤ lowestClassWord n / 4 ^ j % 4))

/-- R404: FCO_CLASS is written only in COMMISSION, and never below a source's lowest class. -/
def fcoClassWrite (o : Origin) (n : Nat) (val : Word) (s : State) : State × Status :=
  checkWrite (Reg.FCO_CLASS n) o
    [(roleAtLeast .engineer o, .notPermitted), (s.sys.mode == .commission, .illegalInMode), (classWordLegal n val, .badParam)]
    (regSet (Reg.FCO_CLASS n) val) s

def execFcoClassWrite (o : Origin) (n : Fin 4) (val : Word) (s : State) : Host.Outcome State Fault Refusal :=
  .next (fcoClassWrite o n.val val s).1

/-! ### Injection (R410, R411) -/

/-- The instances of a checker (R410); 0 for an unknown checker. -/
def checkerInstances (c : Nat) : Nat :=
  match c with
  | 1 => 4 | 2 => 4 | 3 => 1 | 4 => 2 | 5 => 128 | 6 => 1 | 7 => 2 | _ => 0

/-- R410: GO arms one checker. The status of a refused GO is shown as well. -/
def fcoInjectGo (o : Origin) (val : Word) (s : State) : State × Status :=
  let (s, st) := checkWrite Reg.FCO_INJECT o
    [(roleAtLeast .engineer o, .notPermitted), (s.sys.mode != .boot && s.sys.mode != .run, .illegalInMode),
     (decide (fieldGet val 7 0 < checkerInstances (fieldGet val 15 8)), .badParam), (injState s != 1, .busy)]
    (fun s => fset Fld.FCO_INJ_STAT_STATE 1 (regSet Reg.FCO_INJECT (val &&& 0x3000FFFF)
      { s with fco := { s.fco with arm := val &&& 0x3000FFFF } })) s
  (fset Fld.FCO_INJ_STAT_STATUS st.code s, st)

def execFcoInjectGo (o : Origin) (val : Word) (s : State) : Host.Outcome State Fault Refusal := .next (fcoInjectGo o val s).1

/-- CANCEL disarms an ARMED checker. -/
def fcoInjectCancel (o : Origin) (s : State) : State × Status :=
  checkWrite Reg.FCO_INJECT o [(roleAtLeast .engineer o, .notPermitted)]
    (fun s => if injState s = 1 then fset Fld.FCO_INJ_STAT_STATE 0 s else s) s

def execFcoInjectCancel (o : Origin) (s : State) : Host.Outcome State Fault Refusal := .next (fcoInjectCancel o s).1

/-- An armed link checker treats the next unit as failed (R411): whether it does, and the state after. -/
def takeInjection (c i : Nat) (s : State) : Bool × State :=
  if armed s c i then (true, fset Fld.FCO_INJ_STAT_STATE 2 s) else (false, s)

/-- An occurrence that an injection caused carries INJ and the chosen reaction (R411). -/
def occurInj (inj : Bool) (src addr master access : Nat) (s : State) : State :=
  occur ⟨src, addr, master, access, inj, s.fco.arm.getLsbD 29⟩ s

/-- A word crosses the link to die `i`, 0 front-end or 1 safety: an armed check fails it, and it is repeated (R410, R411). -/
def crossLink (i : Nat) (s : State) : State :=
  let (inj, s) := takeInjection 7 i s
  if inj then occurInj true 57 i 0x3F 8 s else s

/-- A word is read through an ECC checker: whether the error is uncorrectable, and the state with its occurrence. -/
def eccLoad (key src addr master access : Nat) (s : State) : Bool × State :=
  let m := Store.get (fun _ => 0) s.fco.marks key
  if m = 0 then (false, s)
  else
    let bad := m % 2 == 0
    (bad, occur ⟨if bad then src else 10, addr, master, access, true, decide (2 < m)⟩ s)

/-! ### Software fault, FAULT_OUT, and the sources with commands of their own -/

def swFaultRaise (o : Origin) (s : State) : State × Status :=
  checkWrite Reg.FCO_SWFAULT o [(roleAtLeast .engineer o, .notPermitted)]
    (fun s => if raisedSrc s 62 then s else raiseCond 62 0 0x3F 0 s) s

def execSwFaultRaise (o : Origin) (s : State) : Host.Outcome State Fault Refusal := .next (swFaultRaise o s).1

def swFaultClear (o : Origin) (s : State) : State × Status :=
  checkWrite Reg.FCO_SWFAULT o [(roleAtLeast .engineer o, .notPermitted)] (clearCond 62 0) s

def execSwFaultClear (o : Origin) (s : State) : Host.Outcome State Fault Refusal := .next (swFaultClear o s).1

/-- FAULT_OUT as FCO_FOUT decides it (R412): asserted in BOOT, within TMIN, and as SW says. -/
def settleFaultOut (s : State) : State :=
  fset Fld.FCO_FOUT_STATE (boolNat (s.sys.mode == .boot || fbit s Fld.FCO_FOUT_PULSE || fbit s Fld.FCO_FOUT_SW)) s

/-- R412: a write of FCO_FOUT. -/
def fcoFoutWrite (o : Origin) (val : Word) (s : State) : State × Status :=
  let t := fieldGet val 6 0
  checkWrite Reg.FCO_FOUT o
    [(roleAtLeast .engineer o, .notPermitted),
     (t == fget s Fld.FCO_FOUT_TMIN || s.sys.mode == .commission, .illegalInMode), (decide (1 ≤ t ∧ t ≤ 100), .badParam)]
    (fun s => settleFaultOut (fset Fld.FCO_FOUT_TMIN t (fset Fld.FCO_FOUT_SW (fieldGet val 31 31) s))) s

def execFcoFoutWrite (o : Origin) (val : Word) (s : State) : Host.Outcome State Fault Refusal :=
  .next (fcoFoutWrite o val s).1

/-- R412: TMIN ends and FAULT_OUT follows SW again. -/
def faultOutTminExpiry (s : State) : State :=
  if fbit s Fld.FCO_FOUT_PULSE then settleFaultOut (fset Fld.FCO_FOUT_PULSE 0 s) else s

def execFaultOutTminExpiry (s : State) : Host.Outcome State Fault Refusal := .next (faultOutTminExpiry s)

def execPllLossOfLock (s : State) : Host.Outcome State Fault Refusal := .next (occur (detect 3 0 0x3F 0) s)

def execSupervisoryWatchdogExpiry (s : State) : Host.Outcome State Fault Refusal :=
  .next (occur (detect 60 0 0x08 0) s)

/-- R11: a lost die-to-die link raises its condition source. -/
def execDieLinkLoss (l : DieLink) (s : State) : Host.Outcome State Fault Refusal :=
  .next (match l with
    | .safety => if raisedSrc s 0 then s else raiseCond 0 0 0x0A 0 s
    | .frontEnd => if raisedSrc s 1 then s else raiseCond 1 0 0x31 0 s)

/-- R11, R414, R428: the link returns, and its silence is no longer present as cause 8. -/
def execDieLinkRestore (l : DieLink) (s : State) : Host.Outcome State Fault Refusal :=
  .next (match l with
    | .safety => clearCond 0 0 { s with saf := { s.saf with present := s.saf.present &&& ~~~(0x080 : BitVec 10) } }
    | .frontEnd => clearCond 1 0 s)

/-- R501: an optical alarm is an occurrence of OPTICS with the engine or pluggable as instance. -/
def execOpticsAlarm (inst : Nat) (s : State) : Host.Outcome State Fault Refusal := .next (occur (detect 59 inst 0x32 0) s)

end Sys2Proof.Machine
end

