-- ==== Sys2Proof/Machine/Hmp.lean ====
section
/-! DEFINITION. HMP sessions and the order in which a request is decided (R457, R458, R480 to R484). -/

namespace Sys2Proof.Machine

/-- What an HMP command comes to: a status and payload at once, or nothing yet (R484). -/
abbrev Reply := Option (Status × List Byte)

/-- Send an answer, and store it as the response to the session's last accepted SEQ (R481). -/
def hmpAnswer (session seq : Word) (st : Status) (payload : List Byte) (s : State) : State :=
  let a : HmpAnswer := ⟨session, seq, st, payload, false⟩
  let put := fun (x : Session) => if x.num = session ∧ x.lastSeq = seq then { x with resp := some a } else x
  { s with sys := { s.sys with answer := some a, sessions := s.sys.sessions.map put } }

/-- Where the four enrolled keys of a kind stand among the image keys (R483). -/
def keyBase : KeyKind → Nat | .program => 0 | .commission => 4 | _ => 8

/-- The signature verifies under an enrolled key of a kind. -/
def keyEnrolled (s : State) (k : KeyKind) : ImageSig → Bool
  | .key pk => decide (pk.length = 64) &&
      (List.range 4).any (fun i => Store.get (fun _ => []) s.sys.imageKeys (keyBase k + i) == pk)
  | _ => false

/-- Close the sessions that satisfy `p`; a transfer of a closed session is abandoned (R482, R486). -/
def closeSessions (p : Session → Bool) (s : State) : State :=
  let gone := fun (n : Word) => s.sys.sessions.any (fun x => p x && x.num == n)
  { s with sys := { s.sys with
      sessions := s.sys.sessions.filter (fun x => !p x),
      transfer := match s.sys.transfer with
        | some t => if gone t.session then none else some t
        | none => none } }

/-- The ticks of the 10 s window of R482. -/
def authWindow : Nat := 10 * Config.secTicks

/-- Answer AUTH_FAIL with a zero tag, raise HMP_AUTH, and refuse the source after five such answers in 10 s (R482). -/
def authFail (session seq src : Word) (cmd : Nat) (s : State) : State :=
  let s := logRefusal cmd 0xFFFF .authFail 0 session s
  let s := occur (detect 56 0 0x35 0) s
  let recent := (s.sys.authFails.filter (fun e => decide (s.time.cnt ≤ e.2 + authWindow))) ++ [(src, s.time.cnt)]
  let s := { s with sys := { s.sys with
      answer := some ⟨session, seq, .authFail, [], true⟩, authFails := recent } }
  if 5 ≤ (recent.filter (fun e => e.1 == src)).length then
    closeSessions (fun x => x.src == src) { s with sys := { s.sys with
      blockedSrc := src :: s.sys.blockedSrc.filter (fun b => b != src),
      authFails := recent.filter (fun e => e.1 != src) } }
  else s

def findSession (s : State) (n : Word) : Option Session := s.sys.sessions.find? (fun x => x.num == n)

/-- The request names an open session, with its tag (R482). -/
def authentic (r : Req) (s : State) : Bool := (findSession s r.session).isSome && r.tagOk

/-- Accept a request's SEQ (R481). -/
def acceptSeq (n seq : Word) (s : State) : State :=
  let put := fun (x : Session) => if x.num = n then { x with lastSeq := seq, resp := none } else x
  { s with sys := { s.sys with sessions := s.sys.sessions.map put } }

/-- Refuse an HMP command: log it, count it and answer it (R458). -/
def hmpRefuse (r : Req) (cmd : Nat) (st : Status) (s : State) : State :=
  hmpAnswer r.session r.seq st [] (logRefusal cmd 0xFFFF st 0 r.session s)

/-- The checks of a command before its own (R457): least role, ETH-M only, holder only, legal in BOOT, legal modes. -/
structure CmdRule where
  cmd : Nat
  least : HmpRole
  ethM : Bool
  holder : Bool
  modes : List Mode
  deriving DecidableEq, Repr

/-- The first check of R457, steps 2 to 4, that an executed request fails. -/
def CmdRule.refusal (k : CmdRule) (x : Session) (r : Req) (s : State) : Option Status :=
  if x.role.code < k.least.code then some .notPermitted
  else if k.ethM && r.port == .station then some .notPermitted
  else if k.holder && s.sys.role == .standby then some .notHolder
  else if s.sys.mode ∉ k.modes then some .illegalInMode
  else none

/-- Decide and execute one HMP request of an open session (R481, R482, R457). The body answers a status, or none where
the answer comes later. -/
def hmpRun (r : Req) (k : CmdRule) (body : Session → State → State × Reply) (s : State) : State :=
  if s.sys.powered = false then s
  else match findSession s r.session with
  | none => authFail r.session r.seq r.src k.cmd s
  | some x =>
    if !r.tagOk then authFail r.session r.seq r.src k.cmd s
    else if r.seq.toNat < x.lastSeq.toNat then s
    else if r.seq = x.lastSeq then
      match x.resp with
      | some a => { s with sys := { s.sys with answer := some a } }
      | none => s
    else
      let s := acceptSeq r.session r.seq s
      match k.refusal x r s with
      | some st => hmpRefuse r k.cmd st s
      | none =>
        match body x s with
        | (s', none) => s'
        | (s', some (.ok, p)) => hmpAnswer r.session r.seq .ok p s'
        | (s', some (st, _)) => hmpRefuse r k.cmd st s'

def allModes : List Mode := [.boot, .commission, .charge, .ready, .run, .lockout]
def notBoot : List Mode := [.commission, .charge, .ready, .run, .lockout]

/-- Answer the session that wrote a mailbox, and free the mailbox (R400, R484). -/
def mailboxAnswer (mb : Nat) (st : Status) (payload : List Byte) (s : State) : State :=
  match Store.get (fun _ => none) s.sys.mailboxes mb with
  | none => s
  | some m =>
    hmpAnswer m.session m.seq st payload
      { s with sys := { s.sys with mailboxes := Store.set (fun _ => none) s.sys.mailboxes mb none } }

end Sys2Proof.Machine
end

