-- ==== Sys2Proof/Machine/Sched.lean ====
section
/-! DEFINITION. The event scheduler (15_event_plane.md): dispatch, migration, held events, timers and the trace. -/

namespace Sys2Proof.Machine

def nextSlot (s : State) (c : Nat) : Option Event := Store.get (fun _ => none) s.sch.next c
def curSlot (s : State) (c : Nat) : Option Event := Store.get (fun _ => none) s.sch.cur c

def setNext (c : Nat) (e : Option Event) (s : State) : State :=
  { s with sch := { s.sch with next := Store.set (fun _ => none) s.sch.next c e } }
def setCur (c : Nat) (e : Option Event) (s : State) : State :=
  { s with sch := { s.sch with cur := Store.set (fun _ => none) s.sch.cur c e } }

/-- The flow has an event in flight: in a next or a current slot (R388). -/
def inFlight (s : State) (flow : Nat) : Bool :=
  (List.range 4).any (fun c =>
    (match nextSlot s c with | some e => e.flow == flow | none => false) ||
    (match curSlot s c with | some e => e.flow == flow | none => false))

/-- The preferred core of a flow. -/
def prefCore (s : State) (flow : Nat) : Nat := Store.get (fun f => f % 4) s.sch.pref flow

/-- The ready list of a core: the waiting events whose flows prefer it, oldest first. -/
def readyList (s : State) (c : Nat) : List Event := s.sch.ready.filter (fun e => prefCore s e.flow == c)

/-- R389's choice among events: the highest class, and within it the oldest, of those whose flow has nothing in flight. -/
def choose (s : State) (l : List Event) : Option Event :=
  let ok := l.filter (fun e => !inFlight s e.flow)
  ((ok.find? (fun e => e.cls == 0)).or (ok.find? (fun e => e.cls == 1))).or
    ((ok.find? (fun e => e.cls == 2)).or (ok.find? (fun e => e.cls == 3)))

/-- Place a waiting event into core `c`'s next slot (R388, R389). -/
def place (c reason : Nat) (e : Event) (s : State) : State :=
  let s := { s with sch := { s.sch with
      ready := s.sch.ready.erase e, since := Store.set (fun _ => 0) s.sch.since (4 + c) s.time.cnt } }
  traceEvent reason e.cls c e.src e.flow (bump (Reg.SCH_SERVED_CNT e.cls) (setNext c (some e) s))

/-- The donor of a migration to core `c` (R390): the longest ready list above MIG_THR, the lower core on a tie. -/
def donor (s : State) (c : Nat) : Option Nat :=
  let l := fun d => (readyList s d).length
  let cand := (List.range 4).filter (fun d => d != c && decide (fget s Fld.SCH_CTRL_MIG_THR < l d))
  cand.foldl (fun best d => match best with | none => some d | some b => if l b < l d then some d else some b) none

/-- R389 and R390: fill core `c`'s empty next slot. -/
def dispatch (c : Nat) (s : State) : State :=
  if s.sys.mode = .boot then s
  else match nextSlot s c with
  | some _ => s
  | none =>
    match choose s (readyList s c) with
    | some e => place c 0 e s
    | none =>
      if !fbit s Fld.SCH_CTRL_MIG_EN then s
      else match donor s c with
      | none => s
      | some d =>
        match choose s (readyList s d) with
        | none => s
        | some e =>
          let s := { s with sch := { s.sch with pref := Store.set (fun f => f % 4) s.sch.pref e.flow c } }
          place c 1 e (bump Reg.SCH_MIG_CNT s)

/-- The held event that enters first (R394): class 0 before class 1, each in order of first occurrence. -/
def firstHeld (s : State) : Option Event :=
  (s.sch.held.find? (fun e => e.cls == 0)).or (s.sch.held.find? (fun e => e.cls == 1))

/-- R393: SCH_C0_HELD clears when no class 0 event is held. -/
def settleC0Held (s : State) : State :=
  if s.sch.held.any (fun e => e.cls == 0) then s else clearCond 48 0 (fset Fld.SCH_STATUS_C0_HELD 0 s)

/-- R394: the first held event enters the ready store if an entry is usable for its class. -/
def heldEntry (s : State) : State × Option Event :=
  match firstHeld s with
  | none => (s, none)
  | some e =>
    match usableEntry s e.cls with
    | none => (s, none)
    | some res =>
      (settleC0Held (enterReady e res { s with sch := { s.sch with held := s.sch.held.erase e } }), some e)

/-- R387: a timer expires; its event takes the flow and class of its source kind (R386). -/
def schTimerExpiry (t : Nat) (s : State) : State :=
  if !fbit s (Fld.SCH_TIM_CFG_EN t) then s
  else
    let s := bump (Reg.SCH_TIM_CNT t) s
    let s := if fbit s (Fld.SCH_TIM_CFG_ONESHOT t) then fset (Fld.SCH_TIM_CFG_EN t) 0 s else s
    post (mkEvent s 8 t (srcFlow s 8 t) (srcClass s 8 false) (BitVec.ofNat 32 t) (regGet s (Reg.SCH_TIM_CNT t)) 0) s

def execSchTimerExpiry (t : Fin 16) (s : State) : Host.Outcome State Fault Refusal := .next (schTimerExpiry t.val s)

/-- R401: the MARK record of a PTP second boundary; its TIME is the seconds. -/
def schTraceMark (s : State) : State :=
  let r := (nowSplit s).sec % 2 ^ 30 * 2 ^ 34 + 15 * 2 ^ 30 + 7 * 2 ^ 25
  traceRecord (BitVec.ofNat 32 r) (BitVec.ofNat 32 (r / 2 ^ 32)) s

def execSchTraceMark (s : State) : Host.Outcome State Fault Refusal := .next (schTraceMark s)

/-- A write of SCH_TRC_CTRL; EN from 0 to 1 restarts the ring. -/
def schTrcEnable (o : Origin) (val : Word) (s : State) : State × Status :=
  checkWrite Reg.SCH_TRC_CTRL o [(roleAtLeast .engineer o, .notPermitted), (s.sys.mode != .boot, .illegalInMode)]
    (fun s =>
      let s := if fieldGet val 0 0 = 1 && !fbit s Fld.SCH_TRC_CTRL_EN then
          regSet Reg.SCH_TRC_STAT 0 (fset Fld.SCH_TRC_WPTR_WPTR 0 { s with sch := { s.sch with trcFull := false } })
        else s
      regSet Reg.SCH_TRC_CTRL (val &&& 3) s) s

def execSchTrcEnable (o : Origin) (val : Word) (s : State) : Host.Outcome State Fault Refusal :=
  .next (schTrcEnable o val s).1

/-- R403: an event in flight beyond FCO_EVT_WDT is an occurrence of WDT_EVT, with the core as instance. -/
def eventWatchdogExpiry (c : Nat) (next : Bool) (s : State) : State :=
  match (if next then nextSlot s c else curSlot s c) with
  | none => s
  | some _ => occur (detect 61 c (4 + c) 0) s

def execEventWatchdogExpiry (c : Fin 4) (next : Bool) (s : State) : Host.Outcome State Fault Refusal :=
  .next (eventWatchdogExpiry c.val next s)

/-- Complete the current event of core `c` with a status (R388, R400). -/
def completeEvent (c : Nat) (st : Status) (s : State) : State :=
  match curSlot s c with
  | none => s
  | some e =>
    let s := setCur c none s
    let s := if st = .ok then s else bump Reg.SCH_FAIL_CNT s
    match Store.get (fun _ => none) s.sys.mailboxes e.inst with
    | some m => if e.src = 5 ∧ m.first = e.first then mailboxAnswer e.inst st [] s else s
    | none => s

/-- R399: entry into COMMISSION empties the ready store, the held events and the slots, resets every flow's preferred
core and disables every timer. -/
def schedReset (s : State) : State :=
  let off := (List.range 16).foldl (fun s t => fset (Fld.SCH_TIM_CFG_EN t) 0 s) s
  settleC0Held { off with sch := { off.sch with ready := [], held := [], pref := [], next := [], cur := [], since := [] } }

end Sys2Proof.Machine
end

