-- ==== Sys2Proof/Machine/Clock.lean ====
section
/-! DEFINITION. The time base, reference, pulses and servo (R326 to R334, R353). -/

namespace Sys2Proof.Machine

/-- C_e′ of a commit made now (R328): the first counter value divisible by 16 at least 32 ticks later. -/
def nextEpochTick (c : Nat) : Nat := (c + 32 + 15) / 16 * 16

/-- Commit an adjustment (R328). -/
def commitAdj (rate step : Option Int) (set : Option Nat) (s : State) : State :=
  bump Reg.TIM_ADJ_CNT (fset Fld.TIM_STATUS_ADJ_PENDING 1
    { s with time := { s.time with adj := some ⟨nextEpochTick s.time.cnt, rate, step, set⟩ } })

/-- |RATE| is at most `ppm` (R330); RATE counts 2⁻⁴⁰. -/
def rateWithin (rate : Int) (ppm : Nat) : Bool := decide (rate.natAbs * 1000000 ≤ ppm * 2 ^ 40)

/-- RATE limited in magnitude to `ppm`. -/
def limitRate (rate : Int) (ppm : Nat) : Int :=
  let m : Int := (ppm * 2 ^ 40 / 1000000 : Nat)
  max (-m) (min m rate)

def isHmp : Origin → Bool
  | .hmp _ _ => true | _ => false

/-- The 64-bit signed step of TIM_STEP, and the time of TIM_SET in 2⁻¹⁶ ns. -/
def stepReg (s : State) : Int := sext 64 ((regGet s Reg.TIM_STEP_1).toNat * 2 ^ 32 + (regGet s Reg.TIM_STEP_0).toNat)
def setReg (s : State) : Nat :=
  ((fget s Fld.TIM_SET_2_SEC_HI * 2 ^ 32 + (regGet s Reg.TIM_SET_1).toNat) * 1000000000 + (regGet s Reg.TIM_SET_0).toNat) * 65536

/-- R328, R330: a write of TIM_ADJ_CTRL with GO. The rows of R330 are taken in order. The supervisory firmware writes for
the servo: its step or set is not committed in RUN with RUN_STEP 0, and its RATE is limited there (log entry 145). -/
def timAdjCommit (o : Origin) (val : Word) (s : State) : State × Status :=
  let useSet := fieldGet val 2 2 = 1
  let useStep := fieldGet val 1 1 = 1
  let useRate := fieldGet val 0 0 = 1
  let rate := (regGet s Reg.TIM_RATE_NEW).toInt
  let (s, st) := checkWrite Reg.TIM_ADJ_CTRL o
    [(s.sys.mode != .boot, .illegalInMode), (roleAtLeast .engineer o, .notPermitted),
     (!(isHmp o && fget s Fld.TIM_CTRL_SRC == 1), .notPermitted),
     (!((useSet || useStep) && inRun s && !fbit s Fld.TIM_SERVO_RUN_STEP), .illegalInMode),
     (!(useRate && isHmp o && inRun s && !rateWithin rate (fget s Fld.TIM_SERVO_RUN_MAX)), .badParam),
     (!(useSet && useStep), .badParam), (!useSet || decide ((regGet s Reg.TIM_SET_0).toNat < 1000000000), .badParam),
     (s.time.adj.isNone, .busy)]
    (fun s => commitAdj (if useRate then some (if inRun s then limitRate rate (fget s Fld.TIM_SERVO_RUN_MAX) else rate) else none) (if useStep then some (stepReg s) else none)
      (if useSet then some (setReg s) else none) (regSet Reg.TIM_ADJ_CTRL (val &&& 7) s)) s
  (fset Fld.TIM_ADJ_STAT_STATUS st.code s, st)

def execTimAdjCommit (o : Origin) (val : Word) (s : State) : Host.Outcome State Fault Refusal :=
  .next (timAdjCommit o val s).1

/-- The epoch that a committed adjustment starts (R328). -/
def Adjustment.epoch (a : Adjustment) (e : Epoch) : Epoch :=
  let told := e.time a.ce
  let ofs := match a.set, a.step with
    | some v, _ => v % timeWrap
    | none, some d => (((told : Int) + d) % (timeWrap : Int)).toNat
    | none, none => told
  ⟨a.ce, ofs, a.rate.getD e.rate⟩

/-- The epochs that were in force within the last 60 s of the counter (R334), which no conversion reaches behind (R329). -/
def keepEpochs (now : Nat) : List Epoch → List Epoch
  | [] => []
  | e :: es => if now < e.ce + 60 * Config.secTicks then e :: keepEpochs now es else [e]

/-- R328, R329, R465: at C_e′ the new epoch is in force and those before it are kept for conversions. -/
def timEpochStart (s : State) : State :=
  match s.time.adj with
  | none => s
  | some a =>
    let e := a.epoch s.time.epoch
    let fwd := (a.set.isSome || a.step.isSome) && decide (s.time.epoch.time a.ce < e.ofs)
    fset Fld.TIM_STATUS_ADJ_PENDING 0
      { s with time := { s.time with epoch := e, prev := keepEpochs s.time.cnt (s.time.epoch :: s.time.prev), adj := none },
               sys := { s.sys with statPartial := s.sys.statPartial || fwd } }

def execTimEpochStart (s : State) : Host.Outcome State Fault Refusal := .next (timEpochStart s)

/-! ### Reference and pulses -/

/-- Unit B of a pair under mirror lock takes its reference from the mirror, and REF_SEL is ignored (R66, R331). -/
def mirrorLocked (s : State) : Bool := s.sys.comm.pair && s.sys.comm.unitB && !fbit s Fld.MIR_CTRL_REF

def refSelected (s : State) : Bool := fbit s Fld.TIM_CTRL_REF_SEL && !mirrorLocked s

/-- REF10_IN is the selected source, and it is or is not valid (R331): REF_ACTIVE, REF_LOST, the source and the count. -/
def refState (s : State) : State :=
  if s.time.ref10Ok then clearCond 35 0 (fset Fld.TIM_STATUS_REF_LOST 0 (fset Fld.TIM_STATUS_REF_ACTIVE 1 s))
  else if fbit s Fld.TIM_STATUS_REF_LOST then s
  else raiseCond 35 0 0x36 0 (bump Reg.TIM_REF_LOSS_CNT (fset Fld.TIM_STATUS_REF_LOST 1 (fset Fld.TIM_STATUS_REF_ACTIVE 0 s)))

/-- The source of CK_REF is selected anew, by REF_SEL or the mirror lock (R331). -/
def selectRef (s : State) : State :=
  if refSelected s then refState s
  else clearCond 35 0 (fset Fld.TIM_STATUS_REF_LOST 0 (fset Fld.TIM_STATUS_REF_ACTIVE 0 s))

/-- R331: REF10_IN is lost. -/
def ref10Loss (s : State) : State :=
  let s := { s with time := { s.time with ref10Ok := false } }
  if refSelected s then refState s else s

def execRef10Loss (s : State) : Host.Outcome State Fault Refusal := .next (ref10Loss s)

/-- R331: after 10 s of validity CK_REF returns to REF10_IN. -/
def ref10Restore (s : State) : State :=
  let s := { s with time := { s.time with ref10Ok := true } }
  if refSelected s then refState s else s

def execRef10Restore (s : State) : Host.Outcome State Fault Refusal := .next (ref10Restore s)

def pulsedSec (l : List (Nat × Nat)) (n : Nat) : Bool := l.any (fun i => decide (i.1 ≤ n ∧ n ≤ i.2))

def addPulsed (l : List (Nat × Nat)) (n : Nat) : List (Nat × Nat) :=
  match l with
  | (a, b) :: r => if n = b + 1 ∧ a ≤ n then (a, n) :: r else (n, n) :: (a, b) :: r
  | [] => [(n, n)]

/-- The second whose boundary lies within ±4 ns of now. -/
def boundarySec (s : State) : Nat := (timeAt s s.time.cnt + 4 * 65536) / (1000000000 * 65536)

/-- R332: PPS_OUT rises at a second boundary reached by running, once per seconds value. -/
def ppsOutPulse (s : State) : State :=
  if s.sys.mode = .boot ∨ !fbit s Fld.TIM_PPS_EN ∨ pulsedSec s.time.pulsed (boundarySec s) then s
  else { s with time := { s.time with
      pulsed := addPulsed s.time.pulsed (boundarySec s),
      ppsUntil := s.time.cnt + usTicks (fget s Fld.TIM_PPS_WIDTH) } }

def execPpsOutPulse (s : State) : Host.Outcome State Fault Refusal := .next (ppsOutPulse s)

/-- The level of the pin PPS_OUT (R332). -/
def ppsOutLevel (s : State) : Bool :=
  decide (s.time.cnt < s.time.ppsUntil) && fbit s Fld.TIM_PPS_EN && s.sys.mode != .boot

/-- Servo states of TIM_STATUS.SERVO. -/
def servoFree : Nat := 0
def servoAcq : Nat := 1
def servoLocked : Nat := 2
def servoHold : Nat := 3
def servo (s : State) : Nat := fget s Fld.TIM_STATUS_SERVO

/-- R333: an edge of the selected polarity is stamped and held, or ignored when far from the expected second. -/
def ppsInEdge (falling : Bool) (s : State) : State :=
  if falling != fbit s Fld.TIM_PPS_IN_POL then s
  else
    let t := nowSplit s
    if fget s Fld.TIM_CTRL_SRC = 2 ∧ servo s = servoLocked ∧ 1000000 < t.ns ∧ t.ns < 999000000 then
      bump Reg.TIM_PPSIN_BAD_CNT s
    else setSplitRegs Reg.TIM_PPSIN_T_0 t s

def execPpsInEdge (falling : Bool) (s : State) : Host.Outcome State Fault Refusal := .next (ppsInEdge falling s)

/-! ### The servo (R334) -/

/-- Put the servo in a state; VALID is LOCKED or HOLDOVER, and TIM_HOLDOVER is raised in HOLDOVER. FREERUN counts no
measurement. -/
def setServo (n : Nat) (s : State) : State :=
  let s := if n = servoFree then { s with time := { s.time with good := 0 } } else s
  let s := fset Fld.TIM_STATUS_VALID (boolNat (n == servoLocked || n == servoHold)) (fset Fld.TIM_STATUS_SERVO n s)
  condIs (n == servoHold) 36 0 0x36 s

/-- RATE is a signed 32-bit number (R327). -/
def rate32 (r : Int) : Int := max (-(2 ^ 31 : Int)) (min (2 ^ 31 - 1) r)

/-- The servo commits unless an earlier adjustment awaits its epoch; TIM_ADJ_STAT shows which (R328, R330). -/
def servoCommit (rate step : Option Int) (s : State) : State :=
  if s.time.adj.isSome then fset Fld.TIM_ADJ_STAT_STATUS Status.busy.code s
  else fset Fld.TIM_ADJ_STAT_STATUS Status.ok.code (commitAdj (rate.map rate32) step none s)

/-- The servo's correction of an offset (R330, R334): a step where permitted and needed, else a limited RATE. -/
def servoCorrect (offset rate : Int) (s : State) : State :=
  if fget s Fld.TIM_SERVO_STEP_THR * 1000 < offset.natAbs ∧ (!inRun s ∨ fbit s Fld.TIM_SERVO_RUN_STEP) then
    servoCommit none (some (-offset * 65536)) s
  else servoCommit (some (limitRate rate (if inRun s then fget s Fld.TIM_SERVO_RUN_MAX else 1000))) none s

/-- The delayAsymmetry of the PTP port that is SLAVE, in ns (R337); none with PPS. -/
def linkAsymmetry (s : State) : Int :=
  if fget s Fld.TIM_CTRL_SRC ≠ 1 then 0
  else match (List.range 4).find? (fun n => fget s (Fld.ETH_Pn_STAT_PSTATE n) == 9) with
    | some n => roundFree (regGet s (Reg.ETH_Pn_ASYM n)).toInt 65536
    | none => 0

/-- A valid offset measurement (R334); `rate` is the correction the servo firmware computes, and `measured` the offset
before the known asymmetry of the link (log entry 7). -/
def servoMeasurement (measured rate : Int) (s : State) : State :=
  if s.sys.mode = .boot ∨ fget s Fld.TIM_CTRL_SRC = 0 then s
  else
    let offset := measured - linkAsymmetry s
    let s := regSet Reg.TIM_OFFSET_EST (wordOfInt offset) s
    let good := if offset.natAbs ≤ 100 then s.time.good + 1 else 0
    let s := { s with time := { s.time with good := good } }
    let trim := fun (s : State) =>
      servoCommit (some (if inRun s then limitRate rate (fget s Fld.TIM_SERVO_RUN_MAX) else rate)) none s
    if servo s = servoLocked then
      if 1000 < offset.natAbs then servoCorrect offset rate (setServo servoAcq s) else trim s
    else if servo s = servoAcq ∧ 16 ≤ good then trim (setServo servoLocked s)
    else servoCorrect offset rate (setServo servoAcq s)

def execServoMeasurement (offset rate : Int) (s : State) : Host.Outcome State Fault Refusal :=
  .next (servoMeasurement offset rate s)

/-- RATE × ticks of the epochs from CNT `lo` to `hi`, epochs newest first. -/
def rateSum (lo : Nat) : Nat → List Epoch → Int
  | _, [] => 0
  | hi, e :: es => e.rate * (hi - max lo (min hi e.ce) : Nat) + rateSum lo (min hi e.ce) es

/-- The mean of RATE over the last 60 s, or since CNT 0 (R334). -/
def meanRate (s : State) : Int :=
  let lo := s.time.cnt - 60 * Config.secTicks
  roundFree (rateSum lo s.time.cnt (s.time.epoch :: s.time.prev)) (max 1 (s.time.cnt - lo))

/-- The timeout of R334 in ns: 3 s with PPS, and with PTP the 3 announce intervals of 1 s of R335. -/
def servoTimeout : Nat := 3000000000

/-- No valid measurement has come for `silence` ns (R334). -/
def servoHoldover (silence : Nat) (s : State) : State :=
  if silence < servoTimeout then s
  else if servo s = servoLocked then
    let rate := meanRate s
    servoCommit (some (if inRun s then limitRate rate (fget s Fld.TIM_SERVO_RUN_MAX) else rate)) none
      (setServo servoHold { s with time := { s.time with good := 0, holdFrom := s.time.cnt } })
  else if servo s = servoAcq then setServo servoFree s
  else s

def execServoHoldover (silence : Nat) (s : State) : Host.Outcome State Fault Refusal := .next (servoHoldover silence s)

/-- R334: HOLDOVER beyond HOLD_MAX. -/
def execServoHoldMaxExpiry (s : State) : Host.Outcome State Fault Refusal :=
  .next (if servo s = servoHold then setServo servoFree s else s)

/-- R353: one comparison of the twins' corrected times, `diff` in ns. -/
def twinTimeCompare (diff : Int) (s : State) : State :=
  if !s.sys.comm.pair then s
  else
    let s := regSet Reg.TIM_TWIN_DIFF (wordOfInt diff) s
    let beyond := if 20 < diff.natAbs then s.time.twinOver + 1 else 0
    let within := if 20 < diff.natAbs then 0 else s.time.twinWithin + 1
    let s := { s with time := { s.time with twinOver := beyond, twinWithin := within } }
    if 3 ≤ beyond then
      condIs true 37 0 0x36 (fset Fld.BTN_HEALTH_TIME_DIFF 1 (fset Fld.TIM_STATUS_TWIN_ALARM 1 s))
    else if 3 ≤ within then
      clearCond 37 0 (fset Fld.BTN_HEALTH_TIME_DIFF 0 (fset Fld.TIM_STATUS_TWIN_ALARM 0 s))
    else s

def execTwinTimeCompare (diff : Int) (s : State) : Host.Outcome State Fault Refusal := .next (twinTimeCompare diff s)

end Sys2Proof.Machine
end

