-- ==== Sys2Proof/Machine/CoreOps.lean ====
section
/-! DEFINITION. The cores: registers, issue and latency (R216), exceptions (R237, R238), engine queues and completions
(R232, R233), and what a core sees of shared control memory (R223, R246). -/

namespace Sys2Proof.Machine

def core (s : State) (c : Nat) : Core := Store.get (fun _ => Core.reset) s.cores c
def setCore (c : Nat) (k : Core) (s : State) : State :=
  { s with cores := Store.set (fun _ => Core.reset) s.cores c k }

def isEventCore (c : Nat) : Bool := decide (4 ≤ c)

/-- Where a core's private memory stands among the physical addresses: apart from every map address (R468). -/
def localBase (c : Nat) : Nat := 2 ^ 40 + c * 2 ^ 20

/-! ### Registers (R210, R211) -/

def Core.getS (k : Core) (i : Nat) : Word := if i = 0 then 0 else Store.get (fun _ => 0) k.s i
/-- S0 discards what is written to it. -/
def Core.setS (k : Core) (i : Nat) (w : Word) : Core := if i = 0 then k else { k with s := Store.set (fun _ => 0) k.s i w }

def Core.getV (k : Core) (i j : Nat) : Word := Store.get (fun _ => 0) k.v (16 * i + j)
def Core.setV (k : Core) (i j : Nat) (w : Word) : Core := { k with v := Store.set (fun _ => 0) k.v (16 * i + j) w }

/-- P0 is always 0xFFFF. -/
def Core.getP (k : Core) (i : Nat) : BitVec 16 := if i = 0 then 0xFFFF else Store.get (fun _ => 0) k.p i
def Core.setP (k : Core) (i : Nat) (w : BitVec 16) : Core := { k with p := Store.set (fun _ => 0) k.p i w }

def Core.orFlags (k : Core) (f : Word) : Core := { k with fpsr := k.fpsr ||| f }

/-- The lanes that predicate `pp` makes active (R226). -/
def Core.active (k : Core) (pp j : Nat) : Bool := (k.getP pp).getLsbD j

/-! ### Clocks -/

/-- The clock of R216 at the present instant, seen from a cycle core's entry: 1 ns each (R210). -/
def clockNow (s : State) : Nat := (s.time.cnt - s.esc.tk) * 2

/-- BUDGET at T_k, in clocks of 1 ns (R249): T_{k+1} − T_k − t_cut. -/
def budgetLoad (s : State) : Nat := 2 * s.esc.wlen - 2 * Config.cutTicks

/-- Ticks since T_k at clock `t` of a core (R213): from the core's clock on a cycle core. -/
def toffAt (c t : Nat) (s : State) : Nat := if isEventCore c then s.time.cnt - s.esc.tk else t / 2

/-- CNT at clock `t` of a core. -/
def cntAt (c t : Nat) (s : State) : Nat := if isEventCore c then s.time.cnt else s.esc.tk + t / 2

/-! ### Entry (R212) -/

def coreImage (s : State) (c : Nat) : CoreImage := s.sys.prog.cores.getD c ⟨none, [], [], 16, 0⟩

def clampTmo (w : Word) : Word := if w.toNat < 16 then 16 else if 65535 < w.toNat then 65535 else w

/-- The state of R212 at the entry vector. The exception registers and the cache are kept; the RS latches are cleared. -/
def Core.enter (k : Core) (img : CoreImage) (run : CoreRun) : Core :=
  { k with
    run := run, s := [], v := [], p := [], pc := BitVec.ofNat 32 (img.entry.getD 0), fpsr := 0,
    engTmo := clampTmo img.engTmo, engDbase := img.engDbase &&& 0xFFFFFFF0, timeSlo := 0, timeShi := 0, issued := 0,
    next := 4, ready := [], lastStore := none }

/-- Forget a core's RS latches (R212). -/
def clearLatches (c : Nat) (s : State) : State :=
  { s with latches := s.latches.filter (fun e => e.1 / 2 ^ 40 != c) }

/-- Enter core `c` (R212); a cycle core whose entry vector is absent ends its cycle at once (R243). An event core's
entry vector is entry 4 + c of the image (log entry 13). -/
def enterCore (c : Nat) (s : State) : State :=
  let img := coreImage s c
  let run : CoreRun := if img.entry.isNone && !isEventCore c then .ended else .running
  clearLatches c (setCore c ((core s c).enter img run) s)

/-! ### Exceptions (R237, R238) -/

def Exc.illegal : Nat := 1
def Exc.align : Nat := 2
def Exc.access : Nat := 3
def Exc.ecc : Nat := 4
def Exc.barrier : Nat := 5
def Exc.trap : Nat := 6
def Exc.pc : Nat := 7

/-- Access codes of R409. -/
def Acc.none : Nat := 0
def Acc.load : Nat := 1
def Acc.store : Nat := 2
def Acc.fetch : Nat := 3
def Acc.dmaRead : Nat := 4
def Acc.dmaWrite : Nat := 5
def Acc.engineRead : Nat := 6
def Acc.engineWrite : Nat := 7
def Acc.link : Nat := 8
def Acc.regRead : Nat := 9
def Acc.regWrite : Nat := 10

/-- The 40-bit physical address that CORE_EXC reports (R238, R470). -/
def excAddr (s : State) (c access ea : Nat) : Nat :=
  if isEventCore c && (access == Acc.load || access == Acc.store) && inDramWindow ea 1 then windowPhys s (c - 4) ea
  else ea

/-- R238: take an exception at instruction address `pc`. A cycle core stops; an event core completes its event with
CHECK_FAIL and restarts at its entry vector. -/
def exception (c cause : Nat) (pc eaddr : Word) (access : Nat) (s : State) : State :=
  let k := core s c
  let s := setCore c { k with
      epc := pc, ecause := BitVec.ofNat 32 cause, eaddr := eaddr, ecycle := cycleNo s,
      ecount := if k.ecount = 0xFFFFFFFF then k.ecount else k.ecount + 1 } s
  let s := occur (detect 11 (excAddr s c access eaddr.toNat) c access) s
  if isEventCore c then enterCore c (completeEvent (c - 4) .checkFail s)
  else setCore c { core s c with run := .stopped } s

/-- What an instruction comes to once issued: its effect, or an exception with what was completed before it. -/
inductive Eff where
  | ok (s : State)
  | exc (cause : Nat) (eaddr : Word) (access : Nat) (s : State)

/-! ### Issue (R216 to R219) -/

/-- The registers an instruction reads and writes, its issue cost and latency, and whether its encoding is legal. Keys:
S i: i, V i: 32 + i, P i: 48 + i, special register n: 64 + n. S0 and P0 never wait. -/
structure Use where
  srcs : List Nat
  dst : Option Nat
  cost : Nat
  lat : Nat
  legal : Bool
  deriving DecidableEq, Repr

def Use.dstKeys (u : Use) : List Nat := match u.dst with | some d => [d] | none => []

/-- The clock at which an instruction issues (R216). -/
def Core.issueClock (k : Core) (u : Use) : Nat :=
  (u.srcs ++ u.dstKeys).foldl (fun t r => max t (Store.get (fun _ => 0) k.ready r)) k.next

/-- The core after the issue at clock `t`, but for the result. -/
def Core.issue (k : Core) (u : Use) (t : Nat) : Core :=
  { k with
    issued := t, next := t + u.cost, pc := k.pc + 4,
    ready := match u.dst with
      | some d => if d = 0 then k.ready else Store.set (fun _ => 0) k.ready d (t + u.lat)
      | none => k.ready }

/-- The word at `pc` can be fetched: the code scratchpad, or an event core's local memory (R225, log entry 14). -/
def codeAddr (c : Nat) (pc : Word) : Bool :=
  pc.toNat % 4 == 0 && decide (pc.toNat < if isEventCore c then 0x10000 else 0x20000)

/-- ECC key of a word by its physical address (R411): the fault collector's marks. -/
def spmKey (c a : Nat) : Nat := (localBase c + a) / 4

/-- The ECC source of a core's private memory. -/
def spmSource (c : Nat) : Nat := if isEventCore c then 9 else 6

/-- A core issues an instruction: the exceptions of fetch and encoding, and the instruction's own effect at its issue
clock. An instruction of a core that is not issuing, or past its cutoff (R219), does not come about. -/
def fci (c : Nat) (u : Use) (act : Nat → State → Eff) (s : State) : State :=
  let k := core s c
  let t := k.issueClock u
  if k.run ≠ .running ∨ (¬isEventCore c ∧ budgetLoad s ≤ t) then s
  else if !codeAddr c k.pc then exception c Exc.pc k.pc k.pc Acc.fetch s
  else
    let (bad, s) := eccLoad (spmKey c k.pc.toNat) (spmSource c) k.pc.toNat c Acc.fetch s
    if bad then exception c Exc.ecc k.pc k.pc Acc.fetch s
    else if !u.legal then exception c Exc.illegal k.pc 0 Acc.none s
    else match act t (setCore c ((core s c).issue u t) s) with
    | .ok s' => s'
    | .exc cause ea acc s' => exception c cause k.pc ea acc s'

/-- An instruction that only computes on its core's registers. -/
def fciReg (c : Nat) (u : Use) (f : Core → Core) (s : State) : State :=
  fci c u (fun _ s => .ok (setCore c (f (core s c)) s)) s

/-! ### Engine queues and descriptors (R232 to R234) -/

/-- The queue of an engine: by class and index; DMA channels and time engines are one per core. -/
def engKey (cls idx core : Nat) : Nat := if cls = 2 ∨ cls = 3 then cls * 16 + core else cls * 16 + idx

def engQueue (s : State) (k : Nat) : List EngOp := Store.get (fun _ => []) s.eng k
def setEngQueue (k : Nat) (l : List EngOp) (s : State) : State :=
  { s with eng := Store.set (fun _ => []) s.eng k l }

/-- Where a descriptor of a class holds its STATUS byte (R133, R200, R232). -/
def statusOffset (cls : Nat) : Nat := if cls = 1 then 12 else 0

/-- A waiting core goes on now (R233): its next instruction issues 2 clocks later on a cycle core, and after a time that
R242 does not bound on an event core. -/
def wake (c : Nat) (s : State) : State :=
  let k := core s c
  if isEventCore c then
    let (f, s) := drawFree s
    setCore c { k with run := .running, next := k.next + f.toNat } s
  else setCore c { k with run := .running, next := max k.issued (clockNow s) + 2 } s

/-- Write a completion status (R232), and end every ENG.WAIT on that descriptor (R233). -/
def complete (cls desc : Nat) (st : Status) (s : State) : State :=
  let s := eccStore 3 0 ((desc + statusOffset cls) / 4) s
  let s := memWriteBytes (desc + statusOffset cls) [BitVec.ofNat 8 st.code] s
  (List.range 8).foldl (fun s c =>
    let k := core s c
    if k.run = .engWait (desc + statusOffset cls) then
      wake c (setCore c { k with engStatus := BitVec.ofNat 32 st.code } s)
    else s) s

/-- The first operation of a queue that has not started. -/
def firstNew (s : State) (k : Nat) : Option EngOp := (engQueue s k).find? (fun o => !o.started)

def dropOp (k : Nat) (o : EngOp) (s : State) : State := setEngQueue k ((engQueue s k).erase o) s

/-- An operation leaves its queue with a status. -/
def finishOp (k cls : Nat) (o : EngOp) (st : Status) (s : State) : State := complete cls o.desc st (dropOp k o s)

/-- What a loop engine writes into its descriptor at completion beside STATUS: CYCLE and LSTAT (R200). -/
def loopResult (e desc : Nat) (s : State) : State :=
  putBytes (desc + 8) (wordBytes (cycleNo s) ++ wordBytes (regGet s (Reg.LOOP_STATUS e))) s

/-- The operations that the queue of a class holds: 4 of a loop engine (R202), 2 of a DMA channel (R235). -/
def queueCap (cls : Nat) : Option Nat := match cls with | 0 => some 4 | 2 => some 2 | _ => none

/-- Queue an operation: those issued in one clock stand in ascending core number (R202, R234). -/
def insertOp (o : EngOp) : List EngOp → List EngOp
  | [] => [o]
  | x :: l =>
    if x.started = false ∧ x.at_ = o.at_ ∧ o.core < x.core then o :: x :: l else x :: insertOp o l

/-- An operation that finds its queue full completes at once with BUSY (R200, R202, R235). -/
def turnAway (cls idx : Nat) (o : EngOp) (s : State) : State :=
  if cls = 0 then complete 0 o.desc .busy (loopResult idx o.desc (bump (Reg.LOOP_BUSY_CNT idx) s))
  else complete cls o.desc .busy (putWord (o.desc + 12) (cycleNo s) s)

/-! ### Shared control memory as a core or an engine sees it (R223, R246) -/

/-- Absolute time of a core's clock, in ns. -/
def absNs (t : Nat) (s : State) : Nat := 2 * s.esc.tk + t

/-- Choose among the contents that a word may still show: a store of another core not yet visible leaves it open whether
its old contents appear (log entry 8). -/
def seenWord (c now : Nat) : List RecentStore → Word → State → Word × State
  | [], w, s => (w, s)
  | r :: rs, w, s =>
    if r.may.testBit c && decide (now < r.until_) then
      let (f, s) := drawFree s
      if f.getLsbD 0 then (r.old, s) else seenWord c now rs w s
    else seenWord c now rs w s

/-- The word at map address `a` of shared control memory as core `c` sees it at absolute time `now`. -/
def scmSeen (c now a : Nat) (s : State) : Word × State :=
  seenWord c now (s.recent.filter (fun r => r.addr == a / 4 * 4)) (memReadWord s (a / 4 * 4)) s

/-- The word `w` with bytes `bs` stored from its byte `o` on. -/
def patchWord (w : Word) (o : Nat) (bs : List Byte) : Word :=
  let l := wordBytes w
  BitVec.ofNat 32 (bytesNat ((l.take o ++ bs ++ l.drop (o + bs.length)).take 4))

/-- Core `c` stores `bs` within the word of `r`: what it may see of an older store is that word with its own bytes in it
(R223). -/
def RecentStore.over (c a : Nat) (bs : List Byte) (r : RecentStore) : List RecentStore :=
  if r.addr = a / 4 * 4 ∧ r.may.testBit c = true then
    [{ r with may := setBit r.may c false }, { r with may := 2 ^ c, old := patchWord r.old (a % 4) bs }]
  else [r]

/-- A cycle core stores bytes within a word of shared control memory; every other cycle core sees them at `vis` at the
latest, and it sees its own stores at once (R223). -/
def noteStore (c now a : Nat) (bs : List Byte) (vis : Nat) (s : State) : State :=
  { s with recent := (s.recent.filter (fun r => decide (now < r.until_))).flatMap (RecentStore.over c a bs) ++
      [⟨setBit 15 c false, a / 4 * 4, memReadWord s (a / 4 * 4), vis⟩] }

/-- A word of a descriptor as an engine reads it now for the core that issued the operation (R246). A word with an
uncorrectable error is a free value (log entry 8). -/
def engWord (o : EngOp) (i : Nat) (s : State) : Word × State :=
  let a := o.desc + 4 * i
  let (bad, s) := eccLoad (a / 4) 7 a 0x3F Acc.engineRead s
  if bad then drawFree s
  else if isEventCore o.core then (memReadWord s a, s)
  else scmSeen o.core (max (2 * s.time.cnt) o.at_) a s

/-- The first `n` words of a descriptor. -/
def engWords (o : EngOp) : Nat → State → List Word × State
  | 0, s => ([], s)
  | n + 1, s =>
    let (ws, s) := engWords o n s
    let (w, s) := engWord o n s
    (ws ++ [w], s)

end Sys2Proof.Machine
end

