-- ==== Sys2Proof/Machine/Frames.lean ====
section
/-! DEFINITION. What travels on a chain lane (R91 to R98, R122): frame headers, slots, command and report words, service
segments. -/

namespace Sys2Proof.Machine

/-- The `n` bytes of a number, least significant first (R3). -/
def leBytes : Nat → Nat → List Byte
  | 0, _ => []
  | n + 1, v => BitVec.ofNat 8 v :: leBytes n (v / 256)

/-- The number that `n` bytes at offset `o` spell. -/
def leNat (bs : List Byte) (o n : Nat) : Nat := bytesNat ((bs.drop o).take n)

/-- Bits `hi` to `lo` of a number. -/
def bitsOf (v hi lo : Nat) : Nat := v / 2 ^ lo % 2 ^ (hi - lo + 1)

/-! ### Headers (R92, R93) -/

def Frame.cycle : Nat := 1
def Frame.probe : Nat := 2
def Frame.echo : Nat := 3

/-- The header of a frame, its reserved fields and HCRC apart. -/
structure Header where
  role : Nat
  unitB : Bool
  west : Bool
  type : Nat
  nslot : Nat
  hops : Nat
  blockw : Byte
  epoch : Word
  cycle : Word
  ns : Nat
  sec : Nat
  apply : Nat
  wlen : Nat
  lead : Nat
  tf : Nat
  tr : Nat
  range : Word
  deriving DecidableEq, Repr

/-- Bytes 0 to 35 of a header. -/
def Header.body (h : Header) : List Byte :=
  [BitVec.ofNat 8 (h.role % 4 * 64 + boolNat h.unitB * 32 + boolNat h.west * 16 + h.type % 16),
   BitVec.ofNat 8 (h.nslot % 128), BitVec.ofNat 8 (h.hops % 128), h.blockw] ++
    wordBytes h.epoch ++ wordBytes h.cycle ++ leBytes 4 h.ns ++ leBytes 6 h.sec ++
    leBytes 4 (h.apply % 2 ^ 15 * 2 ^ 15 + h.wlen % 2 ^ 15) ++ leBytes 2 (h.lead % 2 ^ 12) ++ leBytes 2 h.tf ++
    leBytes 2 h.tr ++ wordBytes h.range

/-- A header as transmitted, with HCRC (R97). -/
def Header.bytes (h : Header) : List Byte := h.body ++ wordBytes (crc32 h.body)

/-- Read a header; none if the frame ends inside it. -/
def readHeader (bs : List Byte) : Option Header :=
  if bs.length < 40 then none
  else
    let b0 := leNat bs 0 1
    let w := leNat bs 22 4
    some { role := bitsOf b0 7 6, unitB := b0.testBit 5, west := b0.testBit 4, type := bitsOf b0 3 0,
           nslot := leNat bs 1 1 % 128, hops := leNat bs 2 1 % 128, blockw := bs.getD 3 0,
           epoch := BitVec.ofNat 32 (leNat bs 4 4), cycle := BitVec.ofNat 32 (leNat bs 8 4), ns := leNat bs 12 4,
           sec := leNat bs 16 6, apply := bitsOf w 29 15, wlen := bitsOf w 14 0, lead := leNat bs 26 2 % 2 ^ 12,
           tf := leNat bs 28 2, tr := leNat bs 30 2, range := BitVec.ofNat 32 (leNat bs 32 4) }

def hcrcOk (bs : List Byte) : Bool := (crc32 (bs.take 36)).toNat == leNat bs 36 4

/-- The bytes of a frame as received: any character but data ends it, and the rest is discarded (R89). -/
def linkBytes : List LinkChar → List Byte
  | .data b :: r => b :: linkBytes r
  | _ => []

/-- The code and disparity violations in a frame. -/
def linkViolations (f : List LinkChar) : Nat := (f.filter (· == .violation)).length

/-- The frame check over `n` slots (R97). -/
def fcrcOf (slots : List Byte) : Word := if slots.isEmpty then 0 else crc32 slots

/-- FCRC has arrived whole; and it is right. -/
def fcrcThere (bs : List Byte) (n : Nat) : Bool := decide (44 + 16 * n ≤ bs.length)
def fcrcOk (bs : List Byte) (n : Nat) : Bool :=
  fcrcThere bs n && (fcrcOf ((bs.drop 40).take (16 * n))).toNat == leNat bs (40 + 16 * n) 4

/-! ### Slots (R94 to R98, R114) -/

/-- A word of bits [63:8] with its slot CRC-8. -/
def withCrc8 (v : Nat) : DWord :=
  let b := v / 256 % 2 ^ 56
  BitVec.ofNat 64 (b * 256 + (crc8 (leBytes 7 b)).toNat)

def crc8Ok (w : DWord) : Bool := (crc8 (leBytes 7 (w.toNat / 256))).toNat == w.toNat % 256

/-- A report that no cell has written (R94). -/
def noReport : DWord := BitVec.ofNat 64 (255 - (crc8 (leBytes 7 0)).toNat)

/-- The command word (R95). -/
def cmdWord (s0 s1 s2 e1 e2 aux : Nat) (rly act : Bool) : DWord :=
  withCrc8 (s0 % 8 * 2 ^ 61 + s1 % 8 * 2 ^ 58 + s2 % 8 * 2 ^ 55 + e1 % 2 ^ 15 * 2 ^ 40 + e2 % 2 ^ 15 * 2 ^ 25 +
    aux % 32 * 2 ^ 20 + boolNat rly * 2 ^ 19 + boolNat act * 2 ^ 18)

/-- E1 or E2 of an absent edge. -/
def noEdge : Nat := 0x7FFF

/-- The word of a wheel's command (R150): at most one edge, E2 absent, S2 = S1. -/
def CellCmd.word (c : CellCmd) (act : Bool) : DWord :=
  match c.e1 with
  | none => cmdWord c.s0 c.s0 c.s0 noEdge noEdge 0 false act
  | some e => cmdWord c.s0 c.s1 c.s1 e noEdge 0 false act

/-- BLOCK, and the bypass form of R100. -/
def blockWord (act : Bool) : DWord := (CellCmd.hold St.block).word act
def bypassWord (act : Bool) : DWord := cmdWord St.bypassClose St.bypassClose St.bypassClose noEdge noEdge 0x16 false act

/-- A command word with RLY and ACT set as given, the rest kept. -/
def reflag (w : DWord) (rly act : Bool) : DWord :=
  withCrc8 (w.toNat / 2 ^ 20 * 2 ^ 20 + boolNat rly * 2 ^ 19 + boolNat act * 2 ^ 18)

/-- Bits of a report or command word. -/
def dbits (w : DWord) (hi lo : Nat) : Nat := bitsOf w.toNat hi lo

def rptVcap (w : DWord) : Nat := dbits w 63 48
def rptFault (w : DWord) : Bool := w.getLsbD 39
def rptBypassed (w : DWord) : Bool := w.getLsbD 38
def rptDup (w : DWord) : Bool := w.getLsbD 36
def rptStale (w : DWord) : Bool := w.getLsbD 34
def rptFresh (w : DWord) : Bool := w.getLsbD 33
def rptFb (w : DWord) : Bool := w.getLsbD 32
def rptEpochLow (w : DWord) : Bool := w.getLsbD 25
def rptProto (w : DWord) : Bool := w.getLsbD 24
def rptAlarm (w : DWord) : Nat := dbits w 23 16
def rptAge (w : DWord) : Nat := dbits w 15 8

/-- Slot `j` of a frame: its command and its report; none if the frame ends before the slot does. -/
def slotOf (bs : List Byte) (j : Nat) : Option (DWord × DWord) :=
  if 56 + 16 * j ≤ bs.length then
    some (BitVec.ofNat 64 (leNat bs (40 + 16 * j) 8), BitVec.ofNat 64 (leNat bs (48 + 16 * j) 8))
  else none

/-- The bytes of a slot as launched (R94). -/
def slotBytes (cmd : DWord) : List Byte := leBytes 8 cmd.toNat ++ leBytes 8 noReport.toNat

/-! ### Service segments (R122) -/

/-- A segment: KIND 1 REQUEST or 2 RESPONSE. -/
structure Segment where
  kind : Nat
  pos : Nat
  seq : Nat
  op : Nat
  payload : List Byte
  deriving DecidableEq, Repr

def Segment.body (g : Segment) : List Byte :=
  [BitVec.ofNat 8 (g.kind % 4 * 64 + g.pos % 64), BitVec.ofNat 8 g.seq, BitVec.ofNat 8 g.payload.length,
   BitVec.ofNat 8 g.op] ++ (g.payload ++ List.replicate 56 0).take 56

def Segment.bytes (g : Segment) : List Byte := g.body ++ wordBytes (crc32 g.body)

def emptySegment : List Byte := Segment.bytes ⟨0, 0, 0, 0, []⟩

/-- Segment `i` of the tail behind `n` slots, if it arrived whole with a right SCRC. -/
def segmentOf (bs : List Byte) (n i : Nat) : Option Segment :=
  let g := (bs.drop (44 + 16 * n + 64 * i)).take 64
  if g.length = 64 ∧ (crc32 (g.take 60)).toNat = leNat g 60 4 then
    some ⟨bitsOf (leNat g 0 1) 7 6, leNat g 0 1 % 64, leNat g 1 1, leNat g 3 1, (g.drop 4).take (min 56 (leNat g 2 1))⟩
  else none

/-- Service operations (R123). -/
def Svc.readId : Nat := 0x01
def Svc.writePhi : Nat := 0x02
def Svc.writeParam : Nat := 0x04
def Svc.segEcho : Nat := 0x06
def Svc.stopFold : Nat := 0x07

end Sys2Proof.Machine
end

