-- ==== Sys2Proof/Machine/Wheel.lean ====
section
/-! DEFINITION. Balance wheels: pool, bypass, references, speculative planning, confirmation and latch (05_balance_wheels.md,
06_speculative_planning.md). -/

namespace Sys2Proof.Machine

def cell (s : State) (i : Nat) : Cell := Store.get (fun _ => Cell.reset) s.cells i
def setCell (i : Nat) (x : Cell) (s : State) : State :=
  { s with cells := Store.set (fun _ => Cell.reset) s.cells i x }
def wheel (s : State) (w : Nat) : Wheel := Store.get (fun _ => Wheel.reset) s.wheels w
def setWheel (w : Nat) (x : Wheel) (s : State) : State :=
  { s with wheels := Store.set (fun _ => Wheel.reset) s.wheels w x }

/-! ### The map (R63, R64, R132) -/

def mapOf (s : State) (slot : Nat) : Option CellMap := s.sys.comm.cells.find? (fun m => m.slot == slot)
def mapAt (s : State) (chain posE : Nat) : Option CellMap :=
  s.sys.comm.cells.find? (fun m => m.chain == chain && m.posE == posE)
def chainOf (s : State) (num : Nat) : Option ChainMap := s.sys.comm.chains.find? (fun c => c.num == num)

/-- A pair has one port of this unit for a chain, SOLO two; `west` says which end is meant. -/
def endPort (ch : ChainMap) (west : Bool) : Nat := if west then ch.portW else ch.portE

/-- The ends of a chain that land on this unit. -/
def ownEnds (s : State) : List Bool :=
  if s.sys.comm.pair then [s.sys.comm.unitB] else [false, true]

/-- Position counted from an end (R64). -/
def posFrom (n posE : Nat) (west : Bool) : Nat := if west then n - 1 - posE else posE

/-- Outcome codes of RING_CELL (R77). -/
def Outcome.absent : Nat := 0
def Outcome.matched : Nat := 1
def Outcome.foreign : Nat := 2
def Outcome.unmapped : Nat := 3

/-- Port states of RING_PSTAT. -/
def PState.disabled : Nat := 0
def PState.dark : Nat := 1
def PState.discovering : Nat := 2
def PState.inService : Nat := 3
def PState.folded : Nat := 4
def PState.healing : Nat := 5
def PState.out : Nat := 6

def portState (s : State) (p : Nat) : Nat := fget s (Fld.RING_PSTAT_STATE p)

/-- The outcome of a mapped position, as this unit's port shows it. -/
def outcomeOf (s : State) (m : CellMap) : Nat :=
  match chainOf s m.chain with
  | none => Outcome.absent
  | some ch =>
    let e := (ownEnds s).headD false
    fget s (Fld.RING_CELL_OUTCOME (endPort ch e) (posFrom ch.n m.posE e))

def chainIsOut (s : State) (num : Nat) : Bool :=
  match chainOf s num with
  | none => false
  | some ch => (ownEnds s).any (fun e => portState s (endPort ch e) == PState.out)

def wheelOn (s : State) (w : Nat) : Bool := fbit s (Fld.WHL_CFG_EN w)

/-- The slots of a wheel, ascending; there are 4,096 slots. -/
def wheelSlots (s : State) (w : Nat) : List Nat :=
  ((List.range (fget s (Fld.WHL_SLOTS_COUNT w))).map (fun i => fget s (Fld.WHL_SLOTS_FIRST w) + i)).filter
    (fun i => decide (i < 4096))

/-- The wheels in use, and the rounds of their rota (R47). -/
def wheelsOn (s : State) : List Nat := (List.range 12).filter (wheelOn s)
def rounds (s : State) : Nat := ((wheelsOn s).length + 3) / 4

/-- The wheel in use whose range holds a slot. -/
def wheelOf (s : State) (slot : Nat) : Option Nat :=
  (wheelsOn s).find? (fun w => decide (fget s (Fld.WHL_SLOTS_FIRST w) ≤ slot ∧
    slot < fget s (Fld.WHL_SLOTS_FIRST w) + fget s (Fld.WHL_SLOTS_COUNT w)))

/-! ### The pool (R136 to R141) -/

def Pool.available : Nat := 0
def Pool.missing : Nat := 1
def Pool.fault : Nat := 2
def Pool.fresh : Nat := 3
def Pool.kind : Nat := 4
def Pool.withdrawn : Nat := 5
def Pool.bypassing : Nat := 6
def Pool.bypassed : Nat := 7
def Pool.foreign : Nat := 8
def Pool.absent : Nat := 9
def Pool.held : Nat := 10
def Pool.chainOut : Nat := 11

/-- The last report of a cell with a correct slot CRC-8. -/
def Cell.lastRpt (x : Cell) : DWord := x.late.getD x.rpt

def kindBad (s : State) (slot : Nat) (x : Cell) : Bool := x.seen && rptFb x.rpt != fbit s (Fld.WHL_ATTR_FB slot)

/-- The pool code of a slot on the reports present (R136); HELD exists only in RUN (R450). -/
def poolCode (s : State) (slot : Nat) : Nat :=
  let x := cell s slot
  match mapOf s slot with
  | none => Pool.absent
  | some m =>
    if chainIsOut s m.chain then Pool.chainOut
    else if outcomeOf s m = Outcome.foreign then Pool.foreign
    else if outcomeOf s m ≠ Outcome.matched then Pool.absent
    else if x.withdrawn then Pool.withdrawn
    else if x.bypassed then Pool.bypassed
    else if x.byp.isSome then Pool.bypassing
    else if x.faulted then Pool.fault
    else if kindBad s slot x then Pool.kind
    else if rptFresh x.rpt then Pool.fresh
    else if !x.here || x.late.isSome then Pool.missing
    else if x.held && inRun s then Pool.held
    else Pool.available

/-- The pool code of the last committed plan. -/
def lastPool (s : State) (slot : Nat) : Nat := fget s (Fld.WHL_CSTATE_POOL slot)
def lastFinal (s : State) (slot : Nat) : Nat := fget s (Fld.WHL_CSTATE_FINAL slot)

/-- A cell that the selection may use: available, or held in a deblock (R142, R156). -/
def usable (code : Nat) : Bool := code == Pool.available || code == Pool.held

/-- A cell of the arm is BYPASSED or BYPASSING. -/
def bypassCount (s : State) (w : Nat) : Nat :=
  ((wheelSlots s w).filter (fun i => (cell s i).bypassed || (cell s i).byp.isSome)).length

/-- Alarm codes that start a sequence under ON_FATAL (R140). -/
def fatalAlarm (a : Nat) : Bool := (decide (0x80 ≤ a) && decide (a ≤ 0x84)) || decide (0xC0 ≤ a)

/-- A bypass sequence starts for a cell (R140). -/
def startBypass (w slot : Nat) (s : State) : State :=
  bump (Reg.WHL_BYP_CNT w) (setCell slot { cell s slot with byp := some 0, bypFailed := false } s)

/-- Start a sequence for a cell with a fatal alarm under ON_FATAL, while BYP_MAX allows it; one that has failed is not
repeated without a command (R141). -/
def fatalBypass (w slot : Nat) (s : State) : State :=
  let x := cell s slot
  if inRun s && fget s (Fld.WHL_BYP_POLICY w) == 1 && fatalAlarm (rptAlarm x.rpt) && !x.bypassed && x.byp.isNone && !x.bypFailed &&
      decide (bypassCount s w < fget s (Fld.WHL_BYP_BYP_MAX w)) then startBypass w slot s
  else s

/-- R141: a sequence fails: the cell takes code FAULT. -/
def bypassFail (w slot : Nat) (s : State) : State :=
  occur (detect 23 slot (0x18 + w) 0)
    (bump (Reg.WHL_BYPFAIL_CNT w) (setCell slot { cell s slot with byp := none, faulted := true, bypFailed := true } s))

/-- What a valid report tells of its cell: FAULT, BYPASSED, kind, and the outcome of a sequence that waits (R136, R141). -/
def noteReport (slot : Nat) (r : DWord) (s : State) : State :=
  let x := cell s slot
  let a := rptAlarm r
  let s := setCell slot { x with faulted := x.faulted || rptFault r, bypassed := x.bypassed || rptBypassed r } s
  match wheelOf s slot with
  | none => s
  | some w =>
    let s := condIs (kindBad s slot x) 22 slot (0x18 + w) s
    match x.byp with
    | none => fatalBypass w slot s
    | some n =>
      if rptBypassed r || a == 0x85 then
        setCell slot { cell s slot with byp := none, bypassed := true } s
      else if 2 ≤ n ∧ a = 0x86 then bypassFail w slot s
      else s

/-- R116, R385: a change of ALARM is an event of its cell. -/
def alarmEvent (slot port pos old new : Nat) (s : State) : State :=
  if old = new then s
  else post (mkEvent s 1 slot (srcFlow s 1 slot) (srcClass s 1 (decide (0x80 ≤ new)))
    (BitVec.ofNat 32 (slot * 65536 + pos * 256 + port)) (BitVec.ofNat 32 (old * 256 + new)) (cycleNo s)) s

/-- What every valid report shows, a second one of its cycle too: the counters of its bits, and a change of ALARM (R116). -/
def seeReport (slot : Nat) (r : DWord) (port pos : Nat) (s : State) : State :=
  let s := if rptDup r then bump Reg.RING_DUP_CNT s else s
  let s := if rptProto r then bump Reg.RING_PROTO_CNT s else s
  let s := if rptEpochLow r then bump Reg.RING_EPOCH_LOW_CNT s else s
  let x := cell s slot
  alarmEvent slot port pos x.alarm (rptAlarm r) (setCell slot { x with alarm := rptAlarm r } s)

/-- A report with a right slot CRC-8 that arrived before the cutoff of its cycle reaches its slot (R82, R136, R165, R472):
the first one of the cycle is taken. -/
def deliver (slot : Nat) (r : DWord) (arrival port pos : Nat) (west mirrored : Bool) (s : State) : State :=
  let late := s.esc.cutDone || (match wheelOf s slot with | some w => (wheel s w).conf | none => false)
  let s := seeReport slot r port pos s
  let x := cell s slot
  if x.here then (if late then s else noteReport slot r s)
  else
    let x' := { x with
      here := true, arrival := arrival, mirrored := mirrored, west := west, port := port, pos := pos }
    let s := setCell slot (if late then { x' with late := some r } else { x' with rpt := r, seen := true }) s
    if late then s else noteReport slot r s

/-- A report that came too late for the plan of its cycle counts from the next cycle on (R165). -/
def takeLate (slot : Nat) (s : State) : State :=
  match (cell s slot).late with
  | none => s
  | some r => noteReport slot r (setCell slot { cell s slot with rpt := r, seen := true, late := none } s)

/-! ### Cell commands -/

/-- The status of a command on WHL_CELL_CTRL, shown in WHL_CELL_STAT; a refusal is logged by R458. -/
def cellCommand (w slot : Nat) (o : Origin) (checks : List (Bool × Status)) (act : State → State) (s : State) :
    State × Status :=
  let (s, st) := checkWrite (Reg.WHL_CELL_CTRL w) o checks act s
  (fset (Fld.WHL_CELL_STAT_SLOT w) slot (fset (Fld.WHL_CELL_STAT_STATUS w) st.code s), st)

def inRange (s : State) (w slot : Nat) : Bool := (wheelSlots s w).contains slot

/-- R136: WITHDRAW. -/
def whlWithdraw (o : Origin) (w slot : Nat) (s : State) : State × Status :=
  cellCommand w slot o [(roleOrCore .operator o, .notPermitted), (s.sys.role != .standby, .notHolder),
     (s.sys.mode != .boot, .illegalInMode),
    (inRange s w slot, .badParam)] (fun s => setCell slot { cell s slot with withdrawn := true } s) s

/-- R137: RETURN. -/
def whlReturn (o : Origin) (w slot : Nat) (s : State) : State × Status :=
  let x := cell s slot
  cellCommand w slot o [(roleOrCore .operator o, .notPermitted), (s.sys.role != .standby, .notHolder),
     (s.sys.mode != .boot, .illegalInMode),
    (inRange s w slot, .badParam),
    (!x.bypassed && !rptFault x.lastRpt && !rptFresh x.lastRpt && !rptBypassed x.lastRpt, .checkFail)]
    (fun s => setCell slot { x with withdrawn := false, faulted := false, bypFailed := false } s) s

/-- R140: BYPASS, in the engineer role, in RUN only; refused for a cell that is BYPASSED or BYPASSING (log entry 141). -/
def whlBypass (o : Origin) (w slot : Nat) (s : State) : State × Status :=
  let x := cell s slot
  cellCommand w slot o [(roleAtLeast .engineer o, .notPermitted), (s.sys.role != .standby, .notHolder),
     (inRun s, .illegalInMode), (inRange s w slot, .badParam),
    (!x.bypassed && x.byp.isNone, .checkFail)] (startBypass w slot) s

def execWhlWithdraw (o : Origin) (w : Fin 12) (slot : Fin 4096) (s : State) : Host.Outcome State Fault Refusal :=
  .next (whlWithdraw o w.val slot.val s).1
def execWhlReturn (o : Origin) (w : Fin 12) (slot : Fin 4096) (s : State) : Host.Outcome State Fault Refusal :=
  .next (whlReturn o w.val slot.val s).1
def execWhlBypass (o : Origin) (w : Fin 12) (slot : Fin 4096) (s : State) : Host.Outcome State Fault Refusal :=
  .next (whlBypass o w.val slot.val s).1

/-- R141: the wait of a sequence ends without a report that shows the closure. -/
def bypassConfirmTimeout (slot : Nat) (s : State) : State :=
  match (cell s slot).byp, wheelOf s slot with
  | some n, some w => if 10 ≤ n then bypassFail w slot s else s
  | _, _ => s

def execBypassConfirmTimeout (slot : Fin 4096) (s : State) : Host.Outcome State Fault Refusal :=
  .next (bypassConfirmTimeout slot.val s)

/-! ### The reference point (R51 to R54, R163) -/

/-- Change of the length of the next cycle by slewing (R33): a positive phase error means that cycle instants are late. -/
def slewStep (s : State) : Int :=
  let m : Int := (min (fget s Fld.ESC_CTRL_SLEW) s.esc.phase.natAbs : Nat)
  if 0 < s.esc.phase then -m else m

/-- W of the window that this cycle plans, in 1.6 ns units (R36, R99). -/
def planW (s : State) : Frac := ⟨5 * ((periodTicks s : Int) + slewStep s), 4⟩

/-- A number of ticks in seconds, a number of µF in farads, as FP32 (R163). -/
def f32Of (a : Frac) : Frac := Frac.ofF32 a.toF32
def secsOf (ticks : Nat) : Frac := f32Of ⟨ticks, 500000000⟩
def faradsOf (uf : Nat) : Frac := f32Of ⟨uf, 1000000⟩

/-- v̂ of R163 for a slot, each operation rounded to FP32; a slot whose CAP is 0 keeps v (log entry 141). -/
def predict (s : State) (ipred : Frac) (h : Frac) (slot : Nat) : Word :=
  let v := f32Of ⟨rptVcap (cell s slot).rpt, 10⟩
  let fin := lastFinal s slot
  let cap := faradsOf (fget s (Fld.WHL_ATTR_CAP slot))
  if !St.inserted fin || cap.isZero then v.toF32
  else
    let dv := f32Of ((f32Of (ipred.mul h)).div cap)
    (v.add (if fin = St.neg then dv.neg else dv)).toF32

/-- The completion of a wheel's descriptors: WFLAGS, zero in the upper half, and STATUS (R133). -/
def finishWheelOp (w : Nat) (o : EngOp) (st : Status) (s : State) : State :=
  let s := putBytes (o.desc + 13) [BitVec.ofNat 8 (regGet s (Reg.WHL_STATUS w)).toNat, 0, 0] s
  finishOp (engKey 1 w o.core) 1 o st s

/-- VREF and IPRED are finite (R135). -/
def f32Finite (w : Word) : Bool := fieldGet w 30 23 != 255

/-- Take a wheel descriptor at the reference point: R135 decides what it delivers. Returns the reference and status. -/
def takeRef (s : State) (w : Nat) (o : EngOp) : State × Option WheelRef × Status :=
  let (ws, s) := engWords o 3 s
  let v := ws.getD 0 0
  let i := ws.getD 1 0
  if !wheelOn s w || !f32Finite v || !f32Finite i then (s, none, .badParam)
  else (s, some ⟨v, i, (ws.getD 2 0).getLsbD 0⟩, .ok)

/-- An operation reaches its wheel 20 ns after its issue (log entry 20). -/
def reached (s : State) (o : EngOp) : Bool := decide (o.at_ + 20 ≤ 2 * (s.esc.tk + fget s Fld.ESC_REFPT_REFPT))

/-- The descriptors that came in time: the last good one governs (R51, R135). -/
def takeRefs (w : Nat) : List EngOp → State × Option WheelRef × List (EngOp × Status) → State × Option WheelRef × List (EngOp × Status)
  | [], r => r
  | o :: os, (s, d, done) =>
    let (s, d', st) := takeRef s w o
    takeRefs w os (s, d'.or d, done ++ [(o, st)])

/-- The planning stores of a wheel, empty at the start of a cycle's planning (R175). -/
def Wheel.clear (x : Wheel) : Wheel :=
  { x with sorting := false, spec := none, conf := false, checks := none, final := none, gaveUp := false, moves := 0,
           fall := none }

/-- The engine window of a wheel: the descriptor latched at the last reference point (R475). -/
def wheelWindow (w : Nat) : Nat := 0x20020000 + 0x100 * w

/-- R53: STALE_REF for more than ESC_STALE_MAX cycles is raised by its own command; a fresh reference clears it. -/
def staleRef (w : Nat) (s : State) : State :=
  let x := wheel s w
  let s := setWheel w { x with staleRun := x.staleRun + 1 } s
  let s := fset (Fld.WHL_STATUS_STALE_REF w) 1 (bump (Reg.WHL_STALE_CNT w) (bump Reg.ESC_STALE_CNT s))
  occur (detect 15 w (0x18 + w) 0) s

/-- A delta or refresh entry of the active unit overwrites tokens and pool codes (R369, R371). -/
def adoptEntry (e : Word) (s : State) : State :=
  let i := fieldGet e 31 20
  let code := fieldGet e 19 16
  let x := { cell s i with tok := fieldGet e 11 0 * 2 ^ 27 }
  if code = Pool.foreign ∨ code = Pool.absent ∨ code = Pool.chainOut then setCell i x s
  else setCell i { x with
    faulted := code == Pool.fault, withdrawn := code == Pool.withdrawn,
    bypassed := x.bypassed || code == Pool.bypassed,
    byp := if code = Pool.bypassing then x.byp.or (some 0) else none } s

/-- R369: a STANDBY wheel loads carry, d, vernier run and pool codes from the active unit's record of cycle k − 1. -/
def adoptWheel (w : Nat) (s : State) : State :=
  match s.sys.role, s.btn.restIn with
  | .standby, some (.rest _ cyc _ _ ws _ _) =>
    if cyc + 1 ≠ cycleNo s then s
    else match ws[w]? with
    | none => s
    | some r =>
      let s := (r.deltas ++ r.refresh).foldl (fun s e => adoptEntry e s) s
      setWheel w { wheel s w with carry := Frac.ofF32 r.carry, desc := r.desc, vern := r.vern, vernRun := r.run } s
  | _, _ => s

/-- One wheel at the reference point. -/
def wheelRefPoint (w : Nat) (s : State) : State :=
  let s := adoptWheel w s
  let q := engQueue s (engKey 1 w 0)
  let (s, d, done) := takeRefs w (q.filter (reached s)) (s, none, [])
  let x := wheel s w
  let s := setWheel w x.clear s
  let s :=
    if !wheelOn s w then s
    else match d with
    | some r =>
      let x := wheel s w
      let start := inRun s && !r.blockArm && x.deblockDue
      let s := setWheel w { x with
          ref := r, staleRun := 0, deblockDue := x.deblockDue && !start,
          block := !inRun s || s.esc.short || r.blockArm } s
      let s := fset (Fld.WHL_STATUS_NO_REF w) 0 (fset (Fld.WHL_STATUS_STALE_REF w) 0 (clearCond 16 w s))
      if start then (wheelSlots s w).foldl (fun s i => setCell i { cell s i with held := true } s) s else s
    | none =>
      let x := wheel s w
      if fbit s (Fld.WHL_STATUS_NO_REF w) then setWheel w { x with block := true } s
      else staleRef w (setWheel w { x with block := !inRun s || s.esc.short || x.ref.blockArm } s)
  let x := wheel s w
  let s :=
    if !wheelOn s w then s
    else
      let i := Frac.ofF32 x.ref.ipred
      let h := secsOf (periodTicks s + applyTicks s + fget s Fld.ESC_LEAD_LEAD)
      setWheel w { x with vhat := (wheelSlots s w).foldl (fun m n => Store.set (fun _ => 0) m n (predict s i h n)) [] } s
  let s := done.foldl (fun s e => finishWheelOp w e.1 e.2 s) s
  match done.reverse.head? with
  | some (o, _) => memWriteBytes (wheelWindow w) (Memory.readList s.mem o.desc 16) s
  | none => s

/-- R52: a reference that comes after the reference point is discarded and completes DELAYED. -/
def lateRefs (w : Nat) (s : State) : State :=
  (engQueue s (engKey 1 w 0)).foldl (fun s o =>
    let (s, _, st) := takeRef s w o
    if st = .badParam then finishWheelOp w o .badParam s
    else finishWheelOp w o .delayed (bump (Reg.WHL_LATE_CNT w) (bump Reg.ESC_LATE_REF_CNT s))) s

/-- R53. -/
def staleRefRun (w : Nat) (s : State) : State :=
  if fget s Fld.ESC_STALE_MAX_STALE_MAX < (wheel s w).staleRun ∧ !Store.get (fun _ => false) s.fco.raised (Fco.key 16 w) then
    raiseCond 16 w (0x18 + w) 0 s
  else s

def execStaleRefRun (w : Fin 12) (s : State) : Host.Outcome State Fault Refusal := .next (staleRefRun w.val s)

/-! ### Planning (R142 to R173) -/

/-- The measured basis voltage of a slot (R166). -/
def measured (s : State) (x : Wheel) (slot : Nat) : Frac :=
  let c := cell s slot
  if rptStale c.rpt then Frac.ofF32 (Store.get (fun _ => 0) x.vhat slot) else ⟨rptVcap c.rpt, 10⟩

def predicted (x : Wheel) (slot : Nat) : Frac := Frac.ofF32 (Store.get (fun _ => 0) x.vhat slot)

def oneToken : Nat := 2 ^ 32

/-- The final state of a command word (R106). -/
def cmdFinal (c : DWord) : Nat :=
  if dbits c 39 25 ≠ noEdge then dbits c 57 55 else if dbits c 54 40 ≠ noEdge then dbits c 60 58 else dbits c 63 61

/-- prev of a cell from the confirmation on: on a STANDBY unit the active unit's command, where seen (R369). -/
def livePrev (s : State) (slot : Nat) : Nat :=
  match s.sys.role, (cell s slot).twinCmd with
  | .standby, some c => cmdFinal c
  | _, _ => lastFinal s slot

def mkPCell (s : State) (slot prev : Nat) (v : Frac) (pinned : Bool) : PCell :=
  { slot := slot, v := v, prev := prev, tok := decide (oneToken ≤ (cell s slot).tok),
    fb := fbit s (Fld.WHL_ATTR_FB slot), pinned := pinned, held := (cell s slot).held && inRun s }

/-- The cells of the speculative plan (R164), and of a plan under measured voltages (R166). -/
def specCells (s : State) (w : Nat) : List PCell :=
  ((wheelSlots s w).filter (fun i => usable (lastPool s i))).map (fun i => mkPCell s i (lastFinal s i) (predicted (wheel s w) i) false)
def measCells (s : State) (w : Nat) : List PCell :=
  ((wheelSlots s w).filter (fun i => usable (poolCode s i))).map
    (fun i => mkPCell s i (livePrev s i) (measured s (wheel s w) i) (rptStale (cell s i).rpt))

/-- A current lies in the dead band of R143. -/
def inDead (s : State) (w : Nat) (i : Frac) : Bool :=
  i.isZero || i.abs.lt (Frac.ofF32 (regGet s (Reg.WHL_IDEAD w)))

/-- The inputs of a selection (R142, R143). -/
def planIn (s : State) (w : Nat) (cells : List PCell) (desc : Bool) (reach : Option Nat) : PlanIn :=
  let x := wheel s w
  let t := (Frac.ofF32 x.ref.vref).add x.carry
  let fbEn := fbit s (Fld.WHL_CFG_FB_EN w)
  { cells := cells, target := if t.isNeg && !fbEn then Frac.zero else t.norm, neg := t.isNeg && fbEn, desc := desc,
    swapping := !inDead s w (Frac.ofF32 x.ref.ipred), band := ⟨fget s (Fld.WHL_BAND_BAND w), 10⟩,
    swapMax := fget s (Fld.WHL_EDGE_SWAP_MAX w), w := planW s, space := fget s (Fld.WHL_EDGE_SPACE w),
    nearest := fbit s (Fld.WHL_CFG_MODE w), refClamp := t.isNeg && !fbEn, vernPrev := x.vern, vernRun := x.vernRun,
    vhold := fget s (Fld.WHL_EDGE_VHOLD w), reach := reach }

/-- d of the speculative plan (R143): −1 when pol × IPRED is negative; its previous value in the dead band. -/
def specDesc (s : State) (w : Nat) : Bool :=
  let x := wheel s w
  let i := Frac.ofF32 x.ref.ipred
  let neg := (planIn s w [] false none).neg
  if inDead s w i then x.desc else i.isNeg != neg

/-- The measured arm current, and whether the sample is SETTLING (R167, R295). -/
def armCurrent (s : State) (w : Nat) : Frac :=
  let ch := fget s (Fld.WHL_IMEAS_CHAN w)
  let e := Config.scmBase + 0x20000 + 64 * ch
  let m := fieldGet (memReadWord s (e + 4)) 23 20
  let settling := (fieldGet (memReadWord s (e + 4)) 31 24).testBit (m - 1)
  Frac.ofF32 (if settling then Store.get (fun _ => 0) s.measLast ch else memReadWord s (e + 0x18))

/-- d_m of R167, `d` being d of the speculative plan. -/
def measDesc (s : State) (w : Nat) (d : Bool) : Bool :=
  let i := armCurrent s w
  if inDead s w i then d else i.isNeg != (planIn s w [] false none).neg

/-- The plan BLOCK for every cell (R155, R157). -/
def blockPlan : Plan :=
  { cmds := [], ins := [], out := [], moved := [], released := [], neg := false, desc := false, target := Frac.zero, changes := [], vern := none,
    tstar := none, carry := Frac.zero, zeroCarry := true, swaps := 0, steps := 0, gap := none, noSwaps := true,
    stepLimit := false, refClamp := false, carrySat := false }

/-- The start of a speculative round, as a count of CNT (R159). -/
def sortStart (s : State) (r : Nat) : Nat := s.esc.tk + fget s Fld.ESC_REFPT_REFPT + 450 * r

/-- R159: the sorts of a round start. -/
def speculativeRoundStart (r : Nat) (s : State) : State :=
  if !s.esc.refDone || s.esc.cutDone then s
  else (wheelsOn s).foldl (fun s w =>
    let x := wheel s w
    if fget s (Fld.WHL_ROTA_ROUND w) = r ∧ fbit s (Fld.WHL_ROTA_USED w) ∧ !x.block ∧ x.spec.isNone then
      setWheel w { x with sorting := true } s
    else s) (reach (sortStart s r) s)

def execSpeculativeRoundStart (r : Fin 3) (s : State) : Host.Outcome State Fault Refusal :=
  .next (speculativeRoundStart r.val s)

/-- R164: the speculative plan is complete. -/
def speculativePlanReady (w : Nat) (s : State) : State :=
  let x := wheel s w
  if x.sorting then
    let s := reach (sortStart s (fget s (Fld.WHL_ROTA_ROUND w)) + 450) s
    setWheel w { x with
      sorting := false, specAt := sinceTk s,
      spec := some (planSelect (planIn s w (specCells s w) (specDesc s w) none)) } s
  else s

def execSpeculativePlanReady (w : Fin 12) (s : State) : Host.Outcome State Fault Refusal :=
  .next (speculativePlanReady w.val s)

/-- Every mapped cell of a wheel has reported in this cycle. -/
def allReported (s : State) (w : Nat) : Bool := (wheelSlots s w).all (fun i => (mapOf s i).isNone || (cell s i).here)

/-- The deadline of a wheel's pass, as a count of CNT (R160). -/
def confDeadline (s : State) (w : Nat) : Nat :=
  s.esc.tk + s.esc.wlen - (Config.cutTicks + fget s Fld.ESC_REPAIR_REPAIR + 40 * (rounds s - fget s (Fld.WHL_ROTA_ROUND w)))

/-- The other wheels in use on a wheel's fabric. -/
def fabricMates (s : State) (w : Nat) : List Nat :=
  (wheelsOn s).filter (fun v => v != w && fget s (Fld.WHL_ROTA_FABRIC v) == fget s (Fld.WHL_ROTA_FABRIC w))

/-- The count of CNT at which a wheel's pass starts (R160): at the last of its reports where all are here, at the end of its
sort, or at the end of the pass before on its fabric, whichever is last; no later than its deadline (log entry 127). -/
def confInstant (s : State) (w : Nat) : Nat :=
  let x := wheel s w
  let rpts := if allReported s w then s.esc.tk + ((wheelSlots s w).foldl (fun a i => max a (cell s i).arrival) 0 + 1) / 2
    else confDeadline s w
  let sorted := if x.spec.isSome then s.esc.tk + (x.specAt + 1) / 2 else rpts
  let free := (fabricMates s w).foldl (fun a v => if (wheel s v).conf then max a (s.esc.tk + (wheel s v).confAt + 40) else a) 0
  min (confDeadline s w) (max rpts (max sorted free))

/-- A pass that starts now would hold its fabric past the deadline of a wheel that has not begun its own (R160). -/
def holdsFabric (s : State) (w : Nat) : Bool :=
  (fabricMates s w).any (fun v => !(wheel s v).conf && decide (confDeadline s v < confInstant s w + 40))

/-- R160, R165: the pass starts once the sort has ended; it reads the reports present now. -/
def confirmationStart (w : Nat) (s : State) : State :=
  let x := wheel s w
  if s.esc.refDone && !s.esc.cutDone && wheelOn s w && !x.conf && (x.spec.isSome || x.block) && !holdsFabric s w then
    let s := reach (confInstant s w) s
    setWheel w { x with conf := true, confAt := s.time.cnt - s.esc.tk } s
  else s

/-- The end of a wheel's pass, 80 ns after its start, and instants after it (R165, R169, R170, R173). -/
def afterPass (s : State) (w n : Nat) : Nat := s.esc.tk + (wheel s w).confAt + 40 + n

def execConfirmationStart (w : Fin 12) (s : State) : Host.Outcome State Fault Refusal := .next (confirmationStart w.val s)

/-- A cell of the speculative sets as the confirmation sees it; one without a report has its predicted voltage. -/
def confCell (s : State) (w i : Nat) : PCell :=
  let x := wheel s w
  let c := cell s i
  mkPCell s i (livePrev s i) (if c.here && c.late.isNone then measured s x i else predicted x i) false

/-- The speculative sets in measured order. -/
def confSel (s : State) (w : Nat) (p : PlanIn) (q : Plan) : Sel :=
  { i := pSort p.desc (q.ins.map (confCell s w)), o := pSort p.desc (q.out.map (confCell s w)), moved := [],
    released := q.released, keep := [], old := [], stepLimit := false, swaps := 0, steps := 0, ups := 0, gap := none,
    limit := false }

/-- R149 as a whole, run from given sets, leaves every cell where it is (R168, log entry 140). -/
def Sel.settled (p : PlanIn) (z : Sel) : Bool := (((z.level p).nearest p).i.map (fun x => x.slot)) == z.i.map (fun x => x.slot)

/-- Checks 1 to 4 of R168 as a mask of those that fail. A cell that shows STALE_V in cycle k confirms like any other: R166
bars it from being taken, which a confirmed plan does not do anew (log entry 140). -/
def failedChecks (s : State) (w : Nat) (q : Plan) (dm : Bool) : Nat :=
  let all := (q.cmds.map (fun e => e.1)).map (confCell s w)
  let p := planIn s w all dm none
  let z := confSel s w p q
  let c1 := (q.ins ++ q.vern.toList).all (fun i => usable (poolCode s i)) &&
    (wheelSlots s w).all (fun i => livePrev s i == lastFinal s i)
  let lim := match q.gap with | some g => if p.band.lt g then g else p.band | none => p.band
  let c2 := q.noSwaps || (match z.gapNow p with | some g => g.le lim | none => true)
  let c3 := dm == q.desc
  let t := (closePlan p q.cmds q.vern 0 false).tstar
  let c4 :=
    if p.nearest then z.settled p
    else match t with
    | some t => Frac.zero.le t && t.le p.w
    | none => !q.out.isEmpty || allInserted p || q.vern.isSome || q.ins.isEmpty
  boolNat (!c1) + 2 * boolNat (!c2) + 4 * boolNat (!c3) + 8 * boolNat (!c4)

/-- R168: the pass ends. -/
def confirmationEnd (w : Nat) (s : State) : State :=
  let x := wheel s w
  if !x.conf || x.checks.isSome || s.esc.cutDone then s
  else match x.spec with
  | none => setWheel w { x with checks := some 0 } (reach (afterPass s w 0) s)
  | some q =>
    let s := reach (afterPass s w 0) s
    let dm := measDesc s w q.desc
    setWheel w { x with dm := dm, checks := some (failedChecks s w q dm) } s

def execConfirmationEnd (w : Fin 12) (s : State) : Host.Outcome State Fault Refusal := .next (confirmationEnd w.val s)

/-- R169: the vernier and the carry of a confirmed plan have been recomputed. -/
def commitPlanReady (w : Nat) (s : State) : State :=
  let x := wheel s w
  match x.checks, x.spec with
  | some 0, some q =>
    if x.final.isSome || s.esc.cutDone then s
    else
      let s := reach (afterPass s w 20) s
      setWheel w { x with final := some (planCommit (planIn s w (measCells s w) q.desc none) q), finalAt := sinceTk s } s
  | _, _ => s

def execCommitPlanReady (w : Fin 12) (s : State) : Host.Outcome State Fault Refusal := .next (commitPlanReady w.val s)

/-- The repair of a wheel's plan `q` (R170), and its steps. -/
def repairOf (w : Nat) (q : Plan) (s : State) : Option Plan × Nat :=
  let cells := (measCells s w).filter (fun c => (getCmd q.cmds c.slot).isSome)
  let gone := (q.ins.filter (fun i => !usable (poolCode s i))).length
  planRepair (planIn s w cells (wheel s w).dm none) q gone

/-- R170, R171: a repair ends with a plan, 40 ns after its last step of 20 ns, or gives up. -/
def repairDone (w : Nat) (s : State) : State :=
  let x := wheel s w
  match x.checks, x.spec with
  | some (_ + 1), some q =>
    if x.final.isSome || x.gaveUp || s.esc.cutDone then s
    else
      let r := repairOf w q s
      match r.1 with
      | some f =>
        let s := reach (afterPass s w (10 * r.2 + 20)) s
        setWheel w { x with final := some f, finalAt := sinceTk s, moves := r.2 } s
      | none => setWheel w { x with gaveUp := true, moves := r.2 } (reach (afterPass s w (10 * r.2)) s)
  | _, _ => s

def execRepairDone (w : Fin 12) (s : State) : Host.Outcome State Fault Refusal := .next (repairDone w.val s)

/-- The fallback plan (R172); that of a wheel that commits BLOCK is the same plan. -/
def fallbackOf (w : Nat) (s : State) : Plan :=
  let x := wheel s w
  if x.block then blockPlan
  else planFallback (planIn s w (measCells s w) (if x.checks.isSome then x.dm else measDesc s w (specDesc s w)) (some 64))

/-- R173. -/
def fallbackPlanReady (w : Nat) (s : State) : State :=
  let x := wheel s w
  if x.checks.isSome && x.fall.isNone && !s.esc.cutDone then
    let s := reach (afterPass s w 80) s
    setWheel w { x with fall := some (fallbackOf w s), fallAt := sinceTk s } s
  else s

def execFallbackPlanReady (w : Fin 12) (s : State) : Host.Outcome State Fault Refusal :=
  .next (fallbackPlanReady w.val s)

/-! ### The latch (R174, R175) -/

/-- TAG and CAUSE codes of R181. -/
def Tag.spec : Nat := 0
def Tag.commit : Nat := 1
def Tag.repair : Nat := 2
def Tag.fallback : Nat := 3
def Cause.none : Nat := 0
def Cause.check : Nat := 1
def Cause.limit : Nat := 2
def Cause.late : Nat := 3
def Cause.cut : Nat := 4
def Cause.block : Nat := 5

/-- The plan that the cutoff latches: plan, tag, cause, and the time at which it was ready (R174). -/
def latchChoice (w : Nat) (cut : Bool) (s : State) : Plan × Nat × Nat × Nat :=
  let x := wheel s w
  let fall := x.fall.getD (fallbackOf w s)
  let late := (fall, Tag.fallback, Cause.late, sinceTk s)
  if cut then (fall, Tag.fallback, Cause.cut, sinceTk s)
  else if x.block then (blockPlan, Tag.commit, Cause.block, 2 * fget s Fld.ESC_REFPT_REFPT)
  else match x.final with
  | some f => if x.checks = some 0 then (f, Tag.commit, Cause.none, x.finalAt) else (f, Tag.repair, Cause.check, x.finalAt)
  | none => if x.gaveUp then (fall, Tag.fallback, Cause.limit, x.fallAt) else late

/-- The steps that a wheel's repair has taken by the cutoff (R171, R181). -/
def repairSteps (w : Nat) (s : State) : Nat :=
  let x := wheel s w
  match x.checks, x.spec with
  | some (_ + 1), some q =>
    if x.final.isSome || x.gaveUp then x.moves
    else min (repairOf w q s).2 ((s.time.cnt - afterPass s w 0) / 10)
  | _, _ => x.moves

/-- Write one wheel trace entry (R180 to R182). -/
def wheelTrace (w0 w1 w2 w3 : Nat) (s : State) : State :=
  if fbit s Fld.WHL_TRC_CTRL_STOP && s.sch.whlFull then
    fset Fld.WHL_TRC_STAT_STOPPED 1 (fset Fld.WHL_TRC_STAT_LOST (min 0xFFFF (fget s Fld.WHL_TRC_STAT_LOST + 1)) s)
  else
    let p := fget s Fld.WHL_TRC_WPTR_WPTR
    let a := Config.dramBase + fget s Fld.WHL_TRC_BASE_BASE_MIB * 2 ^ 20 + 16 * p
    let s := if s.sch.whlFull then fset Fld.WHL_TRC_STAT_WRAPPED 1 s else s
    let s := putBytes a (leBytes 4 w0 ++ leBytes 4 w1 ++ leBytes 4 w2 ++ leBytes 4 w3) s
    let s := fset Fld.WHL_TRC_WPTR_WPTR (p + 1) s
    if p = 65535 then
      let s := { s with sch := { s.sch with whlFull := true } }
      if fbit s Fld.WHL_TRC_CTRL_STOP then fset Fld.WHL_TRC_STAT_STOPPED 1 s else s
    else s

/-- A trace entry of a plan. -/
def planTrace (w tag cause failed : Nat) (q : Plan) (moves time : Nat) (s : State) : State :=
  let e1 := match q.vern with
    | some v => (match getCmd q.cmds v with | some c => c.e1.getD noEdge | none => noEdge)
    | none => noEdge
  wheelTrace (cycleNo s).toNat
    (tag * 2 ^ 28 + w * 2 ^ 24 + cause * 2 ^ 20 + failed * 2 ^ 16 + q.nIns)
    (q.vern.getD 0 * 2 ^ 20 + boolNat q.vern.isNone * 2 ^ 19 + e1)
    (min moves 63 * 2 ^ 26 + min q.changes.length 255 * 2 ^ 18 + time % 2 ^ 18) s

def traceWheel (w tag cause : Nat) (q : Plan) (time : Nat) (s : State) : State :=
  let x := wheel s w
  if !fbit s Fld.WHL_TRC_CTRL_EN || !(fget s Fld.WHL_TRC_CTRL_WMASK).testBit w ||
      (fbit s Fld.WHL_TRC_CTRL_ONLY_FAIL && tag == Tag.commit) then s
  else
    let s := match x.spec with
      | some p => if fbit s Fld.WHL_TRC_CTRL_NO_SPEC then s else planTrace w Tag.spec 0 0 p p.swaps x.specAt s
      | none => s
    planTrace w tag cause (x.checks.getD 0) q (if tag = Tag.commit then 0 else x.moves) time s

/-- One token's accrual of a window (R146). -/
def accrue (s : State) (w tok : Nat) : Nat :=
  min (fget s (Fld.WHL_BUDGET_DEPTH w) * oneToken)
    (tok + fget s (Fld.WHL_BUDGET_RATE w) * oneToken * periodTicks s / Config.secTicks)

/-- The unit's commands carry ACT (R95, R356). -/
def actBit (s : State) : Bool := s.sys.role != .standby

/-- Commit the command of one slot: word, final state, pool code, tokens (R138, R146, R175). A cell for which the plan has no
command, as one that was no part of the pool of the speculative plan, is commanded BLOCK (log entry 141). -/
def commitCell (w : Nat) (q : Plan) (slot : Nat) (s : State) : State :=
  let x := cell s slot
  let code := poolCode s slot
  let c := if usable code then getCmd q.cmds slot else none
  let bypassForm := match x.byp with | some n => decide (n < 2) | none => false
  let fin := if bypassForm then St.bypassClose else match c with | some c => c.final | none => St.block
  let cmd := if bypassForm then bypassWord (actBit s) else match c with | some c => c.word (actBit s) | none => blockWord (actBit s)
  let tok := accrue s w x.tok
  let event := c.isSome && q.changes.contains slot
  let forced := event && decide (tok < oneToken)
  let tok := if event then tok - min tok oneToken else tok
  let tok := if forced then 0 else tok
  let s := if forced then bump (Reg.WHL_FORCED_CNT w) s else s
  let held := x.held && inRun s && fin == St.block
  let s := setCell slot { x with cmd := cmd, tok := tok, held := held, byp := x.byp.map (· + 1) } s
  regSet (Reg.WHL_CSTATE slot) (BitVec.ofNat 32 (code * 2 ^ 28 + min 4095 (tok / 2 ^ 27) * 2 ^ 16 + fin * 2 ^ 13)) s

/-- Consecutive cycles of a condition of R139 and of its absence. -/
def runs (b : Bool) (on off : Nat) : Nat × Nat := if b then (on + 1, 0) else (0, off + 1)

/-- R139: count the cycles below the thresholds, in READY and RUN. -/
def countThresholds (w nAvail : Nat) (s : State) : State :=
  if s.sys.mode = .ready ∨ s.sys.mode = .run then
    let x := wheel s w
    let l := runs (decide (nAvail < fget s (Fld.WHL_COUNT_N_REQ w))) x.lowRun x.lowOk
    let m := runs (decide (nAvail < fget s (Fld.WHL_COUNT_N_MIN w))) x.minRun x.minOk
    setWheel w { x with lowRun := l.1, lowOk := l.2, minRun := m.1, minOk := m.2 } s
  else s

/-- The output entry of R161 into the hidden buffer, and the WHL registers that show it. -/
def wheelOutput (w : Nat) (nIns : Nat) (s : State) : State :=
  let av := (wheelSlots s w).filter (fun i => lastPool s i == Pool.available)
  let vs := av.map (fun i => ((⟨rptVcap (cell s i).rpt, 10⟩ : Frac)))
  let n := av.length
  let energy := (Frac.sum (av.map (fun i =>
    (⟨fget s (Fld.WHL_ATTR_CAP i) * rptVcap (cell s i).rpt ^ 2, 1⟩ : Frac)))).div (Frac.ofInt 200000000)
  let vsum := Frac.sum vs
  let top := vs.foldl (fun a b => if a.lt b then b else a) (vs.headD Frac.zero)
  let low := vs.foldl (fun a b => if b.lt a then b else a) (vs.headD Frac.zero)
  let spread := (top.sub low).toF32
  let vmean := if n = 0 then 0 else (vsum.div (Frac.ofInt n)).toF32
  let s := regSet (Reg.WHL_ENERGY w) energy.toF32 (regSet (Reg.WHL_SPREAD w) spread (regSet (Reg.WHL_VSUM w) vsum.toF32
    (regSet (Reg.WHL_POOL w) (BitVec.ofNat 32 (nIns * 65536 + n)) s)))
  let s := countThresholds w n s
  hideWords (Config.scmBase + 0x21000 + 32 * w)
    [cycleNo s, energy.toF32, spread, vsum.toF32, vmean, BitVec.ofNat 32 (nIns * 65536 + n), regGet s (Reg.WHL_STATUS w), 0] s

/-- Advance a 16-bit half of a counter by one, saturating. -/
def bumpHalf (f : Field) (b : Bool) (s : State) : State := if b then fset f (min 0xFFFF (fget s f + 1)) s else s

/-- R183 and the outcome register. -/
def countOutcome (w tag cause : Nat) (s : State) : State :=
  let x := wheel s w
  let failed := x.checks.getD 0
  let s := if x.spec.isSome then bump (Reg.WHL_SPEC_CNT w) s else s
  let s := if cause = Cause.block then s
    else if tag = Tag.commit then bump (Reg.WHL_COMMIT_CNT w) s
    else if tag = Tag.repair then bump (Reg.WHL_REPAIR_CNT w) s
    else bump (Reg.WHL_FALLBACK_CNT w) s
  let s := bumpHalf (Fld.WHL_CHK12_CNT_CHK1 w) (failed.testBit 0) (bumpHalf (Fld.WHL_CHK12_CNT_CHK2 w) (failed.testBit 1)
    (bumpHalf (Fld.WHL_CHK34_CNT_CHK3 w) (failed.testBit 2) (bumpHalf (Fld.WHL_CHK34_CNT_CHK4 w) (failed.testBit 3) s)))
  let fb := if cause = Cause.cut then x.fbRun else if tag = Tag.fallback then min 255 (x.fbRun + 1) else 0
  let s := setWheel w { x with fbRun := fb } s
  let s := if tag = Tag.fallback then s else clearCond 26 w s
  regSet (Reg.WHL_CONF_LAST w) (BitVec.ofNat 32 (tag * 2 ^ 30 + cause * 2 ^ 24 + failed * 2 ^ 20 + fb * 2 ^ 8 +
    (if tag = Tag.commit then 0 else min 32 x.moves))) s

/-- The wheel after the plan `q` is committed (R154, R175, R147, R156). -/
def Wheel.commit (x : Wheel) (q : Plan) (block run : Bool) : Wheel :=
  { x with
    carry := if block then Frac.zero else q.carry, desc := if block then x.desc else q.desc,
    vernRun := match q.vern with | none => 0 | some v => if x.vern = some v then min 255 (x.vernRun + 1) else 1,
    vern := q.vern, deblockDue := x.deblockDue || (block && run), delivered := none }

/-- The status flags of a committed plan. -/
def wheelFlags (w : Nat) (q : Plan) (block : Bool) (s : State) : State :=
  let x := wheel s w
  let deb := !block && (wheelSlots s w).any (fun i => (cell s i).held && usable (lastPool s i))
  let s := fset (Fld.WHL_STATUS_N_CH w) (min 255 q.changes.length) (fset (Fld.WHL_STATUS_CARRY_SAT w) (boolNat q.carrySat) s)
  let s := fset (Fld.WHL_STATUS_ARM_BLOCKED w) (boolNat (block && x.ref.blockArm && !fbit s (Fld.WHL_STATUS_NO_REF w))) s
  let s := fset (Fld.WHL_STATUS_DEBLOCKING w) (boolNat deb) (fset (Fld.WHL_STATUS_STEP_LIMIT w) (boolNat q.stepLimit) s)
  let s := fset (Fld.WHL_STATUS_REF_CLAMP w) (boolNat q.refClamp) (fset (Fld.WHL_STATUS_DIR w) (boolNat x.desc) s)
  let s := regSet (Reg.WHL_CARRY w) x.carry.toF32 s
  regSet (Reg.WHL_VERN w) (BitVec.ofNat 32 (x.vernRun * 2 ^ 24 + boolNat x.vern.isNone * 2 ^ 23 + x.vern.getD 0)) s

/-- The slots whose POOL, FINAL or VERN changed by a commit (R371). -/
def changedSlots (w : Nat) (s0 s : State) : List Nat :=
  let v0 := (wheel s0 w).vern
  let v := (wheel s w).vern
  (wheelSlots s w).filter (fun i => lastPool s0 i != lastPool s i || lastFinal s0 i != lastFinal s i ||
    (v0 != v && (v0 == some i || v == some i)))

/-- Latch a wheel's plan at the cutoff (R174, R175, R180, R161). -/
def latchWheel (w : Nat) (cut : Bool) (s : State) : State :=
  let (q, tag, cause, time) := latchChoice w cut s
  let q := q.carriedOut (fun i => usable (poolCode s i))
  let s := setWheel w { wheel s w with moves := repairSteps w s } s
  let x := wheel s w
  let s0 := s
  let s := traceWheel w tag cause q time s
  let stale := ((wheelSlots s w).filter (fun i => (cell s i).here && (cell s i).late.isNone && rptStale (cell s i).rpt)).length
  let s := if x.conf then bumpBy stale (Reg.WHL_STALEV_CNT w) s else s
  let s := (wheelSlots s w).foldl (fun s i => commitCell w q i s) s
  let s := setWheel w ((wheel s w).commit q x.block (inRun s)) s
  let s := bumpBy q.swaps (Reg.WHL_SWAP_CNT w) s
  let s := if q.stepLimit then bump (Reg.WHL_STEP_CNT w) s else s
  let s := if q.refClamp then bump (Reg.WHL_CLAMP_CNT w) s else s
  let s := countOutcome w tag cause (wheelFlags w q x.block s)
  let s := wheelOutput w q.nIns s
  let x := (wheel s w).clear
  setWheel w { x with delta := x.delta ++ (changedSlots w s0 s).filter (fun i => !x.delta.contains i) } s

/-- The entry of a mapped slot in the hidden cell table (R472). What an entry without a report holds of one is not stated
(log entry 8). -/
def cellTableEntry (slot : Nat) (s : State) : State :=
  let x := cell s slot
  let r := x.lastRpt
  let a := Config.scmBase + 32 * slot
  let cmd := if x.cmd = 0 then blockWord (actBit s) else x.cmd
  let pool := lastPool s slot * 2 ^ 12
  let tail := [BitVec.ofNat 32 cmd.toNat, BitVec.ofNat 32 (cmd.toNat / 2 ^ 32)]
  if x.here then
    let w := 2 ^ 31 + boolNat x.mirrored * 2 ^ 30 + boolNat x.west * 2 ^ 29 + x.port % 128 * 2 ^ 22 + x.pos % 64 * 2 ^ 16 + pool
    hideWords a ([cycleNo s, BitVec.ofNat 32 r.toNat, BitVec.ofNat 32 (r.toNat / 2 ^ 32), BitVec.ofNat 32 w] ++ tail ++
      [BitVec.ofNat 32 x.arrival, 0]) s
  else
    let (r0, s) := drawFree s
    let (r1, s) := drawFree s
    let (w, s) := drawFree s
    hideWords a ([cycleNo s, r0, r1, BitVec.ofNat 32 (fieldGet w 30 16 * 2 ^ 16 + pool)] ++ tail ++ [0xFFFFFFFF, 0]) s

/-! ### Threshold and run sources -/

/-- R139: the sources of a wheel's pool after THR_HOLD cycles. -/
def poolThreshold (w : Nat) (s : State) : State :=
  let x := wheel s w
  let h := fget s (Fld.WHL_THR_THR_HOLD w)
  let low := fun (src on off : Nat) (f : Field) (s : State) =>
    if h ≤ on then condIs true src w (0x18 + w) (fset f 1 s)
    else if h ≤ off then clearCond src w (fset f 0 s) else s
  low 25 x.minRun x.minOk (Fld.WHL_STATUS_POOL_MIN w) (low 24 x.lowRun x.lowOk (Fld.WHL_STATUS_POOL_LOW w) s)

def execPoolThreshold (w : Fin 12) (s : State) : Host.Outcome State Fault Refusal := .next (poolThreshold w.val s)

/-- R176. -/
def whlFallbackRun (w : Nat) (s : State) : State :=
  if 16 ≤ (wheel s w).fbRun then condIs true 26 w (0x18 + w) s else s

def execWhlFallbackRun (w : Fin 12) (s : State) : Host.Outcome State Fault Refusal := .next (whlFallbackRun w.val s)

/-! ### Entry into RUN (R54, R140, R143, R146, R154) -/

def wheelEnterRun (w : Nat) (s : State) : State :=
  let x := wheel s w
  let s := setWheel w { x with
      desc := false, carry := Frac.zero, block := true, deblockDue := true, staleRun := 0, ref := ⟨0, 0, false⟩ } s
  let s := fset (Fld.WHL_STATUS_NO_REF w) 1 (fset (Fld.WHL_STATUS_STALE_REF w) 0 (regSet (Reg.WHL_CARRY w) 0 s))
  (wheelSlots s w).foldl (fun s i =>
    let tok := fget s (Fld.WHL_BUDGET_DEPTH w) * oneToken
    let s := setCell i { cell s i with tok := tok, held := false } s
    fatalBypass w i (fset (Fld.WHL_CSTATE_TOKENS i) (min 4095 (tok / 2 ^ 27)) s)) s

/-! ### The trace control (R182) -/

/-- A write of WHL_TRC_CTRL; EN from 0 to 1 restarts the ring. -/
def setWhlTrc (val : Word) (s : State) : State :=
  let s := if val.getLsbD 0 && !fbit s Fld.WHL_TRC_CTRL_EN then
      regSet Reg.WHL_TRC_STAT 0 (regSet Reg.WHL_TRC_WPTR 0 { s with sch := { s.sch with whlFull := false } })
    else s
  regSet Reg.WHL_TRC_CTRL (val &&& 0x3FFC000F) s

def whlTrcEnable (o : Origin) (val : Word) (s : State) : State × Status :=
  checkWrite Reg.WHL_TRC_CTRL o
    [(roleOrCore .operator o, .notPermitted), (s.sys.mode != .boot && s.sys.mode != .lockout, .illegalInMode)]
    (setWhlTrc val) s

def execWhlTrcEnable (o : Origin) (val : Word) (s : State) : Host.Outcome State Fault Refusal :=
  .next (whlTrcEnable o val s).1

end Sys2Proof.Machine
end

