-- ==== Sys2Proof/Machine/Baton.lean ====
section
/-! DEFINITION. The redundant pair: heartbeats, lease, claim, fencing, handover, mirror, comparison, relay grants
(14_redundant_pair.md). -/

namespace Sys2Proof.Machine

def inPair (s : State) : Bool := s.sys.comm.pair

def port (s : State) (p : Nat) : Port := Store.get (fun _ => Port.reset) s.ports p
def setPort (p : Nat) (x : Port) (s : State) : State :=
  { s with ports := Store.set (fun _ => Port.reset) s.ports p x }

/-- The messages that this unit sends on the management channel. -/
def sendMgmt (m : MgmtMsg) (s : State) : State :=
  if inPair s then { s with btn := { s.btn with mgmtOut := s.btn.mgmtOut ++ [m] } } else s

/-- The ports of this unit that chain ends of a map use. -/
def mappedPorts (s : State) : List Nat := s.sys.comm.chains.flatMap (fun ch => (ownEnds s).map (endPort ch))

/-- This unit's image hashes (R374, R383). -/
def imagesOf (s : State) : Word × Word × Word := (s.sys.prog.hash, s.sys.comm.hash, s.saf.blockCrc)

/-- L in ticks (R361), and the silence time L + 20 µs. -/
def leaseTicks (s : State) : Nat := usTicks (fget s Fld.BTN_CFG_LEASE)
def silenceTicks (s : State) : Nat := leaseTicks s + usTicks 20

/-- No cause of R374 is set. -/
def btnReady (s : State) : Bool := regGet s Reg.BTN_HEALTH == 0

/-- The causes that bar a claim: every one but MIR_DOWN and TIME_DIFF (R374). -/
def claimBarred (s : State) : Bool := regGet s Reg.BTN_HEALTH &&& 0x3FC != 0

def leaseOk (s : State) : Bool := match s.btn.leaseEnd with | some e => decide (s.time.cnt < e) | none => false

/-- The epoch a unit's frames carry (R354): on an ACTIVE unit that of its role block (R24), on a STANDBY the highest it
knows. -/
def frameEpoch (s : State) : Word :=
  match s.sys.role with
  | .standby => BitVec.ofNat 32 (nextEpoch s - 1)
  | .active => s.btn.roleEpoch
  | .solo => s.btn.mramEpoch

def setEpoch (e : Word) (s : State) : State := regSet Reg.BTN_EPOCH e { s with btn := { s.btn with mramEpoch := e } }

/-- Commit the role block (R24): in force at the next cycle instant by R15, or at cycle `j`. -/
def commitRole (r : Role) (epoch : Word) (j : Option Word) (cause : Nat) (s : State) : State :=
  { s with btn := { s.btn with commit := some ⟨r, epoch, s.time.cnt, j, cause⟩ } }

/-- Causes of BTN_LAST_CHG. -/
def Chg.claim : Nat := 1
def Chg.handover : Nat := 2
def Chg.fault : Nat := 3
def Chg.selftest : Nat := 4
def Chg.fenced : Nat := 5
def Chg.lease : Nat := 6

/-- The role block takes effect at a cycle instant (R24, R365, R376): called at T_k, with the new cycle's number. -/
def applyRole (s : State) : State :=
  match s.btn.commit with
  | none => s
  | some c =>
    let due := match c.j with | some j => j == cycleNo s | none => decide (c.at_ + Config.adoptTicks ≤ s.time.cnt)
    if !due then s
    else
      let active := c.role == .active
      let ho := 2 ≤ c.cause ∧ c.cause ≤ 4
      let s := { s with
          sys := { s.sys with role := c.role },
          btn := { s.btn with
            commit := none, ho := none, leaseEnd := if active then some (s.time.cnt + leaseTicks s) else none,
            mayBeat := s.btn.mayBeat || active, hoOp := .none, roleEpoch := c.epoch } }
      let s := if active then setEpoch c.epoch s else s
      let s := fset Fld.BTN_STATUS_HO_PENDING 0 (setSplitRegs Reg.BTN_LAST_T_0 (nowSplit s) s)
      let s := fset Fld.BTN_LAST_CHG_CAUSE c.cause s
      let s := if c.cause = Chg.claim then bump Reg.BTN_CLAIM_CNT s else s
      let s := if c.cause = Chg.fenced then bump Reg.BTN_FENCE_CNT s else s
      if ho then bump Reg.BTN_HO_CNT s else s

/-- R366: an ACTIVE unit meets a higher epoch and steps down. -/
def fenceFrom (epoch : Word) (s : State) : State :=
  if s.sys.role = .active ∧ s.btn.mramEpoch.toNat < epoch.toNat then
    let s := setEpoch epoch s
    let s := commitRole .standby epoch none Chg.fenced (fset Fld.BTN_HEALTH_FENCED 1 s)
    occur (detect 45 0 0x3F 0) s
  else s

/-- An EPOCH in a received frame header (R357, R366). -/
def noteHeader (h : Header) (s : State) : State :=
  if !inPair s then s
  else
    let e := if s.btn.seenEpoch.toNat < h.epoch.toNat then h.epoch else s.btn.seenEpoch
    let s := { s with btn := { s.btn with seenEpoch := e } }
    if h.role = 1 then fenceFrom h.epoch s else s

/-! ### Claim (R364, R365) -/

/-- At least half of the chains seen show loss; none seen counts as held (R364). -/
def ageEvidence (s : State) : Bool := s.btn.chSeen == 0 || decide (s.btn.chSeen ≤ 2 * s.btn.chLoss)

def silent (s : State) : Bool := decide (s.btn.twinAt + silenceTicks s ≤ s.time.cnt)

/-- R364: claim the baton when every condition holds. -/
def tryClaim (s : State) : State :=
  let hold := !s.sys.comm.unitB || decide (s.sys.commAt + msTicks (fget s Fld.BTN_START_HOLD_HOLD) ≤ s.time.cnt)
  if inPair s && s.sys.role == .standby && s.sys.mode != .boot && s.sys.mode != .lockout && s.btn.commit.isNone &&
      silent s && ageEvidence s && !claimBarred s && hold then
    if nextEpoch s ≤ 0xFFFFFFFF then commitRole .active (BitVec.ofNat 32 (nextEpoch s)) none Chg.claim s
    else occur (detect 43 0 0x3F 0) s
  else s

/-- R364: the silence timer expires. -/
def silenceTimeout (s : State) : State :=
  if inPair s && silent s then
    tryClaim (fset Fld.BTN_TWIN_SEEN 0 (fset Fld.BTN_STATUS_SILENT 1 s))
  else s

def execSilenceTimeout (s : State) : Host.Outcome State Fault Refusal := .next (silenceTimeout s)

/-- R363: the holder's lease has expired. -/
def leaseExpiry (s : State) : State :=
  match s.sys.role, s.btn.leaseEnd with
  | .active, some e =>
    if e ≤ s.time.cnt then
      let s := commitRole .standby s.btn.mramEpoch none Chg.lease { s with btn := { s.btn with leaseEnd := none } }
      occur (detect 44 0 0x3F 0) (fset Fld.BTN_HEALTH_LEASE 1 s)
    else s
  | _, _ => s

def execLeaseExpiry (s : State) : Host.Outcome State Fault Refusal := .next (leaseExpiry s)

/-- R362: the holder renews its lease, while it has not expired, at the cell table publication. The evidence is that of the
cycle whose table this is. -/
def renewLease (s : State) : State :=
  let s := if s.sys.role = .active ∧ leaseOk s ∧ (s.btn.e1 ∨ s.btn.e2 ∨ s.btn.e3) ∧ inPair s then
      { s with btn := { s.btn with leaseEnd := some (s.time.cnt + leaseTicks s) } }
    else s
  let (seen, loss, young) := s.btn.chNext
  let s := { s with btn := { s.btn with
      e1 := false, e2 := false, e3 := false, chSeen := seen, chLoss := loss, chYoung := young } }
  let s := fset Fld.BTN_STATUS_AGE_EVID (boolNat (inPair s && ageEvidence s)) s
  tryClaim s

/-- The reports of a chain's cells present in this cycle that show neither BYPASSED nor FAULT, and whether any is valid. -/
def chainReports (s : State) (num : Nat) : Bool × List DWord :=
  let r := ((s.sys.comm.cells.filter (fun m => m.chain == num)).map (fun m => cell s m.slot)).filter (fun x => x.here)
  (!r.isEmpty, (r.map Cell.lastRpt).filter (fun w => !rptBypassed w && !rptFault w))

/-- An in-service chain end's port state (R362). -/
def endServes (s : State) (p : Nat) : Bool :=
  portState s p == PState.inService || portState s p == PState.folded || portState s p == PState.healing

/-- At least half of the in-service chain ends had a frame of this unit returned folded, or marked as received in the twin's
record that came in the cycle, which is of the cycle before (R362, E2). -/
def foldEvidence (s : State) : Bool :=
  let ends := (s.sys.comm.chains.map (fun c => c.portE)).filter (endServes s)
  let map := match s.btn.otherIn with
    | some (.standby _ c _ m _) => (if c = cycleNo s ∨ c + 1 = cycleNo s then m else 0)
    | _ => 0
  let back := ends.filter (fun p => s.btn.ownBack.getLsbD p || map.getLsbD p)
  !ends.isEmpty && decide (ends.length ≤ 2 * back.length)

/-- The cycle ends: its evidence E1 and E2 (R362). -/
def cycleEvidence (s : State) : State :=
  if inPair s then { s with btn := { s.btn with e1 := s.btn.e1Now, e1Now := false, e2 := foldEvidence s } } else s

/-- The evidence of a cycle's cell table, which the cutoff forms (R362, R364). -/
def takeEvidence (s : State) : State :=
  if !inPair s then s
  else
    let rs := s.sys.comm.chains.map (fun c => chainReports s c.num)
    let seen := rs.filter (fun r => r.1)
    let loss := seen.filter (fun r => !r.2.isEmpty && r.2.all (fun w => decide (3 ≤ rptAge w)))
    let young := seen.filter (fun r => r.2.all (fun w => decide (rptAge w ≤ 2)))
    { s with btn := { s.btn with
        chNext := (seen.length, loss.length, young.length)
        e3 := !seen.isEmpty && decide (seen.length ≤ 2 * young.length) } }

/-! ### Heartbeats (R360) -/

/-- The heartbeat that this unit sends now. -/
def makeHeartbeat (s : State) : Heartbeat :=
  let offer := s.btn.hoOp == .offer
  { seq := (s.btn.hbSeq + 1) % 256, ack := match s.btn.twin with | some h => h.seq | none => 0, role := s.sys.role,
    unitB := s.sys.comm.unitB, ready := btnReady s, mode := s.sys.mode, lease := leaseOk s, hoOp := s.btn.hoOp,
    epoch := if offer then (match s.btn.ho with | some h => h.epoch | none => s.btn.mramEpoch) else s.btn.mramEpoch,
    cycle := cycleNo s, hoCycle := if s.btn.hoOp = .none then 0 else s.btn.hoCycle, health := regGet s Reg.BTN_HEALTH,
    stSeq := s.btn.stSeq % 65536, stRes := s.btn.stOwn, crcOk := true }

/-- R360, R456: send a heartbeat; an OFFER stands until it is decided, ACCEPT and ABORT go once. -/
def heartbeatSend (s : State) : State :=
  if !inPair s || !s.btn.mayBeat || !escRunning s then s
  else
    let hb := makeHeartbeat s
    { s with btn := { s.btn with
        hbSeq := hb.seq, hbOut := some hb, sent := ((hb.seq, s.time.cnt) :: s.btn.sent).take 256,
        ho := s.btn.ho.map (fun h => { h with offered := true }),
        hoOp := if s.btn.hoOp = .offer then .offer else .none } }

def execHeartbeatSend (_j : Fin 4) (s : State) : Host.Outcome State Fault Refusal := .next (heartbeatSend s)

/-- The twin took an OFFER (R376): it answers ACCEPT and commits its role block, unless it may not take the baton: it is not
READY, or no epoch is left above those it knows (R357). -/
def takeOffer (hb : Heartbeat) (s : State) : State :=
  if s.sys.role = .standby ∧ btnReady s ∧ s.btn.commit.isNone then
    let known := max s.btn.mramEpoch.toNat s.btn.seenEpoch.toNat
    if hb.epoch.toNat ≤ known then (if known = 0xFFFFFFFF then occur (detect 43 0 0x3F 0) s else s)
    else
      let s := { s with btn := { s.btn with hoOp := .accept, hoCycle := hb.hoCycle } }
      commitRole .active hb.epoch (some hb.hoCycle) Chg.handover s
  else s

/-- E1 of R362: the heartbeat acknowledges one sent within the last L. -/
def acks (hb : Heartbeat) (s : State) : Bool :=
  match s.btn.sent.find? (fun e => e.1 == hb.ack) with
  | some e => decide (s.time.cnt ≤ e.2 + leaseTicks s)
  | none => false

/-- The outcome of a self-test when both results are known (R373), decided once: the results stand until the next test. One
that HMP ordered changes no role. -/
def settleSelftest (s : State) : State :=
  if s.btn.stOwn = 0 ∨ s.btn.stTwin = 0 then s
  else
    let own := s.btn.stOwn
    let twin := s.btn.stTwin
    let cmd := s.btn.stCmd
    let s := { s with btn := { s.btn with stCmd := false, disRun := 0 } }
    if cmd then s
    else if s.sys.role = .active then
      if own = 2 ∧ twin = 1 then (if s.btn.ho.isSome then s else startHandover Chg.selftest s)
      else if own = 2 ∧ twin = 2 then occur (detect 47 0 0x3F 0) s
      else if own = 1 ∧ twin = 1 then occur (detect 46 0 0x3F 0) s
      else s
    else if own = 1 ∧ twin = 1 then occur (detect 46 0 0x3F 0) (fset Fld.BTN_HEALTH_DISAGREE 1 s)
    else s

/-- A twin is heard anew: this unit tells its images and what it reaches, and the holder gives a unit that joins the
discovery results of that unit's ends (R361, R374, R378, R383). -/
def greetTwin (hb : Heartbeat) (s : State) : State :=
  let (a, b, c) := imagesOf s
  let s := (mappedPorts s).foldl (fun s p =>
    sendMgmt (.reached (Fin.ofNat 128 p) (fget s (Fld.RING_PSTAT_REACHED p))) s) (sendMgmt (.images a b c) s)
  if s.sys.role = .active ∧ hb.health.getLsbD 9 then
    (mappedPorts s).foldl (fun s p =>
      match (port s p).twinInfo with
      | [] => s
      | cells => sendMgmt (.discovery (Fin.ofNat 128 p) cells (regGet s (Reg.RING_PLAP p)).toNat) s) s
  else s

/-- R455: the mode to follow, from the first heartbeat that shows it; a holder in LOCKOUT leaves a standby in READY. -/
def noteMode (shown : Mode) (s : State) : State :=
  let m := if shown = .lockout then (if s.sys.mode = .run then .ready else s.sys.mode)
    else if shown = .boot then s.sys.mode else shown
  let follow := if m = s.sys.mode then none
    else match s.btn.follow with
    | some (old, t) => if old = m then some (old, t) else some (m, s.time.cnt)
    | none => some (m, s.time.cnt)
  { s with btn := { s.btn with follow := follow } }

/-- R360, R366, R376, R455, R456: a heartbeat arrives. -/
def heartbeatReceive (hb : Heartbeat) (s : State) : State :=
  let last := s.btn.twin.map (fun h => h.seq)
  if !inPair s then s
  else if !hb.crcOk then bump Reg.MIR_ERR_CNT s
  else if last == some hb.seq then s
  else
    let missed := match last with | some q => (hb.seq + 255 - q) % 256 | none => 0
    let s := bumpBy missed Reg.BTN_HB_MISS_CNT s
    let e1 := s.btn.e1Now || acks hb s
    let fresh := last.isNone || !fbit s Fld.BTN_TWIN_SEEN
    let act := hb.role == .active
    let s := { s with btn := { s.btn with
        twin := some hb, twinAt := s.time.cnt, e1Now := e1, mayBeat := s.btn.mayBeat || act } }
    let s := fset Fld.BTN_STATUS_SILENT 0 (regSet Reg.BTN_TWIN (BitVec.ofNat 32
      (hb.role.code % 4 * 2 ^ 14 + boolNat hb.ready * 2 ^ 13 + hb.mode.code * 2 ^ 10 + 2 ^ 9)) s)
    let s := if fresh then greetTwin hb s else s
    let tie := act && s.sys.role == .active && s.sys.comm.unitB && hb.epoch == s.btn.mramEpoch
    let s := if act && hb.hoOp != .offer then fenceFrom hb.epoch s else s
    let s := if tie then
        commitRole .standby s.btn.mramEpoch none 0 (fset Fld.BTN_HEALTH_JOINING 1 s)
      else s
    let s := if act && s.sys.role == .standby then
        noteMode hb.mode (if hb.mode = s.sys.mode then fset Fld.BTN_HEALTH_MODE_DIFF 0 s else s)
      else s
    let s : State := match hb.hoOp with
      | .offer => if act then takeOffer hb s else s
      | .accept => { s with btn := { s.btn with ho := s.btn.ho.map (fun h =>
          if h.j = hb.hoCycle then { h with accepted := true } else h) } }
      | _ => s
    if hb.stSeq = s.btn.stSeq % 65536 ∧ hb.stRes ≠ 0 ∧ s.btn.stTwin = 0 ∧ (s.btn.stRun ∨ s.btn.stOwn ≠ 0) then
      settleSelftest { s with btn := { s.btn with stTwin := hb.stRes } }
    else s

def execHeartbeatReceive (hb : Heartbeat) (s : State) : Host.Outcome State Fault Refusal := .next (heartbeatReceive hb s)

/-! ### Handover (R375, R376) -/

/-- A command of BTN_CMD: its status stands in BTN_CMD_STAT. -/
def btnCommand (o : Origin) (checks : List (Bool × Status)) (act : State → State) (s : State) : State × Status :=
  let (s, st) := checkWrite Reg.BTN_CMD o checks act s
  (fset Fld.BTN_CMD_STAT_STATUS st.code s, st)

/-- The causes of this unit or of its twin that bar a handover (R374, R375): all of them. -/
def twinMayTake (s : State) : Bool :=
  match s.btn.twin with | some h => h.ready && h.health == 0 && !silent s | none => false

def btnCmdHandover (o : Origin) (s : State) : State × Status :=
  let (s, st) := btnCommand o
    [(roleAtLeast .engineer o, .notPermitted), (s.sys.role != .standby, .notHolder),
     (s.sys.mode != .boot && s.sys.mode != .lockout, .illegalInMode), (s.btn.ho.isNone, .busy),
     (inPair s && twinMayTake s, .checkFail)] (startHandover Chg.handover) s
  (if st = .ok then fset Fld.BTN_CMD_STAT_STATUS Status.pending.code s else s, st)

def execBtnCmdHandover (o : Origin) (s : State) : Host.Outcome State Fault Refusal := .next (btnCmdHandover o s).1

/-- R376: at T_j − 1.0 µs the holder commits STANDBY, or aborts. -/
def handoverAcceptDeadline (s : State) : State :=
  match s.btn.ho with
  | none => s
  | some h =>
    let s := fset Fld.BTN_STATUS_HO_PENDING 0 { s with btn := { s.btn with ho := none } }
    if h.accepted then
      fset Fld.BTN_CMD_STAT_STATUS (if h.cause = Chg.handover then Status.ok.code else fget s Fld.BTN_CMD_STAT_STATUS)
        (commitRole .standby s.btn.mramEpoch (some h.j) h.cause { s with btn := { s.btn with hoOp := .none } })
    else
      let s := { s with btn := { s.btn with hoOp := .abort } }
      if h.cause = Chg.handover then fset Fld.BTN_CMD_STAT_STATUS Status.timeout.code s else s

def execHandoverAcceptDeadline (s : State) : Host.Outcome State Fault Refusal := .next (handoverAcceptDeadline s)

/-- R374: READY_ACK clears LEASE, FENCED and DISAGREE. -/
def btnCmdReadyAck (o : Origin) (s : State) : State × Status :=
  btnCommand o [(roleAtLeast .engineer o, .notPermitted), (s.sys.mode != .boot, .illegalInMode)]
    (fun s => fset Fld.BTN_HEALTH_LEASE 0 (fset Fld.BTN_HEALTH_FENCED 0 (fset Fld.BTN_HEALTH_DISAGREE 0 s))) s

def execBtnCmdReadyAck (o : Origin) (s : State) : Host.Outcome State Fault Refusal := .next (btnCmdReadyAck o s).1

/-! ### Self-test (R373) -/

/-- DIS_N disagreeing cycles, or the twin's newer self-test, start the test on this unit. -/
def btnSelftestStart (s : State) : State :=
  let other := match s.btn.twin with
    | some h => if h.stSeq ≠ s.btn.stSeq ∧ (h.stSeq + 65536 - s.btn.stSeq) % 65536 < 32768 then some h.stSeq else none
    | none => none
  if !inPair s || s.btn.stRun then s
  else match other with
  | some q => startSelftest q false s
  | none => if fget s Fld.BTN_CFG_DIS_N ≤ s.btn.disRun then startSelftest (s.btn.stSeq + 1) false s else s

def execBtnSelftestStart (s : State) : Host.Outcome State Fault Refusal := .next (btnSelftestStart s)

/-- R373: an HMP SELFTEST starts the test on this unit, and the twin is told to start the same one. -/
def btnCmdSelftest (o : Origin) (s : State) : State × Status :=
  btnCommand o [(roleAtLeast .engineer o, .notPermitted), (s.sys.mode != .boot, .illegalInMode), (!s.btn.stRun, .busy)]
    (fun s => sendMgmt (.selftest (Fin.ofNat 65536 (s.btn.stSeq + 1))) (startSelftest (s.btn.stSeq + 1) true s)) s

def execBtnCmdSelftest (o : Origin) (s : State) : Host.Outcome State Fault Refusal := .next (btnCmdSelftest o s).1

/-- The own test ends: SELFTEST is set by a FAIL and cleared by a PASS (R374). -/
def btnSelftestDone (pass : Bool) (s : State) : State :=
  if !s.btn.stRun then s
  else
    let s := { s with btn := { s.btn with stRun := false, stOwn := if pass then 1 else 2 } }
    settleSelftest (fset Fld.BTN_HEALTH_SELFTEST (boolNat (!pass)) s)

def execBtnSelftestDone (pass : Bool) (s : State) : Host.Outcome State Fault Refusal := .next (btnSelftestDone pass s)

/-- R373: the twin's result does not come within 100 ms: it counts as FAIL. -/
def btnSelftestResultTimeout (s : State) : State :=
  if s.btn.stOwn ≠ 0 ∧ s.btn.stTwin = 0 ∧ inPair s then settleSelftest { s with btn := { s.btn with stTwin := 2 } } else s

def execBtnSelftestResultTimeout (s : State) : Host.Outcome State Fault Refusal := .next (btnSelftestResultTimeout s)

/-! ### Mirror lanes, health and join -/

def lanesUp (s : State) : Nat := fget s Fld.MIR_STATUS_LANE0 + fget s Fld.MIR_STATUS_LANE1

def laneField (l : Nat) : Field := if l = 0 then Fld.MIR_STATUS_LANE0 else Fld.MIR_STATUS_LANE1

/-- The sources and flags that follow the lanes (R358, R374, R66). -/
def settleLanes (s : State) : State :=
  let n := lanesUp s
  let s := fset Fld.MIR_STATUS_UP (boolNat (n != 0)) s
  let s := fset Fld.MIR_STATUS_LOCKED (boolNat (n != 0 && mirrorLocked s)) s
  let s := if inPair s then fset Fld.BTN_HEALTH_MIR_DOWN (boolNat (n == 0)) s else s
  condIs (n == 0) 41 0 0x33 (condIs (n == 1) 40 0 0x33 s)

/-- R358: a lane is lost. -/
def mirrorLaneLoss (l : Nat) (s : State) : State :=
  if fbit s (laneField l) then settleLanes (fset (laneField l) 0 s) else s

def execMirrorLaneLoss (l : Fin 2) (s : State) : Host.Outcome State Fault Refusal := .next (mirrorLaneLoss l.val s)

/-- A lane that LANE_EN no longer enables is lost. -/
def disableLanes (s : State) : State :=
  (List.range 2).foldl (fun s l =>
    if (fget s Fld.MIR_CTRL_LANE_EN).testBit l then s else mirrorLaneLoss l s) s

/-- A lane that is enabled comes up. -/
def mirrorLaneRestore (l : Nat) (s : State) : State :=
  if (fget s Fld.MIR_CTRL_LANE_EN).testBit l && s.sys.mode != .boot then settleLanes (fset (laneField l) 1 s) else s

def execMirrorLaneRestore (l : Fin 2) (s : State) : Host.Outcome State Fault Refusal := .next (mirrorLaneRestore l.val s)

/-- R374: the standby's mode differs from the holder's for more than 100 ms. -/
def modeDiffTimeout (s : State) : State :=
  match s.btn.twin with
  | some h =>
    if s.sys.role = .standby ∧ h.role = .active ∧ h.mode ≠ s.sys.mode then fset Fld.BTN_HEALTH_MODE_DIFF 1 s else s
  | none => s

def execModeDiffTimeout (s : State) : Host.Outcome State Fault Refusal := .next (modeDiffTimeout s)

def pbDiffTimeout (s : State) : State := if s.btn.pbDiffers then fset Fld.BTN_HEALTH_PB_DIFF 1 s else s

def execPbDiffTimeout (s : State) : Host.Outcome State Fault Refusal := .next (pbDiffTimeout s)

/-- R456: no ACTIVE heartbeat within 100 ms of the entry into COMMISSION. -/
def joinTimeout (s : State) : State :=
  let heard := match s.btn.twin with | some h => h.role == .active && decide (s.sys.commAt ≤ s.btn.twinAt) | none => false
  if inPair s && s.sys.mode != .boot && !heard then fset Fld.BTN_HEALTH_JOINING 0 s else s

def execJoinTimeout (s : State) : Host.Outcome State Fault Refusal := .next (joinTimeout s)

/-- R383. -/
def joinComplete (s : State) : State := if inPair s && s.sys.mode != .boot then fset Fld.BTN_HEALTH_JOINING 0 s else s

def execJoinComplete (s : State) : Host.Outcome State Fault Refusal := .next (joinComplete s)

/-! ### Cycle records (R369 to R371) -/

/-- The record's identifiers of parameter blocks, and this unit's own (R370, R374). -/
def blockIdList (s : State) : List Word :=
  (List.range 24).map (fun i => Store.get (fun _ => 0) s.sys.blockIds i) ++ [BitVec.ofNat 32 s.saf.block.id, 0]

/-- The sender counts the bytes of its record (MIR_BUDGET). -/
def noteRecordSize (n : Nat) (s : State) : State :=
  fset Fld.MIR_BUDGET_PEAK (max n (fget s Fld.MIR_BUDGET_PEAK)) (fset Fld.MIR_BUDGET_LAST n s)

/-- A delta or refresh entry of a slot (R370). -/
def entryWord (s : State) (w slot : Nat) : Word :=
  BitVec.ofNat 32 (slot * 2 ^ 20 + lastPool s slot * 2 ^ 16 + lastFinal s slot * 2 ^ 13 +
    boolNat ((wheel s w).vern == some slot) * 2 ^ 12 + min 4095 ((cell s slot).tok / 2 ^ 27))

/-- A wheel's part of the remainder, and the wheel once its entries are taken (R371). -/
def wheelRec (w : Nat) (block : Bool) (s : State) : WheelRec × Wheel :=
  let x := wheel s w
  let slots := wheelSlots s w
  let ref := if wheelOn s w then ((slots ++ slots).drop x.refresh).take (min 8 slots.length) else []
  ({ cycle := cycleNo s, carry := x.carry.toF32, desc := x.desc, vern := x.vern, run := x.vernRun,
     nAvail := fget s (Fld.WHL_POOL_N_AVAIL w), blocked := block, deltas := (x.delta.take 24).map (entryWord s w),
     refresh := ref.map (entryWord s w) },
   { x with delta := x.delta.drop 24, refresh := if slots.isEmpty then 0 else (x.refresh + 8) % slots.length })

/-- Every wheel's record; waiting entries count in MIR_DELTA_CNT. -/
def wheelRecs (blocked : List Nat) (s : State) : List WheelRec × State :=
  (List.range 12).foldl (fun (r : List WheelRec × State) w =>
    let (rec, x) := wheelRec w (blocked.contains w) r.2
    (r.1 ++ [rec], bumpBy x.delta.length Reg.MIR_DELTA_CNT (setWheel w x r.2))) ([], s)

/-! ### Relay (R378 to R380) -/

/-- The positions that the twin's end reaches and this unit's does not, on a chain: from the twin's end, 0 to n − 1. -/
def strandedCount (s : State) (ch : ChainMap) : Nat :=
  let p := ch.portE
  if portState s p = PState.folded ∨ portState s p = PState.healing then
    let own := fget s (Fld.RING_PSTAT_REACHED p)
    min (ch.n - own) ((Store.get (fun _ => none) s.btn.twinReached p).getD (ch.n - own))
  else 0

/-- The relay budget in cells (R378): P in ticks. -/
def relayBudget (s : State) : Nat :=
  if lanesUp s = 2 then 512
  else if lanesUp s = 1 then min 512 ((890625 * periodTicks s / 500000 - 3872) / 8)
  else 0

/-- The cells counted as stranded stand in the order in which their chains became so (R378). -/
def updateStranded (s : State) : State :=
  let now := s.sys.comm.chains.filter (fun c => strandedCount s c != 0)
  let keep := s.btn.stranded.filter (fun n => now.any (fun c => c.num == n))
  let new := (List.range 128).filter (fun n => now.any (fun c => c.num == n) && !keep.contains n)
  { s with btn := { s.btn with stranded := keep ++ new } }

/-- The record names at most 64 chains with relayed cells (R370). -/
def relayDescMax : Nat := 64

/-- Grant one chain (R378, R379): its register, and the budget left. -/
def grantChain (num : Nat) (r : Nat × State) : Nat × State :=
  match chainOf r.2 num with
  | none => r
  | some ch =>
    let n := strandedCount r.2 ch
    let reach := fget r.2 (Fld.MIR_RLY_REACH num)
    let left := if r.2.btn.grants.length < relayDescMax then r.1 else 0
    let g := min n (min reach left)
    let state := if g = n then 1 else if g = 0 then 3 else 2
    let cause := if g = n then 0 else if g = min n reach then 2 else 1
    let s := fset (Fld.MIR_RLY_STATE num) state (fset (Fld.MIR_RLY_CAUSE num) cause
      (fset (Fld.MIR_RLY_STRANDED num) n (fset (Fld.MIR_RLY_GRANT num) g r.2)))
    let s := fset Fld.MIR_RLY_STAT_GRANTED (fget s Fld.MIR_RLY_STAT_GRANTED + g)
      (fset Fld.MIR_RLY_STAT_REFUSED (fget s Fld.MIR_RLY_STAT_REFUSED + (n - g)) (bumpBy (n - g) Reg.MIR_RLY_REF_CNT s))
    (r.1 - g, { s with btn := { s.btn with grants := Store.set (fun _ => 0) s.btn.grants num g } })

/-- The grants of a cycle, on the holder of a pair (R378). -/
def relayGrants (s : State) : State :=
  let s := { s with btn := { s.btn with grants := [] } }
  let s := s.sys.comm.chains.foldl (fun s c => fset (Fld.MIR_RLY_STATE c.num) 0 (fset (Fld.MIR_RLY_CAUSE c.num) 0
    (fset (Fld.MIR_RLY_STRANDED c.num) 0 (fset (Fld.MIR_RLY_GRANT c.num) 0 s)))) s
  let s := fset Fld.MIR_RLY_STAT_GRANTED 0 (fset Fld.MIR_RLY_STAT_REFUSED 0 s)
  if inPair s && s.sys.role == .active then
    let s := updateStranded s
    (s.btn.stranded.foldl (fun r n => grantChain n r) (relayBudget s, s)).2
  else s

/-- The commands of the granted positions (R370): positions count from the standby's end. -/
def relayWords (s : State) : List RelayWord :=
  s.btn.grants.flatMap (fun e =>
    match chainOf s e.1 with
    | none => []
    | some ch => (List.range e.2).map (fun p =>
        let posE := if s.sys.comm.unitB then p else ch.n - 1 - p
        ⟨e.1, p, match mapAt s e.1 posE with | some m => (cell s m.slot).cmd | none => blockWord false⟩))

/-- At the cutoff the holder sends the remainder of its record, the standby its whole record (R370). -/
def sendRecords (cut : Bool) (blocked : List Nat) (s : State) : State :=
  if !inPair s then s
  else match s.sys.role with
  | .active =>
    let rel := relayWords s
    let (ws, s) := wheelRecs blocked s
    let n := ((ws.map (fun w => w.deltas.length + w.refresh.length)).foldl (· + ·) 0)
    let s := noteRecordSize (32 + 1600 + 384 + 4 * n + 64 + 4 * s.btn.grants.length + 8 * rel.length + 32) s
    { s with btn := { s.btn with
        restOut := some (.rest true (cycleNo s) s.btn.mramEpoch cut ws (blockIdList s) rel) } }
  | .standby =>
    let granted := match s.btn.restIn with | some (.rest _ _ _ _ _ _ r) => r | _ => []
    let rpts := granted.filterMap (fun r =>
      match chainOf s r.chain with
      | none => none
      | some ch =>
        let posE := if s.sys.comm.unitB then ch.n - 1 - r.pos else r.pos
        match mapAt s r.chain posE with
        | some m => if (cell s m.slot).here && !(cell s m.slot).mirrored then some ⟨r.chain, r.pos, (cell s m.slot).lastRpt⟩ else none
        | none => none)
    noteRecordSize (48 + 12 * rpts.length)
      { s with btn := { s.btn with otherOut := some (.standby true (cycleNo s) s.btn.mramEpoch s.btn.rxTwin rpts) } }
  | .solo => s

/-- A stranded report of the standby reaches its slot (R379, R472). -/
def deliverMirrored (r : RelayWord) (s : State) : State :=
  match chainOf s r.chain with
  | none => s
  | some ch =>
    let west := !s.sys.comm.unitB
    let posE := if west then ch.n - 1 - r.pos else r.pos
    match mapAt s r.chain posE with
    | none => s
    | some m =>
      if crc8Ok r.word && !s.esc.cutDone then
        deliver m.slot r.word (sinceTk s) (endPort ch west) r.pos west true s
      else s

/-- The standby notes the command of a relayed cell as the active unit's (R369). -/
def noteRelayed (r : RelayWord) (s : State) : State :=
  match chainOf s r.chain with
  | none => s
  | some ch =>
    match mapAt s r.chain (if s.sys.comm.unitB then ch.n - 1 - r.pos else r.pos) with
    | some m => setCell m.slot { cell s m.slot with twinCmd := some r.word } s
    | none => s

/-- R370: a part of the twin's record arrives; each is published whole or not at all. -/
def mirrorRecordReceive (p : MirrorPart) (s : State) : State :=
  if !inPair s || lanesUp s = 0 then s
  else match p with
  | .engine ok _ _ _ => if ok then { s with btn := { s.btn with engIn := some p, engPrev := s.btn.engIn } } else bump Reg.MIR_ERR_CNT s
  | .rest ok cyc _ _ _ ids rel =>
    if !ok then bump Reg.MIR_ERR_CNT s
    else
      let s := { s with btn := { s.btn with restIn := some p } }
      let s := fset Fld.MIR_STATUS_SYNC (boolNat (match s.btn.engIn with
        | some (.engine _ c _ _) => c == cyc | _ => false)) s
      if s.sys.role = .standby then
        let diff := ids != blockIdList s
        let s := { s with btn := { s.btn with pbDiffers := diff } }
        let s := if diff then s else fset Fld.BTN_HEALTH_PB_DIFF 0 s
        rel.foldl (fun s r => noteRelayed r s) s
      else s
  | .standby ok _ _ _ rpts =>
    if !ok then bump Reg.MIR_ERR_CNT s
    else
      let s := fset Fld.MIR_STATUS_SYNC 1 { s with btn := { s.btn with otherIn := some p } }
      rpts.foldl (fun s r => deliverMirrored r s) s

/-- R359: the one-way latency of the mirror in ns; above 1.2 µs MIR_SLOW is raised. -/
def noteLatency (ns : Nat) (s : State) : State :=
  let s := fset Fld.MIR_STATUS_LAT (min ns 65535) (fset Fld.MIR_STATUS_SLOW (boolNat (decide (1200 < ns))) s)
  condIs (decide (1200 < ns)) 42 0 0x33 s

def execMirrorRecordReceive (part : MirrorPart) (lat : Nat) (s : State) : Host.Outcome State Fault Refusal :=
  .next (if !inPair s || lanesUp s = 0 then s else mirrorRecordReceive part (noteLatency lat s))

/-! ### Comparison (R372) -/

/-- The active unit's count for a wheel: commands with POS or NEG in S0 or S1 (R372). -/
def activeCount (s : State) (w : Nat) : Nat :=
  ((wheelSlots s w).filter (fun i =>
    match (cell s i).twinCmd with
    | some c => St.inserted (dbits c 63 61) || St.inserted (dbits c 60 58)
    | none => false)).length

/-- The active unit's engine records of cycle `k`, if its engine part arrived. -/
def engineRecs (s : State) (k : Word) : Option (List EngineRec) :=
  match s.btn.engIn, s.btn.engPrev with
  | some (.engine _ c _ es), p =>
    if c = k then some es
    else (match p with | some (.engine _ c' _ es') => if c' = k then some es' else none | _ => none)
  | _, _ => none

/-- The record of cycle `k` is complete, and the cycle was not cut. -/
def recordFor (s : State) (k : Word) : Bool :=
  match s.btn.restIn with
  | some (.rest _ c _ cut _ _ _) => c == k && (engineRecs s k).isSome && !cut
  | _ => false

/-- R372: the comparison at the cutoff of cycle k + 1 of what both units planned in cycle k. `outDiff` says that an
engine output of the two units differs by more than its tolerance, `skip` that an engine's input was HELD. The 16 cycles
are counted from the unit's READY of R374. -/
def compareCycle (outDiff skip : Bool) (s : State) : State :=
  if !inPair s || s.sys.role != .standby then s
  else if !btnReady s then bump Reg.BTN_CMPSKIP_CNT { s with btn := { s.btn with sinceReady := 0 } }
  else if s.btn.wasCut || !recordFor s (cycleNo s - 1) || skip || decide (s.btn.sinceReady < 16) ||
      (wheelsOn s).any (fun w => s.btn.shadowBlk.contains w) then
    bump Reg.BTN_CMPSKIP_CNT { s with btn := { s.btn with sinceReady := s.btn.sinceReady + 1 } }
  else
    let bad := outDiff || (wheelsOn s).any (fun w =>
      let a := activeCount s w
      let b := Store.get (fun _ => 0) s.btn.shadow w
      decide (a + 1 < b) || decide (b + 1 < a))
    let s := if bad then bump Reg.BTN_DIS_CNT s else s
    { s with btn := { s.btn with
        disRun := if bad then s.btn.disRun + 1 else 0, sinceReady := s.btn.sinceReady + 1 } }

/-- Keep what this unit latched now, for the comparison of the next cycle. -/
def keepShadow (cut : Bool) (blocked : List Nat) (s : State) : State :=
  { s with btn := { s.btn with
      shadow := (wheelsOn s).foldl (fun m w => Store.set (fun _ => 0) m w (fget s (Fld.WHL_POOL_N_INS w))) [],
      shadowBlk := blocked, wasCut := cut } }

end Sys2Proof.Machine
end

