-- ==== Sys2Proof/Machine/Stage.lean ====
section
/-! DEFINITION. Parameter-block writes of the management plane (R13, R15, R16): a write is checked when it is made, waits
in `staged`, and is adopted at a cycle boundary. -/

namespace Sys2Proof.Machine

/-- Every write of HKA_INJ_REQ is a request of its own (R279). -/
def queuesWrites (a : Nat) : Bool := a == Reg.HKA_INJ_REQ

/-- A committed write waits for its boundary, and replaces one of the same register that still waits (R16, R484). -/
def stageWrite (o : Origin) (a : Nat) (v : Word) (s : State) : State :=
  if queuesWrites a then { s with staged := s.staged ++ [⟨s.time.cnt, a, v, o⟩] }
  else
    let s := supersede (s.staged.any (fun w => w.addr == a)) a s
    { s with staged := s.staged.filter (fun w => w.addr != a) ++ [⟨s.time.cnt, a, v, o⟩] }

/-- The value a register will have once the writes that wait are adopted. -/
def latest (s : State) (a : Nat) : Word :=
  match s.staged.reverse.find? (fun w => w.addr == a) with
  | some w => w.val
  | none => regGet s a

/-- Check a write (R457) and stage it. -/
def checkStage (a : Nat) (o : Origin) (checks : List (Bool × Status)) (val : Word) (s : State) : State × Status :=
  checkWrite a o checks (stageWrite o a val) s

/-- A commit is adopted at a boundary at least 200 ns later (R15). -/
def ripe (s : State) (at_ : Nat) : Bool := decide (at_ + Config.adoptTicks ≤ s.time.cnt)

end Sys2Proof.Machine
end

