-- ==== Sys2Proof/Machine/Fio.lean ====
section
/-! DEFINITION. Field inputs and outputs (18_field_io.md). What happens on the field die reaches the logic side with the
next valid field frame, and what the logic side commands reaches the field die with the next one in that direction. The
manual gives a frame's check code and what it carries, not its layout: a frame is its octets, of which only the check code
is read, and the measurements that it reports. -/

namespace Sys2Proof.Machine

def crc16Bit (c : Nat) : Nat := if c ≥ 0x8000 then Nat.xor (2 * c % 0x10000) 0x1021 else 2 * c

/-- One octet of the CRC-16 of R441. -/
def crc16Byte (c : Nat) (b : Byte) : Nat :=
  crc16Bit (crc16Bit (crc16Bit (crc16Bit (crc16Bit (crc16Bit (crc16Bit (crc16Bit (Nat.xor c (b.toNat * 256)))))))))

/-- The CRC-16 of R441. -/
def crc16 (bs : List Byte) : Half := BitVec.ofNat 16 (bs.foldl crc16Byte 0xFFFF)

/-- The lowest bits of a mask as given by `f`. -/
def maskBits (w : Nat) (f : Nat → Bool) : BitVec w := BitVec.ofNat w ((List.range w).foldl (fun m i => setBit m i (f i)) 0)

/-! ### Outputs (R438, R440, R442, R445, R446) -/

/-- The channel that governs output `n` (R438), by FIO_DQ_PAR. -/
def governor (par : Word) (n : Nat) : Nat :=
  if par.getLsbD (8 + n / 4) then n / 4 * 4 else if par.getLsbD (n / 2) then n / 2 * 2 else n

/-- The word of the user output table that drives outputs, as last published (R440). -/
def dqUserWord (s : State) : Word := memReadWord s (Config.scmBase + 0x24000 + 4 * fget s Fld.FIO_DQ_UWORD_WORD)

/-- The commanded states (R438, R440, R446). -/
def dqCommand (s : State) : BitVec 16 :=
  maskBits 16 (fun n =>
    let g := governor (regGet s Reg.FIO_DQ_PAR) n
    let on := if (regGet s Reg.FIO_DQ_SRC).getLsbD g then (dqUserWord s).getLsbD g else (regGet s Reg.FIO_DQ).getLsbD g
    on && !(s.sys.mode == .lockout && (regGet s Reg.FIO_DQ_LOCK).getLsbD g))

/-- The safe state of output `n` (R442). -/
def FieldDie.safeState (f : FieldDie) (n : Nat) : Bool :=
  match fieldGet f.safe (2 * governor f.par n + 1) (2 * governor f.par n) with
  | 0 => false
  | 1 => true
  | _ => f.cmd.getLsbD n

/-- The outputs of the field die (R442, R445). -/
def FieldDie.outs (f : FieldDie) : BitVec 16 :=
  if !f.configured || f.supOff then 0
  else if f.linkSafe then maskBits 16 f.safeState
  else f.cmd

/-! ### Events on the field die (R435 to R439, R442, R444) -/

def setField (f : FieldDie) (s : State) : State := { s with fio := { s.fio with field := f } }

/-- R435: input `n` has held its new state for its filter time. -/
def execFieldInputChange (n : Fin 32) (on : Bool) (s : State) : Host.Outcome State Fault Refusal :=
  let f := s.fio.field
  .next (setField { f with di := maskBits 32 (fun i => if i = n.val then on else f.di.getLsbD i) } s)

/-- R436: a wire break, on an input that the field die checks. -/
def execFieldWireBreak (n : Fin 32) (s : State) : Host.Outcome State Fault Refusal :=
  let f := s.fio.field
  let b : BitVec 32 := 1 <<< n.val
  .next (if f.wbEn.getLsbD n.val && !f.wb.getLsbD n.val then
      setField { f with wb := f.wb ||| b, wbSeen := f.wbSeen ||| b, wiring := f.wiring ++ [n.val] } s
    else s)

def execFieldWireBreakClear (n : Fin 32) (s : State) : Host.Outcome State Fault Refusal :=
  let f := s.fio.field
  .next (setField { f with wb := f.wb &&& ~~~((1 : BitVec 32) <<< n.val) } s)

/-- R437: the output stays commanded on. -/
def execFieldOutputOvercurrent (n : Fin 16) (s : State) : Host.Outcome State Fault Refusal :=
  let f := s.fio.field
  .next (setField { f with
    ocSeen := f.ocSeen ||| (1 : BitVec 16) <<< n.val, ocEvents := f.ocEvents + 1, wiring := f.wiring ++ [n.val] } s)

/-- R439: external voltage at an output commanded off. -/
def execFieldOutputExtVoltage (n : Fin 16) (s : State) : Host.Outcome State Fault Refusal :=
  let f := s.fio.field
  .next (if f.cmd.getLsbD n.val then s
    else setField { f with extvSeen := f.extvSeen ||| (1 : BitVec 16) <<< n.val, wiring := f.wiring ++ [n.val] } s)

def execFieldSupplyWarn (s : State) : Host.Outcome State Fault Refusal :=
  .next (setField { s.fio.field with warn := true } s)

def execFieldSupplyWarnClear (s : State) : Host.Outcome State Fault Refusal :=
  .next (setField { s.fio.field with warn := false } s)

/-- R444: every output off, the latch set; SUP_OK clears. -/
def execFieldSupplyOff (s : State) : Host.Outcome State Fault Refusal :=
  let f := s.fio.field
  .next (if f.supOff && !f.supOk then s
    else setField { f with supOff := true, supOk := false, supLatches := f.supLatches + 1 } s)

/-- R444: FV+ is back for 10 ms after SUPPLY_OFF. -/
def execFieldSupplyOk (s : State) : Host.Outcome State Fault Refusal :=
  let f := s.fio.field
  .next (if f.supOff then setField { f with supOk := true } s else s)

/-- R442: no valid frame for FIO_LINK_TMO on the field die. -/
def execFieldLinkSilenceField (s : State) : Host.Outcome State Fault Refusal :=
  let f := s.fio.field
  .next (if f.up then setField { f with up := false, linkSafe := true, silences := f.silences + 1 } s else s)

/-! ### The field link (R441, R443) -/

/-- A frame from the logic side: it brings the commanded states, the configuration and the re-arm commands. A frame whose
CRC fails is discarded and reported. -/
def execFieldFrameToField (body : List Byte) (crc : Half) (s : State) : Host.Outcome State Fault Refusal :=
  let f := s.fio.field
  .next (if s.sys.mode == .boot then s
    else if crc16 body != crc then setField { f with frameErrs := f.frameErrs + 1 } s
    else
      let f := { f with
        up := true, configured := true, cmd := dqCommand s, safe := regGet s Reg.FIO_DQ_SAFE,
        par := regGet s Reg.FIO_DQ_PAR, wbEn := regGet s Reg.FIO_DI_WB, wb := f.wb &&& regGet s Reg.FIO_DI_WB,
        supOff := f.supOff && !(s.fio.supRearm && f.supOk), linkSafe := f.linkSafe && !s.fio.linkRearm }
      { s with fio := { s.fio with field := f, supRearm := false, linkRearm := false } })

/-- The master of the field link (log entry 10). -/
def fieldMaster : Nat := 0x37

/-- A discarded frame raises FIELD_LINK for one clock: an occurrence, unless a silence raises it already (R403, R405). -/
def frameFault (inj : Bool) (s : State) : State :=
  if raisedSrc s 49 then s else occurInj inj 49 0 fieldMaster 0 s

/-- The inputs are valid (R443, R444). -/
def FieldDie.inputsValid (f : FieldDie) : Bool := !(f.supOff && !f.supOk)

/-- What a valid frame from the field die brings into the registers, and the occurrences it reports. -/
def fieldReport (fv term oc extv : Half) (s : State) : State :=
  let f := s.fio.field
  let status := fv.toNat * 65536 + boolNat f.supOk * 16 + boolNat f.supOff * 8 + boolNat f.warn * 4 +
    boolNat f.linkSafe * 2 + 1
  let s := regSet Reg.FIO_STATUS (BitVec.ofNat 32 status) s
  let s := regSet Reg.FIO_DI f.di s
  let s := regSet Reg.FIO_DI_VALID (if f.inputsValid then 0xFFFFFFFF else 0) s
  let s := regSet Reg.FIO_WB (regGet s Reg.FIO_WB ||| f.wbSeen) s
  let s := regSet Reg.FIO_DQ_FLT (regGet s Reg.FIO_DQ_FLT ||| (f.extvSeen ++ f.ocSeen : BitVec 32)) s
  let s := bumpBy f.ocEvents Reg.FIO_OC_CNT (bumpBy f.silences Reg.FIO_LINK_LOSS_CNT (bumpBy f.supLatches Reg.FIO_SUPPLY_OFF_CNT s))
  let s := { s with fio := { s.fio with
    oc := oc, extv := extv, wb := f.wb, term := term,
    field := { f with wiring := [], wbSeen := 0, ocSeen := 0, ocEvents := 0, extvSeen := 0, silences := 0, frameErrs := 0,
                      supLatches := 0 } } }
  let s := clearCond 49 1 s
  let s := (List.range f.frameErrs).foldl (fun s _ => frameFault false s) s
  let s := f.wiring.foldl (fun s n => occur (detect 51 n fieldMaster 0) s) s
  condIs (f.supOff && !f.supOk) 50 1 fieldMaster (condIs f.warn 50 0 fieldMaster s)

/-- A frame from the field die (R441); an injection of checker 6 makes it fail (R411). -/
def execFieldFrameToLogic (body : List Byte) (crc : Half) (fv term oc extv : Half) (s : State) :
    Host.Outcome State Fault Refusal :=
  .next (if s.sys.mode == .boot then s
    else
      let (inj, s) := takeInjection 6 0 s
      if inj || crc16 body != crc then frameFault inj (bump Reg.FIO_CRC_CNT s)
      else fieldReport fv term oc extv s)

/-- R443: no valid frame for FIO_LINK_TMO on the logic side. Every input keeps its last value. -/
def execFieldLinkSilenceLogic (s : State) : Host.Outcome State Fault Refusal :=
  .next (if s.sys.mode == .boot || Store.get (fun _ => false) s.fco.raised (Fco.key 49 1) then s
    else
      let s := bump Reg.FIO_LINK_LOSS_CNT (regSet Reg.FIO_DI_VALID 0 (fset Fld.FIO_STATUS_LINK_OK 0 s))
      raiseCond 49 1 fieldMaster 0 s)

/-! ### Writes (R440, R444, R446) -/

/-- The range of each FIO register (register table). -/
def fioLegal (a : Nat) (v : Word) : Bool :=
  if a = Reg.FIO_LINK_TMO then decide (5 ≤ fieldGet v 9 0 ∧ fieldGet v 9 0 ≤ 1000)
  else if a = Reg.FIO_DI_FILT then (List.range 4).all (fun g => decide (fieldGet v (8 * g + 7) (8 * g) ≤ 200))
  else if a = Reg.FIO_DQ_PAR then (List.range 4).all (fun q => !(v.getLsbD (8 + q)) || fieldGet v (2 * q + 1) (2 * q) == 0)
  else if a = Reg.FIO_DQ_SAFE then (List.range 16).all (fun n => fieldGet v (2 * n + 1) (2 * n) != 3)
  else true

/-- The registers that R446 leaves to COMMISSION. -/
def fioCommissionOnly : List Nat :=
  [Reg.FIO_DI_CFG, Reg.FIO_DI_FILT, Reg.FIO_DQ_PAR, Reg.FIO_DQ_SAFE, Reg.FIO_DQ_LOCK, Reg.FIO_LINK_TMO, Reg.FIO_DQ_UWORD]

/-- The checks of a write to block FIO. -/
def fioChecks (a : Nat) (v : Word) (o : Origin) (s : State) : List (Bool × Status) :=
  [(roleOrCore .operator o, .notPermitted),
   (if a ∈ fioCommissionOnly then s.sys.mode == .commission else s.sys.mode != .boot, .illegalInMode),
   (fioLegal a v, .badParam),
   (!(a == Reg.FIO_CTRL && v.getLsbD 0) || fbit s Fld.FIO_STATUS_SUP_OK, .checkFail),
   (!(a == Reg.FIO_CTRL && v.getLsbD 1) || fbit s Fld.FIO_STATUS_LINK_OK, .checkFail)]

/-- A write to a register of block FIO: checked, and staged for the next boundary. FIO_CMD_STAT shows the status of an
FIO_CTRL command. -/
def fioWrite (o : Origin) (a : Nat) (v : Word) (s : State) : State × Status :=
  let (s, st) := checkStage a o (fioChecks a v o s) v s
  (if a = Reg.FIO_CTRL then fset Fld.FIO_CMD_STAT_STATUS st.code s else s, st)

/-- Adopt a write to FIO_CTRL: the next frame to the field die carries the command. -/
def adoptFioCtrl (v : Word) (s : State) : State :=
  { s with fio := { s.fio with supRearm := s.fio.supRearm || v.getLsbD 0, linkRearm := s.fio.linkRearm || v.getLsbD 1 } }

def execSupRearm (o : Origin) (s : State) : Host.Outcome State Fault Refusal := .next (fioWrite o Reg.FIO_CTRL 1 s).1

def execLinkRearm (o : Origin) (s : State) : Host.Outcome State Fault Refusal := .next (fioWrite o Reg.FIO_CTRL 2 s).1

def execFioDqWrite (o : Origin) (val : Word) (s : State) : Host.Outcome State Fault Refusal :=
  .next (fioWrite o Reg.FIO_DQ val s).1

/-! ### The image (R447) -/

/-- Publish the field input image (R17, R18, R447). -/
def publishField (s : State) : State :=
  let st := regGet s Reg.FIO_STATUS
  let flags := st.toNat / 65536 * 65536 + fieldGet st 3 3 * 4 + fieldGet st 2 2 * 2 + fieldGet st 0 0
  putBytes (Config.scmBase + 0x20E00)
    (wordsBytes [cycleNo s, regGet s Reg.FIO_DI, regGet s Reg.FIO_DI_VALID, s.fio.wb, (s.fio.extv ++ s.fio.oc : BitVec 32),
      BitVec.ofNat 32 flags, 0, 0, cycleNo s, (dqCommand s ++ s.fio.term : BitVec 32), 0, 0, 0, 0, 0, 0]) s

end Sys2Proof.Machine
end

