-- ==== Sys2Proof/Machine/Filter.lean ====
section
/-! DEFINITION. The filter and decimation chain (11_filter_chain.md): one raw sample through the CIC, the FIR and the DC
block; the placement of outputs on the cycle grid; the measurement table; synchronising resets; configuration. -/

namespace Sys2Proof.Machine

/-! ### Channels and their settings -/

def chan (s : State) (n : Nat) : Chan := Store.get (fun _ => Chan.reset) s.front.chans n

def setChan (n : Nat) (c : Chan) (s : State) : State :=
  { s with front := { s.front with chans := Store.set (fun _ => Chan.reset) s.front.chans n c } }

/-- The channel is the even channel of an interleaved pair, or the odd one, which delivers nothing (R259). -/
def evenIl (s : State) (n : Nat) : Bool := n % 2 == 0 && fbit s (Fld.FAD_CH_CFG_IL n)
def oddIl (s : State) (n : Nat) : Bool := n % 2 == 1 && fbit s (Fld.FAD_CH_CFG_IL (n - 1))

/-- The channel delivers raw samples (R259, R260). -/
def live (s : State) (n : Nat) : Bool := fbit s (Fld.FAD_CH_CFG_EN n) && !oddIl s n

/-- T_raw in ns (R284). -/
def tRaw (s : State) (n : Nat) : Nat := if evenIl s n then 50 else 100

def isSv (s : State) (n : Nat) : Bool := fbit s (Fld.FLT_CH_CFG_SRC n)
def isScs (s : State) (n : Nat) : Bool := fbit s (Fld.FLT_CH_CFG_SCS n)
def outM (s : State) (n : Nat) : Nat := fget s (Fld.FLT_CH_CFG_M n)
def cicN (s : State) (n : Nat) : Nat := fget s (Fld.FLT_CH_CFG_ORDER n)
def cicR (s : State) (n : Nat) : Nat := fget s (Fld.FLT_CH_CFG_DEC n)
def firTaps (s : State) (n : Nat) : Nat := fget s (Fld.FLT_CH_CFG_NTAP n)

/-- Samples per second of a stream (R298). -/
def svRate (s : State) (st : Nat) : Nat :=
  match fget s (Fld.ETH_SV_CFG_RATE st) with
  | 0 => 4800 | 1 => 14400 | _ => 96000

def svStream (s : State) (n : Nat) : Nat := fget s (Fld.FLT_SV_STREAM n)

/-- T_d of a local channel in ns (R284). -/
def tdNs (s : State) (n : Nat) : Nat := cicR s n * tRaw s n

/-- The foreground calibration holds the channel (R263). -/
def calibrating (s : State) (n : Nat) : Bool := fbit s Fld.FAD_STATUS_FGCAL && s.front.calMask.testBit n

/-- 2⁻¹⁶ ns in a ns. -/
def nsq (n : Nat) : Nat := n * 65536

/-- G_res in 2⁻¹⁶ ns (R290, R298). -/
def gRes (s : State) (n : Nat) : Nat :=
  if isSv s n then
    nsq (fget s (Fld.FLT_SV_LAG_LAG n) * 1000) + (roundFree (8 * nsq 1000000000 : Nat) (svRate s (svStream s n))).toNat
  else nsq (8 * tdNs s n + 200)

/-- GD in 2⁻¹⁶ ns (R293, R298). -/
def groupDelay (s : State) (n : Nat) : Nat :=
  if isSv s n then nsq (fget s (Fld.FLT_SV_DELAY_DELAY n)) + gRes s n
  else nsq 56 + nsq (cicN s n * (cicR s n - 1) * tRaw s n) / 2 + nsq ((firTaps s n - 1) * tdNs s n) / 2 + gRes s n

/-- N_fill (R302): ⌈W_span × M / P⌉. -/
def nFill (s : State) (n : Nat) : Nat :=
  let p := 2 * periodTicks s
  if isScs s n then 1
  else if isSv s n then
    let r := svRate s (svStream s n)
    (((fget s (Fld.FLT_SV_LAG_LAG n) * 1000 * r + 16 * 1000000000) * outM s n) + (p * r - 1)) / (p * r)
  else
    let w := 200 + (16 + firTaps s n - 1) * tdNs s n + cicN s n * (cicR s n - 1) * tRaw s n
    (w * outM s n + (p - 1)) / p

/-- FLT_FILL and FLT_GD follow the configuration and P. -/
def showFilter (n : Nat) (s : State) : State :=
  let g := groupDelay s n
  let s := fset (Fld.FLT_FILL_N_FILL n) (nFill s n) s
  if isScs s n then s
  else regSet (Reg.FLT_GD_0 n) (BitVec.ofNat 32 g) (regSet (Reg.FLT_GD_1 n) (BitVec.ofNat 32 (g / 2 ^ 32)) s)

/-! ### The stages of one channel -/

/-- Saturation at −131,072 and +131,071.999 codes (R283), in 2⁻¹² codes. -/
def saturate (x : Int) : Int × Bool :=
  if x < -(2 ^ 29 : Int) then (-(2 ^ 29 : Int), true) else if (2 ^ 29 - 1 : Int) < x then (2 ^ 29 - 1, true) else (x, false)

/-- N integrators in cascade. -/
def cicIntegrate : List Int → Int → List Int
  | [], _ => []
  | a :: as, x => (a + x) :: cicIntegrate as (a + x)

/-- N combs in cascade: the new comb memories and the output. -/
def combs : List Int → Int → List Int × Int
  | [], x => ([], x)
  | c :: cs, x => let (m, y) := combs cs (x - c); (x :: m, y)

def padTo (n : Nat) (l : List Int) : List Int := (l ++ List.replicate n 0).take n

/-- The CIC decimator on one raw sample (R284): a decimated sample in 2⁻¹² codes at the end of a period. -/
def cicStep (order dec : Nat) (x : Int) (c : Chan) : Chan × Option Int :=
  let acc := cicIntegrate (padTo order c.acc) x
  if c.dec + 1 < dec then ({ c with acc := acc, dec := c.dec + 1 }, none)
  else
    let (m, y) := combs (padTo order c.comb) (acc.getLastD x)
    ({ c with acc := acc, comb := m, dec := 0 }, some (roundNear (y * 4096) (dec ^ order)))

/-- The tap h[i] of a symmetric FIR (R285), Q1.23. -/
def firTap (s : State) (n taps i : Nat) : Int :=
  let j := if i < (taps + 1) / 2 then i else taps - 1 - i
  sext 24 (fget s (Fld.FLT_FIR_COEF n j))

/-- The FIR on its inputs, newest first (R285). -/
def firOut (s : State) (n : Nat) (xs : List Int) : Int :=
  let taps := firTaps s n
  roundFree ((xs.zipIdx.map (fun (e : Int × Nat) => firTap s n taps e.2 * e.1)).foldl (· + ·) 0) (2 ^ 23)

/-- π in 10⁻³⁰. -/
def piParts : Nat := 3141592653589793238462643383279

/-- α = 2π × f_c × T_d of the DC block (R287) in 2⁻⁴⁰, by corner in 0.01 Hz and T_d in ns; the manual gives no precision
for it (log entry 21). -/
def dcbAlpha (corner td : Nat) : Int := roundFree ((2 * piParts * corner * td * 2 ^ 40 : Nat) : Int) (10 ^ 41)

/-- The DC block on one value (R287, R288): its output, and e after it. -/
def dcBlock (s : State) (n : Nat) (x e : Int) : Int × Int :=
  let y := x - roundFree e (2 ^ 28)
  if fbit s (Fld.FLT_DCB_FREEZE n) then (y, e)
  else (y, e + roundFree (dcbAlpha (fget s (Fld.FLT_DCB_CORNER n)) (tdNs s n) * (x * 2 ^ 28 - e)) (2 ^ 40))

/-- A code in 2^k parts as volts, FP32 (R296): 78.125 µV is 1/12,800 V. -/
def codeVolts (x : Int) (parts : Nat) : Word := Frac.toF32 ⟨x, parts * 12800⟩

/-- A decimated sample passes the FIR and the DC block into the history (R282). -/
def decimated (n t : Nat) (x : Int) (c : Chan) (s : State) : State :=
  let fir := (x :: c.fir).take (firTaps s n)
  let (y, sat1) := saturate (firOut s n fir)
  let (z, e) := if fbit s (Fld.FLT_DCB_EN n) then dcBlock s n y c.est else (y, c.est)
  let (z, sat2) := saturate z
  let c := { c with fir := fir, est := e, hist := ⟨t, z, 0, sat1 || sat2⟩ :: c.hist }
  let s := setChan n c s
  if fbit s (Fld.FLT_DCB_EN n) then regSet (Reg.FLT_DCB_EST n) (codeVolts e (2 ^ 40)) s else s

/-- A raw sample of a local channel enters its chain. -/
def chainSample (n : Nat) (code : Int) (s : State) : State :=
  let c := chan s n
  let t := timeAt s s.time.cnt
  if isSv s n then s
  else if isScs s n then setChan n { c with hist := ⟨t, code * 4096, 0, false⟩ :: c.hist } s
  else
    match cicStep (cicN s n) (cicR s n) code c with
    | (c, none) => setChan n c s
    | (c, some x) => decimated n t x c s

/-! ### Placement on the cycle grid (R289 to R294) -/

/-- A resampler phase on 16 inputs, oldest first. -/
def phaseSum (p : Nat) (xs : List Int) : Int :=
  (xs.zipIdx.map (fun (e : Int × Nat) => Config.resampler p e.2 * e.1)).foldl (· + ·) 0

/-- A history with the zeros before its oldest input, `td` apart, that a reset leaves (R301): as many as a span of 16
inputs and 200 ns can take. -/
def withZeros (h : List Sample) (td : Nat) : List Sample :=
  match h.getLast? with
  | none => h
  | some e => h ++ (List.range 24).map (fun j => ⟨e.t - (j + 1) * td, 0, 0, false⟩)

/-- The 8 inputs at or before τ and the 8 after, oldest first, zero where the history is zeroed (R290, R301). -/
def resampleInputs (h : List Sample) (tau : Nat) : List Sample :=
  let zero : Sample := ⟨0, 0, 0, false⟩
  let b := ((h.filter (fun e => decide (e.t ≤ tau))).take 8).reverse
  let a := ((h.filter (fun e => decide (tau < e.t))).reverse).take 8
  List.replicate (8 - b.length) zero ++ b ++ a ++ List.replicate (8 - a.length) zero

/-- The fractional position of τ between its inputs, in 2⁻³² (R290); `td` is T_d, for a history that does not reach. -/
def resamplePos (h : List Sample) (tau td : Nat) : Nat :=
  let t0 := (h.find? (fun e => decide (e.t ≤ tau))).map (fun e => e.t)
  let t1 := (h.reverse.find? (fun e => decide (tau < e.t))).map (fun e => e.t)
  let (lo, hi) := match t0, t1 with
    | some a, some b => (a, b)
    | some a, none => (a, a + td)
    | none, some b => (b - td, b)
    | none, none => (tau, tau + 1)
  min (2 ^ 32 - 1) ((tau - lo) * 2 ^ 32 / max 1 (hi - lo))

/-- The resampler (R290): phase from bits [31:27], linear between phases with bits [26:11]. The unit of the coefficients
is 2⁻³² (log entry 21). -/
def resample (hist : List Sample) (tau td : Nat) : Int × Bool :=
  let h := withZeros hist td
  let ins := resampleInputs h tau
  let f := resamplePos h tau td
  let p := f / 2 ^ 27
  let l := f / 2 ^ 11 % 2 ^ 16
  let xs := ins.map (fun e => e.x)
  let (y, sat) := saturate (roundFree (phaseSum p xs * (2 ^ 16 - l : Nat) + phaseSum (p + 1) xs * l) (2 ^ 48))
  (y, sat || ins.any (fun e => e.sat))

/-! ### Sampled values (R298, R299) -/

def svSamples (s : State) (st : Nat) : List SvSample := Store.get (fun _ => []) s.front.sv st

def setSvSamples (st : Nat) (l : List SvSample) (s : State) : State :=
  { s with front := { s.front with sv := Store.set (fun _ => []) s.front.sv st l } }

/-- The instant of stream sample `idx` for channel `n`, in 2⁻¹⁶ ns. -/
def svTime (s : State) (n idx : Nat) : Nat :=
  nsq 1000000000 * idx / svRate s (svStream s n) - nsq (fget s (Fld.FLT_SV_DELAY_DELAY n))

/-- The first stream sample whose instant for channel `n` is `t` or later. -/
def svFirst (s : State) (n t : Nat) : Nat :=
  ((t + nsq (fget s (Fld.FLT_SV_DELAY_DELAY n))) * svRate s (svStream s n) + (nsq 1000000000 - 1)) / nsq 1000000000

/-- Enter stream sample `idx` into the history, as received by CNT `by_`, or as a copy of the previous one (R299). -/
def svEnter (n idx by_ : Nat) (s : State) : State :=
  let c := chan s n
  let got := (svSamples s (svStream s n)).find? (fun e => e.idx == idx && decide (e.at_ ≤ by_))
  let prev := match c.hist with | h :: _ => h.x | [] => 0
  let t := svTime s n idx
  let copy := fun (cause : Nat) => bump (Reg.FLT_SVMISS_CNT n) (setChan n
    { c with hist := ⟨t, prev, cause, false⟩ :: c.hist, svNext := some (idx + 1), svMiss := c.svMiss + 1 } s)
  match got with
  | some e =>
    let v := e.elems.getD (fget s (Fld.FLT_SV_ELEM n)) (0, true)
    if v.2 then copy 5
    else
      let (x, sat) := saturate (v.1 * 4096)
      setChan n { c with hist := ⟨t, x, 0, sat⟩ :: c.hist, svNext := some (idx + 1), svMiss := 0 } s
  | none => copy 4

/-- Enter the stream samples that an output at τ needs. -/
def svFill (n tau by_ : Nat) (s : State) : State :=
  let r := svRate s (svStream s n)
  let i0 := (tau + nsq (fget s (Fld.FLT_SV_DELAY_DELAY n))) * r / nsq 1000000000
  let from_ := match (chan s n).svNext with | some i => max i (i0 - 7) | none => i0 - 7
  (List.range (i0 + 9 - from_)).foldl (fun s j => svEnter n (from_ + j) by_ s) s

/-! ### The reset of a channel (R301, R302, R304) -/

/-- t_r: the first raw sampling instant at least 200 ns after CNT `b` (R301). -/
def resetInstant (b : Nat) : Nat := (b + 100 + 49) / 50 * 50

/-- R301 for one channel at the corrected time `t` of its t_r, and the fill of R302: a sampled-values channel starts with
the samples of that instant on. -/
def resetChan (t n : Nat) (s : State) : State :=
  let c := chan s n
  let e := if fbit s (Fld.FLT_DCB_RST n) then 0 else c.est
  let next := if isSv s n then some (svFirst s n t) else none
  let c := { c with acc := [], comb := [], dec := 0, fir := [], hist := [], resetAt := none }
  let s := setChan n { c with est := e, svNext := next, svMiss := 0 } s
  let s := if fbit s (Fld.FLT_DCB_RST n) then regSet (Reg.FLT_DCB_EST n) 0 s else s
  fset (Fld.FLT_STATUS_FILL_LEFT n) (nFill s n) s

/-- The boundary at CNT `b` resets this channel alone (R304); a synchronising reset that waits covers it, and so does an
earlier reset of its own (R303). -/
def askReset (b n : Nat) (s : State) : State :=
  if !live s n || s.front.syncAt.isSome || (chan s n).resetAt.isSome then s
  else setChan n { chan s n with resetAt := some (resetInstant b) } s

/-! ### One grid output -/

/-- SETTLING and its cause (R295, R299, R302, R303) for an output whose inputs have the cause `bad`. -/
def settleCause (s : State) (n bad : Nat) : Nat :=
  if !live s n then 2
  else if calibrating s n then 3
  else if 0 < fget s (Fld.FLT_STATUS_FILL_LEFT n) then 1
  else if bad ≠ 0 then bad
  else if isSv s n && !fbit s (Fld.FLT_STATUS_SV_SYNC n) then 6
  else 0

/-- The value of an output at grid instant `tg` (2⁻¹⁶ ns): FP32, its bad cause, saturation, and its split. -/
def gridValue (n tg : Nat) (s : State) : Word × Nat × Bool × Nat :=
  let c := chan s n
  if isScs s n then
    let lo := tg - s.front.span - nsq 200
    let w := c.hist.filter (fun e => decide (lo ≤ e.t ∧ e.t + nsq 200 < tg))
    let k := max 1 w.length
    let x := roundFree ((w.map (fun e => e.x)).foldl (· + ·) 0) k
    let t := (roundFree ((w.map (fun e => (e.t : Int))).foldl (· + ·) 0) k).toNat - nsq 56
    (codeVolts x 4096, 0, false, t)
  else
    let td := if isSv s n then nsq 1000000000 / svRate s (svStream s n) else nsq (tdNs s n)
    let tau := tg - gRes s n
    let (x, sat) := resample c.hist tau td
    let bad := (resampleInputs (withZeros c.hist td) tau).foldl (fun b e => max b e.cause) 0
    let v := if isSv s n then Frac.toF32 ⟨x, 4096 * (if fbit s (Fld.FLT_SV_KIND n) then 100 else 1000)⟩
      else codeVolts x 4096
    (v, bad, sat, tg - groupDelay s n)

/-- Place one output (R289 to R302). -/
def placeOne (n tg by_ : Nat) (s : State) : State :=
  let s := if isSv s n && live s n && !isScs s n then svFill n (tg - gRes s n) by_ s else s
  let (v, bad, sat, t) := gridValue n tg s
  let cause := settleCause s n bad
  let (v, s) := if cause = 2 then drawFree s else (v, s)
  let s := if cause = 1 then fset (Fld.FLT_STATUS_FILL_LEFT n) (fget s (Fld.FLT_STATUS_FILL_LEFT n) - 1) s else s
  let s := fset (Fld.FLT_STATUS_SETTLING n) (boolNat (cause != 0)) s
  let s := if cause = 0 then s else bump (Reg.FLT_SETTLE_CNT n) s
  let s := if sat then bump (Reg.FLT_SAT_CNT n) (fset (Fld.FLT_STATUS_SAT n) 1 s) else s
  let s := if isScs s n then
      let g := tg - t
      regSet (Reg.FLT_GD_0 n) (BitVec.ofNat 32 g) (regSet (Reg.FLT_GD_1 n) (BitVec.ofNat 32 (g / 2 ^ 32)) s)
    else s
  let c := chan s n
  setChan n { c with outs := c.outs ++ [⟨v, cause != 0, cause, sat, t⟩] } s

/-- Place the outputs of channel `n` whose grid instants lie at or before CNT `limit`, in the cycle that runs. -/
def placeUpTo (limit n : Nat) (s : State) : State :=
  let m := outM s n
  let t0 := timeAt s s.esc.tk
  let t1 := timeAt s (s.esc.tk + s.esc.wlen)
  let due := fun (j : Nat) => decide ((j + 1) * s.esc.wlen ≤ (limit - s.esc.tk) * m)
  ((List.range m).drop (chan s n).outs.length).foldl (fun s j =>
    if due j then placeOne n (t0 + (j + 1) * (t1 - t0) / m) (s.esc.tk + (j + 1) * s.esc.wlen / m - 100) s else s) s

/-- The channel's own reset acts if its t_r is at or before CNT `limit`; outputs up to t_r keep the old histories. -/
def dueReset (limit n : Nat) (s : State) : State :=
  match (chan s n).resetAt with
  | some tr => if tr ≤ limit then resetChan (timeAt s tr) n (if escRunning s then placeUpTo tr n s else s) else s
  | none => s

def placeChan (limit n : Nat) (s : State) : State := placeUpTo limit n (dueReset limit n s)

def placeOutputs (limit : Nat) (s : State) : State :=
  if escRunning s then
    let s := { s with front := { s.front with span := timeAt s (s.esc.tk + s.esc.wlen) - timeAt s s.esc.tk } }
    (List.range 24).foldl (fun s n => placeChan limit n s) s
  else s

/-- FLT_RATIO (R291): decimated inputs per output, 32.32, for a cycle of corrected length `span`. -/
def showRatio (span n : Nat) (s : State) : State :=
  let m := max 1 (outM s n)
  let r := if isSv s n then span * svRate s (svStream s n) * 2 ^ 32 / (nsq 1000000000 * m)
    else 2 * s.esc.wlen * 2 ^ 32 / (max 1 (tdNs s n) * m)
  regSet (Reg.FLT_RATIO_0 n) (BitVec.ofNat 32 r) (regSet (Reg.FLT_RATIO_1 n) (BitVec.ofNat 32 (r / 2 ^ 32)) s)

/-- FLT_RATIO of every channel, at a cycle instant, for the cycle that starts. -/
def showRatios (s : State) : State :=
  let span := timeAt s (s.esc.tk + s.esc.wlen) - timeAt s s.esc.tk
  (List.range 24).foldl (fun s n => showRatio span n s) s

/-- The escapement starts: no cycle has ended yet, so there are no outputs to show. -/
def filterStart (s : State) : State :=
  { s with front := { s.front with
      chans := s.front.chans.map (fun e => (e.1, { e.2 with outs := [], tested := 0, last := [] })) } }

/-- Samples a channel may still need after `tg`. -/
def keepFrom (s : State) (n tg : Nat) : Nat :=
  if isScs s n then tg - nsq 200
  else
    let td := if isSv s n then nsq 1000000000 / svRate s (svStream s n) else nsq (tdNs s n)
    tg - gRes s n - 9 * td

/-- At T_k, called while the ended cycle's T_{k−1} and length stand: the last outputs are placed and the cycle's outputs
handed to the table. -/
def filterBoundary (s : State) : State :=
  let end_ := s.esc.tk + s.esc.wlen
  let s := placeOutputs end_ s
  let t1 := timeAt s end_
  let s := { s with front := { s.front with lastSpan := s.front.span } }
  let s := (List.range 24).foldl (fun s n =>
    let c := chan s n
    let kept := c.hist.takeWhile (fun e => decide (keepFrom s n t1 ≤ e.t))
    setChan n { c with last := c.outs, outs := [], hist := kept, lastCfg := regGet s (Reg.FLT_CH_CFG n),
                       lastFrozen := fbit s (Fld.FLT_STATUS_FROZEN n) } s) s
  let young := fun (x : SvSample) => decide (s.time.cnt ≤ x.at_ + msTicks 120)
  (List.range 24).foldl (fun s st => setSvSamples st ((svSamples s st).filter young) s) s

/-! ### The measurement table (R295) -/

def measBase (n : Nat) : Nat := Config.scmBase + 0x20000 + 64 * n

/-- A cycle for which no outputs were placed (the first) shows SETTLING for each (log entry 22). -/
def lastOut (s : State) (n j : Nat) : GridOut := (chan s n).last.getD j ⟨0, true, 1, false, 0⟩

/-- FLT_CH_CFG of the cycle that gave the outputs; the present one while there are none. -/
def measCfg (s : State) (n : Nat) : Word :=
  if (chan s n).last.isEmpty then regGet s (Reg.FLT_CH_CFG n) else (chan s n).lastCfg

def measFrozen (s : State) (n : Nat) : Bool :=
  if (chan s n).last.isEmpty then fbit s (Fld.FLT_STATUS_FROZEN n) else (chan s n).lastFrozen

/-- M of that cycle. -/
def measM (s : State) (n : Nat) : Nat := fieldGet (measCfg s n) 27 24

def measFlags (s : State) (n : Nat) : Word :=
  let m := measM s n
  let settle := (List.range m).foldl (fun a j => setBit a j (lastOut s n j).settling) 0
  let last := lastOut s n (m - 1)
  let sat := (List.range m).any (fun j => (lastOut s n j).sat)
  BitVec.ofNat 32 (settle * 2 ^ 24 + m * 2 ^ 20 + last.cause * 2 ^ 16 + fieldGet (measCfg s n) 31 31 * 2 ^ 15 +
    fieldGet (measCfg s n) 30 30 * 2 ^ 14 + boolNat sat * 2 ^ 13 + boolNat (measFrozen s n) * 2 ^ 12)

/-- Words of X[0] to X[6]; those at or above M are not given (log entry 8). -/
def measXs (n m : Nat) (s : State) : List Word × State :=
  (List.range 7).foldl (fun (p : List Word × State) j =>
    if j < m then (p.1 ++ [(lastOut p.2 n j).x], p.2)
    else let (w, s) := drawFree p.2; (p.1 ++ [w], s)) ([], s)

/-- The entry of channel `n`; a last output that is not SETTLING is the channel's last valid sample from now on (R167). -/
def measEntry (n : Nat) (s : State) : State :=
  let m := measM s n
  let last := lastOut s n (m - 1)
  let sp := splitOf last.t
  let k := cycleNo s
  let spacing := BitVec.ofInt 32 (roundFree s.front.lastSpan (max 1 m))
  let (xs, s) := measXs n m s
  let s := if last.settling then s else { s with measLast := Store.set (fun _ => 0) s.measLast n last.x }
  putBytes (measBase n)
    (wordsBytes ([k, measFlags s n, splitNs sp, splitLo sp, BitVec.ofNat 32 (splitHi sp), spacing, last.x, 0, k] ++ xs)) s

def publishMeasurement (s : State) : State := (List.range 24).foldl (fun s n => measEntry n s) s

/-! ### Resets (R300 to R303) -/

/-- Request a synchronising reset now; an earlier request stands (R301, R303). It covers a channel's own reset that is
not due before it. -/
def requestSync (s : State) : State :=
  match s.front.syncAt with
  | some _ => s
  | none =>
    let tr := resetInstant s.time.cnt
    let own := fun (c : Chan) => { c with resetAt := c.resetAt.filter (fun t => decide (t < tr)) }
    fset Fld.FLT_SYNC_STAT_PENDING 1 { s with front := { s.front with
        syncAt := some tr, chans := s.front.chans.map (fun e => (e.1, own e.2)) } }

/-- SYNC_IN (R300): the edge selected by SYNC_POL. -/
def syncInEdge (falling : Bool) (s : State) : State :=
  if !fbit s Fld.FLT_CTRL_SYNC_EN || falling != fbit s Fld.FLT_CTRL_SYNC_POL then s
  else if inRun s && !fbit s Fld.FLT_CTRL_SYNC_RUN then bump Reg.FLT_SYNC_IGN_CNT s
  else requestSync s

def execSyncInEdge (falling : Bool) (s : State) : Host.Outcome State Fault Refusal := .next (syncInEdge falling s)

/-- SYNC_GO (R300). -/
def fltSyncGo (o : Origin) (s : State) : State × Status :=
  let (s, st) := checkWrite Reg.FLT_CTRL o
    [(roleOrCore .operator o, .notPermitted),
     (s.sys.mode != .boot && (!inRun s || fbit s Fld.FLT_CTRL_SYNC_RUN), .illegalInMode)] requestSync s
  (fset Fld.FLT_SYNC_STAT_STATUS st.code s, st)

def execFltSyncGo (o : Origin) (s : State) : Host.Outcome State Fault Refusal := .next (fltSyncGo o s).1

/-- t_r (R301): every enabled channel is reset together; outputs up to t_r keep the old histories. -/
def syncResetApply (s : State) : State :=
  match s.front.syncAt with
  | none => s
  | some tr =>
    let s := placeOutputs tr { s with front := { s.front with syncAt := none } }
    let s := (List.range 24).foldl (fun s n => if live s n then resetChan (timeAt s tr) n s else s) s
    setSplitRegs Reg.FLT_SYNC_T_0 (splitOf (timeAt s tr)) (fset Fld.FLT_SYNC_STAT_PENDING 0 (bump Reg.FLT_SYNC_CNT s))

def execSyncResetApply (s : State) : Host.Outcome State Fault Refusal := .next (syncResetApply s)

/-! ### Configuration (R288, R304) -/

/-- The channel of a configuration or FIR address, and what it configures: its register offset, or 0x40 for a tap. -/
def fltTarget (a : Nat) : Option (Nat × Nat) :=
  let o := a - 0x40080000
  if 0x100 ≤ o ∧ o < 0x100 + 0x40 * 24 ∧ (o - 0x100) % 0x40 ≤ 0x10 then some ((o - 0x100) / 0x40, (o - 0x100) % 0x40)
  else if 0x1000 ≤ o ∧ o < 0x1000 + 0x80 * 24 then some ((o - 0x1000) / 0x80, 0x40)
  else none

def cfgFieldsOk (w : Word) : Bool :=
  decide (1 ≤ fieldGet w 27 24 ∧ fieldGet w 27 24 ≤ 8 ∧ 1 ≤ fieldGet w 18 16 ∧ fieldGet w 18 16 ≤ 4 ∧
    1 ≤ fieldGet w 14 8 ∧ fieldGet w 14 8 ≤ 64 ∧ 2 ≤ fieldGet w 6 0 ∧ fieldGet w 6 0 ≤ 64)

/-- FLT_CH_CFG against the DC block (R304). -/
def cfgDcbOk (cfg dcb : Word) : Bool :=
  let scs := fieldGet cfg 31 31 == 1
  let src := fieldGet cfg 30 30 == 1
  let dc := fieldGet dcb 31 31 == 1
  !(scs && (decide (1 < fieldGet cfg 27 24) || dc || src)) && !(src && dc)

/-- The parameters of R304: every field in range, and the combinations it excludes. -/
def fltParamOk (s : State) (n off : Nat) (v : Word) : Bool :=
  let cfg := latest s (Reg.FLT_CH_CFG n)
  let dcb := latest s (Reg.FLT_DCB n)
  !oddIl s n &&
  match off with
  | 0x00 => cfgFieldsOk v && cfgDcbOk v dcb
  | 0x04 => decide (1 ≤ fieldGet v 9 0 ∧ fieldGet v 9 0 ≤ 1000) && cfgDcbOk cfg v
  | 0x08 => decide (fieldGet v 12 8 ≤ 23)
  | 0x0C => decide (20 ≤ fieldGet v 16 0 ∧ fieldGet v 16 0 ≤ 100000)
  | 0x10 => decide (fieldGet v 23 0 ≤ 10000000)
  | _ => true

/-- A write of FLT_DCB that leaves EN, RST and CORNER as they are only moves FREEZE (R288). -/
def freezeOnly (s : State) (n off : Nat) (v : Word) : Bool :=
  off == 0x04 && (v &&& 0xA00003FF) == (latest s (Reg.FLT_DCB n) &&& 0xA00003FF)

/-- R304, R288: a write of filter configuration is checked and staged; `adoptFlt` takes it at its boundary. -/
def fltConfigWrite (o : Origin) (a : Nat) (v : Word) (s : State) : State × Status :=
  match fltTarget a with
  | none => (s, .ok)
  | some (n, off) =>
    let legal := if freezeOnly s n off v then s.sys.mode != .boot
      else s.sys.mode == .commission || s.sys.mode == .charge || s.sys.mode == .ready
    checkStage a o [(roleOrCore .operator o, .notPermitted), (legal, .illegalInMode),
      (!oddIl s n && (freezeOnly s n off v || fltParamOk s n off v), .badParam)] v s

def execFltConfigWrite (o : Origin) (addr : Word) (val : Word) (s : State) : Host.Outcome State Fault Refusal :=
  .next (fltConfigWrite o addr.toNat val s).1

/-- The writable bits of a filter register. -/
def fltMask (off : Nat) : Word :=
  match off with
  | 0x00 => 0xCF077F7F | 0x04 => 0xE00003FF | 0x08 => 0x1F8F | 0x0C => 0x1FFFF | 0x10 => 0xFFFFFF | 0x40 => 0xFFFFFF
  | _ => 0

/-- FROZEN follows FLT_DCB (R288). -/
def showFrozen (n : Nat) (s : State) : State :=
  fset (Fld.FLT_STATUS_FROZEN n) (boolNat (fbit s (Fld.FLT_DCB_EN n) && fbit s (Fld.FLT_DCB_FREEZE n))) s

/-- Adoption of a filter write at a boundary; all but a move of FREEZE resets that channel (R288, R304). -/
def adoptFlt (a : Nat) (v : Word) (s : State) : State :=
  match fltTarget a with
  | none => s
  | some (n, off) =>
    let only := off == 0x04 && (v &&& 0xA00003FF) == (regGet s a &&& 0xA00003FF)
    let s := regSet a ((regGet s a &&& ~~~(fltMask off)) ||| (v &&& fltMask off)) s
    let s := showFrozen n s
    if only then s else showFilter n (askReset s.time.cnt n s)

/-- What configures a channel's chain, an image's values among it. -/
def chainConfig (s : State) (n : Nat) : List Word :=
  regGet s (Reg.FAD_CH_CFG n) :: [Reg.FLT_CH_CFG n, Reg.FLT_DCB n, Reg.FLT_SV n, Reg.FLT_SV_LAG n, Reg.FLT_SV_DELAY n].map (regGet s) ++
    (List.range 32).map (fun i => regGet s (Reg.FLT_FIR n i))

/-- A commissioning image has set the channels; `was` is the state before. A channel that it changed is reset (R304), and
a pair that starts anew must converge again (R261). -/
def adoptChans (was s : State) : State :=
  (List.range 24).foldl (fun s n =>
    let s := if regGet was (Reg.FAD_CH_CFG n) = regGet s (Reg.FAD_CH_CFG n) then s
      else fset Fld.FAD_STATUS_BG_CONV (setBit (fget s Fld.FAD_STATUS_BG_CONV) (n / 2) false) s
    if chainConfig was n = chainConfig s n then s else showFilter n (askReset s.time.cnt n (showFrozen n s))) s

/-- The registers that show the configuration, and the period, of each channel. -/
def showFilters (s : State) : State := (List.range 24).foldl (fun s n => showFilter n (showFrozen n s)) s

/-- A new P adopted by R49 resets every channel at the first cycle instant of the new period (R304): the boundary that
ends the cycle that runs. Before the escapement runs, its start resets them all (R300). -/
def newPeriod (s : State) : State :=
  let b := s.esc.tk + s.esc.wlen
  (List.range 24).foldl (fun s n => showFilter n (if escRunning s then askReset b n s else s)) s

/-- A stream's rate changes (R298): the delays and fills of its channels follow, and what was received under the old rate
goes; their next sample is the first after the newest in the history. -/
def svRateChanged (st : Nat) (s : State) : State :=
  (List.range 24).foldl (fun s n =>
    if isSv s n && svStream s n == st then
      let t := match (chan s n).hist with | e :: _ => e.t + 1 | [] => timeAt s s.time.cnt
      showFilter n (setChan n { chan s n with svNext := some (svFirst s n t) } s)
    else s) (setSvSamples st [] s)

end Sys2Proof.Machine
end

