-- ==== Sys2Proof/Machine/Front.lean ====
section
/-! DEFINITION. Measurement inputs and the housekeeping converter (10_measurement_inputs.md), but for the raw sample
itself. -/

namespace Sys2Proof.Machine

/-- The front-end die as bus master. -/
def frontMaster : Nat := 0x31

/-! ### Range and common mode (R257) -/

/-- Instances of FAD_RANGE: channel n out of range, 32 + n with a common-mode fault. -/
def fadOverrange (n : Nat) (s : State) : State :=
  condIs true 32 n frontMaster (bump (Reg.FAD_OVR_CNT n)
    (regSet Reg.FAD_OVR (BitVec.ofNat 32 (setBit (regGet s Reg.FAD_OVR).toNat n true)) s))

def execFadOverrange (ch : Fin 24) (s : State) : Host.Outcome State Fault Refusal := .next (fadOverrange ch.val s)

def fadCommonMode (n : Nat) (s : State) : State :=
  let s := setChan n { chan s n with cmCount := (chan s n).cmCount + 1 } s
  condIs true 32 (32 + n) frontMaster
    (regSet Reg.FAD_CMR (BitVec.ofNat 32 (setBit (regGet s Reg.FAD_CMR).toNat n true)) s)

def execFadCommonMode (ch : Fin 24) (s : State) : Host.Outcome State Fault Refusal := .next (fadCommonMode ch.val s)

/-! ### Calibration (R261 to R264) -/

/-- R262: FGCAL_GO. A refusal is shown in FAD_CAL_STAT as well. -/
def fgcalGo (o : Origin) (val : Word) (s : State) : State × Status :=
  let (s, st) := checkWrite Reg.FAD_CTRL o
    [(roleOrCore .operator o, .notPermitted), (s.sys.mode == .commission || s.sys.mode == .ready, .illegalInMode),
     (!fbit s Fld.FAD_STATUS_FGCAL, .busy)]
    (fun s =>
      let m := fieldGet val 23 0
      let s := { s with front := { s.front with calMask := m } }
      let fresh := fun (s : State) n =>
        if m.testBit n then setChan n { chan s n with runOut := 0, runIn := 0 } s else s
      (List.range 24).foldl fresh (fset Fld.FAD_CAL_STAT_ABORT 0 (fset Fld.FAD_STATUS_FGCAL 1 (fset Fld.FAD_CTRL_CAL_MASK m s)))) s
  (fset Fld.FAD_CAL_STAT_STATUS st.code s, st)

def execFgcalGo (o : Origin) (val : Word) (s : State) : Host.Outcome State Fault Refusal := .next (fgcalGo o val s).1

/-- The fill that follows a calibration (R263). -/
def fgcalFill (s : State) : State :=
  (List.range 24).foldl (fun s n =>
    if s.front.calMask.testBit n then fset (Fld.FLT_STATUS_FILL_LEFT n) (nFill s n) s else s)
    (fset Fld.FAD_STATUS_FGCAL 0 s)

/-- R263: the calibration ends with measured coefficients for the channels in the mask. Outputs up to now stay
CALIBRATION. -/
def fgcalEnd (offs gain : List Word) (s : State) : State :=
  if !fbit s Fld.FAD_STATUS_FGCAL then s
  else
    let put := fun (s : State) n =>
      if s.front.calMask.testBit n then
        regSet (Reg.FAD_CH_OFFS n) (offs.getD n 0) (regSet (Reg.FAD_CH_GAIN n) (gain.getD n 0) s)
      else s
    fset Fld.FAD_CAL_STAT_STATUS 0 (fgcalFill ((List.range 24).foldl put (placeOutputs s.time.cnt s)))

def execFgcalEnd (offs gain : List Word) (s : State) : Host.Outcome State Fault Refusal := .next (fgcalEnd offs gain s)

/-- R264: LOCKOUT aborts a calibration; the previous coefficients stay. -/
def fgcalAbort (s : State) : State :=
  if !fbit s Fld.FAD_STATUS_FGCAL then s
  else fset Fld.FAD_CAL_STAT_ABORT 1 (fset Fld.FAD_CAL_STAT_STATUS Status.checkFail.code (fgcalFill (placeOutputs s.time.cnt s)))

/-- R261: the pair's background calibration has converged. -/
def bgCalConverged (m : Nat) (s : State) : State :=
  if evenIl s (2 * m) && fbit s (Fld.FAD_CH_CFG_EN (2 * m)) then
    fset Fld.FAD_STATUS_BG_CONV (setBit (fget s Fld.FAD_STATUS_BG_CONV) m true) s
  else s

def execBgCalConverged (pair : Fin 12) (s : State) : Host.Outcome State Fault Refusal := .next (bgCalConverged pair.val s)

/-- Adoption of FAD_CH_CFG (R259 to R261): IL is a bit of even channels; a pair that starts anew must converge again;
FLT_FILL and FLT_GD follow T_raw. -/
def adoptChCfg (n : Nat) (v : Word) (s : State) : State :=
  let w := v &&& (if n % 2 = 0 then 3 else 1)
  let s := regSet (Reg.FAD_CH_CFG n) w s
  let s := if n % 2 = 0 then fset Fld.FAD_STATUS_IL (setBit (fget s Fld.FAD_STATUS_IL) (n / 2) (w.getLsbD 1)) s else s
  let s := fset Fld.FAD_STATUS_BG_CONV (setBit (fget s Fld.FAD_STATUS_BG_CONV) (n / 2) false) s
  showFilter n (setChan n { chan s n with runOut := 0, runIn := 0 } s)

/-! ### Window comparators (R265 to R269) -/

def winOn (s : State) (n : Nat) : Bool := fbit s (Fld.FAD_WIN_CFG_EN n) && live s n

/-- The comparator has tripped and not released. -/
def tripped (s : State) (n : Nat) : Bool := (fget s Fld.FAD_WIN_STAT_TRIP).testBit n

def winHi (s : State) (n : Nat) : Int := (regGet s (Reg.FAD_WIN_HI n)).toInt
def winLo (s : State) (n : Nat) : Int := (regGet s (Reg.FAD_WIN_LO n)).toInt
def winHyst (s : State) (n : Nat) : Int := fget s (Fld.FAD_WIN_CFG_HYST n)
def winQual (s : State) (n : Nat) : Nat := fget s (Fld.FAD_WIN_CFG_QUAL n) + 1

/-- Count one raw sample (R265, R266, R263). -/
def winCount (n : Nat) (x : Int) (s : State) : State :=
  if !winOn s n || calibrating s n then s
  else
    let c := chan s n
    let out := decide (winHi s n < x ∨ x < winLo s n)
    let inner := decide (x ≤ winHi s n - winHyst s n ∧ winLo s n + winHyst s n ≤ x)
    setChan n { c with runOut := if out then c.runOut + 1 else 0, runIn := if inner then c.runIn + 1 else 0 } s

/-- R267: the count has reached QUAL + 1. With BLK_EN it is a demand of SF4, cause 3 of R426. -/
def windowTrip (n : Nat) (s : State) : State :=
  if winOn s n && !tripped s n && !calibrating s n && decide (winQual s n ≤ (chan s n).runOut) then
    let s := setChan n { chan s n with runIn := 0 } s
    let s := fset Fld.FAD_WIN_STAT_TRIP (setBit (fget s Fld.FAD_WIN_STAT_TRIP) n true) s
    let s := fset Fld.FAD_WIN_LATCH_SEEN (setBit (fget s Fld.FAD_WIN_LATCH_SEEN) n true) s
    let s := occur (detect 31 n frontMaster 0) (bump (Reg.FAD_TRIP_CNT n) s)
    if fbit s (Fld.FAD_WIN_CFG_BLK_EN n) then
      safetyCause 3 { s with saf := { s.saf with demand4 := s.saf.demand4 ||| BitVec.ofNat 24 (2 ^ n) } }
    else s
  else s

def execWindowComparatorTrip (ch : Fin 24) (s : State) : Host.Outcome State Fault Refusal := .next (windowTrip ch.val s)

/-- R266: QUAL + 1 consecutive samples lie within the narrower window. -/
def windowRelease (n : Nat) (s : State) : State :=
  if tripped s n && decide (winQual s n ≤ (chan s n).runIn) then
    let s := setChan n { chan s n with runOut := 0 } s
    let s := fset Fld.FAD_WIN_STAT_TRIP (setBit (fget s Fld.FAD_WIN_STAT_TRIP) n false) s
    { s with saf := { s.saf with demand4 := s.saf.demand4 &&& ~~~(BitVec.ofNat 24 (2 ^ n)) } }
  else s

def execWindowComparatorRelease (ch : Fin 24) (s : State) : Host.Outcome State Fault Refusal :=
  .next (windowRelease ch.val s)

/-- A write of a FAD register other than the commands (R260, R268, R269): its checks after the role. -/
def fadChecks (s : State) (n off : Nat) (v : Word) : List (Bool × Status) :=
  let blk := fbit s (Fld.FAD_WIN_CFG_BLK_EN n)
  let hi := (latest s (Reg.FAD_WIN_HI n)).toInt
  let lo := (latest s (Reg.FAD_WIN_LO n)).toInt
  let hyst : Int := fieldGet (latest s (Reg.FAD_WIN_CFG n)) 27 16
  let ok := fun (h l y : Int) => decide (l + 2 * y < h ∧ -131072 ≤ l ∧ h ≤ 131071)
  match off with
  | 0x00 => [(s.sys.mode == .commission, .illegalInMode), (n % 2 == 0 || !v.getLsbD 1, .badParam)]
  | 0x04 => [(!blk, .notPermitted), (ok hi lo (fieldGet v 27 16), .badParam)]
  | 0x08 => [(!blk, .notPermitted), (ok v.toInt lo hyst, .badParam)]
  | 0x0C => [(!blk, .notPermitted), (ok hi v.toInt hyst, .badParam)]
  | _ => []

/-- Adoption of a comparator register: the sample count restarts (R268). -/
def adoptWin (n off : Nat) (v : Word) (s : State) : State :=
  let s := match off with
    | 0x04 => regSet (Reg.FAD_WIN_CFG n) ((regGet s (Reg.FAD_WIN_CFG n) &&& 0x80000000) ||| (v &&& 0x0FFF010F)) s
    | 0x08 => regSet (Reg.FAD_WIN_HI n) v s
    | _ => regSet (Reg.FAD_WIN_LO n) v s
  setChan n { chan s n with runOut := 0, runIn := 0 } s

/-! ### The housekeeping converter: scans (R273 to R277) -/

def setHka (h : Hka) (s : State) : State := { s with front := { s.front with hka := h } }

def calRunning (s : State) : Bool := match s.front.hka.cal with | .running _ => true | _ => false

def hkaMask (s : State) : List Nat := (List.range 32).filter (fun c => (fget s Fld.HKA_MASK_MASK).testBit c)

/-- HKA_STATUS: scanning, powered, calibration and occupied slots as they are. -/
def showHka (s : State) : State :=
  let h := s.front.hka
  let s := fset Fld.HKA_STATUS_SCANNING (boolNat h.scanning) s
  let s := fset Fld.HKA_STATUS_POWERED (boolNat (h.scanning || !h.inj.isEmpty || calRunning s)) s
  let s := fset Fld.HKA_STATUS_CAL (boolNat (h.cal != .none)) s
  fset Fld.HKA_STATUS_QDEPTH (popCount 4 h.slots) s

/-- Start the calibration now, or leave it pending (R281). Injected requests that wait now are delayed by it. -/
def calFollows (after : Nat) (s : State) : State :=
  let h := s.front.hka
  if h.scanning || decide (0 < after) then setHka { h with cal := .pending after } s
  else setHka { h with cal := .running s.time.cnt, inj := h.inj.map (fun r => { r with delayed := true }) } s

/-- A scan start that is not skipped (R274): it takes the mask as it stands. A calibration that began on this boundary
follows the scan, and delays none of the requests adopted here (R281). -/
def beginScan (s : State) : State :=
  let h := s.front.hka
  let h := match h.cal with
    | .running _ => { h with cal := .pending 0, inj := h.inj.map (fun (r : InjReq) =>
        if r.at_ = s.time.cnt then { r with delayed := false } else r) }
    | _ => h
  let t := nowSplit s
  showHka (setSplitRegs Reg.HKA_SCAN_T_0 t (setHka { h with scanning := true, todo := hkaMask s, got := [] } s))

/-- A scan start (R273, R275, R281). One on the boundary at which a calibration began runs first. -/
def scanStart (s : State) : State :=
  let h := s.front.hka
  if (hkaMask s).isEmpty then s
  else if h.scanning then bump Reg.HKA_SKIP_BUSY_CNT s
  else match h.cal with
    | .running t => if t = s.time.cnt then beginScan s else bump Reg.HKA_SKIP_CAL_CNT s
    | _ => beginScan s

/-- SCAN_GO (R273): no scan under TRIG 0. -/
def hkaScanGo (o : Origin) (s : State) : State × Status :=
  checkWrite Reg.HKA_CTRL o [(roleOrCore .operator o, .notPermitted), (s.sys.mode != .boot, .illegalInMode)]
    (fun s => if fget s Fld.HKA_CTRL_TRIG = 0 then s else scanStart s) s

def execHkaScanGo (o : Origin) (s : State) : Host.Outcome State Fault Refusal := .next (hkaScanGo o s).1

/-- A start by the timer, or by a cycle number divisible by HKA_ESCDIV (R273). -/
def hkaTimedStart (s : State) : State :=
  match fget s Fld.HKA_CTRL_TRIG with
  | 1 => scanStart s
  | 2 => if escRunning s && (cycleNo s).toNat % max 1 (fget s Fld.HKA_ESCDIV_DIV) == 0 then scanStart s else s
  | _ => s

def execHkaTimedScanStart (s : State) : Host.Outcome State Fault Refusal := .next (hkaTimedStart s)

/-- An HKA event (R277, R385). -/
def hkaEvent (arg : Nat) (s : State) : State :=
  post (mkEvent s 9 0 (fget s Fld.HKA_EVT_FLOW) (fget s Fld.HKA_EVT_CLASS) (BitVec.ofNat 32 arg)
    (regGet s Reg.HKA_BUF_WPTR) 0) s

/-- Write one entry to the DMA buffer (R277), with the event at its middle or end. -/
def hkaBuffer (e : Word) (s : State) : State :=
  let size := 2 ^ fget s Fld.HKA_BUF_CFG_SIZE
  let p := fget s Fld.HKA_BUF_WPTR_WPTR % size
  let s := putWord (Config.dramBase + fget s Fld.HKA_BUF_BASE_BASE_KIB * 1024 + 4 * p) e s
  let s := fset Fld.HKA_BUF_WPTR_WPTR ((p + 1) % size) s
  if p + 1 = size / 2 ∧ fbit s Fld.HKA_BUF_CFG_HALF_EN then hkaEvent 0 s
  else if p + 1 = size ∧ fbit s Fld.HKA_BUF_CFG_WRAP_EN then hkaEvent 1 s
  else s

/-- Channel 31 is reserved and reads 0 (R270). -/
def hkaCode (ch : Nat) (code : Half) : Nat := if ch = 31 then 0 else code.toNat

/-- The current-mode limits of R271. -/
def currentLimits (ch r : Nat) (s : State) : State :=
  if 16 ≤ ch ∨ !(fget s Fld.HKA_MODE_CUR).testBit ch then s
  else
    let s := if r < 9216 then fset Fld.HKA_UNDER_UNDER (setBit (fget s Fld.HKA_UNDER_UNDER) ch true) s else s
    if r = 65535 then fset Fld.HKA_OVER_OVER (setBit (fget s Fld.HKA_OVER_OVER) ch true) s else s

/-- R274, R276: the next scan conversion completes, unless an injected request adopted before it began goes first. -/
def hkaConversion (code : Half) (s : State) : State :=
  let h := s.front.hka
  match h.todo with
  | [] => s
  | ch :: rest =>
    if !h.scanning || h.inj.any (fun r => decide (r.at_ + 500 ≤ s.time.cnt)) then s
    else
      let r := hkaCode ch code
      let e := BitVec.ofNat 32 (ch * 2 ^ 27 + h.seq % 2048 * 2 ^ 16 + r)
      let s := setHka { h with todo := rest, got := h.got ++ [(ch, r)] } s
      hkaBuffer e (regSet (Reg.HKA_LAST ch) e (currentLimits ch r s))

def execHkaConversion (code : Half) (s : State) : Host.Outcome State Fault Refusal := .next (hkaConversion code s)

/-! ### Checks at the end of a scan (R272, R504) -/

/-- The self-test channels against their nominal values, ±0.5 %, 32 and 64 codes. -/
def selfTestOk (ch r : Nat) : Bool :=
  match ch with
  | 16 => decide (26214 * 995 ≤ r * 1000 ∧ r * 1000 ≤ 26214 * 1005)
  | 17 => decide (16000 * 995 ≤ r * 1000 ∧ r * 1000 ≤ 16000 * 1005)
  | 29 => decide (r ≤ 32)
  | 30 => decide (32704 ≤ r ∧ r ≤ 32832)
  | _ => true

/-- The limits of R504 as codes by the scales of R270: lowest and highest value within, and the source. -/
def hkaLimit (ch : Nat) : Option (Nat × Nat × Nat) :=
  match ch with
  | 18 | 19 => some (11520, 48000, 53)
  | 20 => some (36480, 40320, 4)
  | 21 => some (40128, 44352, 4)
  | 22 => some (43776, 48384, 4)
  | 23 => some (38912, 43008, 4)
  | 24 | 25 | 26 | 27 => some (19840, 39680, 5)
  | 28 => some (19840, 37120, 5)
  | _ => none

/-- Three consecutive scans outside a limit raise its source, three within clear it (R504). -/
def hkaLimitCheck (s : State) (e : Nat × Nat) : State :=
  match hkaLimit e.1 with
  | none => s
  | some (lo, hi, src) =>
    let h := s.front.hka
    let ok := decide (lo ≤ e.2 ∧ e.2 ≤ hi)
    let bad := if ok then 0 else Store.get (fun _ => 0) h.limBad e.1 + 1
    let good := if ok then Store.get (fun _ => 0) h.limOk e.1 + 1 else 0
    let s := setHka { h with limBad := Store.set (fun _ => 0) h.limBad e.1 (min bad 3), limOk := Store.set (fun _ => 0) h.limOk e.1 (min good 3) } s
    if 3 ≤ bad then condIs true src e.1 frontMaster s
    else if 3 ≤ good then condIs false src e.1 frontMaster s
    else s

/-- HKA_SELFTEST (R272): raised by a result outside its limit, cleared by a scan in which all four pass. -/
def hkaSelfTest (got : List (Nat × Nat)) (s : State) : State :=
  if got.any (fun e => !selfTestOk e.1 e.2) then fset Fld.HKA_STATUS_SELFTEST_FAIL 1 (condIs true 33 0 frontMaster s)
  else if [16, 17, 29, 30].all (fun c => got.any (fun e => e.1 == c)) then
    fset Fld.HKA_STATUS_SELFTEST_FAIL 0 (condIs false 33 0 frontMaster s)
  else s

/-- R274: the scan ends; a pending calibration follows (R281). -/
def hkaScanEnd (s : State) : State :=
  let h := s.front.hka
  if !h.scanning || !h.todo.isEmpty then s
  else
    let s := setHka { h with scanning := false, got := [], seq := (h.seq + 1) % 2048 } s
    let s := bump Reg.HKA_SCAN_CNT (h.got.foldl hkaLimitCheck (hkaSelfTest h.got s))
    showHka (match h.cal with | .pending n => calFollows n s | _ => s)

def execHkaScanEnd (s : State) : Host.Outcome State Fault Refusal := .next (hkaScanEnd s)

/-! ### Injected conversions (R279, R280) -/

/-- The lowest free slot of the four (R279). -/
def freeSlot (s : State) : Option Nat := (List.range 4).find? (fun i => !s.front.hka.slots.testBit i)

/-- R279: the lowest free slot, or REFUSED. -/
def hkaInjReq (o : Origin) (val : Word) (s : State) : State × Status :=
  let (s, st) := checkWrite Reg.HKA_INJ_REQ o
    [(roleOrCore .operator o, .notPermitted), (s.sys.mode != .boot, .illegalInMode), ((freeSlot s).isSome, .refused)]
    (fun s =>
      let h := s.front.hka
      let i := (freeSlot s).getD 0
      let r : InjReq := ⟨i, fieldGet val 4 0, s.time.cnt, calRunning s⟩
      showHka (fset Fld.HKA_INJ_STAT_SLOT i (fset Fld.HKA_INJ_STAT_STATUS 0
        (setHka { h with slots := setBit h.slots i true, inj := h.inj ++ [r] } s)))) s
  (if st = .refused then fset Fld.HKA_INJ_STAT_STATUS Status.refused.code (bump Reg.HKA_INJ_REF_CNT s) else s, st)

def execHkaInjReq (o : Origin) (val : Word) (s : State) : Host.Outcome State Fault Refusal := .next (hkaInjReq o val s).1

/-- R280: the oldest injected conversion completes; a calibration that waited for it follows (R281). -/
def hkaInjConversion (code : Half) (s : State) : State :=
  let h := s.front.hka
  match h.inj with
  | [] => s
  | r :: rest =>
    if calRunning s then s
    else
      let w := 2 ^ 31 + boolNat r.delayed * 2 ^ 30 + r.ch * 2 ^ 16 + hkaCode r.ch code
      let s := regSet (Reg.HKA_INJ_RES r.slot) (BitVec.ofNat 32 w) (setHka { h with inj := rest } s)
      let s := currentLimits r.ch (hkaCode r.ch code) (if r.delayed then bump Reg.HKA_INJ_DBC_CNT s else s)
      showHka (match h.cal with | .pending n => calFollows (n - 1) s | _ => s)

def execHkaInjConversion (code : Half) (s : State) : Host.Outcome State Fault Refusal := .next (hkaInjConversion code s)

/-- The result register of slot `i` as the snapshot shows it (R13). -/
def hkaResShown (s : State) (i : Nat) : Word := Store.get regReset s.pub (Reg.HKA_INJ_RES i)

/-- R279: a read that is shown a valid result clears it, for later readers of the snapshot too, and frees its slot. -/
def hkaResRead (i : Nat) (s : State) : State :=
  if (hkaResShown s i).getLsbD 31 then
    let h := s.front.hka
    let s := { s with pub := Store.set regReset s.pub (Reg.HKA_INJ_RES i) 0 }
    showHka (regSet (Reg.HKA_INJ_RES i) 0 (setHka { h with slots := setBit h.slots i false } s))
  else s

def execHkaInjResRead (slot : Fin 4) (s : State) : Host.Outcome State Fault Refusal := .next (hkaResRead slot.val s)

/-! ### Self-calibration (R281) -/

/-- CAL_GO: after the injected conversions that wait, and after a scan that runs. -/
def hkaCalGo (o : Origin) (s : State) : State × Status :=
  checkWrite Reg.HKA_CTRL o
    [(roleOrCore .operator o, .notPermitted), (s.sys.mode != .boot, .illegalInMode), (s.front.hka.cal == .none, .busy)]
    (fun s => showHka (calFollows s.front.hka.inj.length s)) s

def execHkaCalGo (o : Origin) (s : State) : Host.Outcome State Fault Refusal := .next (hkaCalGo o s).1

/-- The 40 µs have passed: the converter powers down, or serves the requests that waited. -/
def hkaCalEnd (s : State) : State :=
  if calRunning s then
    fset Fld.HKA_STATUS_CAL_DONE 1 (showHka (setHka { s.front.hka with cal := .none } s))
  else s

def execHkaCalEnd (s : State) : Host.Outcome State Fault Refusal := .next (hkaCalEnd s)

/-- Entry into COMMISSION (R276, R281): scan numbers restart, and a self-calibration runs. -/
def hkaCommission (s : State) : State :=
  let s := fset Fld.HKA_STATUS_CAL_DONE 0 (setHka { s.front.hka with seq := 0 } s)
  if s.front.hka.cal = .none then showHka (calFollows s.front.hka.inj.length s) else s

/-- The housekeeping publication (R278, R473). -/
def publishHka (s : State) : State :=
  (List.range 8).foldl (fun s e =>
    putBytes (Config.scmBase + 0x20800 + 32 * e)
      (wordsBytes (cycleNo s :: (List.range 4).map (fun i => regGet s (Reg.HKA_LAST (4 * e + i))) ++ [0, 0, 0])) s) s

end Sys2Proof.Machine
end

