-- ==== Sys2Proof/Machine/Loop.lean ====
section
/-! DEFINITION. Loop engines: inputs, pacers, law, integrators, observer, operations and adoption (07_loop_engines.md,
R369, R370). An engine's vectors and coefficients stand in its window (R207, R209). -/

namespace Sys2Proof.Machine

def loop (s : State) (e : Nat) : Loop := Store.get (fun _ => Loop.reset) s.loops e
def setLoop (e : Nat) (x : Loop) (s : State) : State :=
  { s with loops := Store.set (fun _ => Loop.reset) s.loops e x }

/-- The window of an engine (R475), and a word of it. -/
def loopWindow (e : Nat) : Nat := 0x20000000 + 0x4000 * e
def winGet (s : State) (e off : Nat) : Word := memReadWord s (loopWindow e + off)
def winSet (e off : Nat) (v : Word) (s : State) : State := memWriteWord (loopWindow e + off) v s
def winSetAll (e off : Nat) (vs : List Word) (s : State) : State := memWriteBytes (loopWindow e + off) (wordsBytes vs) s
def winVec (s : State) (e off n : Nat) : List Word := (List.range n).map (fun i => winGet s e (off + 4 * i))

/-! ### Modes (R194) -/

def LoopMode.manual : Nat := 0
def LoopMode.track : Nat := 1
def LoopMode.auto : Nat := 2

def loopMode (s : State) (e : Nat) : Nat := fget s (Fld.LOOP_STATUS_MODE e)

/-- Show the status in the window as well (R207). -/
def showStatus (e : Nat) (s : State) : State := winSet e 0 (regGet s (Reg.LOOP_STATUS e)) s

/-- Put an engine into a mode; a change arms the first AUTO update (R194, R195). -/
def setLoopMode (e m : Nat) (s : State) : State :=
  if loopMode s e = m then s
  else
    let s := fset (Fld.LOOP_STATUS_MODE e) m s
    let w := (regGet s Reg.LOOP_MODES).toNat
    let s := regSet Reg.LOOP_MODES (BitVec.ofNat 32 (w - w / 4 ^ e % 4 * 4 ^ e + m * 4 ^ e)) s
    showStatus e (setLoop e { loop s e with first := m == LoopMode.auto } s)

/-! ### Coefficient regions (R209) -/

/-- Window offset and bytes of a region; none for an unknown code. -/
def loopRegion (c : Nat) : Option (Nat × Nat) :=
  match c with
  | 0 => some (0x0400, 1024) | 1 => some (0x0800, 512) | 2 => some (0x0A00, 512) | 3 => some (0x0C00, 512)
  | 4 => some (0x0E00, 512) | 5 => some (0x1000, 256) | 6 => some (0x1100, 128) | 7 => some (0x1180, 64)
  | 8 => some (0x11C0, 256) | 9 => some (0x12C0, 256) | 10 => some (0x13C0, 16)
  | _ => none

def cfgWord (rd : Nat → Word) : Word := rd 0x13C0
def cfgNx (rd : Nat → Word) : Nat := fieldGet (cfgWord rd) 4 0
def cfgNy (rd : Nat → Word) : Nat := fieldGet (cfgWord rd) 11 8
def cfgNu (rd : Nat → Word) : Nat := fieldGet (cfgWord rd) 15 12
def cfgNw (rd : Nat → Word) : Nat := fieldGet (cfgWord rd) 19 16
def cfgDiv (rd : Nat → Word) : Nat := fieldGet (cfgWord rd) 23 20
def cfgHoldMax (rd : Nat → Word) : Nat := fieldGet (cfgWord rd) 31 24

def integOut (rd : Nat → Word) (j : Nat) : Nat := fieldGet (rd (0x110C + 16 * j)) 7 4
def integSel (rd : Nat → Word) (j : Nat) : Nat := fieldGet (rd (0x110C + 16 * j)) 3 0

/-- A source word names something (R187); `slope` says that KIND SLOPE is allowed. -/
def sourceLegal (w : Word) (slope : Bool) : Bool :=
  let sel := fieldGet w 11 0
  match fieldGet w 31 28 with
  | 0 => sel == 0 | 1 => sel == 0
  | 2 => decide (sel ≤ 23)
  | 3 => decide (sel / 256 ≤ 11) && sel / 4 % 64 == 0
  | 4 => decide (sel ≤ 63)
  | 5 => sel / 128 == 0 && sel / 8 % 2 == 0
  | 6 => slope && decide (sel ≤ 7)
  | _ => false

/-- x ≤ y of two words that are no NaN. -/
def fle (x y : Word) : Bool := (F32.le x y).val == 1
def flt (x y : Word) : Bool := (F32.lt x y).val == 1

/-- The FP32 words of a region. -/
def floatWords (c : Nat) (ws : List Word) : List Word :=
  let keep : Nat → Bool := match c with
    | 6 => fun i => i % 4 != 3
    | 8 => fun i => i % 8 != 4 && i % 8 != 7
    | 9 => fun i => i % 4 == 1 || i % 4 == 2
    | 10 => fun _ => false
    | _ => fun _ => true
  ((List.range ws.length).zip ws).filterMap (fun p => if keep p.1 then some p.2 else none)

/-- R198 on the regions as they would stand. -/
def loopLegal (rd : Nat → Word) : Bool :=
  let r8 := List.range 8
  decide (cfgNx rd ≤ 16) && decide (cfgNy rd ≤ 8) && decide (1 ≤ cfgNu rd ∧ cfgNu rd ≤ 8) && decide (cfgNw rd ≤ 8) &&
    decide (1 ≤ cfgDiv rd) && decide (1 ≤ cfgHoldMax rd) &&
    r8.all (fun i => fle (rd (0x1180 + 8 * i)) (rd (0x1184 + 8 * i))) &&
    r8.all (fun j => fle (rd (0x1104 + 16 * j)) (rd (0x1108 + 16 * j))) &&
    r8.all (fun j => fle (rd (0x11C8 + 32 * j)) (rd (0x11CC + 32 * j)) && !flt (rd (0x11C4 + 32 * j)) 0) &&
    r8.all (fun j => decide (integSel rd j < cfgNy rd) && (integOut rd j == 15 || decide (integOut rd j < cfgNu rd))) &&
    r8.all (fun j => sourceLegal (rd (0x12C0 + 16 * j)) false && sourceLegal (rd (0x1340 + 16 * j)) true) &&
    r8.all (fun j => sourceLegal (rd (0x11D0 + 32 * j)) false)

/-- The window with a region's words replaced. -/
def withRegion (rd : Nat → Word) (off : Nat) (ws : List Word) : Nat → Word :=
  fun a => if off ≤ a ∧ a < off + 4 * ws.length then ws.getD ((a - off) / 4) 0 else rd a

/-! ### One UPDATE (R184 to R196) -/

def fma (c a b : Word) : Word := (F32.fmac c a b).val
def fadd (a b : Word) : Word := (F32.add a b).val
def fsub (a b : Word) : Word := (F32.sub a b).val
def fmul (a b : Word) : Word := (F32.mul a b).val

/-- R186: a dot product from +0.0 in ascending order. -/
def dot (n : Nat) (f g : Nat → Word) : Word := (List.range n).foldl (fun a i => fma a (f i) (g i)) 0

/-- A value between limits; whatever it takes, a subnormal is replaced by zero (R185). -/
def clampF (v lo hi : Word) : Word := F32.flush (if flt v lo then lo else if flt hi v then hi else v)

/-- The value that a source names, or none where it is absent (R187). -/
def sourceValue (s : State) (w prog : Word) (slope : Nat → Word) : Option Word :=
  let sel := fieldGet w 11 0
  match fieldGet w 31 28 with
  | 1 => some prog
  | 2 =>
    let a := Config.scmBase + 0x20000 + 64 * (sel % 32)
    let f := memReadWord s (a + 4)
    if (fieldGet f 31 24).testBit (fieldGet f 23 20 - 1) then none else some (memReadWord s (a + 0x18))
  | 3 =>
    let x := sel / 256
    if wheelOn s x then some (wheelWord s (Config.scmBase + 0x21000 + 32 * x + 4 + 4 * (sel % 4))) else none
  | 4 =>
    let a := Config.scmBase + 0x20A00
    if (memReadWord s (a + 4 + 4 * (sel / 32))).getLsbD (sel % 32) then
      some (memReadWord s (a + 32 * (1 + sel / 4) + 4 + 4 * (sel % 4)))
    else none
  | 5 => some (winGet s (sel % 8) (0x40 + 4 * (sel / 16 % 8)))
  | 6 => some (slope (sel % 8))
  | _ => some 0

/-- What an UPDATE works on and leaves: vectors of 8 (x̂ of 16), masks by bit. -/
structure LoopCalc where
  y : List Word
  w : List Word
  r : List Word
  z : List Word
  u : List Word
  x : List Word
  held : List Nat
  targets : Store Word
  attgt : Nat
  sat : Nat
  windup : Bool
  clamped : Bool
  noPreset : Bool
  deriving DecidableEq, Repr

def vget (v : List Word) (i : Nat) : Word := v.getD i 0
def vset (v : List Word) (i : Nat) (x : Word) : List Word := v.set i x

/-- The inputs of one UPDATE: mode AUTO and not the first, MANUAL's UMASK, operand words, Ts. -/
structure LoopArgs where
  mode : Nat
  first : Bool
  umask : Nat
  opnd : List Word
  ts : Word
  deriving DecidableEq, Repr

/-- Read an input: GAIN × s + OFFS, or the last valid value, held. -/
def readInput (s : State) (rd : Nat → Word) (entry old prog : Nat) (a : LoopArgs) (slope : Nat → Word) : Word × Bool :=
  match sourceValue s (rd entry) (vget a.opnd prog) slope with
  | some v => (fma (rd (entry + 8)) (rd (entry + 4)) v, false)
  | none => (rd old, true)

/-- Measured inputs (R187). -/
def readY (s : State) (rd : Nat → Word) (a : LoopArgs) (c : LoopCalc) : LoopCalc :=
  (List.range (cfgNy rd)).foldl (fun c j =>
    let (v, h) := readInput s rd (0x12C0 + 16 * j) (0xA0 + 4 * j) j a (fun _ => 0)
    { c with y := vset c.y j v, held := if h then c.held ++ [j] else c.held }) c

/-- One pacer (R189 to R191). -/
def stepPacer (s : State) (e : Nat) (rd : Nat → Word) (a : LoopArgs) (c : LoopCalc) (j : Nat) : LoopCalc :=
  let p := 0x11C0 + 32 * j
  if a.mode ≠ LoopMode.auto ∨ a.first then { c with r := vset c.r j (vget c.y (integSel rd j)) }
  else
    let live := fieldGet (rd (p + 0x10)) 31 28 != 1
    let t := if live then
        (sourceValue s (rd (p + 0x10)) 0 (fun _ => 0)).map (fun v => fma (rd (p + 0x18)) (rd (p + 0x14)) v)
      else some (rd p)
    let last := Store.get (fun _ => 0) (loop s e).targets j
    let c := if live then match t with
        | some v => { c with targets := Store.set (fun _ => 0) c.targets j v }
        | none => { c with held := c.held ++ [16 + j] }
      else c
    let t := clampF (t.getD last) (rd (p + 8)) (rd (p + 12))
    let r := vget c.r j
    let step := fmul (rd (p + 4)) a.ts
    if fle (F32.abs (fsub t r)).val step then { c with r := vset c.r j t, attgt := setBit c.attgt j true }
    else { c with r := vset c.r j (if flt r t then fadd r step else fsub r step) }

/-- Feed-forward inputs, after the pacers; `r0` are the set-points before them (SLOPE). -/
def readW (s : State) (rd : Nat → Word) (a : LoopArgs) (r0 : List Word) (c : LoopCalc) : LoopCalc :=
  let slope := fun j => if a.mode ≠ LoopMode.auto ∨ a.first then 0
    else (F32.div (fsub (vget c.r j) (vget r0 j)) a.ts).val
  (List.range (cfgNw rd)).foldl (fun c j =>
    let (v, h) := readInput s rd (0x1340 + 16 * j) (0xC0 + 4 * j) (8 + j) a slope
    { c with w := vset c.w j v, held := if h then c.held ++ [8 + j] else c.held }) c

def kTerm (rd : Nat → Word) (c : LoopCalc) (i : Nat) : Word :=
  dot (cfgNx rd) (fun n => rd (0x0E00 + 64 * i + 4 * n)) (vget c.x)
def fTerm (rd : Nat → Word) (c : LoopCalc) (i : Nat) : Word :=
  dot (cfgNw rd) (fun q => rd (0x1000 + 32 * i + 4 * q)) (vget c.w)

/-- up(i): the K term, the F term, then the integrators in ascending order (R186). -/
def law (rd : Nat → Word) (c : LoopCalc) (i : Nat) : Word :=
  (List.range 8).foldl (fun v j => if integOut rd j = i then fadd v (vget c.z j) else v)
    (fadd (F32.neg (kTerm rd c i)).val (fTerm rd c i))

def uMin (rd : Nat → Word) (i : Nat) : Word := rd (0x1180 + 8 * i)
def uMax (rd : Nat → Word) (i : Nat) : Word := rd (0x1184 + 8 * i)
def outside (rd : Nat → Word) (i : Nat) (v : Word) : Bool := flt v (uMin rd i) || flt (uMax rd i) v

/-- Apply an output (R193). -/
def applyOut (rd : Nat → Word) (i : Nat) (v : Word) (c : LoopCalc) : LoopCalc :=
  { c with u := vset c.u i (clampF v (uMin rd i) (uMax rd i)), sat := setBit c.sat i (outside rd i v) }

/-- The lowest integrator that feeds an output. -/
def feeder (rd : Nat → Word) (i : Nat) : Option Nat := (List.range 8).find? (fun j => integOut rd j == i)

/-- R195, R196: the preset of an output, `last` being u_last(i); and whether it was made without a clamp. -/
def preset (rd : Nat → Word) (i : Nat) (last : Word) (c : LoopCalc) : LoopCalc × Bool :=
  match feeder rd i with
  | none => ({ c with noPreset := true }, false)
  | some j =>
    let rest := (List.range 8).foldl (fun v q => if q ≠ j ∧ integOut rd q = i then fadd v (vget c.z q) else v) 0
    let v := fsub (fsub (fadd last (kTerm rd c i)) (fTerm rd c i)) rest
    let lo := rd (0x1104 + 16 * j)
    let hi := rd (0x1108 + 16 * j)
    let cl := flt v lo || flt hi v
    ({ c with z := vset c.z j (clampF v lo hi), clamped := c.clamped || cl }, !cl)

/-- One integrator (R192); `up` are the unclamped outputs. -/
def integrate (rd : Nat → Word) (up : List Word) (c : LoopCalc) (j : Nat) : LoopCalc :=
  let i := integOut rd j
  if i = 15 then { c with z := vset c.z j 0 }
  else
    let g := rd (0x1100 + 16 * j)
    let err := fsub (vget c.r j) (vget c.y (integSel rd j))
    let ge := fmul g err
    let v := vget up i
    if (flt (uMax rd i) v && flt 0 ge) || (flt v (uMin rd i) && flt ge 0) then { c with windup := true }
    else { c with z := vset c.z j (clampF (fma (vget c.z j) g err) (rd (0x1104 + 16 * j)) (rd (0x1108 + 16 * j))) }

/-- The outputs and integrators of an UPDATE, by mode (R184, R194). The law is computed for every output before the
preset; in the first AUTO update an output whose preset was not clamped is set to its last value (R195). -/
def outputs (rd : Nat → Word) (a : LoopArgs) (c : LoopCalc) : LoopCalc :=
  let is := List.range (cfgNu rd)
  if a.mode = LoopMode.auto then
    let up0 := is.foldl (fun v i => vset v i (law rd c i)) (List.replicate 8 0)
    let (c, up) := is.foldl (fun (p : LoopCalc × List Word) i =>
      if a.first then
        let (c, exact) := preset rd i (vget p.1.u i) p.1
        (c, if exact then vset p.2 i (vget p.1.u i) else p.2)
      else p) (c, up0)
    let c := is.foldl (fun c i => applyOut rd i (vget up i) c) c
    (List.range 8).foldl (integrate rd up) c
  else if a.mode = LoopMode.track then
    let c := is.foldl (fun c i => applyOut rd i (vget a.opnd (16 + i)) c) c
    is.foldl (fun c i => (preset rd i (vget c.u i) c).1) c
  else is.foldl (fun c i => if a.umask.testBit i then applyOut rd i (vget a.opnd (16 + i)) c else c) c

/-- The observer (R184, R186): x̂⁺ = A x̂ + B u + L (y − C x̂). -/
def observe (rd : Nat → Word) (c : LoopCalc) : LoopCalc :=
  let inn := fun j => fsub (vget c.y j) (dot (cfgNx rd) (fun n => rd (0x0C00 + 64 * j + 4 * n)) (vget c.x))
  let row := fun m =>
    fadd (fadd (dot (cfgNx rd) (fun n => rd (0x0400 + 64 * m + 4 * n)) (vget c.x))
      (dot (cfgNu rd) (fun i => rd (0x0800 + 32 * m + 4 * i)) (vget c.u)))
      (dot (cfgNy rd) (fun j => rd (0x0A00 + 32 * m + 4 * j)) inn)
  { c with x := (List.range 16).map (fun m => if m < cfgNx rd then row m else vget c.x m) }

/-- An integrator that no output takes is unused and holds 0.0, in every mode (R192). -/
def unusedZero (rd : Nat → Word) (z : List Word) : List Word :=
  (List.range 8).map (fun j => if integOut rd j = 15 then 0 else vget z j)

/-- One UPDATE, computed from the engine's window and the tables. -/
def loopCalc (s : State) (e : Nat) (a : LoopArgs) : LoopCalc :=
  let rd := winGet s e
  let zeros := List.replicate 8 (0 : Word)
  let c : LoopCalc :=
    { y := zeros, w := zeros, r := winVec s e 0x60 8, z := unusedZero rd (winVec s e 0x80 8), u := winVec s e 0x40 8,
      x := winVec s e 0x100 16, held := [], targets := (loop s e).targets, attgt := 0, sat := 0, windup := false,
      clamped := false, noPreset := false }
  let r0 := c.r
  let c := (List.range 8).foldl (stepPacer s e rd a) (readY s rd a c)
  observe rd (outputs rd a (readW s rd a r0 c))

/-! ### Operations (R200 to R206) -/

/-- Complete an operation: CYCLE, LSTAT and STATUS of the descriptor (R200). -/
def finishLoop (e : Nat) (o : EngOp) (st : Status) (s : State) : State :=
  finishOp (engKey 0 e 0) 0 o st (loopResult e o.desc s)

/-- Operand words from shared control memory, as the engine reads them for its core (R246). -/
def operandWords (o : EngOp) (ptr : Nat) : Nat → State → List Word × State
  | 0, s => ([], s)
  | n + 1, s =>
    let (ws, s) := operandWords o ptr n s
    let (w, s) := engWord { o with desc := Config.scmBase + ptr } n s
    (ws ++ [w], s)

/-- R201: PTR is aligned, and its block ends within shared control memory. -/
def ptrOk (ptr bytes : Nat) : Bool := ptr % 32 == 0 && decide (ptr + bytes ≤ 0x400000)

/-- The operation at the head of engine `e`'s queue, if its OP is `op`; an unknown OP completes with BAD_PARAM. -/
def loopRun (e op : Nat) (body : EngOp → Nat → Nat → State → State × Status) (s : State) : State :=
  match firstNew s (engKey 0 e 0) with
  | none => s
  | some o =>
    let (ws, s1) := engWords o 2 s
    let w := ws.getD 0 0
    let code := fieldGet w 31 24
    if code = op then
      let (s2, st) := body o (fieldGet w 23 8) (ws.getD 1 0).toNat s1
      finishLoop e o st s2
    else if code < 1 ∨ 5 < code then finishLoop e o .badParam s1
    else s

/-- The flags of the last UPDATE, and the counts of R188, R192, R193, R204. -/
def noteUpdate (e : Nat) (c : LoopCalc) (s : State) : State :=
  let held := !c.held.isEmpty
  let s := fset (Fld.LOOP_STATUS_ATTGT e) c.attgt (fset (Fld.LOOP_STATUS_SATMASK e) c.sat s)
  let s := fset (Fld.LOOP_STATUS_NO_PRESET e) (boolNat c.noPreset) (fset (Fld.LOOP_STATUS_PRESET_CLAMP e) (boolNat c.clamped) s)
  let s := fset (Fld.LOOP_STATUS_HELD e) (boolNat held) s
  let s := fset (Fld.LOOP_STATUS_WINDUP e) (boolNat c.windup) (fset (Fld.LOOP_STATUS_NONFINITE e) 0 s)
  let s := if c.sat ≠ 0 then bump (Reg.LOOP_SAT_CNT e) s else s
  let s := if c.windup then bump (Reg.LOOP_WINDUP_CNT e) s else s
  if held then bump (Reg.LOOP_HELD_CNT e) s else clearCond 27 e s

/-- R204: an UPDATE out of its step. -/
def noteSkip (e : Nat) (skip : Bool) (s : State) : State :=
  let s := fset (Fld.LOOP_STATUS_SKIP e) (boolNat skip) s
  if skip then occur (detect 28 e (0x10 + e) 0) (bump (Reg.LOOP_SKIP_CNT e) s) else s

/-- The output entry of an engine into the hidden buffer (R208): written at the cutoff, and once more by an UPDATE that
runs to its end after it (R56); bit 8 of FLAGS is CUT. -/
def loopOutput (cut : Bool) (e : Nat) (s : State) : State :=
  let fl := regGet s (Reg.LOOP_STATUS e) ||| (if cut then 0x100 else 0)
  let u := winVec s e 0x40 8
  hideWords (Config.scmBase + 0x21200 + 64 * e)
    ([cycleNo s, fl] ++ u.take 6 ++ [cycleNo s, fl] ++ u.drop 6 ++ [winGet s e 4, 0, 0, 0]) s

/-- What an UPDATE leaves after the cutoff belongs to the cycle's output entry all the same (R56, R208). -/
def lateOutput (e : Nat) (s : State) : State :=
  if s.esc.cutDone then loopOutput (fbit s Fld.ESC_STATUS_CUT) e s else s

/-- R184, R203 to R206: the UPDATE at the head of the queue; `ns` is the time it took. -/
def loopUpdate (e ns : Nat) (s : State) : State :=
  loopRun e 1 (fun o arg ptr s =>
    let rd := winGet s e
    let m := loopMode s e
    let x := loop s e
    let prog := (List.range 16).any (fun k => fieldGet (rd (0x12C0 + 16 * k)) 31 28 == 1)
    let needs := prog || m != LoopMode.auto
    if s.sys.mode = .boot then (s, .illegalInMode)
    else if 256 ≤ arg ∨ (needs && !ptrOk ptr 96) then (s, .badParam)
    else if x.ranNow then (bump (Reg.LOOP_BUSY_CNT e) s, .refused)
    else
      let (opnd, s) := if needs then operandWords o ptr 24 s else ([], s)
      let ts := (secsOf (cfgDiv rd * periodTicks s)).toF32
      let c := loopCalc s e ⟨m, m == LoopMode.auto && x.first, arg, opnd, ts⟩
      let skip := x.ran && (cycleNo s - winGet s e 4) != BitVec.ofNat 32 (cfgDiv rd)
      let s := noteSkip e skip (setLoop e { x with ran := true, ranNow := true } s)
      let s := if fget s (Fld.LOOP_TUPD_TUPD e) < ns then fset (Fld.LOOP_TUPD_TUPD e) (min 511 ns) s else s
      if (c.x ++ c.z ++ c.u).all F32.finite then
        let cnt := fun (m : Store Nat) k => Store.set (fun _ => 0) m k
          (if c.held.contains k then min 256 (Store.get (fun _ => 0) m k + 1) else 0)
        let s := setLoop e { loop s e with
            first := false, targets := c.targets, held := (List.range 24).foldl cnt x.held } s
        let s := winSetAll e 0x40 (c.u ++ c.r ++ c.z ++ c.y ++ c.w) (winSetAll e 0x100 c.x s)
        let s := clearCond 29 e (bump (Reg.LOOP_UPD_CNT e) (noteUpdate e c s))
        (lateOutput e (showStatus e (winSet e 4 (cycleNo s) s)), .ok)
      else
        let s := fset (Fld.LOOP_STATUS_NONFINITE e) 1 (setLoopMode e LoopMode.manual (bump (Reg.LOOP_NONFIN_CNT e) s))
        (lateOutput e (showStatus e (condIs true 29 e (0x10 + e) (winSet e 4 (cycleNo s) s))), .checkFail)) s

def execLoopUpdate (e : Fin 8) (ns : Nat) (s : State) : Host.Outcome State Fault Refusal := .next (loopUpdate e.val ns s)

/-- R194, R201: SET_MODE. -/
def loopSetModeTo (e m : Nat) (s : State) : State × Status :=
  if 3 ≤ m then (s, .badParam)
  else if s.sys.mode = .lockout ∧ m ≠ LoopMode.manual then (s, .illegalInMode)
  else (setLoopMode e m s, .ok)

def loopSetMode (e : Nat) (s : State) : State := loopRun e 2 (fun _ arg _ s => loopSetModeTo e arg s) s

def execLoopSetMode (e : Fin 8) (s : State) : Host.Outcome State Fault Refusal := .next (loopSetMode e.val s)

/-- The integrators in the window, the unused ones at 0.0 (R192). -/
def holdUnused (e : Nat) (s : State) : State := winSetAll e 0x80 (unusedZero (winGet s e) (winVec s e 0x80 8)) s

/-- Write a region's words after the checks of R197 and R198. -/
def writeRegion (e c : Nat) (ws : List Word) (s : State) : State × Status :=
  match loopRegion c with
  | none => (s, .badParam)
  | some (off, _) =>
    if loopMode s e = LoopMode.auto ∧ c ≠ 8 then (bump (Reg.LOOP_CLOSED_CNT e) s, .loopClosed)
    else if (floatWords c ws).all F32.finite && loopLegal (withRegion (winGet s e) off ws) then
      (holdUnused e (winSetAll e off ws s), .ok)
    else (s, .badParam)

/-- R197: WRITE_COEF. -/
def loopWriteCoef (e : Nat) (s : State) : State :=
  loopRun e 3 (fun o arg ptr s =>
    match loopRegion arg with
    | none => (s, .badParam)
    | some (_, n) =>
      if !ptrOk ptr n then (s, .badParam)
      else
        let (ws, s) := operandWords o ptr (n / 4) s
        writeRegion e arg ws s) s

def execLoopWriteCoef (e : Fin 8) (s : State) : Host.Outcome State Fault Refusal := .next (loopWriteCoef e.val s)

/-- R191: SET_TARGET replaces one pacer entry, in any mode. -/
def loopSetTarget (e : Nat) (s : State) : State :=
  loopRun e 4 (fun o arg ptr s =>
    if 8 ≤ arg ∨ !ptrOk ptr 32 then (s, .badParam)
    else
      let (ws, s) := operandWords o ptr 8 s
      let off := 0x11C0 + 32 * arg
      if (floatWords 8 ws).all F32.finite && loopLegal (withRegion (winGet s e) off ws) then (winSetAll e off ws s, .ok)
      else (s, .badParam)) s

def execLoopSetTarget (e : Fin 8) (s : State) : Host.Outcome State Fault Refusal := .next (loopSetTarget e.val s)

/-- R201: PRESET of x̂ and z, z clamped to its limits; an unused integrator stays at 0.0 (R192). -/
def loopPreset (e : Nat) (s : State) : State :=
  loopRun e 5 (fun o arg ptr s =>
    if 4 ≤ arg ∨ !ptrOk ptr 96 then (s, .badParam)
    else if loopMode s e = LoopMode.auto then (bump (Reg.LOOP_CLOSED_CNT e) s, .loopClosed)
    else
      let (ws, s) := operandWords o ptr 24 s
      let rd := winGet s e
      let z := (List.range 8).map (fun j => clampF (vget ws (16 + j)) (rd (0x1104 + 16 * j)) (rd (0x1108 + 16 * j)))
      let s := if arg.testBit 0 then winSetAll e 0x100 ((ws.take 16).map F32.flush) s else s
      (if arg.testBit 1 then winSetAll e 0x80 (unusedZero rd z) s else s, .ok)) s

def execLoopPreset (e : Fin 8) (s : State) : Host.Outcome State Fault Refusal := .next (loopPreset e.val s)

/-- R188: an input has been held for more than HOLD_MAX consecutive UPDATEs. -/
def loopInputLost (e : Nat) (s : State) : State :=
  if (loop s e).held.any (fun h => decide (cfgHoldMax (winGet s e) < h.2)) then condIs true 27 e (0x10 + e) s else s

def execLoopInputLost (e : Fin 8) (s : State) : Host.Outcome State Fault Refusal := .next (loopInputLost e.val s)

/-! ### The management plane's writes (R199) -/

/-- LOOP_MODE_CMD: GO requests a SET_MODE for the next adoption. -/
def loopModeCmd (o : Origin) (e : Nat) (val : Word) (s : State) : State × Status :=
  checkWrite (Reg.LOOP_MODE_CMD e) o
    [(roleOrCore .operator o, .notPermitted), (s.sys.role != .standby, .notHolder), (fieldGet val 1 0 != 3, .badParam)]
    (fun s =>
      let s := regSet (Reg.LOOP_MODE_CMD e) (val &&& 3) s
      if fieldGet val 31 31 = 1 then
        setLoop e { loop s e with modeCmd := some (fieldGet val 1 0, s.time.cnt) }
          (supersede (loop s e).modeCmd.isSome (Reg.LOOP_MODE_CMD e) s)
      else s) s

def execLoopModeCmd (o : Origin) (e : Fin 8) (val : Word) (s : State) : Host.Outcome State Fault Refusal :=
  .next (loopModeCmd o e.val val s).1

/-- The staged words of the regions that a mask names. -/
def stagedWords (s : State) (e regions : Nat) : List (Nat × Word) :=
  (List.range 11).flatMap (fun c =>
    if regions.testBit c then
      match loopRegion c with
      | some (off, n) => (List.range (n / 4)).map (fun i => (off + 4 * i, regGet s (Reg.LOOP_STAGING e ((off - 0x400) / 4 + i))))
      | none => []
    else [])

/-- LOOP_PB_CTRL: COMMIT takes the staged regions as they stand (R15); a second commit replaces the first (R16). -/
def loopPbCommit (o : Origin) (e : Nat) (val : Word) (s : State) : State × Status :=
  checkWrite (Reg.LOOP_PB_CTRL e) o [(roleOrCore .operator o, .notPermitted)] (fun s =>
    let s := regSet (Reg.LOOP_PB_CTRL e) (val &&& 0xFFFF07FF) s
    if fieldGet val 15 15 = 1 then
      let b : LoopBlock := ⟨s.time.cnt, fieldGet val 31 16, fieldGet val 10 0, stagedWords s e (fieldGet val 10 0)⟩
      setLoop e { loop s e with block := some b } (supersede (loop s e).block.isSome (Reg.LOOP_PB_CTRL e) s)
    else s) s

def execLoopPbCommit (o : Origin) (e : Fin 8) (val : Word) (s : State) : Host.Outcome State Fault Refusal :=
  .next (loopPbCommit o e.val val s).1

/-- A commit is adopted at a boundary at least 200 ns later (R15). -/
def adopts (s : State) (at_ : Nat) : Bool := decide (at_ + Config.adoptTicks ≤ s.time.cnt)

/-- The block as a whole, or nothing of it (R199). -/
def adoptBlock (e : Nat) (b : LoopBlock) (s : State) : State × Status :=
  let rd := fun a => match b.words.find? (fun w => w.1 == a) with | some w => w.2 | none => winGet s e a
  let words := fun c => match loopRegion c with
    | some (off, n) => (List.range (n / 4)).map (fun i => rd (off + 4 * i))
    | none => []
  if s.sys.mode = .boot then (s, .illegalInMode)
  else if loopMode s e = LoopMode.auto ∧ b.regions &&& 0x6FF ≠ 0 then (bump (Reg.LOOP_CLOSED_CNT e) s, .loopClosed)
  else if (List.range 11).all (fun c => !b.regions.testBit c || (floatWords c (words c)).all F32.finite) && loopLegal rd then
    (holdUnused e (b.words.foldl (fun s w => winSet e w.1 w.2 s) s), .ok)
  else (s, .badParam)

/-- R199 at a cycle boundary: the pending mode command, then the block. -/
def adoptLoop (e : Nat) (s : State) : State :=
  let s := match (loop s e).modeCmd with
    | some (m, t) => if adopts s t then (loopSetModeTo e m (setLoop e { loop s e with modeCmd := none } s)).1 else s
    | none => s
  match (loop s e).block with
  | none => s
  | some b =>
    if !adopts s b.at_ then s
    else
      let (s, st) := adoptBlock e b (setLoop e { loop s e with block := none } s)
      let s := if st = .ok then { s with sys := { s.sys with
          blockIds := Store.set (fun _ => 0) s.sys.blockIds (16 + e) (BitVec.ofNat 32 b.id) } } else s
      regSet (Reg.LOOP_PB_CYCLE e) (cycleNo s) (regSet (Reg.LOOP_PB_STAT e) (BitVec.ofNat 32 (b.id * 65536 + st.code)) s)

/-! ### The mirror (R369, R370, R372) -/

/-- The target that a pacer follows: TARGET, or its last live target. -/
def pacerTarget (s : State) (e j : Nat) : Word :=
  if fieldGet (winGet s e (0x11D0 + 32 * j)) 31 28 = 1 then winGet s e (0x11C0 + 32 * j)
  else Store.get (fun _ => 0) (loop s e).targets j

def engineRec (s : State) (e : Nat) : EngineRec :=
  { cycle := winGet s e 4, mode := loopMode s e, held := fbit s (Fld.LOOP_STATUS_HELD e), x := winVec s e 0x100 16,
    z := winVec s e 0x80 8, r := winVec s e 0x60 8, targets := (List.range 8).map (pacerTarget s e),
    u := winVec s e 0x40 8 }

/-- The engine part of the record leaves at the reference point (R370). -/
def sendEngines (s : State) : State :=
  if inPair s && s.sys.role == .active then
    { s with btn := { s.btn with engOut := some (.engine true (cycleNo s) s.btn.mramEpoch ((List.range 8).map (engineRec s))) } }
  else s

/-- Load one engine from the active unit's record (R369). -/
def loadEngine (e : Nat) (r : EngineRec) (s : State) : State :=
  let s := setLoopMode e (min r.mode 2) s
  let s := winSetAll e 0x100 (r.x.take 16) (winSetAll e 0x60 (r.r.take 8 ++ r.z.take 8) s)
  (List.range 8).foldl (fun s j =>
    if fieldGet (winGet s e (0x11D0 + 32 * j)) 31 28 = 1 then winSet e (0x11C0 + 32 * j) (vget r.targets j) s
    else setLoop e { loop s e with targets := Store.set (fun _ => 0) (loop s e).targets j (vget r.targets j) } s)
    (holdUnused e s)

/-- R369 at T_k on a STANDBY unit: called with the new cycle's number. -/
def adoptEngines (s : State) : State :=
  if s.sys.role ≠ .standby ∨ !inPair s then s
  else
    let k := cycleNo s - 1
    match engineRecs s k with
    | none => bump Reg.MIR_LATE_CNT s
    | some es => (List.range 8).foldl (fun s e => match es[e]? with
      | some r =>
        if r.cycle = k then loadEngine e r s
        else if winGet s e 4 = k ∧ (loop s e).ran then bump Reg.MIR_LATE_CNT s
        else s
      | none => s) s

/-- R372: an output that differs by more than BTN_TOL_e with both units in AUTO; `own` are this unit's outputs. -/
def outputsDiffer (s : State) (own : Store (List Word)) (es : List EngineRec) : Bool :=
  (List.range 8).any (fun e => match es[e]?, own.find? (fun o => o.1 == e) with
    | some r, some o => r.mode == LoopMode.auto && loopMode s e == LoopMode.auto && (List.range 8).any (fun i =>
        flt (regGet s (Reg.BTN_TOL e)) (F32.abs (fsub (vget o.2 i) (vget r.u i))).val)
    | _, _ => false)

/-! ### Publication and modes (R208) -/

/-- Entry into COMMISSION from BOOT: coefficients from the commissioning image (the staging area's reset values), vectors
zeroed, MANUAL. -/
def loopFromBoot (e : Nat) (s : State) : State :=
  let s := setLoopMode e LoopMode.manual (setLoop e Loop.reset s)
  let s := (stagedWords s e 0x7FF).foldl (fun s w => winSet e w.1 w.2 s) s
  winSetAll e 0x40 (List.replicate 40 0) (winSetAll e 0x100 (List.replicate 16 0) s)

/-- Entry into LOCKOUT: MANUAL with UMASK empty (R208). -/
def loopLockout (e : Nat) (s : State) : State := setLoopMode e LoopMode.manual s

end Sys2Proof.Machine
end

