-- ==== Sys2Proof/Machine/Ports.lean ====
section
/-! DEFINITION. The chain ports and their states (R61 to R64, R81, R85, R87). -/

namespace Sys2Proof.Machine

/-- The chain whose end lands on a port, and whether that end is the west end (R63). -/
def portChain (s : State) (p : Nat) : Option (ChainMap × Bool) :=
  match s.sys.comm.chains.find? (fun c => c.portE == p) with
  | some c => some (c, s.sys.comm.pair && s.sys.comm.unitB)
  | none =>
    if s.sys.comm.pair then none
    else (s.sys.comm.chains.find? (fun c => c.portW == p)).map (fun c => (c, true))

/-- The port of the chain's other end on this unit (SOLO), if any. -/
def peerPort (s : State) (p : Nat) : Option Nat :=
  if s.sys.comm.pair then none
  else match portChain s p with
  | some (ch, west) => some (endPort ch (!west))
  | none => none

/-- The map entry of the position counted from a port's end (R64). -/
def mapFrom (s : State) (p pos : Nat) : Option CellMap :=
  match portChain s p with
  | some (ch, west) => if pos < ch.n then mapAt s ch.num (posFrom ch.n pos west) else none
  | none => none

/-- Times of a chain in 0.1 ns: serialisation of R68, the bound lap, and D. -/
def serial01 (n : Nat) : Nat := (320 + 128 * n + 32) * 2
def boundLap01 (c : ChainMap) : Nat := serial01 c.n + c.n * 480 + c.fibreM * 50 + 1000
def apply01 (s : State) : Nat := applyTicks s * 20

/-- The receiver of a port is listened to: the map uses it, and it is lit (R61). -/
def portLit (s : State) (p : Nat) : Bool := (portChain s p).isSome && (port s p).lit

/-! ### Port states (R61, R81, R385) -/

/-- Set STATE and FOLD_POS; a change of STATE is a CHAIN event. -/
def setPortState (p st fold : Nat) (s : State) : State :=
  let old := portState s p
  let s := fset (Fld.RING_PSTAT_STATE p) st (fset (Fld.RING_PSTAT_FOLD_POS p) fold s)
  if old = st then s
  else post (mkEvent s 3 p (srcFlow s 3 p) (srcClass s 3 false) (BitVec.ofNat 32 (p + st * 256 + fold * 65536)) (cycleNo s) 0) s

/-- REACHED of a port; a twin that relays, or is relayed to, is told (R378). -/
def setReached (p n : Nat) (s : State) : State :=
  if fget s (Fld.RING_PSTAT_REACHED p) = n then s
  else sendMgmt (.reached (Fin.ofNat 128 p) n) (fset (Fld.RING_PSTAT_REACHED p) n s)

/-! ### Sweeps and heals begin and end (R70, R85 to R87) -/

/-- What a store lists at a key. -/
def listed {α : Type} (m : Store α) (k : Nat) : Option α := (m.find? (fun e => e.1 == k)).map (fun e => e.2)

def phiAt (s : State) (p i : Nat) : Nat := fget s (Fld.RING_CELL_PHI p i)


/-- The discovery results of a port, as the twin is told. -/
def posInfos (s : State) (p : Nat) : List PosInfo :=
  (List.range (port s p).reached).map (fun i =>
    ⟨phiAt s p i, fget s (Fld.RING_CELL_TURN p i), listed (port s p).idents i⟩)

/-- The twin holds the baton and this unit still joins: it sweeps no chain (R383). -/
def joiningTwin (s : State) : Bool :=
  inPair s && fbit s Fld.BTN_HEALTH_JOINING && (match s.btn.twin with | some h => h.role == .active | none => false)

/-- Chains are discovered in COMMISSION, CHARGE and READY, never in RUN (R70). -/
def maySweep (s : State) : Bool := s.sys.mode == .commission || s.sys.mode == .charge || s.sys.mode == .ready

/-- Start a sweep of a port's end, or let it wait for the end of the sweep of the other end (R70). -/
def startSweep (p : Nat) (s : State) : State :=
  let x := port s p
  if x.sweep.isSome || !maySweep s || joiningTwin s || (portChain s p).isNone then s
  else
    let other := x.withheld || (match peerPort s p with | some q => (port s q).sweep.isSome | none => false)
    if other then setPort p { x with wantSweep := true } s
    else sendMgmt (.sweepStart (Fin.ofNat 128 p))
      (setPort p { x with sweep := some ⟨[], false, none, [], [], false⟩, broken := false, wantSweep := false } s)

/-- A sweep waits for the end of the other one. -/
def wanted (p : Nat) (s : State) : State := if (port s p).wantSweep then startSweep p s else s

/-- Requests of an owner are dropped from a chain end. -/
def dropRequests (p : Nat) (owner : SvcOwner) (s : State) : State :=
  let x := port s p
  let keep := fun (r : SvcReq) => r.owner != owner
  let s := setPort p { x with queue := x.queue.filter keep, todo := x.todo.filter keep } s
  fset (Fld.RING_PSVC_DEPTH p) (port s p).queue.length s

/-- A sweep ends without a result: the last complete one stands, the twin is told that the end is free, and a sweep of the
other end that waits goes on (R70, R85). -/
def endSweep (p : Nat) (broken : Bool) (s : State) : State :=
  match (port s p).sweep with
  | none => s
  | some _ =>
    let s := dropRequests p .sweep (setPort p { port s p with sweep := none, broken := broken } s)
    let s := sendMgmt (.sweepEnd (Fin.ofNat 128 p) (posInfos s p)) s
    match peerPort s p with | some q => wanted q s | none => s

/-- R85: a break counts once the sweep's first probe has been launched. -/
def breakSweep (p : Nat) (s : State) : State :=
  match (port s p).sweep with
  | some w => if w.begun then endSweep p true s else s
  | none => s

/-- The port whose heal a port takes part in. -/
def healOwner (s : State) (p : Nat) : Option Nat :=
  if (port s p).heal.isSome then some p
  else if portState s p = PState.healing then
    match peerPort s p with | some q => if (port s q).heal.isSome then some q else none | none => none
  else none

/-- A port leaves a heal: FOLDED again, and its requests dropped. -/
def leaveHeal (s : State) (p : Nat) : State :=
  let s := dropRequests p .heal (setPort p { port s p with heal := none, echo := none, healReady := false } s)
  if portState s p = PState.healing then setPortState p PState.folded (fget s (Fld.RING_PSTAT_FOLD_POS p)) s else s

/-- The ports of this unit that take part in the heal of `o`. -/
def healPorts (s : State) (o : Nat) : List Nat :=
  match peerPort s o with
  | some q => if (port s q).heal.isNone && portState s q == PState.healing then [o, q] else [o]
  | none => [o]

/-- R87: a heal is abandoned: the chain stays FOLDED, and the twin is told. RING_HEAL_HOLD is to pass anew. -/
def abandonHeal (p : Nat) (s : State) : State :=
  match healOwner s p with
  | none => setPort p { port s p with healReady := false } s
  | some o => sendMgmt (.healEnd (Fin.ofNat 128 o)) ((healPorts s o).foldl leaveHeal s)

/-- A port is FOLDED at `fold`, with `reached` cells (R61, R81). A new fold breaks a sweep and a heal (R85, R87). -/
def foldPort (p fold reached : Nat) (s : State) : State :=
  let st := portState s p
  if st = PState.out ∨ st = PState.disabled ∨ st = PState.dark then s
  else
    let was := st == PState.folded || st == PState.healing
    let same := was && fget s (Fld.RING_PSTAT_FOLD_POS p) == fold
    let s := setReached p reached s
    if same then s
    else
      let s := abandonHeal p (breakSweep p s)
      let s := match peerPort s p with | some q => abandonHeal q s | none => s
      let s := if was then s else raiseCond 18 p 0x32 0 (bump (Reg.RING_PFOLD_CNT p) s)
      setPortState p PState.folded fold s

/-- R61: a port whose frames reach no cell. -/
def reachNone (p : Nat) (s : State) : State :=
  if s.sys.mode = .ready ∨ s.sys.mode = .run then foldPort p 0xFF 0 s
  else if portState s p = PState.inService then
    setPortState p PState.discovering 0xFF (setReached p 0 s)
  else s

/-! ### The map and the ports (R61, R63) -/

/-- R61: the transmitters of the mapped ports light, and their ends are to be discovered. -/
def lightPorts (s : State) : State :=
  (mappedPorts s).foldl (fun s p => setPortState p PState.discovering 0xFF (setPort p { port s p with lit := true } s)) s

/-- No chain is discovered in RUN, nor once the escapement stops: sweeps end without a result (R70). -/
def stopSweeps (s : State) : State :=
  (mappedPorts s).foldl (fun s p =>
    endSweep p false (setPort p { port s p with wantSweep := false, broken := false } s)) s

/-- R61: in READY and RUN a port whose frames reach no cell is FOLDED with REACHED 0. -/
def foldUnreached (s : State) : State :=
  (mappedPorts s).foldl (fun s p => if fget s (Fld.RING_PSTAT_REACHED p) = 0 then reachNone p s else s) s

end Sys2Proof.Machine
end

