-- ==== Sys2Proof/Machine/Modes.lean ====
section
/-! DEFINITION. Entering a mode: what each block does (R399, R426, R448 to R456, the mode table of ch. 19). -/

namespace Sys2Proof.Machine

/-- Enter a mode now. -/
def setMode (m : Mode) (s : State) : State := { s with sys := { s.sys with mode := m, modeAt := s.time.cnt } }

/-! ### The waiting mode request (R453, R454) -/

/-- The command code of MODE_REQ (R483). -/
def cmdModeReq : Nat := 0x0040

/-- Decide a mode request: SYS_MODE_STAT shows the status, a refusal is logged, and an HMP request is answered. -/
def decideMode (c : Caller) (st : Status) (s : State) : State :=
  let s := fset Fld.SYS_MODE_STAT_STATUS st.code s
  match c with
  | .req r => if st = .ok then hmpAnswer r.session r.seq .ok [] s else hmpRefuse r cmdModeReq st s
  | .reg o => if st = .ok then s else logRefusal 0x0004 0 st (originCode o) (originSession o) s

/-- The waiting request, if any, completes with `st`. -/
def endWaiting (st : Status) (s : State) : State :=
  match s.sys.waiting with
  | none => s
  | some q => decideMode q.caller st { s with sys := { s.sys with waiting := none } }

/-! ### Entry -/

/-- Start every event core at its entry vector (R242), and count exceptions anew on every core (R213). -/
def startEventCores (s : State) : State :=
  let s := (List.range 8).foldl (fun s c => setCore c { core s c with ecount := 0 } s) s
  (List.range 4).foldl (fun s c => enterCore (4 + c) s) s

/-- Entry into COMMISSION (R61, R204, R208, R281, R320, R334, R374, R399). DESIGN CHOICE (log entry 147): after an earlier OK
check, a later entry keeps the D in force (R43). -/
def enterCommission (s : State) : State :=
  let boot := s.sys.mode == .boot
  let s := schedReset (setMode .commission { s with sys := { s.sys with commAt := s.time.cnt } })
  let s := hkaCommission (setServo servoFree s)
  let s := (List.range 8).foldl (fun s e =>
    if boot then loopFromBoot e s else setLoop e { loop s e with ran := false } s) s
  let s := startEventCores { s with
    chr := { s.chr with record := 0 }, btn := { s.btn with mayBeat := s.sys.role == .active } }
  if (mappedPorts s).any (fun p => (port s p).lit) then s else lightPorts s

/-- Entry into LOCKOUT from COMMISSION to RUN (R208, R264, R454, R487). From BOOT the latch is acted on at the end of the
boot sequence. -/
def enterLockoutNow (s : State) : State :=
  let s := endWaiting .illegalInMode (setMode .lockout s)
  let s := fgcalAbort (stopSweeps s)
  let s := (List.range 8).foldl (fun s e => loopLockout e s) s
  archiveAdd (.faultLog s.fco.log) s

def enterLockout (s : State) : State :=
  if s.sys.mode = .boot ∨ s.sys.mode = .lockout then s else enterLockoutNow s

/-- Entry into RUN (R54, R61, R70). -/
def enterRun (s : State) : State := foldUnreached ((wheelsOn s).foldl (fun s w => wheelEnterRun w s) (stopSweeps (setMode .run s)))

/-- Entry into the mode `m` other than LOCKOUT. -/
def enterMode (m : Mode) (s : State) : State :=
  match m with
  | .commission => enterCommission s
  | .ready => foldUnreached (setMode .ready s)
  | .run => enterRun s
  | m => setMode m s

end Sys2Proof.Machine
end

