-- ==== Sys2Proof/Machine/SafetyDie.lean ====
section
/-! DEFINITION. The safety die (17_safety_functions.md): its firmware steps, block decisions, inputs, outputs, the
LOCKOUT latch and the safety parameter block. -/

namespace Sys2Proof.Machine

/-! ### Demands, faults, BLOCKW -/

def pairPar (s : State) (i : Nat) : PairPar := s.saf.block.pairs.getD i ⟨.none, .equivalent, 3000, 100000⟩
def pairState (s : State) (i : Nat) : PairState := s.saf.pairs.getD i PairState.reset
def isPermit (s : State) (q : Nat) : Bool := s.saf.block.permit.getD q false
def outState (s : State) (q : Nat) : OutState := s.saf.outs.getD q OutState.reset

def setOut (q : Nat) (o : OutState) (s : State) : State :=
  { s with saf := { s.saf with outs := (List.range 4).map (fun i => if i = q then o else outState s i) } }

/-- The demand of SF3: outside RUN it makes none (R418). -/
def sf3Stands (s : State) : Bool := s.saf.demand3 && inRun s

/-- A demand of SF1, SF3 or SF4 stands (R512). -/
def demandStands (s : State) : Bool := s.saf.demand1 || sf3Stands s || s.saf.demand4 != 0

/-- The mask of a cause code of R426. -/
def causeBit (code : Nat) : BitVec 10 := BitVec.ofNat 10 (2 ^ (code - 1))

/-- A pair has a cross-fault or a discrepancy fault; an output has a fault. -/
def pairFault (s : State) : Bool := s.saf.pairs.any (fun p => p.cross || p.disc)
def outFault (s : State) : Bool := s.saf.outs.any (fun o => o.fault)

/-- The control-to-safety link is up (R414). -/
def safetyLinkUp (s : State) : Bool := !raisedSrc s 0 && s.saf.present &&& causeBit 8 == 0

/-- A detected fault of R426 stands: causes 6 to 10. -/
def detectedFault (s : State) : Bool :=
  pairFault s || outFault s || s.saf.present &&& (causeBit 8 ||| causeBit 9 ||| causeBit 10) != 0

/-- Some output of function PERMIT is on. -/
def permitOn (s : State) : Bool := (List.range 4).any (fun q => isPermit s q && (outState s q).on)

/-- BLOCKW is 0xA5 (R414). -/
def blockwOk (s : State) : Bool :=
  s.saf.selfTest == .passed && !s.saf.latch && !demandStands s && !permitOn s && safetyLinkUp s

def blockw (s : State) : Nat := if blockwOk s then 0xA5 else 0x5A

/-- The SF2 proofs hold (R422): every DEAD or EARTHED pair is healthy, and the module is not in RUN. -/
def proofsHold (s : State) : Bool :=
  !inRun s && (List.range 8).all (fun i =>
    match (pairPar s i).func with
    | .dead => (pairState s i).healthy
    | .earthed => (pairState s i).healthy
    | _ => true)

/-- A TRIP output may be on (R512). -/
def tripMay (s : State) : Bool :=
  s.saf.selfTest == .passed && !s.saf.latch && !demandStands s && !detectedFault s

/-- Put an output in its commanded state outside a test (R413, R422, R424, R512). -/
def settleOutput (s : State) (q : Nat) (o : OutState) : OutState :=
  let on := if isPermit s q then o.on && proofsHold s && !detectedFault s && s.saf.selfTest == .passed && !o.fault
    else tripMay s && !o.fault
  let o := { o with
      on := on,
      proofAt := if isPermit s q && proofsHold s then o.proofAt.or (some s.saf.osc) else none }
  match o.test with
  | some _ => o
  | none => { o with swH := on, swL := on, rbH := on, rbL := on }

def settleOutputs (s : State) : State :=
  { s with saf := { s.saf with outs := (List.range 4).map (fun q => settleOutput s q (outState s q)) } }

/-! ### Firmware steps (R420, R426) -/

/-- The channels show the healthy state of the pair's type (R420). -/
def showsHealthy (t : PairType) (a b : Bool) : Bool :=
  match t with
  | .equivalent => a && b
  | .antivalent => a && !b

/-- The channels agree with each other by the pair's type. -/
def channelsAgree (t : PairType) (a b : Bool) : Bool :=
  match t with
  | .equivalent => a == b
  | .antivalent => a != b

/-- One sample of a pair: the evaluation changes once the opposite state has held for t_filter. -/
def samplePair (par : PairPar) (a b : Bool) (now : Nat) (p : PairState) : PairState :=
  let p := { p with chA := a, chB := b }
  if par.func = .none then { p with healthy := false, changeAt := none, cross := false, disc := false }
  else
    let p := { p with disc := p.disc && !channelsAgree par.type a b }
    let h := showsHealthy par.type a b
    if h = p.healthy then { p with changeAt := none }
    else
      let t0 := p.changeAt.getD now
      if usTicks par.filterUs ≤ now - t0 then { p with healthy := h, changeAt := none } else { p with changeAt := some t0 }

def samplePairs (chA chB : BitVec 8) (s : State) : List PairState :=
  (List.range 8).map (fun i => samplePair (pairPar s i) (chA.getLsbD i) (chB.getLsbD i) s.saf.osc (pairState s i))

/-- Some EMERGENCY pair of `ps` is not healthy; some has left its healthy state since `old`. -/
def sf1Demand (s : State) (ps : List PairState) : Bool :=
  (List.range 8).any (fun i => (pairPar s i).func == .emergency && !(ps.getD i PairState.reset).healthy)
def sf1Left (s : State) (ps : List PairState) : Bool :=
  (List.range 8).any (fun i => (pairPar s i).func == .emergency && (pairState s i).healthy &&
    !(ps.getD i PairState.reset).healthy)

/-- The lowest cause code of a set (R426). -/
def lowestCause (c : BitVec 10) : Nat :=
  match (List.range 10).find? (fun i => c.getLsbD i) with
  | some i => i + 1
  | none => 0

/-- Latch LOCKOUT on the causes of a step that found any (R426): every latch raises SAFE_TRIP; an armed release is
cancelled (R430). -/
def latchCauses (c : BitVec 10) (s : State) : State :=
  if c = 0 then s
  else
    let s := { s with saf := { s.saf with pending := 0, relArmed := false, all := s.saf.all ||| c } }
    if s.saf.latch then s
    else
      let s := { s with saf := { s.saf with latch := true, first := lowestCause c, all := c, lockT := nowSplit s } }
      occur (detect 2 0 0x0A 0) (enterLockout (bump Reg.SAF_TRIP_CNT s))

def orCause (b : Bool) (code : Nat) (c : BitVec 10) : BitVec 10 := if b then c ||| causeBit code else c

/-- A cause is present, or no longer. -/
def setPresent (code : Nat) (b : Bool) (s : State) : State :=
  { s with saf := { s.saf with present :=
      if b then s.saf.present ||| causeBit code else s.saf.present &&& ~~~causeBit code } }

/-- R426: one step of the safety firmware on the latest sample of the inputs, SV+ and the die's own checks. -/
def safetyFirmwareStep (chA chB : BitVec 8) (svOk selfOk : Bool) (s : State) : State :=
  if s.saf.selfTest != .passed || !s.sys.powered then s
  else
    let ps := samplePairs chA chB s
    let left := sf1Left s ps
    let wasFault := pairFault s
    let s := { s with saf := { s.saf with
        refreshed := true, pairs := ps, demand1 := sf1Demand s ps, demand3 := sf3Stands s } }
    let s := setPresent 9 (!selfOk) (if svOk then setPresent 10 false s else s)
    let c := orCause left 1 (orCause (!selfOk) 9 (orCause (pairFault s && !wasFault) 6 s.saf.pending))
    crossLink 1 (settleOutputs (latchCauses c s))

def execSafetyFirmwareStep (chA chB : BitVec 8) (svOk selfOk : Bool) (s : State) : Host.Outcome State Fault Refusal :=
  .next (safetyFirmwareStep chA chB svOk selfOk s)

/-- The safety die has a reason to block: a demand, a cause that reached it, or the latch. -/
def blockReason (s : State) : Bool := demandStands s || s.saf.pending != 0 || s.saf.latch

/-- R425: a block decision ends every output test at once; it counts as neither passed nor failed. -/
def endTests (s : State) : State :=
  { s with saf := { s.saf with outs := s.saf.outs.map (fun o => { o with test := none }) } }

/-- R25: the serialiser of an enabled port replaces a character by the block comma, mid-frame if one is in flight. The
block line reaches it within 400 ns (R22); which of the 0.8 ns characters it meets is not stated (log entry 8). -/
def sendBlockComma (s : State) (p : Nat) : State :=
  if !(port s p).lit then s
  else
    let (f, s) := drawFree s
    let x := port s p
    let i := (s.time.cnt - s.esc.tk) * 5 / 2 + f.toNat % 501
    setPort p { x with blockAt := some s.saf.osc, hit := if i < x.tx.length then some i else x.hit } s

/-- The block line is driven into every chain port (R25, R416). -/
def blockLine (s : State) : State :=
  (mappedPorts s).foldl sendBlockComma { s with saf := { s.saf with commaAt := some s.saf.osc } }

/-- R416, R25: the block comma leaves every enabled port, and the TRIP outputs switch off; a PERMIT output whose test ends
goes back to its state (R425). -/
def safetyBlockDecision (s : State) : State :=
  if !blockReason s || !s.sys.powered then s
  else
    let s := blockLine (endTests s)
    let off := fun q =>
      let o := outState s q
      let on := isPermit s q && o.on
      { o with on := on, swH := on, swL := on, rbH := on, rbL := on }
    { s with saf := { s.saf with outs := (List.range 4).map off } }

def execSafetyBlockDecision (s : State) : Host.Outcome State Fault Refusal := .next (safetyBlockDecision s)

/-- R416: the block comma is repeated while LOCKOUT is latched. -/
def execBlockCommaRepeat (s : State) : Host.Outcome State Fault Refusal :=
  .next (if s.saf.latch && s.saf.commaAt.isSome then blockLine s else s)

/-- R418: in RUN no frame start has left any port for 3P. -/
def sf3WatchdogExpiry (s : State) : State :=
  if inRun s && s.saf.block.sf3En && s.saf.selfTest == .passed then
    safetyCause 2 { s with saf := { s.saf with demand3 := true } }
  else s

def execSf3WatchdogExpiry (s : State) : Host.Outcome State Fault Refusal := .next (sf3WatchdogExpiry s)

/-! ### Inputs -/

/-- A closed channel after one off-pulse of source `own`: the count of missed pulses, and whether it has a cross-fault
(R419). -/
def pulseMiss (missed other : Bool) (n : Nat) : Nat × Bool :=
  let n := if missed then n + 1 else 0
  (n, other || decide (2 ≤ n))

/-- R419: the off-pulse of TP0 (channels A) or TP1 (channels B). Bit n of `missed`: channel n did not follow it; bit n of
`followedOther`: the channel of pair n that belongs to the other source followed it. An open channel is not tested, nor
is an unused pair, nor the open channel B of an ANTIVALENT pair (R420). -/
def pulsePair (tp : Nat) (par : PairPar) (missed other : Bool) (p : PairState) : PairState :=
  if par.func = .none then p
  else
    let testsOwn := if tp = 0 then p.chA else p.chB && par.type == .equivalent
    let testsOther := if tp = 0 then p.chB && par.type == .equivalent else p.chA
    let n := if tp = 0 then p.missA else p.missB
    let r := pulseMiss missed false n
    let n' := if testsOwn then r.1 else 0
    let cross := (testsOwn && r.2) || (testsOther && other)
    let p := if tp = 0 then { p with missA := n' } else { p with missB := n' }
    { p with cross := cross || (p.cross && (missed || other || !testsOwn)) }

def testPulse (tp : Nat) (missed other : BitVec 8) (s : State) : State :=
  if s.saf.selfTest != .passed then s
  else
    let was := pairFault s
    let ps := (List.range 8).map (fun i => pulsePair tp (pairPar s i) (missed.getLsbD i) (other.getLsbD i) (pairState s i))
    let s := { s with saf := { s.saf with pairs := ps } }
    if pairFault s && !was then settleOutputs (safetyCause 6 s) else s

def execTestPulse (tp : Fin 2) (missed followedOther : BitVec 8) (s : State) : Host.Outcome State Fault Refusal :=
  .next (testPulse tp.val missed followedOther s)

/-- R420: the channels of a pair have disagreed for longer than t_disc. -/
def discrepancyTimeout (i : Nat) (s : State) : State :=
  let p := pairState s i
  let par := pairPar s i
  if par.func = .none ∨ channelsAgree par.type p.chA p.chB ∨ s.saf.selfTest ≠ .passed then s
  else
    let ps := (List.range 8).map (fun n => if n = i then { p with disc := true } else pairState s n)
    settleOutputs (safetyCause 6 { s with saf := { s.saf with pairs := ps } })

def execSafetyDiscrepancyTimeout (pair : Fin 8) (s : State) : Host.Outcome State Fault Refusal :=
  .next (discrepancyTimeout pair.val s)

/-! ### Outputs (R422 to R425) -/

/-- R423: one switch is tested; on, it opens; off, it alone closes. -/
def outputSwitchTest (q : Nat) (high : Bool) (s : State) : State :=
  let o := outState s q
  if o.test.isSome || s.saf.selfTest != .passed then s
  else
    let o := { o with test := some high }
    let o := if high then { o with swH := !o.on, rbH := !o.on } else { o with swL := !o.on, rbL := !o.on }
    setOut q o s

def execOutputSwitchTest (q : Fin 4) (high : Bool) (s : State) : Host.Outcome State Fault Refusal :=
  .next (outputSwitchTest q.val high s)

/-- R424: an output fault switches the output off and is a detected fault, cause 7. -/
def outputFault (q : Nat) (s : State) : State :=
  let o := outState s q
  settleOutputs (safetyCause 7 (setOut q { o with fault := true, on := false, test := none } s))

/-- R423: a switch test ends. A passed test clears the fault of its output (log entry 12). -/
def outputSwitchTestEnd (q : Nat) (high pass : Bool) (s : State) : State :=
  let o := outState s q
  if o.test ≠ some high then s
  else if pass then
    settleOutputs (bump Reg.SAF_TEST_CNT (setOut q { o with test := none, fault := false } s))
  else outputFault q (bump Reg.SAF_TESTFAIL_CNT s)

def execOutputSwitchTestEnd (q : Fin 4) (high : Bool) (pass : Bool) (s : State) : Host.Outcome State Fault Refusal :=
  .next (outputSwitchTestEnd q.val high pass s)

def execOutputReadbackMismatch (q : Fin 4) (s : State) : Host.Outcome State Fault Refusal :=
  .next (if (outState s q.val).test.isSome || s.saf.selfTest != .passed then s else outputFault q.val s)

def execOutputOvercurrent (q : Fin 4) (s : State) : Host.Outcome State Fault Refusal :=
  .next (if s.saf.selfTest != .passed then s else outputFault q.val s)

/-- PERMIT_DELAY has passed since the proofs of R422 have held. -/
def permitDue (s : State) (o : OutState) : Bool :=
  match o.proofAt with
  | some t => decide (t + msTicks (1000 * s.saf.block.permitDelayS) ≤ s.saf.osc)
  | none => false

/-- R422: the proofs have held for PERMIT_DELAY. -/
def permitDelayExpiry (q : Nat) (s : State) : State :=
  let o := outState s q
  if isPermit s q && proofsHold s && permitDue s o && !detectedFault s && s.saf.selfTest == .passed && !o.fault then
    setOut q { o with on := true, swH := true, swL := true, rbH := true, rbL := true } s
  else s

def execPermitDelayExpiry (q : Fin 4) (s : State) : Host.Outcome State Fault Refusal := .next (permitDelayExpiry q.val s)

/-! ### Detected faults of the die -/

/-- A detected fault: its cause reaches the firmware and every output switches off (R426). -/
def detected (code : Nat) (s : State) : State := settleOutputs (safetyCause code (setPresent code true s))

/-- R426, cause 8: the control-to-safety link has been silent for 50 µs; LOCKOUT latches. -/
def execSafetyLinkSilence (s : State) : Host.Outcome State Fault Refusal :=
  .next (if s.saf.selfTest != .passed then s
    else let s := detected 8 s; settleOutputs (latchCauses s.saf.pending s))

/-- R426, cause 10. -/
def execSvSupplyOutOfRange (s : State) : Host.Outcome State Fault Refusal :=
  .next (if s.saf.selfTest != .passed then s
    else let s := detected 10 s; settleOutputs (latchCauses s.saf.pending s))

/-- R427: the self-tests end; a failure is cause 9 and latches LOCKOUT. -/
def safetySelftestEnd (pass : Bool) (s : State) : State :=
  if s.saf.selfTest != .running || !s.sys.powered then s
  else if pass then settleOutputs { s with saf := { s.saf with selfTest := .passed, refreshed := true } }
  else
    let s := setPresent 9 true { s with saf := { s.saf with selfTest := .failed } }
    latchCauses (causeBit 9 ||| s.saf.pending) s

def execSafetySelftestEnd (pass : Bool) (s : State) : Host.Outcome State Fault Refusal := .next (safetySelftestEnd pass s)

/-! ### Release (R428 to R430) -/

/-- A class A source other than SAFE_TRIP, or in SOLO a class B source, is raised now: causes 4 and 5. -/
def classRaised (cls : Nat) (s : State) : Bool :=
  (List.range 64).any (fun n => n != 2 && sourceClass s n == cls && raisedSrc s n)

/-- Some cause of R426 is present (R428). -/
def causePresent (s : State) : Bool :=
  demandStands s || detectedFault s || s.saf.pending != 0 || s.saf.selfTest != .passed || classRaised 0 s ||
    (s.sys.role == .solo && classRaised 1 s)

/-- R428, R429: arm the release for 60 s; the session checks are HMP's. -/
def armRelease (s : State) : State × Status :=
  if !s.saf.latch then (s, .illegalInMode)
  else if causePresent s then (s, .checkFail)
  else ({ s with saf := { s.saf with relArmed := true, relAt := s.saf.osc } }, .ok)

def execLockoutRelease (r : Req) (s : State) : Host.Outcome State Fault Refusal :=
  .next (hmpRun r ⟨0x0050, .safetyEngineer, true, false, [.lockout]⟩
    (fun _ s => let (s, st) := armRelease s; (s, some (st, []))) s)

/-- R430: the release window passes. -/
def execReleaseWindowExpiry (s : State) : Host.Outcome State Fault Refusal :=
  .next { s with saf := { s.saf with relArmed := false } }

/-- R428, R451: LOCKOUT is released. -/
def releaseLockout (s : State) : State :=
  let s := { s with saf := { s.saf with latch := false, first := 0, all := 0, relArmed := false, commaAt := none } }
  let s := bump Reg.SAF_REL_CNT s
  settleOutputs (if s.sys.mode = .lockout then enterCommission s else s)

/-- The falling edge of LOCKOUT_RESET after `ms` of activity (R428, R430): the input became active since the release was
armed, and no new cause has come. -/
def resetFallingEdge (ms : Nat) (s : State) : State :=
  let ok := s.saf.latch && s.saf.relArmed && !s.saf.keyStuck && decide (500 ≤ ms ∧ ms ≤ 5000) &&
    decide (s.saf.relAt + msTicks ms ≤ s.saf.osc) && s.saf.pending == 0
  let s := { s with saf := { s.saf with key := false } }
  if ok then releaseLockout s else s

def execLockoutResetFallingEdge (heldMs : Nat) (s : State) : Host.Outcome State Fault Refusal :=
  .next (resetFallingEdge heldMs s)

/-- R430: active for more than 5 s. -/
def execLockoutResetLongPress (s : State) : Host.Outcome State Fault Refusal :=
  .next { s with saf := { s.saf with key := true, keyStuck := true, relArmed := false } }

/-- R430: inactive for 1 s. -/
def execKeyStuckClear (s : State) : Host.Outcome State Fault Refusal :=
  .next { s with saf := { s.saf with key := false, keyStuck := false } }

/-! ### The safety parameter block (R431 to R433) -/

/-- Ranges of R431 and the rule of R422 on PERMIT outputs, and R269 for the windows it sets. -/
def pairParOk (p : PairPar) : Bool :=
  decide (100 ≤ p.filterUs ∧ p.filterUs ≤ 20000 ∧ 1000 ≤ p.discUs ∧ p.discUs ≤ 500000)

def winParOk (w : WinPar) : Bool :=
  let code := fun (x : Word) => decide (-131072 ≤ x.toInt ∧ x.toInt ≤ 131071)
  decide (w.qual ≤ 15 ∧ w.hyst ≤ 4095) && code w.hi && code w.lo &&
    (!w.blkEn || decide (w.lo.toInt + 2 * (w.hyst : Int) < w.hi.toInt))

def safetyBlockOk (b : SafetyBlock) : Bool :=
  b.pairs.length == 8 && b.permit.length == 4 && b.win.length == 24 && b.pairs.all pairParOk && b.win.all winParOk &&
  decide (1 ≤ b.testIntS ∧ b.testIntS ≤ 3600 ∧ 1 ≤ b.permitDelayS ∧ b.permitDelayS ≤ 60 ∧ b.id < 65536) &&
  (!b.permit.any id || (b.pairs.any (fun p => p.func == .dead) && b.pairs.any (fun p => p.func == .earthed)))

/-- Write the fast-channel fields that the block governs into their images in FAD (R268). -/
def winImage (n : Nat) (w : WinPar) (s : State) : State :=
  let s := fset (Fld.FAD_WIN_CFG_BLK_EN n) (boolNat w.blkEn) s
  if !w.blkEn then s
  else
    regSet (Reg.FAD_WIN_HI n) w.hi (regSet (Reg.FAD_WIN_LO n) w.lo
      (fset (Fld.FAD_WIN_CFG_HYST n) w.hyst (fset (Fld.FAD_WIN_CFG_QUAL n) w.qual
        (fset (Fld.FAD_WIN_CFG_EN n) (boolNat w.en) s))))

def winImages (b : SafetyBlock) (s : State) : State :=
  (List.range 24).foldl (fun s n => winImage n (b.win.getD n ⟨false, false, 0, 0, 0, 0⟩) s) s

/-- What the die knows of a pair once a block is adopted: its evaluation goes on while its type stays and it was evaluated
(R420; log entry 151). -/
def adoptPair (s : State) (b : SafetyBlock) (i : Nat) : PairState :=
  let new := b.pairs.getD i ⟨.none, .equivalent, 3000, 100000⟩
  let old := pairPar s i
  if old.func = .none ∨ new.func = .none ∨ old.type ≠ new.type then PairState.reset else pairState s i

/-- Adopt a safety block whole, after its change log entry is written (R431, R433). -/
def adoptSafetyBlock (b : SafetyBlock) (image : List Byte) (s : State) : State :=
  let crc := crc32 image
  let e : SafetyLogEntry := ⟨nowSplit s, b.id, s.saf.blockCrc, crc, s.saf.logSeq⟩
  let ps := (List.range 8).map (adoptPair s b)
  let s := { s with saf := { s.saf with
      log := s.saf.log ++ [e], logSeq := s.saf.logSeq + 1, block := b, blockCrc := crc, pairs := ps } }
  settleOutputs (winImages b { s with saf := { s.saf with demand1 := sf1Demand s ps } })

/-- R432: the status with which SAFE_PB_LOAD is refused, in that table's order. -/
def safePbRefusal (x : Session) (r : Req) (pwOk : Bool) (sig : ImageSig) (b : SafetyBlock) (s : State) : Option Status :=
  if x.role ≠ .safetyEngineer ∨ r.port = .station then some .notPermitted
  else if !pwOk || !keyEnrolled s .safety sig then some .authFail
  else if s.sys.mode ≠ .commission ∧ s.sys.mode ≠ .lockout then some .illegalInMode
  else if !safetyBlockOk b then some .badParam
  else if Config.safLogCap ≤ s.saf.log.length then some .logFull
  else none

def setPbStatus (st : Status) (s : State) : State := { s with saf := { s.saf with pbStatus := st } }

/-- SAFE_PB_LOAD decides its checks in the order of R432; every refusal raises SAFE_CFG. -/
def safePbBody (r : Req) (pwOk : Bool) (sig : ImageSig) (b : SafetyBlock) (image : List Byte) (x : Session) (s : State) :
    State × Reply :=
  match safePbRefusal x r pwOk sig b s with
  | some st => (occur (detect 52 0 0x0A 0) (setPbStatus st s), some (st, []))
  | none => (setPbStatus .ok (adoptSafetyBlock b image s), some (.ok, []))

/-- A request that fails authentication is a refusal of R432 too. -/
def safePbLoad (r : Req) (pwOk : Bool) (sig : ImageSig) (b : SafetyBlock) (image : List Byte) (s : State) : State :=
  let t := hmpRun r ⟨0x0051, .viewer, false, false, allModes⟩ (safePbBody r pwOk sig b image) s
  if s.sys.powered && !authentic r s then occur (detect 52 0 0x0A 0) (setPbStatus .authFail t) else t

def execSafePbLoad (r : Req) (passwordOk : Bool) (sig : ImageSig) (block : SafetyBlock) (image : List Byte) (s : State) :
    Host.Outcome State Fault Refusal := .next (safePbLoad r passwordOk sig block image s)

/-- The 32 bytes of a change log entry (R433). -/
def SafetyLogEntry.bytes (e : SafetyLogEntry) : List Byte :=
  let b := wordsBytes [splitNs e.time, splitLo e.time, BitVec.ofNat 32 (e.blockId % 65536 * 65536 + splitHi e.time),
    0x03000000, e.oldCrc, e.newCrc, BitVec.ofNat 32 e.seq]
  b ++ wordBytes (crc32 b)

def safetyLogBytes (s : State) : List Byte := s.saf.log.flatMap SafetyLogEntry.bytes

/-- The sequence number of the newest entry ever written, 0 if none (R433). -/
def newestSafSeq (s : State) : Word := BitVec.ofNat 32 (s.saf.logSeq - 1)

/-- R433: SAFE_LOG_ACK empties the log into the archive (R487) when its SEQ and CRC match. -/
def safeLogAckBody (seq crc : Word) (_ : Session) (s : State) : State × Reply :=
  if seq = newestSafSeq s ∧ crc = crc32 (safetyLogBytes s) then
    if s.saf.log.isEmpty then (s, some (.ok, []))
    else (archiveAdd (.safetyLog s.saf.log) { s with saf := { s.saf with log := [] } }, some (.ok, []))
  else (s, some (.checkFail, []))

def execSafeLogAck (r : Req) (seq crc : Word) (s : State) : Host.Outcome State Fault Refusal :=
  .next (hmpRun r ⟨0x0052, .safetyEngineer, true, false, notBoot⟩ (safeLogAckBody seq crc) s)

/-! ### The read-only image of block SAF -/

def maskOf (n : Nat) (f : Nat → Bool) : Nat := (List.range n).foldl (fun m i => setBit m i (f i)) 0

def safStatusWord (s : State) : Word :=
  let lock := if s.saf.refreshed then s.saf.latch else true
  BitVec.ofNat 32 (boolNat lock * 2 ^ 31 + boolNat (!blockwOk s) * 2 ^ 30 + boolNat s.saf.relArmed * 2 ^ 29 +
    boolNat s.saf.key * 2 ^ 28 + boolNat s.saf.keyStuck * 2 ^ 27 + boolNat (decide (448 ≤ s.saf.log.length)) * 2 ^ 26 +
    boolNat (decide (Config.safLogCap ≤ s.saf.log.length)) * 2 ^ 25 + boolNat (s.saf.demand4 != 0) * 8 +
    boolNat (sf3Stands s) * 4 + boolNat s.saf.demand1)

def safSqWord (s : State) : Word :=
  let m := fun f => maskOf 4 (fun q => f (outState s q))
  BitVec.ofNat 32 (m OutState.fault * 2 ^ 24 + m OutState.rbL * 2 ^ 20 + m OutState.rbH * 2 ^ 16 + m OutState.swL * 2 ^ 12 +
    m OutState.swH * 2 ^ 8 + maskOf 4 (isPermit s) * 16 + m OutState.on)

/-- The registers of block SAF that show the safety die's state; none for its counters. -/
def safView (s : State) (a : Nat) : Option Word :=
  let p := fun f => maskOf 8 (fun i => f (pairState s i))
  if a = Reg.SAF_STATUS then some (safStatusWord s)
  else if a = Reg.SAF_CAUSE then some (BitVec.ofNat 32 (s.saf.first * 2 ^ 24 + s.saf.all.toNat))
  else if a = Reg.SAF_SI then
    some (BitVec.ofNat 32 (p PairState.healthy * 2 ^ 24 + p PairState.chB * 2 ^ 16 + p PairState.chA * 2 ^ 8))
  else if a = Reg.SAF_SI_FAULT then some (BitVec.ofNat 32 (p PairState.cross * 2 ^ 8 + p PairState.disc))
  else if a = Reg.SAF_SQ then some (safSqWord s)
  else if a = Reg.SAF_PB then some (BitVec.ofNat 32 (s.saf.block.id * 2 ^ 16 + s.saf.pbStatus.code))
  else if a = Reg.SAF_PB_CRC then some s.saf.blockCrc
  else if a = Reg.SAF_LOG then some (BitVec.ofNat 32 s.saf.log.length)
  else if a = Reg.SAF_LOCK_T_0 then some (splitNs s.saf.lockT)
  else if a = Reg.SAF_LOCK_T_1 then some (splitLo s.saf.lockT)
  else if a = Reg.SAF_LOCK_T_2 then some (BitVec.ofNat 32 (splitHi s.saf.lockT))
  else none

end Sys2Proof.Machine
end

