-- ==== Sys2Proof/Machine/Chrono.lean ====
section
/-! DEFINITION. The chronograph (12_chronograph.md): triggers, mask tests, capture, records, streaming. -/

namespace Sys2Proof.Machine

def setChr (c : Chr) (s : State) : State := { s with chr := c }

/-- CHR_STATUS.STATE (R310). -/
def chrState (s : State) : Nat := fget s Fld.CHR_STATUS_STATE
def setChrState (n : Nat) (s : State) : State := fset Fld.CHR_STATUS_STATE n s

def ChrState.idle : Nat := 0
def ChrState.armed : Nat := 1
def ChrState.triggered : Nat := 2
def ChrState.holdoff : Nat := 3
def ChrState.rearm : Nat := 4

def SegState.free : Nat := 0
def SegState.writing : Nat := 1
def SegState.closed : Nat := 2
def SegState.stream : Nat := 3

def segState (s : State) (i : Nat) : Nat := fget s (Fld.CHR_SEGSTAT_STATE i)
def setSegState (i n : Nat) (s : State) : State := fset (Fld.CHR_SEGSTAT_STATE i) n s
def segInUse (s : State) : Nat := fget s Fld.CHR_STATUS_SEG

/-- Size in bytes and base address of a segment. -/
def segSize (s : State) (i : Nat) : Nat := fget s (Fld.CHR_SEG_SIZE_MIB i) * 2 ^ 20
def segBase (s : State) (i : Nat) : Nat := Config.dramBase + fget s (Fld.CHR_SEG_BASE_MIB i) * 2 ^ 20

/-- The chronograph as bus master. -/
def chrMaster : Nat := 0x30

/-! ### The digital bits (R307) -/

/-- A source of class `c` is latched in FCO_STATUS. -/
def classLatched (s : State) (c : Nat) : Bool :=
  (List.range 64).any (fun i => (regGet s (Reg.FCO_STATUS_0 + 4 * (i / 32))).getLsbD (i % 32) && sourceClass s i == c)

/-- The wheel latched tag FALLBACK at its last cutoff. -/
def lastFallback (s : State) (w : Nat) : Bool := fieldGet (regGet s (Reg.WHL_CONF_LAST w)) 31 30 == 3

/-- The 128 digital bits. -/
def digitalBits (s : State) : Nat :=
  (regGet s Reg.FIO_DI).toNat + (dqCommand s).toNat * 2 ^ 32 + maskOf 8 (fun i => (pairState s i).healthy) * 2 ^ 48 +
    maskOf 4 (fun q => (outState s q).on) * 2 ^ 56 + boolNat s.saf.latch * 2 ^ 60 +
    boolNat (blockReason s && s.saf.commaAt.isSome) * 2 ^ 61 + boolNat (permitOn s) * 2 ^ 62 +
    fget s Fld.FCO_FOUT_STATE * 2 ^ 63 + fget s Fld.FAD_WIN_STAT_TRIP * 2 ^ 64 + maskOf 12 (lastFallback s) * 2 ^ 88 +
    maskOf 12 (fun w => fbit s (Fld.WHL_STATUS_POOL_LOW w) || fbit s (Fld.WHL_STATUS_POOL_MIN w)) * 2 ^ 100 +
    maskOf 4 (classLatched s) * 2 ^ 112 + boolNat (s.sys.role != .standby) * 2 ^ 116 +
    boolNat (s.sys.role == .standby) * 2 ^ 117 + fget s Fld.BTN_STATUS_SILENT * 2 ^ 118 +
    boolNat (!s.btn.grants.isEmpty) * 2 ^ 119 + fget s Fld.ESC_STATUS_CUT * 2 ^ 120

/-! ### Sizes (R306, R311) -/

/-- 100 ns instants, and 50 ns instants, of a cycle of P. -/
def chrN100 (p : Nat) : Nat := (2 * p + 99) / 100
def chrN50 (p : Nat) : Nat := (2 * p + 49) / 50

def bitList (n m : Nat) : List Nat := (List.range n).filter (fun i => m.testBit i)

def ChrShape.rawChans (h : ChrShape) : List Nat := bitList 24 h.raw
def ChrShape.wheels (h : ChrShape) : List Nat := bitList 12 (fieldGet h.content 11 0)
def ChrShape.digOn (h : ChrShape) : Bool := fieldGet h.content 16 16 == 1
def ChrShape.nDeriv (h : ChrShape) : Nat := fieldGet h.content 28 24

/-- Words of raw samples of channel `c` in a block. -/
def ChrShape.rawWords (h : ChrShape) (c : Nat) : Nat := if h.il.testBit (c / 2) then chrN50 h.pTicks else chrN100 h.pTicks

def ChrShape.words (h : ChrShape) : Nat :=
  8 + (h.rawChans.map h.rawWords).foldl (· + ·) 0 + (if h.digOn then 4 * chrN100 h.pTicks else 0) +
    9 * popCount 24 h.filt + h.nDeriv + 8 + (h.wheels.map (fun w => 2 * h.counts.getD w 0)).foldl (· + ·) 0

/-- The stride: the sections rounded up to 64 bytes. -/
def ChrShape.stride' (h : ChrShape) : Nat := (4 * h.words + 63) / 64 * 64

/-- S_rec (R311). -/
def ChrShape.size (h : ChrShape) : Nat := 64 + (h.pre + 1 + h.post) * h.stride + 128

/-- The content that an ARM would fix now. -/
def shapeNow (s : State) : ChrShape :=
  let h : ChrShape :=
    { pre := fget s Fld.CHR_PRE_PRE, post := fget s Fld.CHR_POST_POST, stride := 0, raw := fget s Fld.CHR_RAW_RAW,
      filt := fget s Fld.CHR_FILT_FILT, content := regGet s Reg.CHR_CONTENT, il := fget s Fld.FAD_STATUS_IL,
      pTicks := periodTicks s, counts := (List.range 12).map (fun w => fget s (Fld.WHL_SLOTS_COUNT w)),
      derivs := (List.range 16).map (fun d => regGet s (Reg.CHR_DERIV d)), cfgId := fget s Fld.CHR_ID_CFG_ID,
      stream := fbit s Fld.CHR_CTRL_DEST }
  { h with stride := h.stride' }

/-! ### Taking a trigger (R315 to R320) -/

/-- Count a false start (R320). -/
def falseStart (sp : Split) (s : State) : State :=
  let c := s.chr
  bump Reg.CHR_FS_CNT (setChr { c with fsCount := c.fsCount + 1, fsFirst := if c.fsCount = 0 then sp else c.fsFirst } s)

/-- R318: the trigger is taken into the block that runs. -/
def takeTrigger (code : Nat) (sp : Split) (s : State) : State :=
  let c := s.chr
  match c.shape with
  | none => s
  | some h =>
    let pre := min h.pre (c.ser - c.first)
    let old := if h.pre = 0 then 0 else (c.ser - pre - c.first) % h.pre
    let t : ChrTrig := ⟨c.ser, cycleNo s + 1, sp, code, s.time.cnt, pre, old, 0, c.fsCount, c.fsFirst⟩
    let out := if fbit s Fld.CHR_TRIGIO_OUT_EN then s.time.cnt + usTicks 1 else c.trigOut
    setSplitRegs Reg.CHR_TRIG_T_0 sp (setChrState ChrState.triggered (setChr
      { c with trig := some t, post := 0, written := 0, stopSer := none, fsCount := 0, fsFirst := ⟨0, 0⟩, trigOut := out } s))

/-- A trigger is recognised (R310, R316, R319): whether it is taken. -/
def trigger (code : Nat) (sp : Split) (s : State) : Bool × State :=
  let c := s.chr
  match chrState s, c.trig with
  | 1, _ => (true, takeTrigger code sp s)
  | 2, some t =>
    if t.ser = c.ser then
      if t.at_ = s.time.cnt ∧ code < t.src then
        (true, setSplitRegs Reg.CHR_TRIG_T_0 sp (setChr
          { c with trig := some { t with src := code, split := sp, also := setBit t.also (t.src - 1) true } } s))
      else (false, setChr { c with trig := some { t with also := setBit t.also (code - 1) true } } s)
    else (false, falseStart sp s)
  | 3, _ => (false, falseStart sp (setChr { c with holdCount := c.holdCount + 1 } s))
  | 4, _ => (false, falseStart sp s)
  | _, _ => (false, s)

def seqOpen (s : State) : Bool :=
  match s.chr.seqAt with
  | some t => decide (s.time.cnt ≤ t + usTicks (fget s Fld.CHR_SEQ_WIN_WIN))
  | none => false

def setSeq (t : Option Nat) (s : State) : State :=
  fset Fld.CHR_STATUS_STAGE_B (boolNat t.isSome) (setChr { s.chr with seqAt := t } s)

/-- The source is enabled for the trigger. -/
def tenOn (s : State) (code : Nat) : Bool := (fget s Fld.CHR_TEN_TEN).testBit (code - 1)

/-- A trigger has been taken in the block that runs: the trigger block (R315). -/
def inTriggerBlock (s : State) : Bool :=
  chrState s == ChrState.triggered && (match s.chr.trig with | some t => t.ser == s.chr.ser | none => false)

/-- A source is recognised (R313, R316): one or two stages. Within the trigger block the order of the sources and ALSO
decide, whichever stage waits. -/
def recognise (code : Nat) (sp : Split) (s : State) : Bool × State :=
  let on := tenOn s code
  if chrState s = ChrState.idle then (false, s)
  else if !fbit s Fld.CHR_SEQ_A_EN || (inTriggerBlock s && on) then (if on then trigger code sp s else (false, s))
  else if seqOpen s then (if on then trigger code sp (setSeq none s) else (false, s))
  else if (fget s Fld.CHR_SEQ_A_SET_A).testBit (code - 1) then (false, setSeq (some s.time.cnt) s)
  else (false, s)

def recognised (code : Nat) (sp : Split) (s : State) : State := (recognise code sp s).2

/-- A STOP violation of mask `m` (R317). -/
def maskStop (m : Nat) (sp : Split) (s : State) : State :=
  match chrState s with
  | 1 =>
    let s := takeTrigger (9 + m) sp s
    setChr { s.chr with stopSer := some s.chr.ser } s
  | 2 => setChr { s.chr with stopSer := s.chr.stopSer.or (some s.chr.ser) } s
  | 3 => setChrState ChrState.idle s
  | 4 => setChrState ChrState.idle s
  | _ => s

/-- Mask `m` is violated at `sp`. -/
def maskViolated (m : Nat) (sp : Split) (s : State) : State :=
  if fbit s (Fld.CHR_MASK_ACTION m) then maskStop m sp s else recognised (9 + m) sp s

/-! ### Raw and filtered masks, analogue units (R314, R317) -/

/-- A raw sample of channel `n` at position `i` against the raw masks. -/
def rawMasks (n i : Nat) (x : Int) (s : State) : State :=
  (List.range 8).foldl (fun s m =>
    if fbit s (Fld.CHR_MASK_EN m) && !fbit s (Fld.CHR_MASK_KIND m) && fget s (Fld.CHR_MASK_CHAN m) == n &&
        decide (i < fget s (Fld.CHR_MASK_NPOS m)) && chrState s != 0 &&
        decide ((regGet s (Reg.CHR_HURDLE_HI m i)).toInt < x ∨ x < (regGet s (Reg.CHR_HURDLE_LO m i)).toInt) then
      maskViolated m (nowSplit s) s
    else s) s

/-- Exact comparison of FP32 values; false for a NaN or an infinity. -/
def gtF (a b : Frac) : Bool := b.lt a

def filtMasks (n j : Nat) (o : GridOut) (s : State) : State :=
  let x := Frac.ofF32 o.x
  (List.range 8).foldl (fun s m =>
    if fbit s (Fld.CHR_MASK_EN m) && fbit s (Fld.CHR_MASK_KIND m) && fget s (Fld.CHR_MASK_CHAN m) == n &&
        decide (j < fget s (Fld.CHR_MASK_NPOS m)) && chrState s != 0 &&
        (gtF x (Frac.ofF32 (regGet s (Reg.CHR_HURDLE_HI m j))) || gtF (Frac.ofF32 (regGet s (Reg.CHR_HURDLE_LO m j))) x) then
      maskViolated m (splitOf o.t) s
    else s) s

/-- Whether unit `u` fires on an output, and whether it re-arms (R314). `dx` is the slope per second. -/
def unitTest (s : State) (u : Nat) (x dx : Frac) : Bool × Bool :=
  let hi := Frac.ofF32 (regGet s (Reg.CHR_AT_HI u))
  let lo := Frac.ofF32 (regGet s (Reg.CHR_AT_LO u))
  let hy := Frac.ofF32 (regGet s (Reg.CHR_AT_HYST u))
  match fget s (Fld.CHR_AT_CFG_TYPE u) with
  | 1 => (gtF x hi, gtF (hi.sub hy) x)
  | 2 => (gtF lo x, gtF x (lo.add hy))
  | 3 => (gtF dx hi, Frac.le dx (hi.sub hy))
  | 4 => (gtF x hi || gtF lo x, Frac.le (lo.add hy) x && Frac.le x (hi.sub hy))
  | _ => (false, true)

/-- An analogue unit evaluates an output that is not SETTLING. -/
def evalUnit (n : Nat) (o : GridOut) (s : State) (u : Nat) : State :=
  if fget s (Fld.CHR_AT_CFG_TYPE u) = 0 ∨ fget s (Fld.CHR_AT_CFG_CHAN u) ≠ n then s
  else
    let x := Frac.ofF32 o.x
    let dx := match Store.get (fun _ => none) s.chr.unitPrev u with
      | some w => ((x.sub (Frac.ofF32 w)).abs.mul (Frac.ofInt (1000000000 * 65536 * (outM s n : Int)))).div
          (Frac.ofInt (max 1 s.front.span : Nat))
      | none => Frac.zero
    let waiting := Store.get (fun _ => false) s.chr.unitFired u
    let (fire, rearm) := unitTest s u x dx
    let put := fun (b : Bool) (s : State) => setChr { s.chr with unitFired := Store.set (fun _ => false) s.chr.unitFired u b } s
    let s := setChr { s.chr with unitPrev := Store.set (fun _ => none) s.chr.unitPrev u (some o.x) } s
    if waiting then put (!rearm) s
    else if fire then recognised (2 + u) (splitOf o.t) (put true s)
    else s

/-- Units and filtered masks on output `j` of channel `n`. -/
def testOutput (n : Nat) (s : State) (e : GridOut × Nat) : State :=
  if e.1.settling then s else filtMasks n e.2 e.1 ((List.range 4).foldl (evalUnit n e.1) s)

/-- Evaluate the outputs of the running cycle that have been placed since the last call. -/
def chrOutputs (s : State) : State :=
  (List.range 24).foldl (fun s n =>
    let c := chan s n
    (c.outs.zipIdx.drop c.tested).foldl (testOutput n) (setChan n { c with tested := c.outs.length } s)) s

/-- At a boundary: evaluate what is left of the ended cycle's outputs. -/
def chrLast (s : State) : State :=
  (List.range 24).foldl (fun s n =>
    let c := chan s n
    (c.last.zipIdx.drop c.tested).foldl (testOutput n) (setChan n { c with tested := 0 } s)) s

/-- Triggers of a sampling instant: fault latches, and the pattern at a 100 ns instant (R313). -/
def chrInstant (dig : Nat) (s : State) : State :=
  let fs := s.chr.faults
  let s := fs.foldl (fun s (f : Nat × Split) =>
    if (fget s Fld.CHR_FAULT_CLASSES).testBit f.1 then recognised 7 f.2 s else s) (setChr { s.chr with faults := [] } s)
  let met := (List.range 4).all (fun n =>
    ((BitVec.ofNat 32 (dig / 2 ^ (32 * n)) ^^^ regGet s (Reg.CHR_PAT_VAL n)) &&& regGet s (Reg.CHR_PAT_CARE n)) == 0)
  let was := s.chr.patMet
  let s := setChr { s.chr with patMet := met } s
  if met && !was then recognised 1 (nowSplit s) s else s

/-- TRIG_IN (R313). -/
def trigInEdge (falling : Bool) (s : State) : State :=
  let ok := match fget s Fld.CHR_TRIGIO_IN_EDGE with | 0 => !falling | 1 => falling | _ => true
  if ok then recognised 6 (nowSplit s) s else s

def execTrigInEdge (falling : Bool) (s : State) : Host.Outcome State Fault Refusal := .next (trigInEdge falling s)

/-- R316: the window of stage B has expired. -/
def execChrSeqWindowExpiry (s : State) : Host.Outcome State Fault Refusal :=
  .next (if s.chr.seqAt.isSome then setSeq none s else s)

/-! ### Blocks (R305 to R309, R318) -/

/-- Drop what lies before the oldest block still to be written. -/
def pruneRaws (s : State) : State :=
  let from_ := match s.chr.blks with | b :: _ => b.from_ | [] => s.esc.tk
  let low := match s.chr.blks with | b :: _ => b.ser | [] => s.chr.ser
  setChr { s.chr with
    raws := s.chr.raws.filter (fun r => decide (from_ ≤ r.cnt)), marks := s.chr.marks.filter (fun m => decide (low ≤ m.ser)),
    marksLost := s.chr.marksLost.filter (fun m => decide (low ≤ m)) } s

/-- The interval that ends at T_k becomes a block (R305); `k` is the cycle that begins. -/
def chrBoundary (k : Word) (s : State) : State :=
  let c := s.chr
  let b : BlkRec := ⟨c.ser, k, s.esc.tk, s.time.cnt, timeAt s s.esc.tk, timeAt s s.time.cnt, false, none⟩
  pruneRaws (setChr { c with ser := c.ser + 1, blks := ringPush 4 b c.blks } s)

/-- Cycle k has been cut (R57). -/
def chrCut (s : State) : State :=
  setChr { s.chr with blks := s.chr.blks.map (fun b => if b.cycle = cycleNo s then { b with cut := true } else b) } s

/-- A derived value (R308). -/
def derivWord (s : State) (k : Word) (d : Word) : Word :=
  let sel := fieldGet d 11 0
  let nan : Word := 0x7FC00000
  match fieldGet d 31 28 with
  | 1 => memReadWord s (Config.scmBase + 0x24000 + 4 * sel)
  | 2 =>
    let a := Config.scmBase + 0x21200 + 64 * (sel % 8)
    let j := sel / 16 % 8
    if memReadWord s (a + 48) = k then memReadWord s (a + (if j < 6 then 8 + 4 * j else 40 + 4 * (j - 6))) else nan
  | 3 =>
    if wheelOn s (sel / 256) then memReadWord s (Config.scmBase + 0x21000 + 32 * (sel / 256) + 4 * (sel % 8)) else nan
  | _ => nan

/-- The two words of a cell entry (R309), from the cell table as published. -/
def cellEntry (s : State) (k : Word) (w slot : Nat) : List Word :=
  let a := Config.scmBase + 32 * slot
  let rd := fun i => (memReadWord s (a + i)).toNat
  let vern := boolNat ((wheel s w).vern == some slot) * 64
  if memReadWord s a = k ∧ 2 ^ 31 ≤ rd 12 then
    let lo := rd 4
    let hi := rd 8
    let cmd := rd 20
    [BitVec.ofNat 32 (lo / 2 ^ 28 * 2 ^ 28 + bitsOf (rd 12) 15 12 * 2 ^ 24 + bitsOf cmd 31 29 * 2 ^ 21 +
      bitsOf cmd 28 26 * 2 ^ 18 + bitsOf lo 23 16 * 2 ^ 8 + 128 + vern), BitVec.ofNat 32 hi]
  else [BitVec.ofNat 32 vern, 0]

/-- At the cell table publication of cycle k every per-cycle value of block k is present (R305). -/
def chrCapture (k : Word) (s : State) : State :=
  match s.chr.shape with
  | none =>
    setChr { s.chr with blks := s.chr.blks.map (fun b => if b.cycle = k ∧ b.body.isNone then { b with body := some ⟨[], [], []⟩ } else b) } s
  | some h =>
    let filt := (bitList 24 h.filt).flatMap (fun n =>
      let m := fieldGet (memReadWord s (measBase n + 4)) 23 20
      memReadWord s (measBase n + 4) :: (List.range 8).map (fun j =>
        if m ≤ j then 0 else if j + 1 = m then memReadWord s (measBase n + 24) else memReadWord s (measBase n + 36 + 4 * j)))
    let deriv := (List.range h.nDeriv).map (fun d => derivWord s k (h.derivs.getD d 0))
    let cells := h.wheels.flatMap (fun w => (List.range (h.counts.getD w 0)).flatMap (fun i =>
      cellEntry s k w (fget s (Fld.WHL_SLOTS_FIRST w) + i)))
    setChr { s.chr with blks := s.chr.blks.map (fun b =>
      if b.cycle = k ∧ b.body.isNone then { b with body := some ⟨filt, deriv, cells⟩ } else b) } s

/-- A section of fixed size (R306). -/
def sized (n : Nat) (l : List Word) : List Word := (l ++ List.replicate n 0).take n

def wordsOf (n v : Nat) : List Word := (List.range n).map (fun i => BitVec.ofNat 32 (v / 2 ^ (32 * i)))

/-- The words of a block (R306, R307). -/
def blockWords (s : State) (h : ChrShape) (b : BlkRec) : List Word :=
  let recs := s.chr.raws.filter (fun r => decide (b.from_ ≤ r.cnt ∧ r.cnt < b.to_))
  let marks := s.chr.marks.filter (fun m => m.ser == b.ser)
  let t := splitOf b.t0
  let first := ((b.from_ + 49) / 50 * 50 - b.from_) * 2
  let n100 := (recs.filter (fun r => r.cnt % 50 == 0)).length
  let lost := s.chr.marksLost.contains b.ser
  let body := b.body.getD ⟨[], [], []⟩
  let head : List Word :=
    [b.cycle, splitNs t, splitLo t, BitVec.ofNat 32 (first * 65536 + splitHi t),
     BitVec.ofNat 32 (n100 * 65536 + recs.length), BitVec.ofInt 32 (roundFree (b.t1 - b.t0 : Nat) 65536),
     BitVec.ofNat 32 (boolNat lost * 16 + marks.length * 2 + boolNat b.cut), 0]
  let raw := h.rawChans.flatMap (fun c => sized (h.rawWords c) (recs.filterMap (fun r =>
    (r.codes.find? (fun e => e.1 == c)).map (fun e => BitVec.ofInt 32 e.2))))
  let dig := if h.digOn then sized (4 * chrN100 h.pTicks) (recs.flatMap (fun r => match r.dig with
      | some d => wordsOf 4 d | none => [])) else []
  let mk := sized 8 (marks.flatMap (fun m => [Config.markerWord 0 m.code m.source m.off, Config.markerWord 1 m.code m.source m.off]))
  sized (h.stride / 4) (head ++ raw ++ dig ++ sized (9 * popCount 24 h.filt) body.filt ++ sized h.nDeriv body.deriv ++ mk ++
    sized ((h.wheels.map (fun w => 2 * h.counts.getD w 0)).foldl (· + ·) 0) body.cells)

/-- Write image bytes at an offset: in stream mode into the ring (R323), where they then wait to be sent. -/
def imageWrite (h : ChrShape) (off : Nat) (bs : List Byte) (s : State) : State :=
  let g := segInUse s
  if h.stream then
    let size := max 1 (segSize s g)
    let k := size - off % size
    putBytes (segBase s g) (bs.drop k) (putBytes (segBase s g + off % size) (bs.take k) s)
  else putBytes (segBase s g + off) bs s

/-- Stream mode: bytes of the image are queued for sending in order of writing. -/
def queueSend (h : ChrShape) (off n : Nat) (s : State) : State :=
  if h.stream then setChr { s.chr with unsent := s.chr.unsent ++ [⟨s.chr.record, off, n⟩] } s else s

/-- A ring write at `off` would overwrite bytes not yet sent (R322). -/
def wouldOverwrite (s : State) (h : ChrShape) (off n : Nat) : Bool :=
  h.stream &&
    let size := max 1 (segSize s (segInUse s))
    s.chr.unsent.any (fun u =>
      decide ((off % size + size - u.off % size) % size < u.len ∨ (u.off % size + size - off % size) % size < n))

/-! ### Closing a record (R321, R324) -/

def Close.ovf : Nat := 1
def Close.abort : Nat := 2
def Close.maskStop : Nat := 4
def Close.escStop : Nat := 8

/-- The record header (R324). -/
def headerWords (s : State) (h : ChrShape) (t : ChrTrig) (flags ovfIndex : Nat) : List Word :=
  [BitVec.ofNat 32 s.chr.record, BitVec.ofNat 32 (h.pre * 65536 + t.preAct), BitVec.ofNat 32 (h.post * 65536 + s.chr.post),
   BitVec.ofNat 32 (t.oldest * 65536 + h.cfgId), t.cycle, splitNs t.split, splitLo t.split,
   BitVec.ofNat 32 (t.src * 2 ^ 27 + splitHi t.split), BitVec.ofNat 32 (t.also * 65536 + flags), BitVec.ofNat 32 ovfIndex,
   BitVec.ofNat 32 t.fsCount, splitNs t.fsFirst, splitLo t.fsFirst,
   BitVec.ofNat 32 (segInUse s * 2 ^ 24 + splitHi t.fsFirst), BitVec.ofNat 32 h.stride, 0x00010000]

/-- The trailer (R324); `last` is the cycle number of the last block written. -/
def trailerWords (h : ChrShape) (last : Word) (total : Nat) : List Word :=
  let pair := fun i => BitVec.ofNat 32 (h.counts.getD (2 * i + 1) 0 * 65536 + h.counts.getD (2 * i) 0)
  [BitVec.ofNat 32 h.raw, BitVec.ofNat 32 h.il, BitVec.ofNat 32 h.filt, h.content, BitVec.ofNat 32 h.pTicks, last,
   BitVec.ofNat 32 total, 0] ++ (List.range 6).map pair ++ [0, 0] ++ sized 16 h.derivs

/-- Hold-off after a close (R319): a zero setting ends it at once. -/
def enterHoldoff (s : State) : State :=
  let zero := if fbit s Fld.CHR_CTRL_HOLD_MODE then fget s Fld.CHR_HOLD_HOLD_N == 0 else fget s Fld.CHR_HOLD_HOLD_T == 0
  let s := setChr { s.chr with holdCount := 0 } s
  if !zero then setChrState ChrState.holdoff s
  else setChrState (if fbit s Fld.CHR_CTRL_AUTO_REARM then ChrState.rearm else ChrState.idle) s

/-- No overflow in OVF_INDEX. -/
def noOvf : Nat := 0xFFFFFFFF

/-- PRE_ACT and OLDEST of a record that closes now (R318): of the blocks before the trigger block, those still waiting
from serial `next` on are not written any more. -/
def preWritten (h : ChrShape) (t : ChrTrig) (next : Nat) (s : State) : ChrTrig :=
  let stop := min t.ser next
  let pre := min h.pre (stop - s.chr.first)
  { t with preAct := pre, oldest := if h.pre = 0 then 0 else (stop - pre - s.chr.first) % h.pre }

/-- The pre-trigger blocks are queued for sending, oldest first (R323). -/
def queuePre (h : ChrShape) (t : ChrTrig) (s : State) : State :=
  (List.range t.preAct).foldl (fun s i => queueSend h (64 + (t.oldest + i) % (max 1 h.pre) * h.stride) h.stride s) s

/-- The serial of the first block that is not written yet. -/
def nextUnwritten (s : State) : Nat := match s.chr.blks with | b :: _ => b.ser | [] => s.chr.ser

/-- A record closes (R321) before the block of serial `next`: trailer, header, segment, count and event. `flags` are the
header flags but for MASK_STOP, STREAM and SEQ; with OVF the index is that of block `next` (R322). -/
def closeRecord (flags next : Nat) (s : State) : State :=
  match s.chr.shape, s.chr.trig with
  | some h, some t0 =>
    let t := preWritten h t0 next s
    let total := t.preAct + s.chr.written
    let flags := if s.chr.stopSer.isSome then flags ||| Close.maskStop else flags
    let ovfIndex := if flags.testBit 0 then total else noOvf
    let fl := flags + boolNat h.stream * 16 + fget s Fld.CHR_SEQ_A_EN * 32
    let s := if s.chr.written = 0 then queuePre h t s else s
    let (last, s) := if total = 0 then drawFree s else (s.chr.last, s)
    let off := 64 + (h.pre + 1 + h.post) * h.stride
    let s := queueSend h off 128 (imageWrite h off (wordsBytes (trailerWords h last total)) s)
    let s := queueSend h 0 64 (imageWrite h 0 (wordsBytes (headerWords s h t fl ovfIndex)) s)
    let g := segInUse s
    let s := fset (Fld.CHR_SEGSTAT_RECORD g) s.chr.record (setSegState g SegState.closed s)
    let e := mkEvent s 6 g (fget s Fld.CHR_EVT_FLOW) (fget s Fld.CHR_EVT_CLASS) (BitVec.ofNat 32 s.chr.record)
      (BitVec.ofNat 32 (g * 256 + fl)) 0
    let s := setChr { s.chr with
        record := s.chr.record + 1, trig := none, due := none, stopSer := none, escSer := none, post := 0, written := 0 } s
    let s := post e (bump Reg.CHR_REC_CNT s)
    if flags = 0 ∨ flags = Close.ovf then enterHoldoff s else setChrState ChrState.idle s
  | _, _ => s

def chrRecordClose (s : State) : State :=
  match s.chr.due with
  | some f => closeRecord f (nextUnwritten s) s
  | none => s

def execChrRecordClose (s : State) : Host.Outcome State Fault Refusal := .next (chrRecordClose s)

/-- A block of the ring is written before any trigger (R318), or it overflows and the ring is discarded (R322). -/
def ringBlock (h : ChrShape) (b : BlkRec) (room : Bool) (s : State) : State :=
  let c := s.chr
  let off := 64 + (b.ser - c.first) % (max 1 h.pre) * h.stride
  if !room || (wouldOverwrite s h off h.stride && h.pre != 0) then
    occur (detect 34 0 chrMaster 0) (bump Reg.CHR_OVF_CNT (setChr { c with first := b.ser + 1 } s))
  else if h.pre = 0 then s
  else imageWrite h off (wordsBytes (blockWords s h b)) (setChr { c with last := b.cycle } s)

/-- A block of a record whose trigger is taken. -/
def recordBlock (h : ChrShape) (t : ChrTrig) (b : BlkRec) (room : Bool) (s : State) : State :=
  let c := s.chr
  let off := if b.ser < t.ser then 64 + (b.ser - c.first) % (max 1 h.pre) * h.stride
    else 64 + (h.pre + (b.ser - t.ser)) * h.stride
  if b.ser + t.preAct < t.ser then s
  else if !room || wouldOverwrite s h off h.stride then
    occur (detect 34 0 chrMaster 0) (bump Reg.CHR_OVF_CNT (closeRecord Close.ovf b.ser s))
  else
    let s := if b.ser = t.ser then queuePre h t s else s
    let s := imageWrite h off (wordsBytes (blockWords s h b)) (setChr { s.chr with last := b.cycle } s)
    let ends : Option Nat → Bool := fun x => match x with | some n => decide (n ≤ b.ser) | none => false
    let s := if b.ser < t.ser then s
      else
        let t := if b.ser = t.ser then { t with cycle := b.cycle } else t
        setChr { s.chr with trig := some t, post := b.ser - t.ser, written := b.ser - t.ser + 1 } (queueSend h off h.stride s)
    if decide (t.ser ≤ b.ser) && (ends s.chr.stopSer || b.ser == t.ser + h.post) then setChr { s.chr with due := some 0 } s
    else if ends s.chr.escSer then setChr { s.chr with due := some Close.escStop } s
    else s

/-- Block k is written (R305); `room` says whether the write queue has room for it (R322). -/
def chrBlockWrite (room : Bool) (s : State) : State :=
  match s.chr.blks.find? (fun b => b.body.isSome) with
  | none => s
  | some b =>
    let s := setChr { s.chr with blks := s.chr.blks.filter (fun x => decide (b.ser < x.ser)) } s
    let s := match s.chr.shape, s.chr.trig with
      | some h, none => if chrState s = ChrState.armed ∧ s.chr.first ≤ b.ser then ringBlock h b room s else s
      | some h, some t => if s.chr.due.isNone && decide (s.chr.first ≤ b.ser) then recordBlock h t b room s else s
      | none, _ => s
    pruneRaws s

def execChrBlockWrite (room : Bool) (s : State) : Host.Outcome State Fault Refusal := .next (chrBlockWrite room s)

/-- The escapement stops (R321): a record closes after the last block that is complete, or will be by the publication of
the last cycle that was cut off; an armed ring is discarded. -/
def chrEscStop (s : State) : State :=
  if chrState s = ChrState.triggered then
    if s.chr.due.isSome then s
    else
      let left := s.chr.blks.filter (fun b => b.body.isSome || s.esc.pubDue == some b.cycle)
      let s := setChr { s.chr with blks := left, escSer := left.getLast?.map (fun b => b.ser) } s
      if left.isEmpty then setChr { s.chr with due := some Close.escStop } s else s
  else setChr { s.chr with first := s.chr.ser } s

/-! ### Commands (R311, R319 to R321, R325) -/

def chrStatus (st : Status) (s : State) : State := fset Fld.CHR_STATUS_STATUS st.code s

/-- The operation at the head of the chronograph's queue, if its OP is `op` (R325). The body answers a status and RESULT. -/
def chrOp (op : Nat) (body : EngOp → Word → State → State × Status × Word) (s : State) : State :=
  match firstNew s (engKey 4 0 0) with
  | none => s
  | some o =>
    let (w, s1) := engWord o 0 s
    let code := fieldGet w 31 24
    let done := fun (r : State × Status × Word) =>
      finishOp (engKey 4 0 0) 4 o r.2.1 (putWord (o.desc + 12) r.2.2 (putWord (o.desc + 8) (cycleNo r.1) r.1))
    if code = op then done (body o w s1)
    else if code < 1 ∨ 5 < code then finishOp (engKey 4 0 0) 4 o .badParam s1
    else s

/-- Segments named in CHR_SEGSEL that are configured. -/
def namedSegs (s : State) : List Nat :=
  (bitList 16 (fget s Fld.CHR_SEGSEL_SEG_MASK)).filter (fun i => segSize s i != 0)

/-- The checks of R311 after the mode, in order. -/
def armRefusal (s : State) : Option Status :=
  let h := shapeNow s
  let segs := namedSegs s
  let ring := fget s Fld.CHR_STRM_CFG_SEG
  let something := h.raw != 0 || h.filt != 0 || h.digOn || h.nDeriv != 0 || !h.wheels.isEmpty
  let odd := h.rawChans.any (fun c => oddIl s c)
  let tooLong := if h.stream then decide (segSize s ring < 192 + (h.pre + 1) * h.stride)
    else segs.any (fun i => decide (segSize s i < h.size))
  if s.sys.mode = .boot then some .illegalInMode
  else if chrState s ≠ ChrState.idle then some .busy
  else if !something || odd || segs.isEmpty then some .badParam
  else if tooLong then some .tooLong
  else if (if h.stream then segState s ring != SegState.free else segs.all (fun i => segState s i != SegState.free)) then some .busy
  else none

/-- Become ARMED with a segment, in the block that starts at this boundary. -/
def armInto (g : Nat) (stream : Bool) (s : State) : State :=
  let s := setSegState g (if stream then SegState.stream else SegState.writing) (fset Fld.CHR_STATUS_SEG g s)
  setChrState ChrState.armed (setChr { s.chr with first := s.chr.ser, trig := none, due := none, stopSer := none, escSer := none } s)

/-- The segment that an arming takes: the lowest FREE one named, or the ring. -/
def armSegment (s : State) : Option Nat :=
  if fbit s Fld.CHR_CTRL_DEST then
    (if segState s (fget s Fld.CHR_STRM_CFG_SEG) = SegState.free then some (fget s Fld.CHR_STRM_CFG_SEG) else none)
  else (namedSegs s).find? (fun i => segState s i == SegState.free)

def armNow (s : State) : State × Status × Word :=
  match armRefusal s with
  | some st => (chrStatus st s, st, 0)
  | none =>
    match armSegment s with
    | none => (chrStatus .busy s, .busy, 0)
    | some g =>
      let c := { s.chr with
        shape := some (shapeNow s), fsCount := 0, fsFirst := ⟨0, 0⟩, seqAt := none, unsent := [], datagrams := 0 }
      (chrStatus .ok (armInto g (fbit s Fld.CHR_CTRL_DEST) (setSeq none (setChr c s))), .ok, BitVec.ofNat 32 g)

/-- The configuration bits of a CHR_CTRL write: only in IDLE (R312). -/
def ctrlConfig (val : Word) (s : State) : Option State :=
  if (val ^^^ regGet s Reg.CHR_CTRL) &&& 0xD = 0 then some s
  else if chrState s = ChrState.idle then some (regSet Reg.CHR_CTRL (val &&& 0xD) s)
  else none

/-- A command of CHR_CTRL or CHR_SEG_REL: role and mode, then the body. -/
def chrCommand (a : Nat) (o : Origin) (body : State → State × Status × Word) (s : State) : State × Status :=
  let (s', st) := checkWrite a o [(roleOrCore .operator o, .notPermitted), (s.sys.mode != .boot, .illegalInMode)] id s
  if st ≠ .ok then (chrStatus st s', st)
  else
    let (s', st, _) := body s
    if st = .ok then (s', st) else (chrStatus st (refuseWrite a st o s').1, st)

/-- ARM (R311), with the configuration bits of the same write; a refused ARM changes none of them. -/
def chrArmReg (o : Origin) (val : Word) (s : State) : State × Status :=
  chrCommand Reg.CHR_CTRL o (fun s => match ctrlConfig val s with
    | some s' => if (armNow s').2.1 = .ok then armNow s' else (s, (armNow s').2.1, 0)
    | none => (s, .busy, 0)) s

def chrArm (src : ChrSrc) (s : State) : State :=
  match src with
  | .reg o v => (chrArmReg o v s).1
  | .op => chrOp 1 (fun _ _ s => armNow s) s

def execChrArm (src : ChrSrc) (s : State) : Host.Outcome State Fault Refusal := .next (chrArm src s)

/-- DISARM (R321): in TRIGGERED the record closes; in ARMED, HOLDOFF and REARM the segment in use is freed (log entry
143). -/
def disarmNow (s : State) : State × Status × Word :=
  let n := chrState s
  let s := if n = ChrState.idle then s
    else if n = ChrState.triggered then closeRecord Close.abort (nextUnwritten s) s
    else setSegState (segInUse s) SegState.free (setChrState ChrState.idle s)
  (chrStatus .ok s, .ok, 0)

def chrDisarmReg (o : Origin) (s : State) : State × Status := chrCommand Reg.CHR_CTRL o disarmNow s

def chrDisarm (src : ChrSrc) (s : State) : State :=
  match src with
  | .reg o _ => (chrDisarmReg o s).1
  | .op => chrOp 2 (fun _ _ s => disarmNow s) s

def execChrDisarm (src : ChrSrc) (s : State) : Host.Outcome State Fault Refusal := .next (chrDisarm src s)

/-- A software trigger (R313, R325): refused, it is a false start unless IDLE, or it is marked in ALSO (R316). -/
def softTrigger (s : State) : State × Status × Word :=
  let n := chrState s
  let stageA := fbit s Fld.CHR_SEQ_A_EN && !seqOpen s && (fget s Fld.CHR_SEQ_A_SET_A).testBit 7
  let (taken, s') := recognise 8 (nowSplit s) s
  let counted := s'.chr.fsCount != s.chr.fsCount || (inTriggerBlock s && tenOn s 8)
  if taken then (chrStatus .ok s', .ok, 0)
  else if n = ChrState.idle || counted || stageA then (chrStatus .refused s', .refused, 0)
  else (chrStatus .refused (falseStart (nowSplit s) s'), .refused, 0)

def chrTriggerReg (o : Origin) (s : State) : State × Status := chrCommand Reg.CHR_CTRL o softTrigger s

def chrTrigger (src : ChrSrc) (s : State) : State :=
  match src with
  | .reg o _ => (chrTriggerReg o s).1
  | .op => chrOp 3 (fun _ _ s => softTrigger s) s

def execChrTrigger (src : ChrSrc) (s : State) : Host.Outcome State Fault Refusal := .next (chrTrigger src s)

/-- MARK (R320). -/
def chrMark (s : State) : State :=
  chrOp 4 (fun o w s =>
    let c := s.chr
    let k := cycleNo s + 1
    let n := chrState s
    if n ≠ ChrState.armed ∧ n ≠ ChrState.triggered then (s, .refused, k)
    else if 4 ≤ (c.marks.filter (fun m => m.ser == c.ser)).length then
      (bump Reg.CHR_MARK_LOST_CNT (setChr { c with marksLost := c.ser :: c.marksLost } s), .refused, k)
    else (setChr { c with marks := c.marks ++ [⟨c.ser, fieldGet w 23 8, o.core, sinceTk s⟩] } s, .ok, k)) s

def execChrMark (s : State) : Host.Outcome State Fault Refusal := .next (chrMark s)

/-- A release of a segment (R323). -/
def releaseSeg (g : Nat) (s : State) : State × Status × Word :=
  let busy := segState s g == SegState.writing || (segState s g == SegState.stream && (chrState s == 1 || chrState s == 2))
  if busy then (chrStatus .busy s, .busy, 0) else (chrStatus .ok (setSegState g SegState.free s), .ok, 0)

def chrReleaseReg (o : Origin) (val : Word) (s : State) : State × Status :=
  chrCommand Reg.CHR_SEG_REL o (releaseSeg (fieldGet val 3 0)) s

def chrRelease (src : ChrSrc) (s : State) : State :=
  match src with
  | .reg o v => (chrReleaseReg o v s).1
  | .op => chrOp 5 (fun _ w s => releaseSeg (fieldGet w 11 8) s) s

def execChrRelease (src : ChrSrc) (s : State) : Host.Outcome State Fault Refusal := .next (chrRelease src s)

/-- Hold-off ends (R319). -/
def chrHoldoffEnd (s : State) : State :=
  if chrState s ≠ ChrState.holdoff then s
  else if fbit s Fld.CHR_CTRL_HOLD_MODE && decide (s.chr.holdCount < fget s Fld.CHR_HOLD_HOLD_N) then s
  else setChrState (if fbit s Fld.CHR_CTRL_AUTO_REARM then ChrState.rearm else ChrState.idle) s

def execChrHoldoffEnd (s : State) : Host.Outcome State Fault Refusal := .next (chrHoldoffEnd s)

/-- From REARM at a boundary with a FREE segment (R319). -/
def chrRearm (s : State) : State :=
  if chrState s ≠ ChrState.rearm then s
  else match armSegment s with
    | some g => armInto g (fbit s Fld.CHR_CTRL_DEST) s
    | none => s

def execChrRearm (s : State) : Host.Outcome State Fault Refusal := .next (chrRearm s)

/-! ### Configuration (R312) -/

/-- The segments overlap, or a segment overlaps the wheel trace ring or the housekeeping buffer, or they exceed 8 GiB
together, or a segment does not lie in the 16 GiB of DRAM; `g` would be (size, base) in MiB. -/
def segBad (s : State) (g : Nat) (size base : Nat) : Bool :=
  let seg := fun i => if i = g then (base, size) else
    (fieldGet (latest s (Reg.CHR_SEG i)) 13 0, fieldGet (latest s (Reg.CHR_SEG i)) 31 16)
  let meet := fun (a0 a1 b0 b1 : Nat) => decide (a0 < b1 ∧ b0 < a1)
  let lo := base * 2 ^ 20
  let hi := (base + size) * 2 ^ 20
  let hk := fget s Fld.HKA_BUF_BASE_BASE_KIB * 1024
  let wt := fget s Fld.WHL_TRC_BASE_BASE_MIB * 2 ^ 20
  decide (8192 < size) || (size != 0 && (decide (16384 * 2 ^ 20 < hi) ||
    (List.range 16).any (fun i => i != g && (seg i).2 != 0 && meet base (base + size) (seg i).1 ((seg i).1 + (seg i).2)) ||
    meet lo hi hk (hk + 4 * 2 ^ fget s Fld.HKA_BUF_CFG_SIZE) || meet lo hi wt (wt + 2 ^ 20) ||
    decide (8192 < (List.range 16).foldl (fun n i => n + (seg i).2) 0)))

/-- The field checks of a chronograph register. -/
def chrParamOk (s : State) (off : Nat) (v : Word) : Bool :=
  if 0x060 ≤ off ∧ off < 0x0A0 then
    (match off % 16 with
     | 0 => decide (fieldGet v 31 28 ≤ 4 ∧ fieldGet v 4 0 ≤ 23)
     | 12 => decide (v.toNat < 2 ^ 31)
     | _ => true)
  else if 0x0A0 ≤ off ∧ off < 0x0C0 then decide (fieldGet v 20 16 ≤ 23 ∧ fieldGet v 9 0 ≤ 512)
  else if 0x0C0 ≤ off ∧ off < 0x100 then !segBad s ((off - 0x0C0) / 4) (fieldGet v 31 16) (fieldGet v 13 0)
  else if 0x140 ≤ off ∧ off < 0x180 then decide (1 ≤ fieldGet v 31 28 ∧ fieldGet v 31 28 ≤ 3)
  else match off with
    | 0x020 => decide (fieldGet v 28 24 ≤ 16)
    | 0x030 => decide (1 ≤ fieldGet v 23 0 ∧ fieldGet v 23 0 ≤ 10000000)
    | 0x034 => decide (fieldGet v 9 8 ≤ 2)
    | 0x180 => decide (fieldGet v 1 0 ≤ 1)
    | _ => true

/-- The writable bits of a chronograph register. -/
def chrMask (off : Nat) : Word :=
  if 0x8000 ≤ off then 0xFFFFFFFF
  else if 0x060 ≤ off ∧ off < 0x0A0 then (if off % 16 = 0 then 0xF000001F else 0xFFFFFFFF)
  else if 0x0A0 ≤ off ∧ off < 0x0C0 then 0xE01F03FF
  else if 0x0C0 ≤ off ∧ off < 0x100 then 0xFFFF3FFF
  else if 0x140 ≤ off ∧ off < 0x180 then 0xF0000FFF
  else match off with
    | 0x000 => 0xD | 0x008 => 0xFFFF | 0x00C => 0xFFFF | 0x010 => 0xFFFFFFFF | 0x014 => 0xFFFF | 0x018 => 0xFFFFFF
    | 0x01C => 0xFFFFFF | 0x020 => 0x1F010FFF | 0x024 => 0xFFFF | 0x028 => 0xFFFF | 0x02C => 0x8000FFFF
    | 0x030 => 0xFFFFFF | 0x034 => 0x301 | 0x038 => 0xF | 0x03C => 0x3FFFF | 0x180 => 0xFFFFF003 | 0x184 => 0xFFFFFFFF
    | _ => if 0x040 ≤ off ∧ off < 0x060 then 0xFFFFFFFF else 0

/-- R312: a configuration write is accepted in IDLE, a segment's only while it is FREE; it is staged under R13. -/
def chrConfigWrite (o : Origin) (a : Nat) (v : Word) (s : State) : State × Status :=
  let off := a - 0x40090000
  let seg := decide (0x0C0 ≤ off ∧ off < 0x100)
  let (s, st) := checkStage a o
    [(roleOrCore .operator o, .notPermitted), (s.sys.mode != .boot, .illegalInMode), (chrParamOk s off v, .badParam),
     (chrState s == ChrState.idle && (!seg || segState s ((off - 0x0C0) / 4) == SegState.free), .busy)] v s
  (chrStatus st s, st)

def execChrConfigWrite (o : Origin) (addr : Word) (val : Word) (s : State) : Host.Outcome State Fault Refusal :=
  .next (chrConfigWrite o addr.toNat val s).1

/-! ### Streaming (R323) -/

/-- One UDP datagram of the stream: its 16-byte prefix and payload. -/
def streamDatagram (s : State) : Option (List Byte × State) :=
  match s.chr.shape, s.chr.unsent with
  | some h, ⟨rec_, off, n⟩ :: rest =>
    let k := min n 1408
    let g := segInUse s
    let size := max 1 (segSize s g)
    let bytes := (List.range k).map (fun i => memRead s (segBase s g + (off + i) % size))
    let pre := wordsBytes [BitVec.ofNat 32 rec_, BitVec.ofNat 32 off, BitVec.ofNat 32 k, BitVec.ofNat 32 s.chr.datagrams]
    if h.stream && s.eth.resolved then
      some (pre ++ bytes, setChr { s.chr with
        unsent := if n ≤ k then rest else ⟨rec_, off + k, n - k⟩ :: rest, datagrams := s.chr.datagrams + 1 } s)
    else none
  | _, _ => none

end Sys2Proof.Machine
end

