-- ==== Sys2Proof/Machine/Ether.lean ====
section
/-! DEFINITION. The Ethernet ports (13_time_and_ethernet.md): PTP messages and stamps, timed launch, PRP, GOOSE,
sampled values and the IP services. -/

namespace Sys2Proof.Machine

def ethPort (s : State) (n : Nat) : EthPort := Store.get (fun _ => EthPort.reset) s.eth.ports n
def setEthPort (n : Nat) (p : EthPort) (s : State) : State :=
  { s with eth := { s.eth with ports := Store.set (fun _ => EthPort.reset) s.eth.ports n p } }

def ethMaster : Nat := 0x34

def linkUp (s : State) (n : Nat) : Bool := fbit s (Fld.ETH_Pn_STAT_LINK n)
def portOn (s : State) (n : Nat) : Bool := fbit s (Fld.ETH_Pn_CFG_EN n)
def prpOn (s : State) : Bool := fbit s Fld.ETH_CFG_PRP

/-- Bytes of a frame with its FCS, by the formats of IEEE 802.3, IEEE 1588, IEC 62439-3 and IPv4; none is below 64. -/
def ethFrameBytes : EthOut → Nat
  | .launched bs => bs.length + 4
  | .ptp m => max 64 (18 + (if m.tag.isSome then 4 else 0) + (match m.kind with
      | .announce => 64 | .sync | .followUp => 44 | _ => 54))
  | .supervision | .arpReply _ | .arpRequest _ => 64
  | .goose g _ _ _ _ => max 64 (Config.gooseBytes g % 1519 + 4)
  | .icmpReply _ d => max 64 (46 + d.length)
  | .datagram _ _ bs => max 64 (46 + bs.length)

/-- Bytes on the line, with the redundancy trailer of the pair (R344). -/
def ethLineBytes (s : State) (n k : Nat) : Nat := k + (if prpOn s && decide (n < 2) then 6 else 0)

/-- Tenths of ns for k bytes on a port: 0.8 ns per byte on the station ports, 8 ns on the process ports. -/
def byteTime (port k : Nat) : Nat := if port < 2 then 8 * k else 80 * k

/-- The stamp instant of a frame that leaves now, with a sub-tick phase of 0.5 ns, in 0.1 ns of corrected time: the pluggable's
transmit latency is added (R337). -/
def stampTenths (s : State) (n phase : Nat) : Nat :=
  timeAt s s.time.cnt * 10 / 65536 + 5 * phase + fget s (Fld.ETH_Pn_DLY_TX_DLY n)

/-- The guard of R342: a frame of k bytes whose stamp instant is `t` would start before, or end 100 ns before, every pending
launch of its port. -/
def guardOk (s : State) (n t k : Nat) : Bool :=
  (ethPort s n).launches.all (fun l =>
    decide (t < 10 * l.t + byteTime n 8 - 50000 ∨ t + byteTime n k + 1000 ≤ 10 * l.t))

/-- A frame starts on the line: the next one's stamp instant lies behind it, the gap of 12 bytes and a preamble. -/
def ethEmit (n t : Nat) (f : EthOut) (s : State) : State :=
  let k := ethLineBytes s n (ethFrameBytes f)
  bump (Reg.ETH_Pn_TX_CNT n) (setEthPort n { ethPort s n with out := some f, freeAt := t + byteTime n (k + 20) } s)

/-- The frames `fs` leave in order, each as soon as the line is free; from the first that the guard holds back they wait. -/
def ethDrain (n : Nat) : List EthOut → State → State
  | [], s => setEthPort n { ethPort s n with held := [] } s
  | f :: fs, s =>
    let t := max (stampTenths s n 0) (ethPort s n).freeAt
    if guardOk s n t (ethLineBytes s n (ethFrameBytes f)) then ethDrain n fs (ethEmit n t f s)
    else setEthPort n { ethPort s n with held := f :: fs } s

/-- A frame leaves on a port, behind those that wait. -/
def ethSend (n : Nat) (f : EthOut) (s : State) : State :=
  if portOn s n && linkUp s n then ethDrain n ((ethPort s n).held ++ [f]) s else s

/-- A frame leaves on the station pair: both ports, or with PRP off port 0 (R344). -/
def pairSend (f : EthOut) (s : State) : State :=
  if prpOn s then ethSend 1 f (ethSend 0 f s) else ethSend 0 f s

/-- The ports that a PORTS field names, its highest bit the station pair, then ETH-P0 and ETH-P1. -/
def namedPorts (ports n : Nat) : Bool :=
  if n < 2 then ports.testBit 2 else if n = 2 then ports.testBit 1 else if n = 3 then ports.testBit 0 else false

/-! ### Stamps (R337 to R340) -/

/-- The instant at which a frame received now passed the connector (R337): the receive latency lies before. -/
def rxTenths (s : State) (n phase : Nat) : Nat :=
  timeAt s s.time.cnt * 10 / 65536 + 5 * phase - fget s (Fld.ETH_Pn_DLY_RX_DLY n)

/-- A stamp of `t` tenths as an entry of the stamp queue: nanoseconds and the half. -/
def stampOf (t id : Nat) : TxStamp := ⟨id, t / 5 % 2 == 1, ⟨t / 10000000000, t / 10 % 1000000000⟩⟩

def showStamps (n : Nat) (s : State) : State := fset (Fld.ETH_Pn_TXTS_STAT_DEPTH n) (ethPort s n).stamps.length s

/-- Place a stamp in the queue, or lose it (R338, R339): whether it was lost. -/
def pushStamp (n : Nat) (e : TxStamp) (s : State) : Bool × State :=
  let p := ethPort s n
  if 16 ≤ p.stamps.length then
    let s := fset (Fld.ETH_Pn_TXTS_STAT_OVF n) 1 (fset (Fld.ETH_Pn_TXTS_STAT_LOST_ID n) e.id s)
    (true, occur (detect 38 n ethMaster 0) (bump (Reg.ETH_Pn_TXTS_LOST_CNT n) s))
  else (false, showStamps n (setEthPort n { p with stamps := p.stamps ++ [e] } s))

/-- The key of a reader's latches (R8, R224, R484). -/
def readerKey : Reader → Nat
  | .core c => c.val
  | .session n => 8 + n.toNat

def latchPut (rd : Reader) (a : Nat) (v : Word) (s : State) : State :=
  { s with latches := Store.set (fun _ => 0) s.latches (readerKey rd * 2 ^ 40 + a) v }

/-- What a reader has latched of a higher half. DESIGN CHOICE (log entry 130): 0 for a reader that has not read the low
half yet. -/
def latchGet (rd : Reader) (a : Nat) (s : State) : Word := Store.get (fun _ => 0) s.latches (readerKey rd * 2 ^ 40 + a)

/-- R338: a read of ETH_Pn_TXTS_0 removes the oldest entry and latches its other halves. -/
def txtsRead (rd : Reader) (n : Nat) (s : State) : Word × State :=
  let p := ethPort s n
  match p.stamps with
  | [] => (0, latchPut rd (Reg.ETH_Pn_TXTS_1 n) 0 (latchPut rd (Reg.ETH_Pn_TXTS_2 n) 0 s))
  | e :: rest =>
    let s := showStamps n (setEthPort n { p with stamps := rest } s)
    (BitVec.ofNat 32 (2 ^ 31 + boolNat e.half * 2 ^ 30 + e.t.ns),
     latchPut rd (Reg.ETH_Pn_TXTS_1 n) (splitLo e.t)
       (latchPut rd (Reg.ETH_Pn_TXTS_2 n) (BitVec.ofNat 32 (e.id * 65536 + splitHi e.t)) s))

def execEthTxtsRead (rd : Reader) (port : Fin 4) (s : State) : Host.Outcome State Fault Refusal :=
  .next (txtsRead rd port.val s).2

/-! ### PTP (R335, R336, R340) -/

/-- R336. -/
def clockClass (s : State) : Nat :=
  if fbit s Fld.ETH_PTP_CFG_SLAVE_ONLY then 255
  else if fget s Fld.TIM_CTRL_SRC = 2 ∧ servo s = servoLocked then 6
  else if fget s Fld.TIM_CTRL_SRC = 2 ∧ servo s = servoHold ∧ fbit s Fld.TIM_STATUS_VALID then 7
  else 248

/-- A received message (R335): counted and discarded on ETH-M, on a port that is no PTP port, or of another domain;
otherwise the port takes the state that the state decision gives it, and a Pdelay_Req awaits its response. -/
def ptpReceive (n : Nat) (m : PtpMsg) (phase : Nat) (s : State) : State :=
  let s := bump (Reg.ETH_Pn_RX_CNT n) s
  if n = 4 ∨ m.domain ≠ fget s Fld.ETH_PTP_CFG_DOMAIN then bump (Reg.ETH_Pn_DISC_CNT n) s
  else if !fbit s (Fld.ETH_Pn_CFG_PTP_EN n) then s
  else
    let s := fset (Fld.ETH_Pn_STAT_PSTATE n) m.portState s
    if m.kind = .pdelayReq then setEthPort n { ethPort s n with pdelayReq := some (m.seq, rxTenths s n phase) } s else s

def execPtpMessageReceive (port : Fin 5) (msg : PtpMsg) (phase : Fin 4) (s : State) : Host.Outcome State Fault Refusal :=
  .next (ptpReceive port.val msg phase.val s)

/-- The portState MASTER of IEEE 1588. -/
def ptpMaster : Nat := 6

/-- Sequence number of the next message of a kind, advancing it. -/
def nextSeq (n i : Nat) (s : State) : Nat × State :=
  let p := ethPort s n
  let q := p.seqs.getD i 0
  (q, setEthPort n { p with seqs := p.seqs.set i ((q + 1) % 65536) } s)

/-- A stamp for the supervisory firmware under two-step operation; its TX_ID is not given (log entry 8). -/
def queueOwnStamp (n t : Nat) (s : State) : State :=
  let (w, s) := drawFree s
  (pushStamp n (stampOf t (w.toNat % 65536)) s).2

/-- The 802.1Q tag of PTP frames. -/
def ptpTag (s : State) : Option (Nat × Nat) :=
  if fbit s Fld.ETH_PTP_CFG_VTAG then some (fget s Fld.ETH_PTP_CFG_VPRIO, fget s Fld.ETH_PTP_VID_VID) else none

/-- A message with the time `t` in tenths of ns: whole nanoseconds in the timestamp, the rest, and `corr`, in the
correctionField. -/
def ptpMsg (s : State) (k : PtpKind) (seq : Nat) (one : Bool) (t : Nat) (corr : Int) : EthOut :=
  .ptp { kind := k, seq := seq, oneStep := one, domain := fget s Fld.ETH_PTP_CFG_DOMAIN, clockClass := clockClass s,
         prio1 := fget s Fld.ETH_PTP_CFG_PRIO1, prio2 := fget s Fld.ETH_PTP_CFG_PRIO2, tag := ptpTag s,
         time := ⟨t / 10000000000, t / 10 % 1000000000⟩, correction := corr + roundFree (t % 10 * 65536 : Nat) 10 }

/-- R335, R340: a message leaves now, if the line is free and the guard of R342 lets it. One-step Sync and Pdelay_Resp, on a
master port, are corrected on the fly and make no queue entry. ETH_Pn_ASYM goes into the Pdelay_Req as IEEE 1588 has it
(R337). -/
def ptpSend (n : Nat) (k : PtpKind) (phase : Nat) (s : State) : State :=
  let master := fget s (Fld.ETH_Pn_STAT_PSTATE n) == ptpMaster
  let one := fbit s (Fld.ETH_Pn_CFG_ONE_STEP n) && master
  let t := stampTenths s n phase
  let free := decide ((ethPort s n).freeAt ≤ t) && guardOk s n t (ethLineBytes s n (ethFrameBytes (ptpMsg s k 0 one 0 0)))
  if !fbit s (Fld.ETH_Pn_CFG_PTP_EN n) || !linkUp s n || !portOn s n || s.sys.mode == .boot || !free then s
  else match k with
  | .sync =>
    if !master then s
    else
      let (q, s) := nextSeq n 0 s
      let s := ethEmit n t (ptpMsg s k q one (if one then t else 0) 0) s
      if one then s else queueOwnStamp n t s
  | .announce =>
    if !master then s
    else
      let (q, s) := nextSeq n 1 s
      ethEmit n t (ptpMsg s k q false 0 0) s
  | .followUp =>
    if !master || one then s else ethEmit n t (ptpMsg s k (((ethPort s n).seqs.getD 0 0 + 65535) % 65536) false t 0) s
  | .pdelayReq =>
    let (q, s) := nextSeq n 2 s
    ethEmit n t (ptpMsg s k q false 0 (-(regGet s (Reg.ETH_Pn_ASYM n)).toInt)) s
  | .pdelayResp =>
    match (ethPort s n).pdelayReq with
    | none => s
    | some (q, r) =>
      let s := ethEmit n t (ptpMsg s k q one (if one then 0 else r)
        (if one then roundFree (((t : Int) - r) * 65536) 10 else 0)) s
      if one then setEthPort n { ethPort s n with pdelayReq := none } s else queueOwnStamp n t s
  | .pdelayRespFollowUp =>
    match (ethPort s n).pdelayReq with
    | none => s
    | some (q, _) =>
      if one then s
      else
        let s := ethEmit n t (ptpMsg s k q false t 0) s
        setEthPort n { ethPort s n with pdelayReq := none } s

def execPtpMessageSend (port : Fin 4) (kind : PtpKind) (phase : Fin 4) (s : State) : Host.Outcome State Fault Refusal :=
  .next (ptpSend port.val kind phase.val s)

/-- R344: a supervision frame leaves on the pair. -/
def execPrpSupervisionSend (s : State) : Host.Outcome State Fault Refusal :=
  .next (if prpOn s then pairSend .supervision s else s)

/-! ### Timed launch (R341 to R344) -/

def mib : Nat := 2 ^ 20

def segClosed (s : State) (g : Nat) : Bool := segState s g == SegState.closed

/-- A range of physical DRAM that the management plane may read (R19): the own region, closed records, and the trace rings.
The log archives have no address in the manual. -/
def dramReadable (s : State) (a n : Nat) : Bool :=
  let within := fun (lo len : Nat) => decide (lo ≤ a ∧ a + n ≤ lo + len)
  inOwnRegion s a n ||
    (List.range 16).any (fun g => segClosed s g && within (segBase s g) (segSize s g)) ||
    within (Config.dramBase + fget s Fld.WHL_TRC_BASE_BASE_MIB * mib) mib ||
    within (Config.dramBase + fget s Fld.SCH_TRC_BASE_BASE_MIB * mib) (8 * 65536)

/-- The physical address that a poster means, and whether a range is the poster's own. The supervisory firmware counts
from the start of DRAM; its region is not given, and it may read what R19 lets the management plane read (log entry
23). -/
def posterPhys (s : State) (o : Origin) (a : Nat) : Nat :=
  match o with | .eventCore c => windowPhys s c.val a | _ => Config.dramBase + a
def posterOwns (s : State) (o : Origin) (a n : Nat) : Bool :=
  match o with
  | .eventCore _ => decide (0x80000000 ≤ a) && inOwnRegion s (posterPhys s o a) n
  | _ => dramReadable s (posterPhys s o a) n

def queueDepth (s : State) (n q : Nat) : Nat := ((ethPort s n).launches.filter (fun l => l.q == q && !l.copy)).length

def showDepths (n : Nat) (s : State) : State :=
  fset (Fld.ETH_Pn_LQ_STAT_DEPTH0 n) (queueDepth s n 0) (fset (Fld.ETH_Pn_LQ_STAT_DEPTH1 n) (queueDepth s n 1)
    (fset (Fld.ETH_Pn_LQ_STAT_DEPTH2 n) (queueDepth s n 2) (fset (Fld.ETH_Pn_LQ_STAT_DEPTH3 n) (queueDepth s n 3) s)))

/-- Keep launches in launch-time order, then queue, then order of posting (R341, R343). -/
def insertLaunch (l : Launch) : List Launch → List Launch
  | [] => [l]
  | x :: xs => if l.t < x.t ∨ (l.t = x.t ∧ l.q < x.q) then l :: x :: xs else x :: insertLaunch l xs

def addLaunch (n : Nat) (l : Launch) (s : State) : State :=
  showDepths n (setEthPort n { ethPort s n with launches := insertLaunch l (ethPort s n).launches } s)

/-- Write a descriptor's completion byte. -/
def launchStatus (d : Nat) (st : Status) (s : State) : State := putBytes d [BitVec.ofNat 8 st.code] s

/-- A posting (R341, R343). -/
def lqPost (o : Origin) (n q : Nat) (addr : Word) (s : State) : State × Status :=
  let a := addr.toNat
  let d := posterPhys s o a
  let word := fun i => (memReadWord s (d + 4 * i)).toNat
  let fr := word 4
  let len := word 5 % 2048
  let core := match o with | .eventCore c => c.val | _ => 7
  if isHmp o then refuseWrite (Reg.ETH_Pn_LQ_POST_0 n + 4 * q) .notPermitted o s
  else if n = 4 then refuseWrite (Reg.ETH_Pn_LQ_POST_0 n + 4 * q) .badParam o s
  else if !posterOwns s o a 32 then (s, .notPermitted)
  else if 16 ≤ queueDepth s n q then
    (launchStatus d .refused (traceEvent 2 0 core 0 0 (bump (Reg.ETH_Pn_LQ_REF_CNT n) s)), .refused)
  else if !posterOwns s o fr len then (launchStatus d .notPermitted s, .notPermitted)
  else if a % 32 ≠ 0 ∨ fr % 64 ≠ 0 ∨ len < 60 ∨ 1518 < len then (launchStatus d .badParam s, .badParam)
  else
    let t := (word 2 + word 3 % 65536 * 2 ^ 32) * 1000000000 + word 1
    let l : Launch :=
      { q := q, poster := core, desc := d, t := t, txId := word 0 / 65536, tsReq := (word 0).testBit 15,
        frame := posterPhys s o fr, len := len, copy := false }
    let s := addLaunch n l (launchStatus d .pending s)
    (if prpOn s && decide (n < 2) then addLaunch (1 - n) { l with copy := true } s else s, .ok)

def execLqPost (o : Origin) (port : Fin 5) (q : Fin 4) (addr : Word) (s : State) : Host.Outcome State Fault Refusal :=
  .next (lqPost o port.val q.val addr s).1

/-- The worse of two completion statuses (R344). -/
def worse (a b : Status) : Status :=
  if a = .refused ∨ b = .refused then .refused else if a = .delayed ∨ b = .delayed then .delayed else .ok

/-- Write the completion of a launch (R341): STATUS, LATE and ANS. -/
def launchDone (d : Nat) (st : Status) (late ans : Nat) (sent : Bool) (s : State) : State :=
  let s := launchStatus d st s
  if sent then putWord (d + 0x18) (BitVec.ofNat 32 late) (putWord (d + 0x1C) (BitVec.ofNat 32 ans) s) else s

/-- A copy completes: the completion is written with the second copy of a pair (R344). -/
def copyDone (n : Nat) (l : Launch) (st : Status) (late ans : Nat) (s : State) : State :=
  if !(prpOn s && decide (n < 2)) then launchDone l.desc st late ans (st != .refused) s
  else match s.eth.pairDone.find? (fun e => e.1 == l.desc) with
    | none => { s with eth := { s.eth with pairDone := s.eth.pairDone ++ [(l.desc, st, late, ans)] } }
    | some (_, st2, late2, ans2) =>
      let s := { s with eth := { s.eth with pairDone := s.eth.pairDone.filter (fun e => e.1 != l.desc) } }
      launchDone l.desc (worse st st2) (max late late2) (if st = .refused then ans2 else ans)
        (st != .refused || st2 != .refused) s

/-- The frames that waited for the launch at the head of the port follow it. -/
def afterLaunch (n : Nat) (s : State) : State :=
  if portOn s n && linkUp s n then ethDrain n (ethPort s n).held s else s

/-- The launch at the head of a port leaves, waits, or is dropped (R342, R343). -/
def timedLaunch (n phase : Nat) (s : State) : State :=
  match (ethPort s n).launches with
  | [] => s
  | l :: rest =>
    let now := stampTenths s n phase
    let p := ethPort s n
    let pol := (fget s (Fld.ETH_Pn_CFG_LATE_POL n)).testBit l.q
    let busy := decide (now < p.freeAt)
    let takeOff := fun (s : State) => showDepths n (setEthPort n { ethPort s n with launches := rest } s)
    let drop := fun (s : State) => afterLaunch n (copyDone n l .refused 0 0 (bump (Reg.ETH_Pn_DROP_CNT n) (takeOff s)))
    if now + 80 < 10 * l.t then s
    else if !linkUp s n || !portOn s n then drop s
    else if pol && (decide (10 * l.t + 80 < now) || (busy && decide (10 * l.t + 80 ≤ now))) then
      drop (bump (Reg.ETH_Pn_LATE_CNT n) s)
    else if busy then s
    else
      let late := decide (10 * l.t + 80 < now)
      let s := ethEmit n now (.launched (Memory.readList s.mem l.frame l.len)) (takeOff s)
      let s := if late then bump (Reg.ETH_Pn_LATE_CNT n) s else s
      let s := if l.tsReq then
          let (lost, s) := pushStamp n (stampOf now l.txId) s
          if lost then putBytes (l.desc + 1) [memRead s (l.desc + 1) ||| 0x40] s else s
        else s
      afterLaunch n (copyDone n l (if late then .delayed else .ok) (if late then now / 10 - l.t else 0)
        (now / 10 % 1000000000) s)

def execTimedLaunch (port : Fin 4) (phase : Fin 4) (s : State) : Host.Outcome State Fault Refusal :=
  .next (timedLaunch port.val phase.val s)

/-! ### Received frames of the pair (R344) -/

/-- A frame on the station pair: whether it is discarded, with the counts of R344. -/
def prpCheck (n : Nat) (p : PrpInfo) (s : State) : Bool × State :=
  if 2 ≤ n then (false, s)
  else if p.hsr then (true, bump (Reg.ETH_Pn_DISC_CNT n) s)
  else if !prpOn s then (false, s)
  else match p.trailer with
    | none => (false, s)
    | some (q, lanB) =>
      let s := if lanB = (n == 1) then s else bump Reg.ETH_PRP_WLAN_CNT s
      if s.eth.prpSeen.contains (p.src, q) then
        (true, bump Reg.ETH_PRP_DUP_CNT { s with eth := { s.eth with prpSeen := s.eth.prpSeen.erase (p.src, q) } })
      else (false, { s with eth := { s.eth with prpSeen := ringPush 4096 (p.src, q) s.eth.prpSeen } })

/-! ### GOOSE (R345 to R348) -/

def gsub (s : State) (e : Nat) : Option GSub := Store.get (fun _ => none) s.eth.gsubs e
def setGsub (e : Nat) (g : GSub) (s : State) : State :=
  { s with eth := { s.eth with gsubs := Store.set (fun _ => none) s.eth.gsubs e (some g) } }

/-- VALID of an entry (R346), in its own register and in ETH_GSUB_VALID. -/
def setGValid (e : Nat) (b : Bool) (s : State) : State :=
  let r := if e < 32 then Reg.ETH_GSUB_VALID_0 else Reg.ETH_GSUB_VALID_1
  fset (Fld.ETH_GSUB_STAT_VALID e) (boolNat b) (regSet r (BitVec.ofNat 32 (setBit (regGet s r).toNat (e % 32) b)) s)

/-- An entry matches a frame (R345). -/
def gsubMatches (s : State) (n e : Nat) (f : GooseFrame) : Bool :=
  fbit s (Fld.ETH_GSUB_CFG_EN e) && namedPorts (fget s (Fld.ETH_GSUB_CFG_PORTS e)) n &&
    f.mac.toNat == fget s (Fld.ETH_GSUB_APPID_MAC_HI e) * 2 ^ 32 + (regGet s (Reg.ETH_GSUB_MACLO e)).toNat &&
    f.appid.toNat == fget s (Fld.ETH_GSUB_APPID_APPID e) && f.idCrc == regGet s (Reg.ETH_GSUB_IDCRC e) &&
    f.confRev == regGet s (Reg.ETH_GSUB_CONFREV e)

/-- Decode an element as TYPE to FP32 (R345). -/
def gooseDecode (type : Nat) : GooseData → Option Word
  | .bool b => if type = 0 then some (if b then 0x3F800000 else 0) else none
  | .int i => if type = 1 then some (Frac.toF32 ⟨i, 1⟩) else none
  | .float w => if type = 2 then some w else none
  | _ => none

/-- stNum is lower than the last taken, or equal with a lower sqNum (R345). -/
def outOfOrder (g : GSub) (f : GooseFrame) : Bool :=
  if f.st = g.st then decide (f.sq.toNat < g.sq.toNat)
  else decide (f.st.toNat < g.st.toNat) && !(g.st == 0xFFFFFFFF && f.st == 0)

/-- One entry takes a frame. -/
def gooseTake (e : Nat) (f : GooseFrame) (s : State) : State :=
  let old := gsub s e
  if (match old with | some g => outOfOrder g f | none => false) then bump Reg.ETH_GOOSE_OOO_CNT s
  else
    let dec := match f.elems[fget s (Fld.ETH_GSUB_CFG_ELEM e)]? with
      | some d => gooseDecode (fget s (Fld.ETH_GSUB_CFG_TYPE e)) d
      | none => none
    let qok := !fbit s (Fld.ETH_GSUB_CFG_QEN e) ||
      (match f.elems[fget s (Fld.ETH_GSUB_CFG_QELEM e)]? with | some (.quality g) => g | _ => false)
    let good := dec.isSome && qok && (!f.test || fbit s (Fld.ETH_GSUB_CFG_ACC_TEST e)) && !f.ndsCom
    let val := dec.getD (match old with | some g => g.val | none => 0)
    let changed := match old with | some g => g.st != f.st | none => true
    let s := setGsub e ⟨f.st, f.sq, val, s.time.cnt + msTicks f.tal⟩ s
    let s := setGValid e good (regSet (Reg.ETH_GSUB_STNUM e) f.st s)
    if changed then post (mkEvent s 4 e (srcFlow s 4 e) (srcClass s 4 false) (BitVec.ofNat 32 e) f.st val) s else s

/-- R345: every matching entry takes the frame. -/
def gooseReceive (n : Nat) (f : GooseFrame) (s : State) : State :=
  let (gone, s) := prpCheck n f.prp (bump (Reg.ETH_Pn_RX_CNT n) s)
  if gone || s.sys.mode == .boot then s
  else (List.range 64).foldl (fun s e => if gsubMatches s n e f then gooseTake e f s else s) s

def execGooseReceive (port : Fin 5) (f : GooseFrame) (s : State) : Host.Outcome State Fault Refusal :=
  .next (gooseReceive port.val f s)

/-- R346: timeAllowedtoLive has passed; the value stays. -/
def gooseTalExpiry (e : Nat) (s : State) : State :=
  match gsub s e with
  | some g => if g.until_ ≤ s.time.cnt then setGValid e false s else s
  | none => s

def execGooseTalExpiry (e : Fin 64) (s : State) : Host.Outcome State Fault Refusal := .next (gooseTalExpiry e.val s)

/-- The GOOSE image of a cycle (R347, R473). -/
def publishGoose (s : State) : State :=
  let k := cycleNo s
  let at_ := fun e => Config.scmBase + 0x20A00 + 32 * e
  let val := fun e => match gsub s e with | some g => g.val | none => 0
  let s := putBytes (at_ 0) (wordsBytes ([k, regGet s Reg.ETH_GSUB_VALID_0, regGet s Reg.ETH_GSUB_VALID_1] ++ List.replicate 5 0)) s
  (List.range 16).foldl (fun s e => putBytes (at_ (e + 1))
    (wordsBytes (k :: (List.range 4).map (fun i => val (4 * e + i)) ++ [0, 0, 0])) s) s

def gpub (s : State) (g : Nat) : GPub := Store.get (fun _ => ⟨[], 0⟩) s.eth.gpubs g
def setGpub (g : Nat) (x : GPub) (s : State) : State :=
  { s with eth := { s.eth with gpubs := Store.set (fun _ => ⟨[], 0⟩) s.eth.gpubs g x } }

/-- A block is sent by this unit (R348). -/
def gpubOn (s : State) (g : Nat) : Bool :=
  fbit s (Fld.ETH_GPUB_CFG_EN g) && (s.sys.role != .standby || fbit s (Fld.ETH_GPUB_CFG_STBY g))

/-- The values of a block's dataset now. -/
def gpubVals (s : State) (g : Nat) : List Word :=
  (s.sys.comm.goose.getD g []).map (fun e => match e with
    | .const v => v
    | .user w => memReadWord s (Config.scmBase + 0x24000 + 4 * w))

/-- Send a block: the frame carries a timeAllowedtoLive of twice the interval to its successor. -/
def gpubSend (g interval : Nat) (s : State) : State :=
  let x := gpub s g
  let f := EthOut.goose g (regGet s (Reg.ETH_GPUB_STNUM g)) (regGet s (Reg.ETH_GPUB_SQNUM g)) (2 * interval) x.vals
  let ps := fget s (Fld.ETH_GPUB_CFG_PORTS g)
  let s := setGpub g { x with interval := interval } s
  let s := if ps.testBit 2 then pairSend f s else s
  let s := if ps.testBit 1 then ethSend 2 f s else s
  if ps.testBit 0 then ethSend 3 f s else s

/-- At a cell table publication (R348): a changed value raises stNum. -/
def goosePublish (s : State) : State :=
  (List.range 16).foldl (fun s g =>
    let v := gpubVals s g
    if gpubOn s g && v != (gpub s g).vals then
      gpubSend g (fget s (Fld.ETH_GPUB_CFG_T1 g)) (setGpub g { gpub s g with vals := v }
        (regSet (Reg.ETH_GPUB_SQNUM g) 0 (regSet (Reg.ETH_GPUB_STNUM g) (regGet s (Reg.ETH_GPUB_STNUM g) + 1) s)))
    else s) s

/-- R348: a repetition, its successor at twice the interval up to T0, or at T0 while no cycles run. -/
def gooseRepeat (g : Nat) (s : State) : State :=
  if gpubOn s g && s.sys.mode != .boot then
    let t0 := fget s (Fld.ETH_GPUB_T0_T0 g)
    let next := if escRunning s then min t0 (2 * (gpub s g).interval) else t0
    gpubSend g next (regSet (Reg.ETH_GPUB_SQNUM g) (regGet s (Reg.ETH_GPUB_SQNUM g) + 1) s)
  else s

def execGooseRepeat (g : Fin 16) (s : State) : Host.Outcome State Fault Refusal := .next (gooseRepeat g.val s)

/-! ### Sampled values (R349 to R351) -/

def svMatches (s : State) (n st : Nat) (f : SvFrame) : Bool :=
  fbit s (Fld.ETH_SV_CFG_EN st) && (fget s (Fld.ETH_SV_CFG_PORTS st)).testBit (3 - n) &&
    f.mac.toNat == fget s (Fld.ETH_SV_APPID_MAC_HI st) * 2 ^ 32 + (regGet s (Reg.ETH_SV_MACLO st)).toNat &&
    f.appid.toNat == fget s (Fld.ETH_SV_APPID_APPID st) && f.idCrc == regGet s (Reg.ETH_SV_IDCRC st) &&
    f.confRev == regGet s (Reg.ETH_SV_CONFREV st)

/-- The absolute index of a sample (R350): its second is the receipt's, or the one before. -/
def svIndex (s : State) (rate smpCnt : Nat) : Nat :=
  let t := timeAt s s.time.cnt
  let sec := t / nsq 1000000000
  let sub := t % nsq 1000000000
  let sec := if sub * rate < smpCnt * nsq 1000000000 then sec - 1 else sec
  sec * rate + smpCnt

/-- Channels whose source is stream `st`. -/
def svChannels (s : State) (st : Nat) : List Nat := (List.range 24).filter (fun n => isSv s n && svStream s n == st)

/-- One ASDU of a stream (R349 to R351). -/
def svTake (st : Nat) (a : SvAsdu) (s : State) : State :=
  let rate := svRate s st
  if rate ≤ a.smpCnt then bump Reg.ETH_SV_RATE_CNT s
  else
    let i := svIndex s rate a.smpCnt
    if (svSamples s st).any (fun e => e.idx == i) then bump (Reg.ETH_SV_DUP st) s
    else
      let s := setSvSamples st (svSamples s st ++ [⟨i, s.time.cnt, a.elems⟩]) s
      let s := bump (Reg.ETH_SV_RX st) (fset (Fld.ETH_SV_STAT_SMPCNT st) a.smpCnt (fset (Fld.ETH_SV_STAT_SYNC st) (boolNat a.synch) s))
      let s := (svChannels s st).foldl (fun s n => fset (Fld.FLT_STATUS_SV_SYNC n) (boolNat a.synch) s) s
      let run := if (svSamples s st).any (fun e => e.idx + 1 == i) then min 16 (Store.get (fun _ => 0) s.eth.svRun st + 1) else 1
      let s := { s with eth := { s.eth with svRun := Store.set (fun _ => 0) s.eth.svRun st run } }
      if fget s (Fld.ETH_SV_STAT_STATE st) ≠ 2 then fset (Fld.ETH_SV_STAT_STATE st) 1 s
      else if 16 ≤ run then condIs false 39 st ethMaster (fset (Fld.ETH_SV_STAT_STATE st) 1 s)
      else s

/-- R349: the frame's samples go to every stream that takes it. -/
def svReceive (n : Nat) (f : SvFrame) (s : State) : State :=
  let s := bump (Reg.ETH_Pn_RX_CNT n) s
  if (n ≠ 2 ∧ n ≠ 3) ∨ s.sys.mode = .boot then s
  else (List.range 24).foldl (fun s st =>
    if !svMatches s n st f then s
    else if f.smpRate ≠ svRate s st then bump Reg.ETH_SV_RATE_CNT s
    else f.asdus.foldl (fun s a => svTake st a s) s) s

def execSvFrameReceive (port : Fin 5) (f : SvFrame) (s : State) : Host.Outcome State Fault Refusal :=
  .next (svReceive port.val f s)

/-- R299, R351: sixteen consecutive samples of a stream were missing. -/
def svStreamLost (st : Nat) (s : State) : State :=
  let l := (svChannels s st).filter (fun n => decide (16 ≤ (chan s n).svMiss))
  if l.isEmpty then s
  else
    let s := l.foldl (fun s n => resetChan (timeAt s s.time.cnt) n s) s
    let s := { s with eth := { s.eth with svRun := Store.set (fun _ => 0) s.eth.svRun st 0 } }
    condIs true 39 st ethMaster (fset (Fld.ETH_SV_STAT_STATE st) 2 s)

def execSvStreamLost (st : Fin 24) (s : State) : Host.Outcome State Fault Refusal := .next (svStreamLost st.val s)

/-! ### IP services and links (R352, R335, R403) -/

/-- The module's address on a port: the station pair or ETH-M. -/
def ownIp (s : State) (n : Nat) : Option Word :=
  if n < 2 then some (regGet s Reg.ETH_IP_S) else if n = 4 then some (regGet s Reg.ETH_IP_M) else none

/-- A frame of the IP services: on the pair, or on the one port that it concerns (R344). -/
def ipSend (n : Nat) (f : EthOut) (s : State) : State := if n < 2 ∧ prpOn s = true then pairSend f s else ethSend n f s

def arpRequest (n : Nat) (ip : Word) (s : State) : State :=
  let s := bump (Reg.ETH_Pn_RX_CNT n) s
  if ownIp s n = some ip ∧ s.sys.mode ≠ .boot then ipSend n (.arpReply ip) s else s

def execArpRequestReceive (port : Fin 5) (ip : Word) (s : State) : Host.Outcome State Fault Refusal :=
  .next (arpRequest port.val ip s)

def icmpEcho (n : Nat) (ip src : Word) (data : List Byte) (s : State) : State :=
  let s := bump (Reg.ETH_Pn_RX_CNT n) s
  if ownIp s n = some ip ∧ s.sys.mode ≠ .boot then ipSend n (.icmpReply src data) s else s

def execIcmpEchoReceive (port : Fin 5) (ip : Word) (src : Word) (data : List Byte) (s : State) :
    Host.Outcome State Fault Refusal := .next (icmpEcho port.val ip src data s)

/-- The port of the chronograph stream, and the address that ARP must resolve: the destination, or the gateway for one
outside the network. -/
def streamPort (s : State) : Nat := if fget s Fld.CHR_STRM_CFG_PORT = 0 then 0 else 4
def nextHop (s : State) : Word :=
  let (ip, mask, gw) := if streamPort s = 0 then (Reg.ETH_IP_S, Reg.ETH_MASK_S, Reg.ETH_GW_S)
    else (Reg.ETH_IP_M, Reg.ETH_MASK_M, Reg.ETH_GW_M)
  let dst := regGet s Reg.CHR_STRM_ADDR
  if (dst ^^^ regGet s ip) &&& regGet s mask = 0 then dst else regGet s gw

def arpReply (n : Nat) (ip : Word) (s : State) : State :=
  let s := bump (Reg.ETH_Pn_RX_CNT n) s
  if ip = nextHop s ∧ (if streamPort s = 0 then n < 2 else n = 4) then { s with eth := { s.eth with resolved := true } } else s

def execArpReplyReceive (port : Fin 5) (ip : Word) (s : State) : Host.Outcome State Fault Refusal :=
  .next (arpReply port.val ip s)

/-- R323, R352: a datagram of the stream; until the destination is resolved the module asks for it. -/
def chrStreamDatagram (s : State) : State :=
  match streamDatagram s with
  | some (bs, s) => ipSend (streamPort s) (.datagram (regGet s Reg.CHR_STRM_ADDR) (fget s Fld.CHR_STRM_CFG_UDP_PORT) bs) s
  | none =>
    if !s.eth.resolved && !s.chr.unsent.isEmpty then ipSend (streamPort s) (.arpRequest (nextHop s)) s else s

def execChrStreamDatagram (s : State) : Host.Outcome State Fault Refusal := .next (chrStreamDatagram s)

/-- R403, R335: an enabled port loses its link; on the pair the other LAN becomes SLAVE. -/
def ethLinkDown (n : Nat) (s : State) : State :=
  let slave := fget s (Fld.ETH_Pn_STAT_PSTATE n) == 9
  let s := fset (Fld.ETH_Pn_STAT_LINK n) 0 (setEthPort n { ethPort s n with held := [] } s)
  let s := if n < 2 ∧ slave ∧ fget s (Fld.ETH_Pn_STAT_PSTATE (1 - n)) = 10 then fset (Fld.ETH_Pn_STAT_PSTATE (1 - n)) 9 s else s
  let s := fset (Fld.ETH_Pn_STAT_PSTATE n) 3 s
  if portOn s n then condIs true 58 n ethMaster s else s

def execEthLinkDown (port : Fin 5) (s : State) : Host.Outcome State Fault Refusal := .next (ethLinkDown port.val s)

def ethLinkUp (n : Nat) (s : State) : State :=
  condIs false 58 n ethMaster (fset (Fld.ETH_Pn_STAT_PLUG n) 1 (fset (Fld.ETH_Pn_STAT_LINK n) 1 s))

def execEthLinkUp (port : Fin 5) (s : State) : Host.Outcome State Fault Refusal := .next (ethLinkUp port.val s)

end Sys2Proof.Machine
end

