-- ==== Sys2Proof/Machine/Chain.lean ====
section
/-! DEFINITION. Cell chains: ports, discovery, laps, folds, healing, service requests, and the frames that a port launches
and receives (03_cell_chains.md, 04_cell_frame.md, R378 to R380, R383). -/

namespace Sys2Proof.Machine

/-- Every own port of a chain is set OUT, by its count (R78) or by its lap (R45). -/
def setChainOut (ch : ChainMap) (count : Bool) (s : State) : State :=
  (ownEnds s).foldl (fun s e =>
    let p := endPort ch e
    setPort p { port s p with countOut := count || (port s p).countOut, lapOut := !count || (port s p).lapOut }
      (setPortState p PState.out 0xFF s)) s

/-- A port that nothing keeps OUT any more returns to service, or to discovery while it reaches no cell. -/
def readmitPort (p : Nat) (s : State) : State :=
  if portState s p ≠ PState.out ∨ (port s p).countOut ∨ (port s p).lapOut then s
  else if (port s p).swept ∧ 0 < (port s p).reached then
    setPortState p PState.inService 0xFF (setReached p (port s p).reached s)
  else setPortState p PState.discovering 0xFF s

/-! ### Service requests (R122 to R129) -/

def svcRequest (s : State) (pos op : Nat) (payload : List Byte) (owner : SvcOwner) : SvcReq :=
  { id := 0, pos := pos, op := op, payload := payload, owner := owner, enq := cycleNo s, seq := 0, first := none, last := 0,
    tries := 0, due := true }

/-- Requests take the next numbers of their chain end. -/
def numberRequests (p : Nat) (rs : List SvcReq) (s : State) : List SvcReq × State :=
  let n := (port s p).nextReq
  (((List.range rs.length).zip rs).map (fun e => { e.2 with id := n + e.1 }),
   setPort p { port s p with nextReq := n + rs.length } s)

/-- The queue holds each request until it is completed, one that has been sent too (log entry 134). -/
def setQueue (p : Nat) (q : List SvcReq) (s : State) : State :=
  fset (Fld.RING_PSVC_DEPTH p) q.length (setPort p { port s p with queue := q } s)

/-- The queue holds 32 requests (R129); the module's own wait beside it for room. -/
def pumpQueue (p : Nat) (s : State) : State :=
  let x := port s p
  let room := 32 - x.queue.length
  let moved := (x.todo.take room).map (fun r => { r with enq := cycleNo s })
  setQueue p (x.queue ++ moved) (setPort p { x with todo := x.todo.drop room } s)

/-- Requests of the module itself. -/
def askCells (p : Nat) (rs : List SvcReq) (s : State) : State :=
  let (rs, s) := numberRequests p rs s
  pumpQueue p (setPort p { port s p with todo := (port s p).todo ++ rs } s)

/-- A request of the mailbox engine: refused with the queue full (R129). Its trace entry carries class 2 (log entry 134). -/
def enqueueSvc (p : Nat) (r : SvcReq) (s : State) : State × Status :=
  if (port s p).queue.length < 32 then
    let (rs, s) := numberRequests p [r] s
    (setQueue p ((port s p).queue ++ rs) s, .ok)
  else
    let s := bump Reg.RING_SVC_REF_CNT (fset (Fld.RING_PSVC_REF p) (min 0xFFFF (fget s (Fld.RING_PSVC_REF p) + 1)) s)
    (traceEvent 2 2 7 2 (match r.owner with | .mailbox _ f _ _ => f | _ => 0) s, .refused)

/-- Which requests of a queue go out in this frame: at most `n`, one outstanding for a cell. -/
def pickRequests : Nat → List SvcReq → List SvcReq → List SvcReq → List SvcReq
  | 0, _, _, acc => acc
  | _ + 1, _, [], acc => acc
  | n + 1, all, r :: rs, acc =>
    let open_ := all.any (fun q => q.pos == r.pos && q.first.isSome)
    if r.due && (r.first.isSome || !open_) && !acc.any (fun q => q.pos == r.pos) then pickRequests n all rs (acc ++ [r])
    else pickRequests (n + 1) all rs acc

/-- Send a request: it takes the next SEQ of its cell and end when first sent (R128). -/
def sendRequest (p : Nat) (r : SvcReq) (s : State) : SvcReq × State :=
  if r.first.isSome then ({ r with due := false, last := cycleNo s }, s)
  else
    let q := (Store.get (fun _ => 0) s.svcSeq (64 * p + r.pos) + 1) % 256
    ({ r with due := false, seq := q, first := some (cycleNo s), last := cycleNo s },
     bump Reg.RING_SVC_SENT_CNT { s with svcSeq := Store.set (fun _ => 0) s.svcSeq (64 * p + r.pos) q })

/-- The tail of a frame (R91, R129). -/
def launchTail (p : Nat) (s : State) : List Byte × State :=
  let sweeping := (port s p).sweep.isSome
  let segs := if sweeping then 4 else 16
  let lim := if sweeping then min 2 (fget s Fld.RING_SVC_CTRL_REQ_MAX) else fget s Fld.RING_SVC_CTRL_REQ_MAX
  let sent := pickRequests lim (port s p).queue (port s p).queue []
  let (out, s) := sent.foldl (fun (a : List Byte × State) r =>
    let (r', s) := sendRequest p r a.2
    let s := setQueue p ((port s p).queue.map (fun q => if q = r then r' else q)) s
    (a.1 ++ Segment.bytes ⟨1, r'.pos, r'.seq, r'.op, r'.payload⟩, s)) ([], s)
  (out ++ (List.replicate (segs - sent.length) emptySegment).flatten, s)

/-! ### Outcomes of positions (R77, R78, R461, R467) -/

/-- An identity read over the service channel is whole (R466). -/
def identOk (b : List Byte) : Bool := b.length == 48 && (crc32 (b.take 44)).toNat == leNat b 44 4

/-- FAB_LOT, WAFER, DIE_X and DIE_Y of an identity. -/
def identOf (b : List Byte) : CellIdent :=
  ⟨BitVec.ofNat 32 (leNat b 8 4), BitVec.ofNat 32 (leNat b 12 4), BitVec.ofNat 32 (leNat b 16 4)⟩

/-- What an end knows of a position from the east end: reached, kept from before, and the identity read. -/
structure EndView where
  reached : Bool
  kept : Bool
  ident : Option (List Byte)
  deriving DecidableEq, Repr

def ownView (s : State) (ch : ChainMap) (west : Bool) (posE : Nat) : EndView :=
  let x := port s (endPort ch west)
  let i := posFrom ch.n posE west
  ⟨x.swept && decide (i < x.reached), x.kept.contains i, listed x.idents i⟩

/-- The twin's end, as it told (R70): a position without an identity is reached all the same. -/
def twinView (s : State) (ch : ChainMap) (posE : Nat) : EndView :=
  let x := port s ch.portE
  let i := posFrom ch.n posE (!s.sys.comm.unitB)
  ⟨decide (i < x.twinCount), false, listed x.twinIds i⟩

def viewsOf (s : State) (ch : ChainMap) (posE : Nat) : List EndView :=
  if s.sys.comm.pair then [ownView s ch s.sys.comm.unitB posE, twinView s ch posE]
  else [ownView s ch false posE, ownView s ch true posE]

/-- R77: the outcome of a mapped position; `old` stands where no end could read it. -/
def decideOutcome (vs : List EndView) (want : CellIdent) (old : Nat) : Nat :=
  let ids := vs.filterMap (fun v => v.ident)
  if vs.all (fun v => !v.reached) then Outcome.absent
  else if ids.isEmpty || vs.any (fun v => v.kept) then old
  else if ids.all (fun b => identOk b && identOf b == want) then Outcome.matched
  else Outcome.foreign

/-- Write an outcome on every own port of the chain. -/
def setOutcome (ch : ChainMap) (posE o : Nat) (s : State) : State :=
  (ownEnds s).foldl (fun s e => fset (Fld.RING_CELL_OUTCOME (endPort ch e) (posFrom ch.n posE e)) o s) s

/-- The parameter requests of R461 for a position that became MATCHED. -/
def paramRequests (s : State) (pos : Nat) : List SvcReq :=
  ((List.range s.sys.comm.params.length).map (fun i => (i + 1, s.sys.comm.params.getD i 0)) ++ [(0, (1 : Word))]).map
    (fun (e : Nat × Word) => svcRequest s pos Svc.writeParam (leBytes 2 e.1 ++ wordBytes e.2) .params)

/-- R461: a position becomes MATCHED. -/
def writeParams (ch : ChainMap) (posE : Nat) (s : State) : State :=
  if s.sys.role = .standby ∨ ¬ (s.sys.mode = .commission ∨ s.sys.mode = .charge ∨ s.sys.mode = .ready) then s
  else match (ownEnds s).find? (fun e => (ownView s ch e posE).reached) with
  | none => s
  | some e => askCells (endPort ch e) (paramRequests s (posFrom ch.n posE e)) s

/-- Settle the outcome of one position. -/
def settlePosition (ch : ChainMap) (posE : Nat) (s : State) : State :=
  match mapAt s ch.num posE with
  | none => setOutcome ch posE Outcome.unmapped s
  | some m =>
    let old := outcomeOf s m
    let o := decideOutcome (viewsOf s ch posE) m.ident old
    let s := condIs (o == Outcome.foreign) 21 m.slot 0x32 (setOutcome ch posE o s)
    if o = Outcome.matched ∧ old ≠ Outcome.matched then writeParams ch posE s else s

/-- R78: more than n cells from an end, or one identity at positions that do not add up to n − 1. -/
def countWrong (s : State) (ch : ChainMap) : Bool :=
  let beyond := (ownEnds s).any (fun e => decide (ch.n < (port s (endPort ch e)).reached)) ||
    (s.sys.comm.pair && decide (ch.n < (port s (endPort ch s.sys.comm.unitB)).twinCount))
  let east := if s.sys.comm.pair && s.sys.comm.unitB then (port s ch.portE).twinIds else (port s ch.portE).idents
  let west := if s.sys.comm.pair then (if s.sys.comm.unitB then (port s ch.portE).idents else (port s ch.portE).twinIds)
    else (port s ch.portW).idents
  beyond || east.any (fun a => west.any (fun b => identOk a.2 && identOk b.2 && a.2 == b.2 && a.1 + b.1 + 1 != ch.n))

/-- Settle a chain after a sweep (R77, R78). -/
def settleChain (ch : ChainMap) (s : State) : State :=
  let s := (List.range ch.n).foldl (fun s i => settlePosition ch i s) s
  if countWrong s ch then condIs true 20 ch.num 0x32 (setChainOut ch true s)
  else if s.sys.mode = .commission ∧ (ownEnds s).any (fun e => (port s (endPort ch e)).countOut) then
    (ownEnds s).foldl (fun s e =>
      let p := endPort ch e
      readmitPort p (setPort p { port s p with countOut := false } s)) (clearCond 20 ch.num s)
  else s

/-! ### Laps (R45, R68, R73, R74) -/

/-- The last segment seen from a port: from a sweep of the other end, or by echo (R73). -/
def lastSegment (s : State) (p : Nat) : Option Nat :=
  match peerPort s p with
  | some q => if (port s q).swept ∧ 0 < (port s q).reached then some (phiAt s q 0) else (port s p).segLast
  | none => (port s p).segLast

/-- The measured lap of an end whose sweep reached the last mapped cell, 0.1 ns. -/
def measuredLap (s : State) (p : Nat) (ch : ChainMap) : Option Nat :=
  let x := port s p
  if x.swept ∧ ch.n ≤ x.reached ∧ 0 < ch.n then
    (lastSegment s p).map (fun g => phiAt s p (ch.n - 1) + g +
      (List.range ch.n).foldl (fun a i => a + fget s (Fld.RING_CELL_TURN p i)) 0 + serial01 ch.n + 1000)
  else none

/-- The lap of a port's end (R74), 0.1 ns. -/
def lapOf (s : State) (p : Nat) : Nat := fget s (Fld.RING_PLAP_LAP p)

/-- L_w: the longest lap among the chain ends that carry a wheel's cells. -/
def wheelLap (laps : Nat → Nat) (s : State) (w : Nat) : Nat :=
  let slots := wheelSlots s w
  s.sys.comm.chains.foldl (fun l ch =>
    if s.sys.comm.cells.any (fun m => m.chain == ch.num && slots.contains m.slot) then
      (ownEnds s).foldl (fun l e => max l (laps (endPort ch e))) l
    else l) 0

/-- Put a wheel after those whose lap is no longer. -/
def insertWheel (laps : Nat → Nat) (w : Nat) : List Nat → List Nat
  | [] => [w]
  | x :: xs => if laps w < laps x then w :: x :: xs else x :: insertWheel laps w xs

/-- The wheels in use in the order of R158. -/
def wheelOrder (laps : Nat → Nat) (s : State) : List Nat :=
  (wheelsOn s).foldl (fun l w => insertWheel (wheelLap laps s) w l) []

/-- The lap of a port's end in the list that a check used, or its lap now. -/
def lapIn (laps : List (Nat × Nat)) (s : State) (p : Nat) : Nat :=
  match laps.find? (fun e => e.1 == p) with | some e => e.2 | none => lapOf s p

/-- R50: a lap is above the one that the check used, or the laps now change the order of R158. -/
def lapsVoid (laps : List (Nat × Nat)) (s : State) : Bool :=
  laps.any (fun e => decide (e.2 < lapOf s e.1)) || wheelOrder (lapOf s) s != wheelOrder (lapIn laps s) s

/-- A measured lap is checked against the last budget check (R50); one that runs is judged at its end. -/
def voidCheckByLap (s : State) : State :=
  if s.esc.checkOk && lapsVoid s.esc.usedLaps s then { s with esc := { s.esc with checkOk := false } } else s

/-- RING_PLAP and the lap check of R45. -/
def settleLap (p : Nat) (s : State) : State :=
  match portChain s p with
  | none => s
  | some (ch, _) =>
    match measuredLap s p ch with
    | none => regSet (Reg.RING_PLAP p) (BitVec.ofNat 32 (boundLap01 ch)) (setPort p { port s p with measured := false } s)
    | some l =>
      let s := voidCheckByLap (regSet (Reg.RING_PLAP p) (BitVec.ofNat 32 l) (setPort p { port s p with measured := true } s))
      if s.sys.mode ≠ .commission ∧ apply01 s < l + 5000 then condIs true 19 ch.num 0x32 (setChainOut ch false s) else s

/-! ### Relay reach (R380) -/

/-- t_rly in 0.1 ns: T_F is F_k from SOF to EOF with its 16 segments. -/
def tRly01 (n : Nat) : Nat := (max 11000 ((46 + 16 * n + 64 * 16) * 16 + 128) + 999) / 1000 * 1000

/-- τ_f at a position: the turnarounds of the cells before it. -/
def tallyTo (s : State) (p i : Nat) : Nat := (List.range i).foldl (fun a k => a + fget s (Fld.RING_CELL_TURN p k)) 0

/-- Positions within reach of the relay frame, counted from this end while each one is. -/
def relayReach (s : State) (p n : Nat) : Nat :=
  let t := tRly01 n
  let fits := decide (t + (46 + 16 * n + 64 * 16) * 16 + 128 ≤ periodTicks s * 20) &&
    decide (fget s Fld.ESC_LEAD_LEAD + t / 20 ≤ 4095)
  if !fits then 0
  else ((List.range n).takeWhile (fun i =>
    decide (t + phiAt s p i + tallyTo s p i + (57 + 16 * i) * 16 + 1000 ≤ apply01 s))).length

/-- A unit of a pair notes and tells the reach of its own relay. -/
def settleReach (p : Nat) (s : State) : State :=
  match portChain s p with
  | none => s
  | some (ch, _) =>
    if !inPair s then s
    else
      let g := relayReach s p ch.n
      let s := if s.sys.role = .standby then
          fset (Fld.MIR_RLY_REACH ch.num) g (fset (Fld.MIR_RLY_T_RLY ch.num) (tRly01 ch.n / 1000) s) else s
      sendMgmt (.reach (Fin.ofNat 128 p) g (tRly01 ch.n / 1000)) s

/-! ### Sweeps (R70 to R74, R85) -/

/-- R70: discovery of the ports of RING_DISC_MASK, in READY. East ends are swept before west ends. -/
def discGo (o : Origin) (s : State) : State × Status :=
  checkWrite Reg.RING_CTRL o [(roleOrCore .operator o, .notPermitted), (s.sys.mode == .ready, .illegalInMode)]
    (fun s =>
      let named := (List.range 128).filter (fun p => (regGet s (Reg.RING_DISC_MASK (p / 32))).getLsbD (p % 32))
      let west := fun p => match portChain s p with | some (_, w) => w | none => false
      (named.filter (fun p => !west p) ++ named.filter west).foldl (fun s p => startSweep p s) s) s

def execDiscGo (o : Origin) (s : State) : Host.Outcome State Fault Refusal := .next (discGo o s).1

/-- Every mapped position that the end reaches is MATCHED (R70). -/
def allMatched (s : State) (p : Nat) : Bool :=
  let n := fget s (Fld.RING_PSTAT_REACHED p)
  (port s p).swept && n != 0 && (List.range n).all (fun i =>
    (mapFrom s p i).isNone || fget s (Fld.RING_CELL_OUTCOME p i) == Outcome.matched)

/-- R70: the repeated sweep of COMMISSION and CHARGE. A chain that is OUT by its count is discovered anew (R78). -/
def discoveryRepeat (p : Nat) (s : State) : State :=
  if (s.sys.mode = .commission ∨ s.sys.mode = .charge) ∧ !(port s p).broken ∧ (!allMatched s p ∨ (port s p).countOut) ∧
      (port s p).lit then
    startSweep p s
  else s

def execDiscoveryRepeat (port : Fin 128) (s : State) : Host.Outcome State Fault Refusal :=
  .next (discoveryRepeat port.val s)

/-- R85: a sweep that a break ended starts again. -/
def sweepRestart (p : Nat) (s : State) : State :=
  if (port s p).broken then startSweep p s else s

def execSweepRestart (port : Fin 128) (s : State) : Host.Outcome State Fault Refusal := .next (sweepRestart port.val s)

/-- The header of a frame of this cycle from a port (R92). -/
def headerFor (s : State) (west : Bool) (type nslot : Nat) (range : Word) : Header :=
  let t := splitOf (timeAt s s.esc.tk)
  { role := s.sys.role.code, unitB := s.sys.comm.pair && s.sys.comm.unitB, west := west, type := type, nslot := nslot,
    hops := 0, blockw := BitVec.ofNat 8 (blockw s), epoch := frameEpoch s, cycle := cycleNo s, ns := t.ns, sec := t.sec,
    apply := applyTicks s, wlen := s.esc.wlen, lead := fget s Fld.ESC_LEAD_LEAD, tf := 0, tr := 0, range := range }

/-- R71, R93: the probe of the next position leaves. -/
def probeLaunch (p : Nat) (s : State) : State :=
  match (port s p).sweep, portChain s p with
  | some w, some (_, west) =>
    if w.flying ∨ w.ids.isSome ∨ 64 ≤ w.probes.length then s
    else
      let h := headerFor s west Frame.probe 0 (BitVec.ofNat 32 (2 ^ 15 + w.probes.length))
      setPort p { port s p with sweep := some { w with flying := true, begun := true }, tx := h.bytes ++ leBytes 4 0 } s
  | _, _ => s

def execProbeLaunch (port : Fin 128) (s : State) : Host.Outcome State Fault Refusal := .next (probeLaunch port.val s)

/-- Φ of R73 and the turnaround of a position from the probes (0.1 ns); half of an odd count is rounded down (log entry
135). -/
def probePhi (r : Probe) : Nat := (r.rtt - r.tf - r.tr) / 2
def probeTurn (ps : List Probe) (i : Nat) : Nat :=
  match ps[i]?, ps[i + 1]? with
  | some a, some b => b.tf - a.tf
  | some a, none => a.tr - a.tf
  | _, _ => 0

/-- What a sweep writes for the positions it reached; the lost ones keep theirs. -/
def recordProbes (p : Nat) (w : Sweep) (s : State) : State :=
  (List.range w.probes.length).foldl (fun s i =>
    if w.lost.contains i then s
    else match w.probes[i]? with
    | none => s
    | some r => fset (Fld.RING_CELL_TURN p i) (min 16383 (probeTurn w.probes i))
        (fset (Fld.RING_CELL_PHI p i) (min 65535 (probePhi r)) s)) s

/-- STATE and REACHED after a sweep (R61). -/
def settleReached (p n : Nat) (s : State) : State :=
  let st := portState s p
  if st = PState.folded ∨ st = PState.healing then s
  else if st = PState.out then setReached p n s
  else if n = 0 then reachNone p (setReached p 0 s)
  else setPortState p PState.inService 0xFF (setReached p n s)

/-- What follows once an end's discovery results stand: outcomes, laps and reach of the chain. -/
def settleEnd (p : Nat) (s : State) : State :=
  match portChain s p with
  | none => s
  | some (ch, _) =>
    let s := settleLap p (settleChain ch s)
    let s := match peerPort s p with | some q => if (port s q).swept then settleLap q s else s | none => s
    settleReach p s

/-- A sweep is complete (R71, R77). -/
def finishSweep (p : Nat) (w : Sweep) (s : State) : State :=
  let n := w.probes.length
  let s := recordProbes p w s
  let s := setPort p { port s p with sweep := none, swept := true, reached := n, kept := w.lost, idents := w.found } s
  let s := settleEnd p (settleReached p n s)
  let s := sendMgmt (.sweepEnd (Fin.ofNat 128 p) (posInfos s p)) s
  let s := if 0 < n then sendMgmt (.lastSegment (Fin.ofNat 128 p) (phiAt s p 0)) s else s
  match peerPort s p with | some q => wanted q s | none => s

/-- The other end's sweep has measured this end's last segment, or the twin has told it. -/
def segKnown (s : State) (p : Nat) : Bool := (lastSegment s p).isSome

/-- The probes of a sweep are over: read identities, write Φ, and measure the last segment (R71, R73). -/
def endProbes (p : Nat) (w : Sweep) (s : State) : State :=
  match portChain s p with
  | none => s
  | some (ch, west) =>
    let n := w.probes.length
    let ask := (List.range n).flatMap (fun i =>
      [svcRequest s i Svc.readId [] .sweep,
       svcRequest s i Svc.writePhi (BitVec.ofNat 8 (boolNat west) :: leBytes 2 (min 65535
         (match w.probes[i]? with | some r => probePhi r | none => 0))) .sweep])
    let echo := if ch.n ≤ n ∧ 0 < ch.n ∧ !segKnown s p then
        [svcRequest s (ch.n - 1) Svc.segEcho (BitVec.ofNat 8 (boolNat (!west)) :: wordBytes (cycleNo s + 8)) .sweep] else []
    let rs := ask ++ echo
    if rs.isEmpty then finishSweep p w s
    else askCells p rs (setPort p { port s p with sweep := some { w with flying := false, ids := some rs.length } } s)

/-- The frame checks of a returning frame with `n` slots (R83, R97, R118, R411): whether they hold; a frame that fails one,
or that is cut before the end of FCRC, is counted and reported. -/
def frameCheck (p n : Nat) (bytes : List Byte) (s : State) : Bool × State :=
  let (inj, s) := takeInjection 5 p s
  let good := hcrcOk bytes && fcrcOk bytes n && !inj
  (good, if good then s else occurInj inj 63 p 0x32 8 (bump (Reg.RING_PHCRC_CNT p) s))

/-- A frame without slots reaches a port: counted violations, and its header if its checks hold. -/
def bareFrame (p : Nat) (frame : List LinkChar) (s : State) : Option Header × State :=
  let (good, s) := frameCheck p 0 (linkBytes frame) (bumpBy (linkViolations frame) (Reg.RING_PCODE_CNT p) s)
  (if good then readHeader (linkBytes frame) else none, s)

/-- R72, R73: a probe comes back; a frame that fails its checks is none (R118). -/
def probeReturn (p : Nat) (frame : List LinkChar) (rtt : Nat) (s : State) : State :=
  if !portLit s p then s
  else match bareFrame p frame s with
  | (none, s) => s
  | (some h, s) =>
    match (port s p).sweep with
    | none => s
    | some w =>
      if !w.flying || h.type ≠ Frame.probe then s
      else
        let w := { w with flying := false, probes := w.probes ++ [⟨rtt, h.tf, h.tr⟩] }
        let s := noteHeader h (setPort p { port s p with sweep := some w } s)
        if w.probes.length = 64 then endProbes p w s else s

def execProbeReturn (port : Fin 128) (frame : List LinkChar) (rtt : Nat) (s : State) : Host.Outcome State Fault Refusal :=
  .next (probeReturn port.val frame rtt s)

/-- R71: no probe returned. -/
def probeTimeout (p : Nat) (s : State) : State :=
  match (port s p).sweep with
  | some w => if w.flying then endProbes p { w with flying := false } s else s
  | none => s

def execProbeTimeout (port : Fin 128) (s : State) : Host.Outcome State Fault Refusal := .next (probeTimeout port.val s)

/-! ### Healing (R86, R87) -/

/-- The length of the segment beyond position `f` of a port, as discovered; `f` = 0xFF the segment at the port. -/
def segmentWas (s : State) (p f n : Nat) : Nat :=
  if f = 0xFF then phiAt s p 0
  else if f + 1 < n then phiAt s p (f + 1) - phiAt s p f
  else (lastSegment s p).getD 0

/-- Add Δ to Φ of the cells from position `i0` on, and write the new values to the cells (R86, step 2). -/
def shiftPhi (p i0 n : Nat) (west : Bool) (d : Int) (s : State) : State :=
  (List.range n).foldl (fun s i =>
    if i < i0 then s
    else
      let v := ((phiAt s p i : Int) + d).toNat
      askCells p [svcRequest s i Svc.writePhi (BitVec.ofNat 8 (boolNat west) :: leBytes 2 (min 65535 v)) .heal]
        (fset (Fld.RING_CELL_PHI p i) (min 65535 v) s)) s

/-- The cells that an end reaches with a fold at `f`. -/
def reachedBy (f : Nat) : Nat := if f = 0xFF then 0 else f + 1

/-- The chain has one broken segment: the ends' folds face each other across it. -/
def facing (s : State) (p n : Nat) : Bool :=
  let mine := reachedBy (fget s (Fld.RING_PSTAT_FOLD_POS p))
  match peerPort s p with
  | some q => (portState s q == PState.folded || portState s q == PState.healing) &&
      mine + reachedBy (fget s (Fld.RING_PSTAT_FOLD_POS q)) == n
  | none => match Store.get (fun _ => none) s.btn.twinReached p with | some r => mine + r == n | none => true

/-- The STOP_FOLD orders of a heal: this end's fold cell, and the one beyond the segment, which the other end of this unit
reaches, or this end once the first is done (R86, step 4; log entry 95). -/
def stopFolds (p f n : Nat) (c : Word) (s : State) : State :=
  let stop := fun (q i : Nat) (s : State) => askCells q [svcRequest s i Svc.stopFold (wordBytes c) .heal] s
  let far := fun (s : State) =>
    if f = 0xFF then stop p 0 s else if f + 1 < n then stop p (f + 1) s else s
  let faces := facing s p n
  let s := if f = 0xFF then s else stop p f s
  match peerPort s p with
  | some q =>
    let g := fget s (Fld.RING_PSTAT_FOLD_POS q)
    if !faces then far s else if g = 0xFF then s else stop q g s
  | none => far s

/-- The change of a segment from its discovered delay, and the lap that it makes (R86, steps 2 and 3), 0.1 ns. -/
def healChange (s : State) (p delay n : Nat) : Int := (delay : Int) - segmentWas s p (fget s (Fld.RING_PSTAT_FOLD_POS p)) n
def healLap (s : State) (p : Nat) (d : Int) : Int := ((regGet s (Reg.RING_PLAP p)).toNat : Int) + d

/-- The new Φ of the cells beyond the segment, seen from each end of this unit, and the new laps (R86, steps 2 and 3). -/
def applyDelay (p delay : Nat) (s : State) : State :=
  match portChain s p with
  | none => s
  | some (ch, west) =>
    let f := fget s (Fld.RING_PSTAT_FOLD_POS p)
    let d := healChange s p delay ch.n
    let lap := fun (q : Nat) (s : State) => regSet (Reg.RING_PLAP q) (BitVec.ofNat 32 (healLap s q d).toNat) s
    let s := setPort p { port s p with segLast := if f + 1 = ch.n then some delay else (port s p).segLast } s
    let s := lap p (shiftPhi p (reachedBy f) ch.n west d s)
    voidCheckByLap (match peerPort s p with
      | some q => lap q (shiftPhi q (ch.n - reachedBy f) ch.n (!west) d s)
      | none => settleReach p s)

/-- Steps 2 to 4 of R86 once the segment's delay (0.1 ns) is known. A heal whose lap is too long changes nothing: the chain
serves as before. -/
def healMeasured (p delay : Nat) (s : State) : State :=
  match portChain s p, (port s p).heal with
  | some (ch, _), some (.echo _) =>
    let f := fget s (Fld.RING_PSTAT_FOLD_POS p)
    if healLap s p (healChange s p delay ch.n) + 5000 ≤ (apply01 s : Int) then
      let c := cycleNo s + 8
      let s := stopFolds p f ch.n c (setPort p { port s p with heal := some (.stop c), echo := none } s)
      let s := sendMgmt (.healMeasured (Fin.ofNat 128 p) delay c) (applyDelay p delay s)
      if chainIsOut s ch.num then s else clearCond 19 ch.num s
    else
      let s := abandonHeal p s
      condIs true 19 ch.num 0x32 (setPort p { port s p with healReady := true } s)
  | _, _ => s

/-- The port that leads a heal: one at which the broken segment ends measures it (R86, step 1). -/
def healLeader (s : State) (p n : Nat) : Nat :=
  match peerPort s p with
  | some q => if facing s p n && fget s (Fld.RING_PSTAT_FOLD_POS q) == 0xFF then q else p
  | none => p

/-- A port joins a heal: HEALING. -/
def joinHeal (q : Nat) (s : State) : State :=
  if portState s q = PState.folded then setPortState q PState.healing (fget s (Fld.RING_PSTAT_FOLD_POS q)) s else s

/-- Start a heal at a FOLDED port: HEALING, and the segment echo from the fold cell, or from the port at which the segment
ends, the twin's among them (step 1). A STANDBY unit follows the holder. -/
def startHeal (p0 : Nat) (s : State) : State :=
  match portChain s p0 with
  | none => s
  | some (ch, _) =>
    let p := healLeader s p0 ch.n
    let west := match portChain s p with | some (_, w) => w | none => false
    let f := fget s (Fld.RING_PSTAT_FOLD_POS p)
    let c := cycleNo s + 8
    let faces := facing s p ch.n
    let s := joinHeal p s
    let s := match peerPort s p with | some q => if faces then joinHeal q s else s | none => s
    if s.sys.role = .standby then setPort p { port s p with heal := some (.follow c) } s
    else
      let s := sendMgmt (.healStart (Fin.ofNat 128 p)) (setPort p { port s p with heal := some (.echo c) } s)
      if f = 0xFF ∨ (s.sys.comm.pair ∧ f + 1 = ch.n) then s
      else askCells p [svcRequest s f Svc.segEcho (BitVec.ofNat 8 (boolNat (!west)) :: wordBytes c) .heal] s

/-- The port is FOLDED and nothing heals its segment. -/
def mayHeal (s : State) (p : Nat) : Bool :=
  s.sys.mode != .boot && s.sys.mode != .lockout && portState s p == PState.folded && (port s p).heal.isNone

/-- R86: RING_HEAL_HOLD has passed with valid commas at both receivers; with AUTO_HEAL = 0 the command is waited for. -/
def healHoldExpiry (p : Nat) (s : State) : State :=
  if !mayHeal s p then s
  else
    let s := setPort p { port s p with healReady := true } s
    if fbit s Fld.RING_CTRL_AUTO_HEAL then startHeal p s else s

def execHealHoldExpiry (port : Fin 128) (s : State) : Host.Outcome State Fault Refusal :=
  .next (healHoldExpiry port.val s)

/-- R86: the command CHAIN_HEAL, once the hold has passed. -/
def chainHeal (r : Req) (p : Nat) (s : State) : State :=
  hmpRun r ⟨0x0042, .engineer, false, true, [.commission, .charge, .ready, .run]⟩ (fun _ s =>
    if 128 ≤ p ∨ (portChain s p).isNone then (s, some (.badParam, []))
    else if !mayHeal s p || !(port s p).healReady then (s, some (.checkFail, []))
    else (startHeal p s, some (.ok, []))) s

def execChainHeal (r : Req) (port : Nat) (s : State) : Host.Outcome State Fault Refusal := .next (chainHeal r port s)

/-- A port returns to service from a heal (R86, step 4). -/
def leaveFold (n : Nat) (faces : Bool) (s : State) (q : Nat) : State :=
  let s := setPort q { port s q with heal := none, healReady := false } s
  clearCond 18 q (setPortState q PState.inService 0xFF (if faces then setReached q n s else s))

/-- R86, step 4: at the named cycle the ports of the chain return to IN_SERVICE. -/
def healComplete (p : Nat) (s : State) : State :=
  match portChain s p, (port s p).heal with
  | some (ch, _), some (.stop c) =>
    if (cycleNo s).toNat < c.toNat then s else (healPorts s p).foldl (leaveFold ch.n (facing s p ch.n)) s
  | _, _ => s

def execHealComplete (port : Fin 128) (s : State) : Host.Outcome State Fault Refusal := .next (healComplete port.val s)

/-- The cycle for which a heal names its segment echo. -/
def echoCycle (h : Option HealStep) : Option Word :=
  match h with | some (.echo c) => some c | some (.follow c) => some c | _ => none

/-- R121: a port originates the ECHO of a heal whose segment ends at it; ECHO_ID is the low half of the named cycle (log
entry 136). -/
def echoLaunch (p : Nat) (s : State) : State :=
  match portChain s p, echoCycle (port s p).heal with
  | some (_, west), some c =>
    if fget s (Fld.RING_PSTAT_FOLD_POS p) ≠ 0xFF ∨ (port s p).echo.isSome ∨ (cycleNo s).toNat < c.toNat then s
    else
      let id := c.toNat % 65536
      let h := headerFor s west Frame.echo 0 (BitVec.ofNat 32 id)
      setPort p { port s p with echo := some id, tx := h.bytes ++ leBytes 4 0 } s
  | _, _ => s

def execEchoLaunch (port : Fin 128) (s : State) : Host.Outcome State Fault Refusal := .next (echoLaunch port.val s)

/-- R121: an ECHO arrives: this port's own, after the round trip `t`, or one to return with the turnaround `t`. A STANDBY
unit tells the holder the delay of the segment at its port. -/
def echoReceive (p : Nat) (frame : List LinkChar) (t : Nat) (s : State) : State :=
  if !portLit s p then s
  else match bareFrame p frame s with
  | (none, s) => s
  | (some h, s) =>
    if h.type ≠ Frame.echo then s
    else if (port s p).echo = some (h.range.toNat % 65536) then
      let d := (t - h.tr) / 2
      match (port s p).heal with
      | some (.echo _) => healMeasured p d s
      | _ => sendMgmt (.lastSegment (Fin.ofNat 128 p) d) (setPort p { port s p with echo := none } s)
    else
      let h := { h with tr := min 0xFFFF (h.tr + t) }
      setPort p { port s p with tx := h.bytes ++ leBytes 4 0 } s

def execEchoReceive (port : Fin 128) (frame : List LinkChar) (t : Nat) (s : State) : Host.Outcome State Fault Refusal :=
  .next (echoReceive port.val frame t s)

/-! ### Completion of service requests (R129, R398) -/

/-- The cycles from the enqueue to the first send beyond the first frame. -/
def svcWait (r : SvcReq) : Nat := match r.first with | some c => (c - r.enq).toNat - 1 | none => 0

/-- The SVC event of a mailbox request: the payload is in place before it enters. -/
def svcEvent (p : Nat) (r : SvcReq) (st : Status) (payload : List Byte) (s : State) : State :=
  match r.owner with
  | .mailbox _ flow tag ptr =>
    let s := putBytes (ptr + 64) payload s
    post (mkEvent s 2 (p * 16384 + r.pos * 256 + r.seq) flow (srcClass s 2 false)
      (BitVec.ofNat 32 (p * 65536 + r.pos * 256 + r.op)) (BitVec.ofNat 32 (min 0xFFFF (svcWait r) * 65536 + tag))
      (BitVec.ofNat 32 (payload.length * 256 + st.code))) s
  | _ => s

/-- A request of a sweep is over; the last one completes the sweep. -/
def sweepAnswer (p : Nat) (r : SvcReq) (st : Status) (payload : List Byte) (s : State) : State :=
  match (port s p).sweep with
  | none => s
  | some w =>
    let w := if st = .timeout ∧ !w.lost.contains r.pos then { w with lost := w.lost ++ [r.pos] } else w
    let w := if r.op = Svc.readId ∧ st = .ok then { w with found := Store.insert (Store.erase w.found r.pos) r.pos payload } else w
    let w := { w with ids := w.ids.map (· - 1) }
    let s := setPort p { port s p with sweep := some w } s
    let s := if r.op = Svc.segEcho ∧ st = .ok then setPort p { port s p with segLast := some (leNat payload 0 2) } s else s
    if w.ids = some 0 then finishSweep p w s else s

/-- A request of a heal is over: an echo gives the delay; an order that is not carried out abandons the heal. -/
def healAnswer (p : Nat) (r : SvcReq) (st : Status) (payload : List Byte) (s : State) : State :=
  if r.op = Svc.segEcho then
    if st = .ok then healMeasured p (leNat payload 0 2) s else abandonHeal p s
  else if r.op = Svc.stopFold ∧ st ≠ .ok then abandonHeal p s
  else s

/-- A request leaves its queue with a final status. -/
def completeSvc (p : Nat) (r : SvcReq) (st : Status) (payload : List Byte) (s : State) : State :=
  let s := pumpQueue p (setQueue p ((port s p).queue.erase r) s)
  let late := decide (0 < svcWait r)
  let s := if late && st != .timeout then bump Reg.RING_SVC_DLY_CNT s else s
  match r.owner with
  | .sweep => sweepAnswer p r st payload s
  | .heal => healAnswer p r st payload s
  | .params => s
  | .mailbox _ _ _ _ => svcEvent p r (if late && st == .ok then .delayed else st) payload s

/-- The status with a code of R477; a code that no status has ends a request as CHECK_FAIL (log entry 137). -/
def statusOf (c : Nat) : Status :=
  (([.ok, .busy, .badParam, .notPermitted, .illegalInMode, .loopClosed, .tooLong, .refused, .delayed, .locked,
     .logFull, .authFail, .notHolder, .timeout, .checkFail] : List Status)[c]?).getD .checkFail

/-- R129: a RESPONSE arrives. BUSY keeps the request waiting for its repeat. A segment without its status byte reads as OK,
and a LEN beyond the payload as all of it (log entry 137). -/
def svcResponse (p : Nat) (seg : List Byte) (s : State) : State :=
  match segmentOf seg 0 0 with
  | none => s
  | some g =>
    match (port s p).queue.find? (fun r => r.pos == g.pos && r.seq == g.seq && r.op == g.op && r.first.isSome) with
    | none => s
    | some r =>
      let st := statusOf ((g.payload.headD 0).toNat)
      if g.kind ≠ 2 ∨ st = .busy then s else completeSvc p r st (g.payload.drop 1) s

/-- The segment arrives alone: 44 bytes stand for the header and FCRC that precede a tail. -/
def execSvcResponseReceive (port : Fin 128) (seg : List Byte) (s : State) : Host.Outcome State Fault Refusal :=
  .next (svcResponse port.val (List.replicate 44 0 ++ seg) s)

/-- R129: TMO cycles have passed without a final answer. -/
def svcTimeout (p pos : Nat) (s : State) : State :=
  match (port s p).queue.find? (fun r => r.pos == pos && r.first.isSome && !r.due) with
  | none => s
  | some r =>
    if (cycleNo s - r.last).toNat < fget s Fld.RING_SVC_CTRL_TMO then s
    else if r.tries < fget s Fld.RING_SVC_CTRL_RETRY then
      setQueue p ((port s p).queue.map (fun q => if q = r then { r with tries := r.tries + 1, due := true } else q)) s
    else completeSvc p r .timeout [] (bump Reg.RING_SVC_TMO_CNT s)

def execSvcTimeout (port : Fin 128) (pos : Fin 64) (s : State) : Host.Outcome State Fault Refusal :=
  .next (svcTimeout port.val pos.val s)

/-! ### CELL_ACCEPT (R79) -/

/-- Identities that every end that has read the position agrees on. -/
def agreedIdent (vs : List EndView) : Option (List Byte) :=
  match vs.filterMap (fun v => v.ident) with
  | [] => none
  | b :: bs => if bs.all (· == b) then some b else none

/-- Replace the expected identity of a position. -/
def acceptIdent (m : CellMap) (b : List Byte) (s : State) : State :=
  let cells := s.sys.comm.cells.map (fun c => if c = m then { c with ident := identOf b } else c)
  let e : CmdLogEntry :=
    { time := nowSplit s, cmd := 0x0041, block := 0xFFFF, status := .ok, mode := s.sys.mode, role := s.sys.role,
      origin := 0, session := 0, chain := m.chain, pos := m.posE, idCrc := crc32 b }
  { s with sys := { s.sys with
      comm := { s.sys.comm with cells := cells }, cmdLog := ringPush Config.cmdLogCap e s.sys.cmdLog,
      accepts := s.sys.accepts ++ [(s.time.cnt, m.chain, m.posE)] } }

/-- R79, on the identities read in the last complete sweeps. -/
def cellAccept (r : Req) (chain pos : Nat) (s : State) : State :=
  hmpRun r ⟨0x0041, .engineer, false, true, [.commission, .charge, .ready]⟩ (fun x s =>
    match chainOf s chain, mapAt s chain pos with
    | some ch, some m =>
      if outcomeOf s m ≠ Outcome.foreign then (s, some (.checkFail, []))
      else match agreedIdent (viewsOf s ch pos) with
      | none => (s, some (.checkFail, []))
      | some b =>
        let s := acceptIdent m b s
        let put := fun (e : CmdLogEntry) => if e.cmd = 0x0041 ∧ e.status = .ok ∧ e.time = nowSplit s then { e with session := x.num } else e
        ({ s with sys := { s.sys with cmdLog := s.sys.cmdLog.map put } }, some (.ok, []))
    | _, _ => (s, some (.badParam, []))) s

def execCellAccept (r : Req) (chain pos : Nat) (s : State) : Host.Outcome State Fault Refusal :=
  .next (cellAccept r chain pos s)

/-- R79: accepted positions become MATCHED at a boundary by R15. -/
def adoptAccepts (s : State) : State :=
  let due := s.sys.accepts.filter (fun a => decide (a.1 + Config.adoptTicks ≤ s.time.cnt))
  let s := { s with sys := { s.sys with accepts := s.sys.accepts.filter (fun a => !due.contains a) } }
  let s := if due.isEmpty then s else voidCheck s
  due.foldl (fun s a => match chainOf s a.2.1, mapAt s a.2.1 a.2.2 with
    | some ch, some m => writeParams ch a.2.2 (clearCond 21 m.slot (setOutcome ch a.2.2 Outcome.matched s))
    | _, _ => s) s

/-! ### Launch of frames (R91 to R95, R380) -/

/-- R32, R34: every command of the frame is BLOCK: in COMMISSION, CHARGE and READY, where a bypass sequence begun in RUN
goes on (log entry 133), and in a cycle cut short by a re-alignment. -/
def blockedCommand (s : State) (c : DWord) : Bool :=
  s.esc.short || ((s.sys.mode == .commission || s.sys.mode == .charge || s.sys.mode == .ready) &&
    dbits c 63 61 != St.bypassClose)

/-- The command of a position for the window that the frame carries; a cell without a plan is commanded BLOCK. -/
def slotCommand (s : State) (p pos : Nat) : DWord :=
  match mapFrom s p pos with
  | none => blockWord (actBit s)
  | some m =>
    let c := (cell s m.slot).cmd
    if c = 0 || blockedCommand s c then blockWord (actBit s) else reflag c false (actBit s)

/-- Slots, FCRC and tail. -/
def frameBytes (h : Header) (cmds : List DWord) (tail : List Byte) : List Byte :=
  let slots := (cmds.map slotBytes).flatten
  h.bytes ++ slots ++ wordBytes (fcrcOf slots) ++ tail

/-- The cycle frame of a port leaves at T_k, unless the block comma meets it (R26) or the twin sweeps (R70). -/
def launchFrame (withheld : Bool) (p : Nat) (s : State) : State :=
  match portChain s p with
  | none => s
  | some (ch, west) =>
    let x := port s p
    if !x.lit then s
    else if withheld then bump (Reg.RING_PWHELD_CNT p) (setPort p { x with tx := [] } s)
    else if x.withheld then setPort p { x with tx := [] } s
    else
      let (tail, s) := launchTail p s
      let h := headerFor s west Frame.cycle ch.n 0
      let cmds := (List.range ch.n).map (slotCommand s p)
      setPort p { port s p with tx := frameBytes h cmds tail, relayTx := [], hit := none } s

/-- Every port that a chain end of this unit uses. -/
def ownPorts (s : State) : List Nat := s.sys.comm.chains.flatMap (fun c => (ownEnds s).map (endPort c))

def launchFrames (withheld : BitVec 128) (s : State) : State :=
  (ownPorts s).foldl (fun s p => launchFrame (withheld.getLsbD p) p s) s

/-- R380: the relay frame of a chain with granted relay, from the record of cycle k − 1. -/
def relayFrameLaunch (ch : Nat) (s : State) : State :=
  match s.sys.role, chainOf s ch, s.btn.restIn with
  | .standby, some c, some (.rest _ cyc _ _ _ _ rel) =>
    let mine := rel.filter (fun r => r.chain == ch)
    let p := c.portE
    if mine.isEmpty || cyc + 1 != cycleNo s || !(port s p).lit || (port s p).withheld then s
    else
      let t := tRly01 c.n / 20
      let l := splitOf (timeAt s (s.esc.tk + t))
      let h := headerFor s s.sys.comm.unitB Frame.cycle c.n (BitVec.ofNat 32 (2 ^ 12 + (mine.length - 1) * 2 ^ 6))
      let h := { h with ns := l.ns, sec := l.sec, apply := h.apply - t, lead := h.lead + t }
      let cmds := (List.range c.n).map (fun i => match mine.find? (fun r => r.pos == i) with
        | some r => reflag r.word true true
        | none => reflag (slotCommand s p i) false false)
      let tail := (List.replicate (if (port s p).sweep.isSome then 4 else 16) emptySegment).flatten
      setPort p { port s p with relayTx := frameBytes h cmds tail } s
  | _, _, _ => s

def execRelayFrameLaunch (ch : Fin 128) (s : State) : Host.Outcome State Fault Refusal :=
  .next (relayFrameLaunch ch.val s)

/-! ### Frames that arrive (R81 to R83, R472) -/

/-- A STANDBY unit notes the ACTIVE unit's commands (R369); the frame comes from the other end. -/
def noteCommands (ch : ChainMap) (west : Bool) (frame : List Byte) (s : State) : State :=
  (List.range ch.n).foldl (fun s j => match slotOf frame j, mapAt s ch.num (posFrom ch.n j west) with
    | some (c, _), some m => if crc8Ok c then setCell m.slot { cell s m.slot with twinCmd := some c } s else s
    | _, _ => s) s

/-- A slot of an arriving frame: CRC-8, lateness, delivery (R81 to R83). `q` is the launching end's port, `west` its end.
Each report is late by its own arrival: of a frame that ends after the cutoff, the reports that came before it still enter
the cell table, which is not yet published. -/
def takeSlotFrom (p q n lap : Nat) (ch : ChainMap) (west current : Bool) (frame : List Byte) (s : State) (j : Nat) : State :=
  match slotOf frame j with
  | none => s
  | some (_, r) =>
    if !crc8Ok r then bump (Reg.RING_PSCRC_CNT p) s
    else
      let at01 := lap - ((n - 1 - j) * 128 + 32) * 2
      if !current || decide ((s.esc.wlen - Config.cutTicks) * 20 < at01) then bump (Reg.RING_PLATE_CNT p) s
      else match mapAt s ch.num (posFrom n j west) with
      | none => s
      | some m =>
        let s := deliver m.slot r (at01 / 10) q j west false s
        if s.esc.cutDone && s.esc.pubDue.isSome then cellTableEntry m.slot s else s

/-- A CYCLE frame returns to a port: `lap` in 0.1 ns from T_k, `codes` the code violations between it and the frame before.
A character that is no data ends it there (R89). -/
def chainFrame (p : Nat) (chars : List LinkChar) (lap codes : Nat) (s : State) : State :=
  match portChain s p with
  | none => s
  | some (ch, own) =>
    if !(port s p).lit then s
    else
      let frame := linkBytes chars
      let s := bumpBy (codes + linkViolations chars) (Reg.RING_PCODE_CNT p) s
      let s := (frameCheck p ch.n frame s).2
      match readHeader frame with
      | none => s
      | some h =>
        if h.type ≠ Frame.cycle then s
        else
          let sound := hcrcOk frame
          let s := if sound then noteHeader h s else s
          let mine := h.west == own
          let folded := sound && mine && h.tr != 0
          let f := (h.hops - 1) / 2
          let s := if folded then foldPort p f (f + 1) s else s
          let bit : BitVec 128 := BitVec.ofNat 128 (2 ^ p)
          let s := if folded then { s with btn := { s.btn with ownBack := s.btn.ownBack ||| bit } } else s
          let twin := sound && !mine && inPair s
          let s := if twin then { s with btn := { s.btn with rxTwin := s.btn.rxTwin ||| bit } } else s
          let s := if twin && h.role == 1 && s.sys.role == .standby then noteCommands ch h.west frame s else s
          let s := if sound then regSet (Reg.RING_PLAP_NOW p) (BitVec.ofNat 32 (lap % 2 ^ 17)) s else s
          let q := if mine then p else match peerPort s p with | some q => q | none => p
          let js := List.range (if mine then min ch.n (f + 1) else ch.n)
          js.foldl (takeSlotFrom p q ch.n lap ch h.west (h.cycle == cycleNo s) frame) s

def execChainFrameReceive (port : Fin 128) (frame : List LinkChar) (lap codes : Nat) (s : State) :
    Host.Outcome State Fault Refusal := .next (chainFrame port.val frame lap codes s)

/-! ### Light and frequency (R62, R86, R509) -/

/-- R509: the receiver loses light: a sweep and a heal break, and the frames of the end reach no cell (R61). -/
def portLoss (p : Nat) (s : State) : State :=
  if (portChain s p).isNone ∨ !(port s p).lit then s
  else
    let s := bump (Reg.RING_PLOS_CNT p) (setPort p { port s p with commaAt := none } s)
    let s := abandonHeal p (breakSweep p s)
    let s := match peerPort s p with | some q => abandonHeal q s | none => s
    reachNone p s

def execPortLossOfSignal (port : Fin 128) (s : State) : Host.Outcome State Fault Refusal := .next (portLoss port.val s)

/-- R86: light and valid commas return. -/
def portReturn (p : Nat) (s : State) : State :=
  if (portChain s p).isNone ∨ (port s p).commaAt.isSome then s else setPort p { port s p with commaAt := some s.time.cnt } s

def execPortSignalReturn (port : Fin 128) (s : State) : Host.Outcome State Fault Refusal := .next (portReturn port.val s)

/-- R62. -/
def chainFreq (p : Nat) (off : Bool) (s : State) : State :=
  if (portChain s p).isNone then s else condIs off 17 p 0x32 (setPort p { port s p with freqOff := off } s)

def execChainFreqTimeout (port : Fin 128) (s : State) : Host.Outcome State Fault Refusal :=
  .next (chainFreq port.val true s)
def execChainFreqReturn (port : Fin 128) (s : State) : Host.Outcome State Fault Refusal :=
  .next (chainFreq port.val false s)

/-! ### The management channel (R70, R73, R361, R380, R383) -/

def infoIds (cells : List PosInfo) : Store (List Byte) :=
  (List.range cells.length).filterMap (fun i => match cells[i]? with
    | some c => c.ident.map (fun b => (i, b))
    | none => none)

/-- R383: a joining unit takes the discovery results of its own end from the holder. -/
def takeDiscovery (p : Nat) (cells : List PosInfo) (lap : Nat) (s : State) : State :=
  let s := (List.range cells.length).foldl (fun s i => match cells[i]? with
    | some c => fset (Fld.RING_CELL_TURN p i) (min 16383 c.turn) (fset (Fld.RING_CELL_PHI p i) (min 65535 c.phi) s)
    | none => s) s
  let n := cells.length
  let s := setPort p { port s p with swept := true, reached := n, kept := [], idents := infoIds cells } s
  let s := settleEnd p (settleReached p n s)
  if lap = 0 then s
  else voidCheckByLap (regSet (Reg.RING_PLAP p) (BitVec.ofNat 32 lap) (setPort p { port s p with measured := true } s))

/-- R86 on a STANDBY unit: the holder has measured the segment and named the cycle. -/
def followHeal (p delay : Nat) (c : Word) (s : State) : State :=
  if portState s p = PState.folded ∨ portState s p = PState.healing then
    let s := applyDelay p delay (joinHeal p s)
    setPort p { port s p with heal := some (.stop c), echo := none } s
  else s

/-- A message of the twin. -/
def management (m : MgmtMsg) (s : State) : State :=
  if !inPair s || lanesUp s = 0 then s
  else match m with
  | .sweepStart p => setPort p.val { port s p.val with withheld := true } s
  | .sweepEnd p cells =>
    let x := port s p.val
    let seg := match cells with | c :: _ => some c.phi | [] => x.segLast
    let s := setPort p.val { x with
        withheld := false, twinCount := cells.length, twinIds := infoIds cells, twinInfo := cells,
        segLast := seg } s
    let s := { s with btn := { s.btn with
        twinReached := Store.set (fun _ => none) s.btn.twinReached p.val (some cells.length) } }
    wanted p.val (if x.swept then settleEnd p.val s else s)
  | .lastSegment p d =>
    match portChain s p.val, (port s p.val).heal with
    | some (ch, _), some (.echo _) =>
      if fget s (Fld.RING_PSTAT_FOLD_POS p.val) + 1 = ch.n then healMeasured p.val d s else s
    | _, _ =>
      let s := setPort p.val { port s p.val with segLast := some d } s
      if (port s p.val).swept then settleEnd p.val s else s
  | .images a b c =>
    let s := { s with btn := { s.btn with twinImages := some (a, b, c) } }
    fset Fld.BTN_HEALTH_IMAGE_DIFF (boolNat ((a, b, c) != imagesOf s)) s
  | .reach p g t =>
    if s.sys.role = .standby then s
    else match portChain s p.val with
    | some (ch, _) => fset (Fld.MIR_RLY_REACH ch.num) (min 64 g) (fset (Fld.MIR_RLY_T_RLY ch.num) (min 127 t) s)
    | none => s
  | .reached p n =>
    { s with btn := { s.btn with twinReached := Store.set (fun _ => none) s.btn.twinReached p.val (some n) } }
  | .discovery p cells lap => if s.sys.role = .standby then takeDiscovery p.val cells lap s else s
  | .healStart p => if s.sys.role = .standby ∧ mayHeal s p.val then startHeal p.val s else s
  | .healMeasured p d c => if s.sys.role = .standby then followHeal p.val d c s else s
  | .healEnd p => abandonHeal p.val s
  | .selftest n => if s.btn.stRun then s else startSelftest n.val true s

def execManagementChannelReceive (msg : MgmtMsg) (s : State) : Host.Outcome State Fault Refusal :=
  .next (management msg s)

end Sys2Proof.Machine
end

