-- ==== Sys2Proof/Machine/Sha256.lean ====
section
/-! DEFINITION. SHA-256 (FIPS 180-4), which the certificate of a program image takes over its sections (R253, R254). -/

namespace Sys2Proof.Machine

def Sha.k0 : List Word :=
  [0x428a2f98, 0x71374491, 0xb5c0fbcf, 0xe9b5dba5, 0x3956c25b, 0x59f111f1, 0x923f82a4, 0xab1c5ed5,
   0xd807aa98, 0x12835b01, 0x243185be, 0x550c7dc3, 0x72be5d74, 0x80deb1fe, 0x9bdc06a7, 0xc19bf174]
def Sha.k1 : List Word :=
  [0xe49b69c1, 0xefbe4786, 0x0fc19dc6, 0x240ca1cc, 0x2de92c6f, 0x4a7484aa, 0x5cb0a9dc, 0x76f988da,
   0x983e5152, 0xa831c66d, 0xb00327c8, 0xbf597fc7, 0xc6e00bf3, 0xd5a79147, 0x06ca6351, 0x14292967]
def Sha.k2 : List Word :=
  [0x27b70a85, 0x2e1b2138, 0x4d2c6dfc, 0x53380d13, 0x650a7354, 0x766a0abb, 0x81c2c92e, 0x92722c85,
   0xa2bfe8a1, 0xa81a664b, 0xc24b8b70, 0xc76c51a3, 0xd192e819, 0xd6990624, 0xf40e3585, 0x106aa070]
def Sha.k3 : List Word :=
  [0x19a4c116, 0x1e376c08, 0x2748774c, 0x34b0bcb5, 0x391c0cb3, 0x4ed8aa4a, 0x5b9cca4f, 0x682e6ff3,
   0x748f82ee, 0x78a5636f, 0x84c87814, 0x8cc70208, 0x90befffa, 0xa4506ceb, 0xbef9a3f7, 0xc67178f2]

/-- The round constants. -/
def Sha.k : List Word := Sha.k0 ++ Sha.k1 ++ Sha.k2 ++ Sha.k3

def Sha.rotr (w : Word) (n : Nat) : Word := (w >>> n) ||| (w <<< (32 - n))

/-- The working variables a to h. -/
structure ShaState where
  a : Word
  b : Word
  c : Word
  d : Word
  e : Word
  f : Word
  g : Word
  h : Word
  deriving DecidableEq, Repr

def Sha.init : ShaState :=
  ⟨0x6a09e667, 0xbb67ae85, 0x3c6ef372, 0xa54ff53a, 0x510e527f, 0x9b05688c, 0x1f83d9ab, 0x5be0cd19⟩

/-- One more word of the message schedule, newest first. -/
def Sha.extend (w : List Word) : List Word :=
  let x := w.getD 14 0
  let y := w.getD 1 0
  let s0 := Sha.rotr x 7 ^^^ Sha.rotr x 18 ^^^ (x >>> 3)
  let s1 := Sha.rotr y 17 ^^^ Sha.rotr y 19 ^^^ (y >>> 10)
  (w.getD 15 0 + s0 + w.getD 6 0 + s1) :: w

/-- `n` more words of the schedule. -/
def Sha.extendBy : Nat → List Word → List Word
  | 0, w => w
  | n + 1, w => Sha.extendBy n (Sha.extend w)

def Sha.round (s : ShaState) (kw : Word × Word) : ShaState :=
  let s1 := Sha.rotr s.e 6 ^^^ Sha.rotr s.e 11 ^^^ Sha.rotr s.e 25
  let ch := (s.e &&& s.f) ^^^ (~~~s.e &&& s.g)
  let t1 := s.h + s1 + ch + kw.1 + kw.2
  let s0 := Sha.rotr s.a 2 ^^^ Sha.rotr s.a 13 ^^^ Sha.rotr s.a 22
  let mj := (s.a &&& s.b) ^^^ (s.a &&& s.c) ^^^ (s.b &&& s.c)
  ⟨t1 + (s0 + mj), s.a, s.b, s.c, s.d + t1, s.e, s.f, s.g⟩

/-- A big-endian word of four bytes. -/
def Sha.word (bs : List Byte) : Word :=
  (bs.getD 0 0 ++ bs.getD 1 0 ++ bs.getD 2 0 ++ bs.getD 3 0 : BitVec 32)

/-- The 16 words of a block. -/
def Sha.words (block : List Byte) : List Word := (List.range 16).map (fun i => Sha.word (block.drop (4 * i)))

def Sha.block (s : ShaState) (block : List Byte) : ShaState :=
  let w := (Sha.extendBy 48 (Sha.words block).reverse).reverse
  let t := (Sha.k.zip w).foldl Sha.round s
  ⟨s.a + t.a, s.b + t.b, s.c + t.c, s.d + t.d, s.e + t.e, s.f + t.f, s.g + t.g, s.h + t.h⟩

/-- `n` blocks of 64 bytes. -/
def Sha.blocks : Nat → List Byte → ShaState → ShaState
  | 0, _, s => s
  | n + 1, bs, s => Sha.blocks n (bs.drop 64) (Sha.block s (bs.take 64))

/-- The padded message: a one bit, zeros, and the length in bits, big-endian. -/
def Sha.pad (bs : List Byte) : List Byte :=
  let n := 8 * bs.length
  bs ++ [0x80] ++ List.replicate ((119 - bs.length % 64) % 64) 0 ++
    (List.range 8).map (fun i => BitVec.ofNat 8 (n / 256 ^ (7 - i)))

def sha256 (bs : List Byte) : BitVec 256 :=
  let p := Sha.pad bs
  let s := Sha.blocks (p.length / 64) p Sha.init
  (s.a ++ s.b ++ s.c ++ s.d ++ s.e ++ s.f ++ s.g ++ s.h : BitVec 256)

/-- The hash of the code and data sections of the four cycle cores, core by core (R253). -/
def ProgramImage.secHash (p : ProgramImage) : BitVec 256 :=
  sha256 ((p.cores.take 4).flatMap (fun c => c.code ++ c.data))

end Sys2Proof.Machine
end

