-- ==== Sys2Proof/Machine/Budget.lean ====
section
/-! DEFINITION. The timing budget: staged timing values, the budget check, the map check and the fabric rota (R28, R30,
R43 to R50, R132, R158). -/

namespace Sys2Proof.Machine

/-! ### Staged timing values (R30, R49) -/

/-- P is legal by R30. -/
def periodLegal (n : Nat) : Bool := decide (2500 ≤ n ∧ n ≤ 25000) && 500000000 % n == 0

/-- The timing values of a check: staged, or in force where none is staged. -/
def stagedPeriod (s : State) : Nat := s.esc.staged.period.getD (periodTicks s)
def stagedLead (s : State) : Nat := s.esc.staged.lead.getD (fget s Fld.ESC_LEAD_LEAD)
def stagedRefpt (s : State) : Nat := s.esc.staged.refpt.getD (fget s Fld.ESC_REFPT_REFPT)
def stagedRepair (s : State) : Nat := s.esc.staged.repair.getD (fget s Fld.ESC_REPAIR_REPAIR)

/-- The registers of R49. -/
def isTiming (a : Nat) : Bool := [Reg.ESC_PERIOD, Reg.ESC_LEAD, Reg.ESC_REFPT, Reg.ESC_REPAIR].contains a

/-- The range that a timing register states. -/
def timingLegal (s : State) (a v : Nat) : Bool :=
  if a = Reg.ESC_PERIOD then periodLegal v
  else if a = Reg.ESC_REFPT then decide (500 ≤ v ∧ v + 500 ≤ stagedPeriod s)
  else decide (100 ≤ v ∧ v ≤ 2500)

/-- The field that a write to a timing register carries. -/
def timingValue (a : Nat) (v : Word) : Nat :=
  if a = Reg.ESC_PERIOD ∨ a = Reg.ESC_REFPT then fieldGet v 14 0 else fieldGet v 11 0

def stageTiming (a v : Nat) (s : State) : State :=
  let g := s.esc.staged
  let g := if a = Reg.ESC_PERIOD then { g with period := some v }
    else if a = Reg.ESC_LEAD then { g with lead := some v }
    else if a = Reg.ESC_REFPT then { g with refpt := some v }
    else { g with repair := some v }
  voidCheck { s with esc := { s.esc with staged := g } }

/-- R49: a write of a timing register is checked at once and staged. -/
def escTiming (o : Origin) (a : Nat) (v : Word) (s : State) : State × Status :=
  if isTiming a then
    checkWrite a o [(roleOrCore .operator o, .notPermitted), (s.sys.mode == .commission, .illegalInMode),
      (timingLegal s a (timingValue a v), .badParam)] (stageTiming a (timingValue a v)) s
  else (s, .ok)

def execEscTimingRegisterWrite (o : Origin) (addr : Word) (val : Word) (s : State) : Host.Outcome State Fault Refusal :=
  .next (escTiming o addr.toNat val s).1

/-! ### The check (R28, R43 to R48) -/

/-- N_max(P) of R28. -/
def cellMax (p : Nat) : Nat := if 4000 ≤ p then 4096 else 2048 + 2048 * (p - 2500) / 1500

/-- The longest lap of all mapped chain ends, 0.1 ns. -/
def longestLap (laps : List (Nat × Nat)) : Nat := laps.foldl (fun m e => max m e.2) 0

/-- D of R43, in ticks, for a longest lap in 0.1 ns. -/
def applyFor (lap : Nat) : Nat := (lap + 5000 + 999) / 1000 * 50

/-- Rota lengths of R47, in ticks. -/
def confTicks (s : State) : Nat := rounds s * 40
def specTicks (s : State) : Nat := rounds s * 450

/-- The terms that a check uses now. -/
def termsNow (s : State) : Terms :=
  let laps := (mappedPorts s).map (fun p => (p, lapOf s p))
  { period := stagedPeriod s, apply := applyFor (longestLap laps), lead := stagedLead s, refpt := stagedRefpt s,
    repair := stagedRepair s, laps := laps }

/-- What condition 7 leaves of the period, in 0.1 ns; negative when it fails. -/
def budgetSlack (s : State) (t : Terms) : Int :=
  20 * (t.period : Int) - 20 * Config.cutTicks -
    (max (20 * (t.refpt + specTicks s)) (longestLap t.laps) + 20 * (confTicks s + t.repair) : Nat)

/-- The conditions of R46 in order. -/
def budgetConditions (s : State) (t : Terms) : List (Nat × Bool) :=
  let p := t.period
  let c := s.sys.prog.cert
  [(1, periodLegal p),
   (2, decide (s.sys.comm.cells.length ≤ cellMax p)),
   (3, decide (t.apply ≤ p)),
   (4, decide (t.lead + 500 ≤ p ∧ 100 ≤ t.lead ∧ t.lead ≤ 2500 ∧ t.refpt + 500 ≤ p)),
   (5, decide (c.wref ≤ t.refpt)),
   (6, decide (t.refpt + specTicks s + Config.cutTicks + confTicks s + t.repair ≤ p)),
   (7, decide (0 ≤ budgetSlack s t)),
   (8, decide (c.wtot + Config.cutTicks ≤ p)),
   (9, c.imgHash == ProgramImage.secHash s.sys.prog && c.period == p && c.refpt == t.refpt)]

/-- Code of the first condition that fails; 0 when all pass. -/
def budgetFirstFail (s : State) (t : Terms) : Nat :=
  match (budgetConditions s t).find? (fun c => !c.2) with | some (n, _) => n | none => 0

/-! ### The map check and the rota (R132, R158) -/

def slotFirst (s : State) (w : Nat) : Nat := fget s (Fld.WHL_SLOTS_FIRST w)
def slotCount (s : State) (w : Nat) : Nat := fget s (Fld.WHL_SLOTS_COUNT w)

def slotsOverlap (s : State) (v w : Nat) : Bool :=
  decide (slotFirst s v < slotFirst s w + slotCount s w ∧ slotFirst s w < slotFirst s v + slotCount s v)

/-- The reason for which R132 refuses wheel `w`; 0 for none. -/
def mapReason (s : State) (w : Nat) : Nat :=
  if (List.range 12).any (fun v => v != w && decide (0 < slotCount s v ∧ 0 < slotCount s w) && slotsOverlap s v w) then 1
  else if 1024 < slotCount s w then 2
  else if 4096 < (List.range (w + 1)).foldl (fun n v => n + slotCount s v) 0 then 3
  else if wheelOn s w && !decide (fget s (Fld.WHL_COUNT_N_MIN w) ≤ fget s (Fld.WHL_COUNT_N_REQ w) ∧
      fget s (Fld.WHL_COUNT_N_REQ w) ≤ slotCount s w) then 4
  else 0

/-- R132: check the map, with the first failing wheel in WHL_MAP_STAT. -/
def mapCheck (s : State) : Bool × State :=
  match (List.range 12).find? (fun w => mapReason s w != 0) with
  | some w => (false, regSet Reg.WHL_MAP_STAT (BitVec.ofNat 32 (mapReason s w * 65536 + w * 4096 + Status.badParam.code)) s)
  | none => (true, regSet Reg.WHL_MAP_STAT 0 s)

/-- R158: the rota of the wheels in use, by the laps of the check. -/
def setRota (laps : Nat → Nat) (s : State) : State :=
  let order := wheelOrder laps s
  (List.range 12).foldl (fun s w =>
    let v := if wheelOn s w then
        let j := order.findIdx (fun x => x == w)
        256 + j % 4 * 16 + j / 4
      else 0
    regSet (Reg.WHL_ROTA w) (BitVec.ofNat 32 v) s) s

/-! ### The commands -/

/-- Write every term into the ESC_BUDGET registers, in whole ticks rounded down (R48). -/
def showBudget (t : Terms) (s : State) : State :=
  let c := s.sys.prog.cert
  let s := fset Fld.ESC_BUDGET_LAP_LAP (longestLap t.laps / 20) s
  let s := fset Fld.ESC_BUDGET_SPEC_SPEC (t.refpt + specTicks s) s
  let s := fset Fld.ESC_BUDGET_CONF_CONF (confTicks s) s
  let s := fset Fld.ESC_BUDGET_WREF_WREF c.wref s
  let s := fset Fld.ESC_BUDGET_WTOT_WTOT c.wtot s
  let s := regSet Reg.ESC_BUDGET_SLACK (BitVec.ofInt 32 ((budgetSlack s t).fdiv 20)) s
  fset Fld.ESC_BUDGET_NCELL_NMAX (cellMax t.period) (fset Fld.ESC_BUDGET_NCELL_NCELL s.sys.comm.cells.length s)

/-- ESC_CHECK.GO (R46): the terms are taken as they stand. -/
def escCheckGo (o : Origin) (s : State) : State × Status :=
  checkWrite Reg.ESC_CHECK o [(roleOrCore .operator o, .notPermitted), (s.sys.mode == .commission, .illegalInMode)]
    (fun s =>
      fset Fld.ESC_STATUS_CHECKING 1 (fset Fld.ESC_BUDGET_STAT_STATUS Status.busy.code
        { s with esc := { s.esc with checking := some (termsNow s), checkVoid := false } })) s

def execEscCheckGo (o : Origin) (s : State) : Host.Outcome State Fault Refusal := .next (escCheckGo o s).1

/-- R45: a chain set OUT for its lap is admitted by a check that returns OK with its measured lap among the laps it used. -/
def admitChains (laps : List (Nat × Nat)) (s : State) : State :=
  s.sys.comm.chains.foldl (fun s ch =>
    let ps := (ownEnds s).map (endPort ch)
    if ps.any (fun p => (port s p).lapOut) &&
        ps.all (fun p => (port s p).measured && laps.contains (p, lapOf s p)) then
      ps.foldl (fun s p => readmitPort p (setPort p { port s p with lapOut := false } s)) (clearCond 19 ch.num s)
    else s) s

/-- The check that runs ends (R46 to R48, R132, R158). It returns OK for R50 if the map stands and nothing that it used
has changed meanwhile. -/
def budgetDone (s : State) : State :=
  match s.esc.checking with
  | none => s
  | some t =>
    let s := fset Fld.ESC_STATUS_CHECKING 0 { s with esc := { s.esc with checking := none } }
    let s := showBudget t s
    let fail := budgetFirstFail s t
    let st := if fail = 0 then Status.ok else Status.tooLong
    let s := fset Fld.ESC_BUDGET_STAT_FIRST_FAIL fail (fset Fld.ESC_BUDGET_STAT_STATUS st.code s)
    let (mapOk, s) := mapCheck s
    let ok := fail == 0 && mapOk && s.sys.mode == .commission
    let void := s.esc.checkVoid || lapsVoid t.laps s
    let s := { s with esc := { s.esc with
        checkOk := ok && !void, checkVoid := false, usedLaps := if ok then t.laps else s.esc.usedLaps } }
    if ok then
      admitChains t.laps (setRota (lapIn t.laps s) { s with esc := { s.esc with accepted := some t } })
    else s

def execBudgetCheckDone (s : State) : Host.Outcome State Fault Refusal := .next (budgetDone s)

end Sys2Proof.Machine
end

