-- ==== Sys2Proof/Machine/ModeReq.lean ====
section
/-! DEFINITION. Mode requests, their adoption, the automatic transitions and the standby's following (R361, R448 to R456). -/

namespace Sys2Proof.Machine

/-! ### The check of R361 -/

/-- L_fold (R361) of a port's end, 0.1 ns: a frame folded at the mapped cell farthest from it, by measured figures where
the end has been swept to it. -/
def foldLap01 (s : State) (p : Nat) (ch : ChainMap) : Nat :=
  let n := ch.n
  let far := if n ≤ (port s p).reached ∧ (port s p).swept then
      2 * tallyTo s p (n - 1) + fget s (Fld.RING_CELL_TURN p (n - 1)) + 2 * phiAt s p (n - 1)
    else (2 * n - 1) * 480 + 2 * ch.fibreM * 50
  serial01 n + far + 1000

/-- The conditions of R361 in order, by code. -/
def pairChecks (s : State) : List (Nat × Bool) :=
  let l := fget s Fld.BTN_CFG_LEASE + 20
  let p := periodTicks s
  let d := applyTicks s
  let coast := (s.sys.comm.params.getD 0 300).toNat
  [(1, lanesUp s == 2 && decide (fget s Fld.MIR_STATUS_LAT ≤ 1200)),
   (2, decide (5 * p + d + fget s Fld.ESC_LEAD_LEAD + 50 ≤ usTicks l)),
   (3, decide (usTicks l + 2 * p < usTicks coast)),
   (4, (mappedPorts s).all (fun q => match portChain s q with
      | some (ch, _) => decide (foldLap01 s q ch + 20 * (Config.cutTicks + fget s Fld.ESC_REPAIR_REPAIR + confTicks s) ≤ 20 * p)
      | none => true)),
   (5, s.btn.twinImages == some (imagesOf s)),
   (6, decide (fget s Fld.ESC_REFPT_REFPT + 700 ≤ p))]

/-- R361: run the check, with its result in BTN_CHECK_STAT. -/
def pairCheck (s : State) : Bool × State :=
  match (pairChecks s).find? (fun c => !c.2) with
  | some (code, _) =>
    (false, fset Fld.BTN_CHECK_STAT_FIRST_FAIL code (fset Fld.BTN_CHECK_STAT_STATUS Status.checkFail.code s))
  | none => (true, fset Fld.BTN_CHECK_STAT_FIRST_FAIL 0 (fset Fld.BTN_CHECK_STAT_STATUS 0 s))

/-! ### Requests (R356, R451, R453, R454) -/

/-- The modes from which a request for `m` is legal (R451). -/
def requestFrom (m : Mode) : List Mode :=
  match m with
  | .commission => [.charge, .ready]
  | .charge => [.commission]
  | .ready => [.run]
  | .run => [.ready]
  | _ => []

/-- Who may ask for a mode (R451). -/
def mayRequest (m : Mode) (o : Origin) : Bool :=
  match m with
  | .commission => roleAtLeast .engineer o
  | .ready => roleOrCore .operator o
  | _ => roleAtLeast .operator o

/-- The checks made when a request comes (R356, R451, R454, R457). A request for READY replaces a waiting one in every
mode; the boundary then decides it (log entry 79). -/
def modeChecks (o : Origin) (m : Mode) (s : State) : List (Bool × Status) :=
  [(mayRequest m o, .notPermitted), (s.sys.role != .standby, .notHolder),
   ((requestFrom m).contains s.sys.mode || (m == .ready && s.sys.waiting.isSome), .illegalInMode),
   (m == .ready || (s.sys.waiting.isNone && s.btn.ho.isNone), .busy)]

/-- Take a request: it waits for its boundary; a request for READY replaces one that waits (R454). -/
def takeMode (c : Caller) (m : Mode) (s : State) : State :=
  let s := endWaiting .refused s
  { s with sys := { s.sys with waiting := some ⟨m, s.time.cnt, c⟩ } }

/-- The first check that fails. -/
def firstFail (cs : List (Bool × Status)) : Option Status := (cs.find? (fun c => !c.1)).map (fun c => c.2)

/-- A request written to SYS_MODE_REQ. -/
def modeWrite (o : Origin) (m : Mode) (s : State) : State × Status :=
  match firstFail (modeChecks o m s) with
  | some st => (fset Fld.SYS_MODE_STAT_STATUS st.code (refuseWrite Reg.SYS_MODE_REQ st o s).1, st)
  | none => (regSet Reg.SYS_MODE_REQ (BitVec.ofNat 32 m.code) (takeMode (.reg o) m s), .ok)

/-- The HMP command MODE_REQ: its refusals follow the same order, and its answer comes at the adoption. -/
def modeCommand (r : Req) (m : Mode) (s : State) : State :=
  hmpRun r ⟨cmdModeReq, .viewer, false, false, allModes⟩ (fun x s =>
    match firstFail (modeChecks (.hmp x.role x.num) m s) with
    | some st => (fset Fld.SYS_MODE_STAT_STATUS st.code s, some (st, []))
    | none => (takeMode (.req r) m s, none)) s

def modeRequest (c : Caller) (m : Mode) (s : State) : State :=
  match c with
  | .req r => modeCommand r m s
  | .reg o => (modeWrite o m s).1

def execModeReqCommission (c : Caller) (s : State) : Host.Outcome State Fault Refusal := .next (modeRequest c .commission s)
def execModeReqCharge (c : Caller) (s : State) : Host.Outcome State Fault Refusal := .next (modeRequest c .charge s)
def execModeReqReady (c : Caller) (s : State) : Host.Outcome State Fault Refusal := .next (modeRequest c .ready s)
def execModeReqRun (c : Caller) (s : State) : Host.Outcome State Fault Refusal := .next (modeRequest c .run s)

/-! ### Adoption -/

/-- The conditions of R451 at the adopting boundary. -/
def modeConditions (m : Mode) (s : State) : Option Status × State :=
  if !(requestFrom m).contains s.sys.mode then (some .illegalInMode, s)
  else match m with
  | .charge =>
    let (ok, s) := if inPair s then (if s.esc.checkOk then pairCheck s else (true, s)) else (true, s)
    (if !s.esc.checkOk || !ok || s.saf.block.id == 0 then some .checkFail else none, s)
  | .run =>
    (if s.sys.role == .standby then some .notHolder
     else if blockw s != 0xA5 then some .checkFail
     else if fbit s Fld.FAD_STATUS_FGCAL then some .busy
     else none, s)
  | _ => (none, s)

/-- R455: may a standby that follows enter `m`? -/
def mayFollow (m : Mode) (s : State) : Bool :=
  [Mode.commission, .charge, .ready, .run].contains s.sys.mode &&
    match m with
    | .commission => true
    | .charge => s.sys.mode != .commission || s.esc.checkOk
    | .ready => s.sys.mode != .commission || s.esc.checkOk
    | .run => (s.sys.mode != .commission || s.esc.checkOk) && blockw s == 0xA5 && !fbit s Fld.FAD_STATUS_FGCAL
    | _ => false

/-- R455: a STANDBY unit follows the holder's mode. -/
def followHolder (s : State) : State :=
  match s.btn.follow with
  | none => s
  | some (m, at_) =>
    if !ripe s at_ then s
    else
      let s := { s with btn := { s.btn with follow := none } }
      if s.sys.role = .standby ∧ m ≠ s.sys.mode ∧ mayFollow m s = true then enterMode m s else s

/-- A condition of R452 has held for the 20 ms of R451. -/
def held20ms (s : State) (since : Option Nat) : Bool :=
  match since with | some t => decide (t + msTicks 20 ≤ s.time.cnt) | none => false

/-- R451: READY to CHARGE. -/
def readinessLost (s : State) : State :=
  if s.sys.mode = .ready ∧ s.sys.role ≠ .standby ∧ held20ms s s.sys.notReadyAt then enterMode .charge s else s

/-- R453, R454: the waiting request at a cycle boundary; a loss of readiness comes before a request for RUN. -/
def adoptMode (s : State) : State :=
  match s.sys.waiting with
  | none => followHolder s
  | some q =>
    if !ripe s q.at_ then s
    else match modeConditions q.target (if q.target = .run then readinessLost s else s) with
    | (some st, s) => endWaiting st s
    | (none, s) => endWaiting .ok (enterMode q.target s)

/-! ### Readiness (R452) -/

/-- The module is ready. -/
def moduleReady (s : State) : Bool :=
  (wheelsOn s).all (fun w =>
    decide (fget s (Fld.WHL_COUNT_N_REQ w) ≤ fget s (Fld.WHL_POOL_N_AVAIL w)) &&
    (wheelSlots s w).all (fun i => lastPool s i != Pool.available ||
      decide (fget s Fld.SYS_RDY_VLO_V ≤ rptVcap (cell s i).lastRpt ∧ rptVcap (cell s i).lastRpt ≤ fget s Fld.SYS_RDY_VHI_V)))

/-- R452: at each cell table publication, since when readiness holds or fails. -/
def noteReadiness (s : State) : State :=
  if moduleReady s then
    { s with sys := { s.sys with readyAt := some (s.sys.readyAt.getD s.time.cnt), notReadyAt := none } }
  else { s with sys := { s.sys with readyAt := none, notReadyAt := some (s.sys.notReadyAt.getD s.time.cnt) } }

/-- R451, R454, R455: CHARGE to READY; a request for COMMISSION that waits governs. -/
def readinessReached (s : State) : State :=
  let asked := match s.sys.waiting with | some q => q.target == .commission | none => false
  if s.sys.mode = .charge ∧ s.sys.role ≠ .standby ∧ held20ms s s.sys.readyAt ∧ !asked then enterMode .ready s else s

def execReadinessReached (s : State) : Host.Outcome State Fault Refusal := .next (readinessReached s)

def execReadinessLost (s : State) : Host.Outcome State Fault Refusal := .next (readinessLost s)

end Sys2Proof.Machine
end

