-- ==== Sys2Proof/Machine/Regs.lean ====
section
/-! DEFINITION. Reads of block registers (R5 to R8, R13, R17, R468, R469, R484, R489) and the statistics banks (R464,
R465). -/

namespace Sys2Proof.Machine

/-! ### Registers that show state held elsewhere -/

/-- Ports of the map in one of some states. -/
def portsIn (s : State) (sts : List Nat) : Nat := ((mappedPorts s).filter (fun p => sts.contains (portState s p))).length

/-- Mapped positions with an outcome. -/
def positionsWith (s : State) (o : Nat) : Nat := (s.sys.comm.cells.filter (fun m => outcomeOf s m == o)).length

/-- The RING registers that count what is so now, shown at each boundary. -/
def showRing (s : State) : State :=
  let sw := (mappedPorts s).any (fun p => (port s p).sweep.isSome)
  let st := boolNat sw * 2 ^ 24 + portsIn s [PState.out] % 256 * 2 ^ 16 +
    portsIn s [PState.folded, PState.healing] % 256 * 2 ^ 8 + portsIn s [PState.inService] % 256
  regSet Reg.RING_STATUS (BitVec.ofNat 32 st)
    (regSet Reg.RING_FOREIGN_CNT (BitVec.ofNat 32 (positionsWith s Outcome.foreign))
      (regSet Reg.RING_ABSENT_CNT (BitVec.ofNat 32 (positionsWith s Outcome.absent)) s))

def flashKind (s : State) : ImageKind → FlashKind
  | .firmware => s.sys.firmware | .program => s.sys.program | .commission => s.sys.commission

def imageKinds : List ImageKind := [.firmware, .program, .commission]

/-- SYS_IMG: LOADABLE and ACTIVE show the flash devices from BOOT on, FALLBACK is kept. -/
def showImages (s : State) : State :=
  let load := imageKinds.foldl (fun m k => m + (boolNat (flashKind s k).slotA.loadable +
    2 * boolNat (flashKind s k).slotB.loadable) * 4 ^ k.code) 0
  let act := imageKinds.foldl (fun m k => m + boolNat (flashKind s k).bActive * 2 ^ k.code) 0
  fset Fld.SYS_IMG_LOADABLE load (fset Fld.SYS_IMG_ACTIVE act s)

def sysModeWord (s : State) : Word :=
  BitVec.ofNat 32 (boolNat s.sys.waiting.isSome * 2 ^ 11 + s.sys.mode.code * 2 ^ 8 + s.sys.role.code * 16)

def btnStatusWord (s : State) : Word :=
  BitVec.ofNat 32 (fget s Fld.BTN_STATUS_SILENT * 128 + fget s Fld.BTN_STATUS_AGE_EVID * 64 + boolNat (leaseOk s) * 32 +
    fget s Fld.BTN_STATUS_HO_PENDING * 16 + boolNat (btnReady s) * 8 + s.sys.role.code)

/-- µs until lease expiry; 0 when none. -/
def leaseLeft (s : State) : Nat := match s.btn.leaseEnd with | some e => min 65535 ((e - s.time.cnt) / 500) | none => 0

/-- SCH_CORE_c. -/
def schCoreWord (s : State) (c : Nat) : Word :=
  let cur := Store.get (fun _ => none) s.sch.cur c
  let n := (s.sch.ready.filter (fun e => Store.get (fun f => f % 4) s.sch.pref e.flow == c)).length
  BitVec.ofNat 32 (boolNat cur.isSome * 2 ^ 31 + n % 2048 * 2 ^ 16 + (match cur with | some e => e.flow % 65536 | none => 0))

def schOccWord (s : State) (lo : Nat) : Word :=
  BitVec.ofNat 32 (Sched.classCount (lo + 1) s.sch.ready * 2 ^ 16 + Sched.classCount lo s.sch.ready)

/-- The value of a register as it is now. -/
def regNow (s : State) (a : Nat) : Word :=
  let t := timeAt s s.time.cnt
  if a = Reg.SYS_MODE then sysModeWord s
  else if a = Reg.TIM_RATE then BitVec.ofInt 32 s.time.epoch.rate
  else if a = Reg.TIM_NOW_0 then splitNs (splitOf t)
  else if a = Reg.TIM_NOW_1 then splitLo (splitOf t)
  else if a = Reg.TIM_NOW_2 then BitVec.ofNat 32 (t % 65536 * 65536 + splitHi (splitOf t))
  else if a = Reg.TIM_CNT_0 then BitVec.ofNat 32 s.time.cnt
  else if a = Reg.TIM_CNT_1 then BitVec.ofNat 32 (s.time.cnt / 2 ^ 32)
  else if a = Reg.TIM_EPOCH_0 then BitVec.ofNat 32 s.time.epoch.ce
  else if a = Reg.TIM_EPOCH_1 then BitVec.ofNat 32 (s.time.epoch.ce / 2 ^ 32)
  else if a = Reg.SCH_OCC_0 then schOccWord s 0
  else if a = Reg.SCH_OCC_1 then schOccWord s 2
  else if a = Reg.SCH_STATUS then
    BitVec.ofNat 32 (min 65535 s.sch.held.length * 65536 + fget s Fld.SCH_STATUS_C0_HELD)
  else if Reg.SCH_CORE 0 ≤ a ∧ a ≤ Reg.SCH_CORE 3 then schCoreWord s ((a - Reg.SCH_CORE 0) / 4)
  else if a = Reg.FCO_ACTIVE_0 then BitVec.ofNat 32 (activeWord s 0)
  else if a = Reg.FCO_ACTIVE_1 then BitVec.ofNat 32 (activeWord s 1)
  else if a = Reg.BTN_STATUS then btnStatusWord s
  else if a = Reg.BTN_LEASE_LEFT then BitVec.ofNat 32 (leaseLeft s)
  else match safView s a with
  | some w => w
  | none => regGet s a

/-! ### Reads -/

/-- The registers whose writes are parameter-block writes, and whose reads are reads of a snapshot (R13): the control and
data planes' blocks, and the subscription and stream entries of block ETH. -/
def snapshotReg (a : Nat) : Bool :=
  let b := a / 0x10000
  [0x4002, 0x4003, 0x4004, 0x4005, 0x4006, 0x4007, 0x4008, 0x4009, 0x400F, 0x4010].contains b ||
    decide (0x400B4000 ≤ a ∧ a < 0x400B5000) || decide (0x400B6000 ≤ a ∧ a < 0x400B7000)

/-- Publish the snapshot of R13 at a cycle boundary. -/
def publishRegs (s : State) : State :=
  let s := showRing s
  { s with pub := s.regs.filter (fun e => snapshotReg e.1) }

/-- What a read of a register shows: the published value or the present one, without its write-only bits (R7). -/
def regShown (s : State) (d : RegDesc) (a : Nat) : Word :=
  let v := if snapshotReg a then Store.get regReset s.pub a else regNow s a
  v &&& ~~~(BitVec.ofNat 32 d.wo)

/-- The address of the register selected by STAT_BANK_SEL_m, if it is a statistics counter (R489). -/
def bankSelected (s : State) (m : Nat) : Option Nat :=
  let a := 0x40000000 + fget s (Fld.STAT_BANK_SEL_BLOCK m) * 0x10000 + fget s (Fld.STAT_BANK_SEL_OFFSET m)
  match regDesc a with
  | some d => if d.stat then some a else none
  | none => none

def bankGet (s : State) (a : Nat) : Word := Store.get (fun _ => 0) s.bank a

/-- R489: a read of STAT_BANK_VAL_m. -/
def bankValRead (m : Nat) (s : State) : Word × State :=
  let n := fget s Fld.STAT_BANK_STAT_NOT_COUNTER
  match bankSelected s m with
  | some a =>
    let v := bankGet s a
    (v, regSet (Reg.STAT_BANK_VAL m) v (fset Fld.STAT_BANK_STAT_NOT_COUNTER (setBit n m false) s))
  | none => (0, regSet (Reg.STAT_BANK_VAL m) 0 (fset Fld.STAT_BANK_STAT_NOT_COUNTER (setBit n m true) s))

def execStatBankValRead (m : Fin 4) (s : State) : Host.Outcome State Fault Refusal := .next (bankValRead m.val s).2

/-- The master of a reader (log entry 10). -/
def readerMaster : Reader → Nat
  | .core c => c.val | .session _ => 0x35

/-- Latch the higher halves of a value whose low half is read (R7, R8). -/
def latchHalves (rd : Reader) (d : RegDesc) (a : Nat) (s : State) : State :=
  (List.range d.rs).foldl (fun s i => latchPut rd (a + 4 * (i + 1)) (regShown s d (a + 4 * (i + 1))) s) s

/-- Read one block register (R5, R7, R8, R469). -/
def readReg (rd : Reader) (a : Nat) (s : State) : Word × State :=
  if a % 4 ≠ 0 then (0, occur (detect 30 a (readerMaster rd) Acc.regRead) s)
  else match regDesc a with
  | none => (0, occur (detect 30 a (readerMaster rd) Acc.regRead) s)
  | some d =>
    let stamp := decide (0x400B1000 ≤ a ∧ a < 0x400B1400) && a % 0x100 == 0x10
    if stamp then txtsRead rd ((a - 0x400B1000) / 0x100) s
    else if 0x40120020 ≤ a ∧ a < 0x40120040 ∧ a % 8 = 4 then bankValRead ((a - 0x40120020) / 8) s
    else if d.rc then (regShown s d a, hkaResRead ((a - Reg.HKA_INJ_RES 0) / 4) s)
    else if d.up ≠ 0 then (latchGet rd a s, s)
    else (regShown s d a, latchHalves rd d a s)

/-- A read of `n` registers in ascending order (R484). -/
def readRegs (rd : Reader) (a : Nat) : Nat → State → List Word × State
  | 0, s => ([], s)
  | n + 1, s =>
    let (w, s) := readReg rd a s
    let (ws, s) := readRegs rd (a + 4) n s
    (w :: ws, s)

/-- R490: read bank values, and 0 for what is no statistics counter. -/
def bankRead (s : State) (a : Nat) : Word :=
  match regDesc a with
  | some d => if d.stat then bankGet s a else 0
  | none => 0

/-! ### Statistics periods (R464, R465) -/

/-- The seconds of a period code. -/
def periodSeconds (c : Nat) : Nat := match c with | 0 => 1 | 1 => 10 | 2 => 60 | _ => 900

def statAddr (a : Nat) : Bool := match regDesc a with | some d => d.stat | none => false

/-- The largest values of a statistics period, LOOP_TUPD and MIR_BUDGET.PEAK, start anew with it. -/
def restartMaxima (s : State) : State :=
  (List.range 8).foldl (fun s e => fset (Fld.LOOP_TUPD_TUPD e) 0 s) (fset Fld.MIR_BUDGET_PEAK 0 s)

/-- A boundary of the statistics period (R464): at a second of corrected time divisible by the period, later than the last
latched one. Counters not listed in the store are zero, and so is their bank. -/
def statBoundary (s : State) : State :=
  let sec := (nowSplit s).sec
  let p := periodSeconds (fget s Fld.STAT_PERIOD_PERIOD)
  let due := s.sys.statPartial || sec % p == 0
  let bound := sec / p * p
  let later := match s.sys.statSec with | some l => decide (l < bound) | none => true
  if !due || !later then s
  else
    let idx := sec / p
    let s := { s with
      bank := s.regs.filter (fun e => statAddr e.1)
      regs := s.regs.filter (fun e => !statAddr e.1) }
    let s := restartMaxima s
    let s := fset Fld.STAT_STATUS_PARTIAL (boolNat s.sys.statPartial) s
    let s := regSet Reg.STAT_INDEX_0 (BitVec.ofNat 32 idx) (regSet Reg.STAT_INDEX_1 (BitVec.ofNat 32 (idx / 2 ^ 32 % 65536)) s)
    let s := setSplitRegs Reg.STAT_BOUND_T_0 ⟨bound, 0⟩ s
    { s with sys := { s.sys with statSec := some bound, statPartial := false, statPeriod := fget s Fld.STAT_PERIOD_PERIOD } }

def execStatBoundary (s : State) : Host.Outcome State Fault Refusal := .next (statBoundary s)

/-- R465: the new period takes effect at its next boundary, whose latch is PARTIAL. -/
def statPeriodWrite (o : Origin) (val : Word) (s : State) : State × Status :=
  checkWrite Reg.STAT_PERIOD o [(roleOrCore .operator o, .notPermitted), (s.sys.mode != .boot, .illegalInMode)]
    (fun s => fset Fld.STAT_PERIOD_PERIOD (fieldGet val 1 0) { s with sys := { s.sys with statPartial := true } }) s

def execStatPeriodWrite (o : Origin) (val : Word) (s : State) : Host.Outcome State Fault Refusal :=
  .next (statPeriodWrite o val s).1

end Sys2Proof.Machine
end

