-- ==== Sys2Proof/Machine/Writes.lean ====
section
/-! DEFINITION. Writes of block registers (R7, R13, R15, R16, R457, R469, the register tables of ch. 2 to 20): what a
write is checked for, whether it waits for a cycle boundary, and what it does when it takes effect. -/

namespace Sys2Proof.Machine

/-- The number of a block (R468) and the offset of a register in it. -/
def blockOf (a : Nat) : Nat := a / 0x10000 % 0x4000
def offOf (a : Nat) : Nat := a % 0x10000

/-- A register after a write: RW bits take the value, W1C bits written 1 are cleared, every other bit stays (R7). -/
def mergeWrite (d : RegDesc) (old v : Word) : Word :=
  let rw := BitVec.ofNat 32 d.rw
  ((old &&& ~~~rw) ||| (v &&& rw)) &&& ~~~(v &&& BitVec.ofNat 32 d.w1c)

/-- Write a register with no effect of its own. -/
def plainWrite (a : Nat) (v : Word) (s : State) : State :=
  match regDesc a with
  | some d => regSet a (mergeWrite d (regGet s a) v) s
  | none => s

/-- Two half-open ranges meet. -/
def meets (a0 a1 b0 b1 : Nat) : Bool := decide (a0 < b1 ∧ b0 < a1)

/-- A range of DRAM, in bytes from its start, meets a chronograph segment. -/
def meetsSegment (s : State) (lo hi : Nat) : Bool :=
  (List.range 16).any (fun g =>
    let w := latest s (Reg.CHR_SEG g)
    let b := fieldGet w 13 0 * 2 ^ 20
    fieldGet w 31 16 != 0 && meets lo hi b (b + fieldGet w 31 16 * 2 ^ 20))

/-- A range of DRAM, in bytes from its start, lies in the event cores' own region. -/
def ownRange (s : State) (lo n : Nat) : Bool := inOwnRegion s (Config.dramBase + lo) n

/-! ### User parameter blocks (R248, R488) -/

def upbStaging (b : Nat) : Nat := Config.scmBase + 0x60000 + 4096 * b
def upbLive (b : Nat) : Nat := Config.scmBase + 0x40000 + 4096 * b

/-- SYS_UPB_STAT: identifier, block and status of the last commit decided. -/
def upbStat (id b : Nat) (st : Status) (s : State) : State :=
  regSet Reg.SYS_UPB_STAT (BitVec.ofNat 32 (id * 65536 + b * 4096 + st.code)) s

/-- R488: a write of SYS_UPB_COMMIT; COMMIT takes the staging words as they stand. -/
def upbCommit (o : Origin) (v : Word) (s : State) : State × Status :=
  let id := fieldGet v 31 16
  let b := fieldGet v 14 11
  let len := fieldGet v 10 0
  let (s, st) := checkWrite Reg.SYS_UPB_COMMIT o
    [(roleOrCore .operator o, .notPermitted), (s.sys.mode != .boot, .illegalInMode),
     (!v.getLsbD 15 || decide (2 ≤ len ∧ len ≤ s.sys.prog.upb.getD b 0), .badParam)]
    (fun s =>
      let s := plainWrite Reg.SYS_UPB_COMMIT v s
      if v.getLsbD 15 then
        let words := (List.range (len - 2)).map (fun i => memReadWord s (upbStaging b + 8 + 4 * i))
        let s := match Store.get (fun _ => none) s.sys.upb b with
          | some _ => bump Reg.SYS_UPB_SUPER_CNT s
          | none => s
        { s with sys := { s.sys with upb := Store.set (fun _ => none) s.sys.upb b (some (id, words, s.time.cnt)) } }
      else s) s
  (if st = .badParam then upbStat id b .badParam s else s, st)

def execSysUpbCommit (o : Origin) (val : Word) (s : State) : Host.Outcome State Fault Refusal := .next (upbCommit o val s).1

/-- Adoption of the pending copies at a boundary, which writes live words 0 and 1 itself (R248, R488). -/
def adoptUpb (s : State) : State :=
  (List.range 16).foldl (fun s b =>
    match Store.get (fun _ => none) s.sys.upb b with
    | none => s
    | some (id, words, at_) =>
      if ripe s at_ then
        let head := [BitVec.ofNat 32 (id * 65536 + (words.length + 2)), cycleNo s]
        let s := putBytes (upbLive b) (wordsBytes (head ++ words)) s
        upbStat id b .ok { s with sys := { s.sys with
            upb := Store.set (fun _ => none) s.sys.upb b none
            blockIds := Store.set (fun _ => 0) s.sys.blockIds b (BitVec.ofNat 32 id) } }
      else s) s

/-! ### Checks of the registers without a command of their own -/

/-- Range of a RING register. -/
def ringLegal (a : Nat) (v : Word) : Bool :=
  if a = Reg.RING_HEAL_HOLD then decide (100 ≤ fieldGet v 15 0 ∧ fieldGet v 15 0 ≤ 60000)
  else if a = Reg.RING_SVC_CTRL then
    decide (4 ≤ fieldGet v 15 8 ∧ fieldGet v 15 8 ≤ 255 ∧ 1 ≤ fieldGet v 3 0 ∧ fieldGet v 3 0 ≤ 8)
  else true

/-- Range of a wheel register, by its offset in the wheel's 256 bytes (ch. 5). -/
def wheelLegal (off : Nat) (v : Word) : Bool :=
  match off with
  | 0x04 => decide (fieldGet v 10 0 ≤ 1024)
  | 0x10 => decide (1 ≤ fieldGet v 26 16 ∧ fieldGet v 26 16 ≤ 2000 ∧ 1 ≤ fieldGet v 6 0 ∧ fieldGet v 6 0 ≤ 64)
  | 0x14 => decide (1 ≤ fieldGet v 31 24 ∧ 63 ≤ fieldGet v 9 0 ∧ fieldGet v 9 0 ≤ 625)
  | 0x18 => fle 0 v && fle v 0x447A0000
  | 0x1C => decide (fieldGet v 11 8 ≤ 1)
  | 0x20 => decide (fieldGet v 4 0 ≤ 23)
  | 0x2C => decide (1 ≤ fieldGet v 5 0)
  | _ => true

/-- Range of an HKA register. -/
def hkaLegal (s : State) (a : Nat) (v : Word) : Bool :=
  let base := fieldGet (if a = Reg.HKA_BUF_BASE then v else latest s Reg.HKA_BUF_BASE) 23 0
  let size := fieldGet (if a = Reg.HKA_BUF_CFG then v else latest s Reg.HKA_BUF_CFG) 4 0
  if a = Reg.HKA_TIMER then decide (10 ≤ fieldGet v 19 0 ∧ fieldGet v 19 0 ≤ 1000000)
  else if a = Reg.HKA_ESCDIV then decide (1 ≤ fieldGet v 15 0)
  else if a = Reg.HKA_BUF_BASE then ownRange s (base * 1024) (4 * 2 ^ size)
  else if a = Reg.HKA_BUF_CFG then decide (8 ≤ size ∧ size ≤ 18) && ownRange s (base * 1024) (4 * 2 ^ size)
  else true

/-- Range of an event scheduler register. -/
def schLegal (s : State) (a : Nat) (v : Word) : Bool :=
  if a = Reg.SCH_CTRL then decide (1 ≤ fieldGet v 15 8)
  else if a = Reg.SCH_CAP then decide (fieldGet v 9 0 ≤ 896)
  else if Reg.SCH_TIM_PER 0 ≤ a ∧ a ≤ Reg.SCH_TIM_PER 15 ∧ (a - Reg.SCH_TIM_PER 0) % 8 = 0 then
    decide (10 ≤ v.toNat ∧ v.toNat ≤ 1000000000)
  else if a = Reg.SCH_REF_BASE then ownRange s (fieldGet v 23 0 * 1024) (256 * 32)
  else if a = Reg.SCH_TRC_BASE then
    let lo := fieldGet v 13 0 * mib
    let wt := fieldGet (latest s Reg.WHL_TRC_BASE) 13 0 * mib
    !meetsSegment s lo (lo + 8 * 65536) && !meets lo (lo + 8 * 65536) wt (wt + 16 * 65536)
  else true

/-- Range of a SYS register. -/
def sysLegal (s : State) (a : Nat) (v : Word) : Bool :=
  if a = Reg.SYS_EVT_RGN then
    let lo := fieldGet v 13 0 * mib
    let n := fieldGet v 31 16
    decide (1 ≤ n ∧ n ≤ 8192) && !meetsSegment s lo (lo + n * mib)
  else if Reg.SYS_DWIN 0 ≤ a ∧ a ≤ Reg.SYS_DWIN 3 then decide (fieldGet v 3 0 ≤ 14)
  else true

/-- Range of a TIM register. -/
def timLegal (a : Nat) (v : Word) : Bool :=
  if a = Reg.TIM_CTRL then fieldGet v 1 0 != 3
  else if a = Reg.TIM_SERVO then
    decide (1 ≤ fieldGet v 25 16 ∧ fieldGet v 25 16 ≤ 1000 ∧ 1 ≤ fieldGet v 15 0)
  else if a = Reg.TIM_HOLD then decide (1 ≤ fieldGet v 15 0)
  else if a = Reg.TIM_PPS then decide (10 ≤ fieldGet v 18 0 ∧ fieldGet v 18 0 ≤ 500000)
  else true

/-- Ports with PTP_EN; the station pair is one doubly attached clock (R335), but for PRP 0, where its ports are
independent (R344). -/
def ptpPorts (s : State) : Nat :=
  let on := fun n => fbit s (Fld.ETH_Pn_CFG_PTP_EN n)
  (if prpOn s then boolNat (on 0 || on 1) else boolNat (on 0) + boolNat (on 1)) + boolNat (on 2) + boolNat (on 3)

/-- Range of an ETH register. The PTP, stamp and launch registers of ETH-M do not exist. -/
def ethLegal (s : State) (a : Nat) (v : Word) : Bool :=
  let o := offOf a
  if a = Reg.ETH_PTP_CFG then v.getLsbD 6 || ptpPorts s == 1
  else if 0x1400 ≤ o ∧ o < 0x1500 then o == 0x1400 && fieldGet v 11 8 == 0 && fieldGet v 2 1 == 0
  else if 0x1000 ≤ o ∧ o < 0x1400 ∧ o % 0x100 = 0x08 then decide (fieldGet v 31 16 ≤ 1000 ∧ fieldGet v 15 0 ≤ 1000)
  else if 0x4000 ≤ o ∧ o < 0x5000 ∧ o % 0x20 = 0x10 then fieldGet v 25 24 != 3
  else if 0x5000 ≤ o ∧ o < 0x6000 ∧ o % 0x10 = 0 then decide (1 ≤ fieldGet v 15 8 ∧ fieldGet v 15 8 ≤ 100)
  else if 0x5000 ≤ o ∧ o < 0x6000 ∧ o % 0x10 = 4 then decide (100 ≤ fieldGet v 15 0 ∧ fieldGet v 15 0 ≤ 60000)
  else if 0x6000 ≤ o ∧ o < 0x7000 ∧ o % 0x20 = 0x10 then fieldGet v 28 27 != 3
  else true

/-- Range of a BTN register. -/
def btnLegal (a : Nat) (v : Word) : Bool :=
  if a = Reg.BTN_CFG then decide (20 ≤ fieldGet v 25 16 ∧ fieldGet v 25 16 ≤ 1000 ∧ 1 ≤ fieldGet v 11 8)
  else if a = Reg.BTN_START_HOLD then decide (fieldGet v 15 0 ≤ 60000)
  else if a = Reg.BTN_PBDIFF_MAX then decide (10 ≤ fieldGet v 15 0 ∧ fieldGet v 15 0 ≤ 60000)
  else true

/-- A statistics selection names an existing block and a word (register table of block STAT). -/
def statLegal (a : Nat) (v : Word) : Bool :=
  !(decide (0x40120020 ≤ a) && a % 8 == 0) || (decide (fieldGet v 28 24 ≤ 0x12) && fieldGet v 1 0 == 0)

/-- The checks of a register that takes a plain write (R457): role, mode, range, and the block's own. -/
def plainChecks (o : Origin) (a : Nat) (v : Word) (s : State) : List (Bool × Status) :=
  let op := (roleOrCore .operator o, Status.notPermitted)
  let eng := (roleAtLeast .engineer o, Status.notPermitted)
  let run := (s.sys.mode != .boot, Status.illegalInMode)
  let comm := (s.sys.mode == .commission, Status.illegalInMode)
  let off := offOf a
  match blockOf a with
  | 0x00 => [op, if a = Reg.SYS_EVT_RGN then comm else run, (sysLegal s a v, .badParam)]
  | 0x02 => [op, run, (a != Reg.ESC_CTRL || decide (fieldGet v 11 8 ≤ 8), .badParam),
      (a != Reg.ESC_STALE_MAX || fieldGet v 7 0 != 0, .badParam)]
  | 0x03 => [op, run, (ringLegal a v, .badParam)]
  | 0x04 =>
    if off < 0x100 then
      let lo := fieldGet v 13 0 * mib
      [op, (s.sys.mode != .boot && s.sys.mode != .lockout, .illegalInMode),
       (a != Reg.WHL_TRC_BASE || !meetsSegment s lo (lo + 16 * 65536), .badParam)]
    else [op, comm, (off ≥ 0x8000 || wheelLegal (off % 0x100) v, .badParam)]
  | 0x06 => op :: run :: (if 0x100 ≤ off then fadChecks s ((off - 0x100) / 0x20) ((off - 0x100) % 0x20) v else [])
  | 0x07 => [op, if a = Reg.HKA_MODE then comm else run, (hkaLegal s a v, .badParam)]
  | 0x0A => [op, run, (timLegal a v, .badParam)]
  | 0x0B => [if snapshotReg a then op else eng, run, (ethLegal s a v, .badParam)]
  | 0x0C => [eng, run, (schLegal s a v, .badParam)]
  | 0x0D => [eng, (a != Reg.FCO_EVT_WDT || decide (1 ≤ fieldGet v 15 0 ∧ fieldGet v 15 0 ≤ 60000), .badParam)]
  | 0x10 => [op, comm]
  | 0x11 => [op, if a = Reg.BTN_START_HOLD ∨ a = Reg.BTN_PBDIFF_MAX then run else comm, (btnLegal a v, .badParam)]
  | 0x12 => [op, run, (statLegal a v, .badParam)]
  | _ => [op, run]

/-! ### What a plain write does beside its register -/

/-- A new subscription entry has taken no frame yet (R345). -/
def dropSubscription (a : Nat) (s : State) : State :=
  let e := (a - 0x400B4000) / 0x20
  setGValid e false { s with eth := { s.eth with gsubs := Store.set (fun _ => none) s.eth.gsubs e none } }

/-- R50: an accepted write of WHL_CFG or WHL_SLOTS voids the budget check, and once more as it is adopted. -/
def voidCheckByWrite (a : Nat) (s : State) : State :=
  if 0x40041000 ≤ a ∧ a < 0x40042000 ∧ (a % 0x100 = 0 ∨ a % 0x100 = 4) then
    voidCheck s
  else s

/-- A plain write takes effect: the register, and what the block's chapter makes of the new value. -/
def takeWrite (a : Nat) (v : Word) (s : State) : State :=
  let off := offOf a
  match blockOf a with
  | 0x06 =>
    if 0x100 ≤ off then
      let n := (off - 0x100) / 0x20
      if off % 0x20 = 0 then adoptChCfg n v s else adoptWin n (off % 0x20) v s
    else plainWrite a v s
  | 0x08 => if (fltTarget a).isSome then adoptFlt a v s else plainWrite a v s
  | 0x09 =>
    let s := regSet a ((regGet s a &&& ~~~(chrMask off)) ||| (v &&& chrMask off)) s
    if off = 0x180 ∨ off = 0x184 then { s with eth := { s.eth with resolved := false } } else s
  | 0x0A =>
    let s := plainWrite a v s
    let s := if a = Reg.TIM_CTRL ∧ fieldGet v 1 0 = 0 then setServo servoFree s else s
    if a = Reg.TIM_CTRL then selectRef s else s
  | 0x0B =>
    let rate := fun (s : State) => svRate s ((off - 0x6000) / 0x20)
    let was := rate s
    let s := plainWrite a v s
    if 0x4000 ≤ off ∧ off < 0x5000 then dropSubscription a s
    else if 0x6000 ≤ off ∧ off < 0x7000 ∧ rate s ≠ was then svRateChanged ((off - 0x6000) / 0x20) s
    else s
  | 0x0C =>
    if Reg.SCH_TIM_CFG 0 ≤ a ∧ a ≤ Reg.SCH_TIM_CFG 15 ∧ (a - Reg.SCH_TIM_CFG 0) % 8 = 0 then
      let t := (a - Reg.SCH_TIM_CFG 0) / 8
      let s := if v.getLsbD 0 && !fbit s (Fld.SCH_TIM_CFG_EN t) then regSet (Reg.SCH_TIM_CNT t) 0 s else s
      plainWrite a v s
    else plainWrite a v s
  | 0x10 =>
    let s := settleLanes (disableLanes (plainWrite a v s))
    if a = Reg.MIR_CTRL then selectRef s else s
  | 0x04 => voidCheckByWrite a (plainWrite a v s)
  | _ => plainWrite a v s

/-! ### Registers whose write is a command -/

/-- A register of the control and data planes whose write is a command: decided at the boundary that adopts it (R13). -/
def isTrigger (a : Nat) : Bool :=
  a == Reg.ESC_CHECK || a == Reg.RING_CTRL || a == Reg.WHL_TRC_CTRL || a == Reg.FAD_CTRL || a == Reg.HKA_CTRL ||
    a == Reg.HKA_INJ_REQ || a == Reg.FLT_CTRL || a == Reg.CHR_CTRL || a == Reg.CHR_SEG_REL ||
    (decide (0x40041000 ≤ a ∧ a < 0x40042000) && a % 0x100 == 0x24)

/-- The first of several commands of one write that fails decides for all (R457, R458). -/
def bothThen (f g : State → State × Status) (s : State) : State × Status :=
  match f s with
  | (s', .ok) => g s'
  | r => r

def whenBit (b : Bool) (f : State → State × Status) (s : State) : State × Status := if b then f s else (s, .ok)

/-- WHL_CELL_CTRL of wheel `w`. -/
def cellCtrl (o : Origin) (w : Nat) (v : Word) (s : State) : State × Status :=
  let slot := fieldGet v 11 0
  match fieldGet v 31 28 with
  | 1 => whlWithdraw o w slot s
  | 2 => whlReturn o w slot s
  | 3 => whlBypass o w slot s
  | _ => cellCommand w slot o [(roleOrCore .operator o, .notPermitted), (s.sys.role != .standby, .notHolder),
      (s.sys.mode != .boot, .illegalInMode), (false, .badParam)] id s

/-- The write of a command register takes effect. -/
def triggerWrite (o : Origin) (a : Nat) (v : Word) (s : State) : State × Status :=
  let keep := fun (s : State) => (plainWrite a v s, Status.ok)
  if a = Reg.ESC_CHECK then whenBit (v.getLsbD 0) (escCheckGo o) s
  else if a = Reg.RING_CTRL then bothThen (whenBit (v.getLsbD 1) (discGo o)) keep s
  else if a = Reg.WHL_TRC_CTRL then whlTrcEnable o v s
  else if a = Reg.FAD_CTRL then bothThen (whenBit (v.getLsbD 24) (fgcalGo o v)) keep s
  else if a = Reg.HKA_CTRL then
    bothThen (whenBit (v.getLsbD 16) (hkaScanGo o)) (bothThen (whenBit (v.getLsbD 17) (hkaCalGo o)) keep) s
  else if a = Reg.HKA_INJ_REQ then hkaInjReq o v s
  else if a = Reg.FLT_CTRL then bothThen (whenBit (v.getLsbD 3) (fltSyncGo o)) keep s
  else if a = Reg.CHR_CTRL then
    if v.getLsbD 31 then chrArmReg o v s
    else if v.getLsbD 30 then chrDisarmReg o s
    else if v.getLsbD 29 then chrTriggerReg o s
    else match ctrlConfig v s with
      | some s' => (s', .ok)
      | none => refuseWrite a .busy o s
  else if a = Reg.CHR_SEG_REL then whenBit (v.getLsbD 4) (chrReleaseReg o v) s
  else cellCtrl o ((a - 0x40041000) / 0x100) v s

/-! ### A write -/

/-- SYS_MODE_REQ: GO asks for a mode; BOOT and LOCKOUT cannot be asked for (R451). -/
def modeReqWrite (o : Origin) (v : Word) (s : State) : State × Status :=
  let ask := fun (m : Mode) => if v.getLsbD 31 then modeWrite o m s else (plainWrite Reg.SYS_MODE_REQ v s, Status.ok)
  match fieldGet v 2 0 with
  | 1 => ask .commission
  | 2 => ask .charge
  | 3 => ask .ready
  | 4 => ask .run
  | n =>
    if v.getLsbD 31 then
      checkWrite Reg.SYS_MODE_REQ o [(roleOrCore .operator o, .notPermitted), (s.sys.role != .standby, .notHolder),
        (decide (5 < n), .illegalInMode), (false, .badParam)] id s
    else (plainWrite Reg.SYS_MODE_REQ v s, .ok)

/-- A register of block FCO. -/
def fcoWrite (o : Origin) (a : Nat) (v : Word) (s : State) : State × Status :=
  let store := fun (s : State) => checkWrite a o (plainChecks o a v s) (takeWrite a v) s
  if a = Reg.FCO_STATUS_0 ∨ a = Reg.FCO_STATUS_1 then fcoStatusClear o ((a - Reg.FCO_STATUS_0) / 4) v s
  else if a = Reg.FCO_CAP_CTRL then if v.getLsbD 0 then fcoCaptureRelease o s else store s
  else if Reg.FCO_CLASS 0 ≤ a ∧ a ≤ Reg.FCO_CLASS 3 then fcoClassWrite o ((a - Reg.FCO_CLASS 0) / 4) v s
  else if a = Reg.FCO_INJECT then
    if v.getLsbD 31 then fcoInjectGo o v s else if v.getLsbD 30 then fcoInjectCancel o s else store s
  else if a = Reg.FCO_FOUT then fcoFoutWrite o v s
  else if a = Reg.FCO_SWFAULT then
    match fieldGet v 1 0 with
    | 1 => swFaultRaise o s
    | 2 => swFaultClear o s
    | 3 => checkWrite a o [(roleAtLeast .engineer o, .notPermitted), (false, .badParam)] id s
    | _ => store s
  else store s

/-- BTN_CMD. -/
def btnCmdWrite (o : Origin) (v : Word) (s : State) : State × Status :=
  match fieldGet v 31 28 with
  | 1 => btnCmdHandover o s
  | 2 => btnCmdReadyAck o s
  | 3 => btnCmdSelftest o s
  | _ => btnCommand o [(roleAtLeast .engineer o, .notPermitted), (s.sys.mode != .boot, .illegalInMode), (false, .badParam)] id s

/-- What a command that its mode refused shows in the status register of its block (R262, R300, R312, R457). -/
def showRefused (a : Nat) (v : Word) (st : Status) (s : State) : State :=
  if a = Reg.FAD_CTRL ∧ v.getLsbD 24 = true then fset Fld.FAD_CAL_STAT_STATUS st.code s
  else if a = Reg.FLT_CTRL ∧ v.getLsbD 3 = true then fset Fld.FLT_SYNC_STAT_STATUS st.code s
  else if a = Reg.CHR_CTRL ∧ 1 ≤ fieldGet v 31 29 then chrStatus st s
  else if 0x40041000 ≤ a ∧ a < 0x40042000 ∧ a % 0x100 = 0x24 then
    let w := (a - 0x40041000) / 0x100
    fset (Fld.WHL_CELL_STAT_SLOT w) (fieldGet v 11 0) (fset (Fld.WHL_CELL_STAT_STATUS w) st.code s)
  else s

/-- A command of the control or data plane: role and BOOT are checked as it comes, the rest at its adoption (R13). -/
def stageTrigger (o : Origin) (a : Nat) (v : Word) (s : State) : State × Status :=
  let (s, st) := checkStage a o [(roleOrCore .operator o, .notPermitted), (s.sys.mode != .boot, .illegalInMode)] v s
  (if st = .illegalInMode then showRefused a v st s else s, st)

/-- A write of an existing register with writable bits. -/
def writeKnown (o : Origin) (a : Nat) (v : Word) (s : State) : State × Status :=
  if isTiming a then escTiming o a v s
  else if isTrigger a then stageTrigger o a v s
  else match blockOf a with
  | 0x05 =>
    let e := (offOf a - 0x1000) / 0x100
    if 0x4000 ≤ offOf a then
      checkWrite a o [(roleOrCore .operator o, .notPermitted), (s.sys.mode != .boot, .illegalInMode)] (plainWrite a v) s
    else if a = Reg.LOOP_MODE_CMD e then loopModeCmd o e v s
    else loopPbCommit o e v s
  | 0x08 => if (fltTarget a).isSome then fltConfigWrite o a v s else checkStage a o (plainChecks o a v s) v s
  | 0x09 => chrConfigWrite o a v s
  | 0x0D => fcoWrite o a v s
  | 0x0F => fioWrite o a v s
  | _ =>
    if a = Reg.SYS_MODE_REQ then modeReqWrite o v s
    else if a = Reg.SYS_UPB_COMMIT then upbCommit o v s
    else if a = Reg.TIM_ADJ_CTRL ∧ v.getLsbD 31 = true then timAdjCommit o v s
    else if 0x400B1000 ≤ a ∧ a < 0x400B1500 ∧ 0x20 ≤ a % 0x100 ∧ a % 0x100 < 0x30 then
      lqPost o ((a - 0x400B1000) / 0x100) (a % 0x100 / 4 - 8) v s
    else if a = Reg.SCH_TRC_CTRL then schTrcEnable o v s
    else if a = Reg.BTN_CMD then btnCmdWrite o v s
    else if a = Reg.STAT_PERIOD then statPeriodWrite o v s
    else if snapshotReg a then
      let (s, st) := checkStage a o (plainChecks o a v s) v s
      (if st = .ok then voidCheckByWrite a s else s, st)
    else checkWrite a o (plainChecks o a v s) (takeWrite a v) s

/-- One register write (R5, R7, R457, R469). A register with no writable bit ignores it. -/
def writeReg (o : Origin) (a : Nat) (v : Word) (s : State) : State × Status :=
  let master := match o with | .eventCore c => 4 + c.val | .hmp _ _ => 0x35 | .supervisory => 0x08
  match (if a % 4 = 0 then regDesc a else none) with
  | none => (occur (detect 30 a master Acc.regWrite) s, .ok)
  | some d => if d.rw = 0 ∧ d.w1c = 0 ∧ d.wo = 0 then (s, .ok) else writeKnown o a v s

def execRegisterWrite (o : Origin) (addr : Word) (val : Word) (s : State) : Host.Outcome State Fault Refusal :=
  .next (writeReg o addr.toNat val s).1

/-! ### Adoption at a cycle boundary (R13, R15) -/

/-- The answer of an HMP request takes the first refusal of its words (R484). -/
def noteDue (w : StagedWrite) (st : Status) (s : State) : State :=
  match w.origin with
  | .hmp _ n =>
    let put := fun (d : AnswerDue) =>
      if d.session = n ∧ d.at_ = w.at_ ∧ d.status = .ok then { d with status := st } else d
    { s with sys := { s.sys with due := s.sys.due.map put } }
  | _ => s

/-- A comparator register that is an image of the signed safety block: a write that was staged before the block made it
one has no effect any more (R268). -/
def signedImage (s : State) (a : Nat) : Bool :=
  let n := (offOf a - 0x100) / 0x20
  blockOf a == 0x06 && decide (0x100 ≤ offOf a) && [4, 8, 12].contains (offOf a % 0x20) && fbit s (Fld.FAD_WIN_CFG_BLK_EN n)

def adoptWrite (w : StagedWrite) (s : State) : State :=
  if signedImage s w.addr then noteDue w .notPermitted (refuseWrite w.addr .notPermitted w.origin s).1
  else if isTrigger w.addr then
    let (s, st) := triggerWrite w.origin w.addr w.val s
    if st = .ok then s else noteDue w st s
  else if w.addr = Reg.FIO_CTRL then adoptFioCtrl w.val s
  else takeWrite w.addr w.val s

/-- Every staged write that R15 lets in takes effect, in the order of the commits. -/
def adoptWrites (s : State) : State :=
  let due := s.staged.filter (fun w => ripe s w.at_)
  due.foldl (fun s w => adoptWrite w s) { s with staged := s.staged.filter (fun w => !ripe s w.at_) }

/-- R484: write requests whose words have all been adopted or refused are answered. -/
def answerDue (s : State) : State :=
  let ready := s.sys.due.filter (fun d => ripe s d.at_)
  let s := { s with sys := { s.sys with due := s.sys.due.filter (fun d => !ripe s d.at_) } }
  ready.foldl (fun s d => hmpAnswer d.session d.seq d.status [] s) s

end Sys2Proof.Machine
end

