-- ==== Sys2Proof/Machine/Mem.lean ====
section
/-! DEFINITION. The address map as its readers see it (R19, R178, R468 to R476, R484): snapshot tables with their wide
values, engine windows, and the parts of DRAM that the management plane may read. -/

namespace Sys2Proof.Machine

/-! ### Wide values of the snapshot tables (R8) -/

/-- How many higher halves belong to the low half at an offset of shared control memory: reports and commands of the
cell table, splits of the measurement table, VALID of the GOOSE image. -/
def wideHalves (off : Nat) : Nat :=
  if off < 0x20000 then (if off % 32 = 4 ∨ off % 32 = 0x10 then 1 else 0)
  else if off < 0x20600 then (if off % 64 = 8 then 2 else 0)
  else if off = 0x20A04 then 1 else 0

/-- The word at an offset of shared control memory is a higher half. -/
def isHigher (off : Nat) : Bool :=
  if off < 0x20000 then off % 32 == 8 || off % 32 == 0x14
  else if off < 0x20600 then off % 64 == 0xC || off % 64 == 0x10
  else off == 0x20A08

/-- A reader reads the aligned word at offset `off`, which holds `w`: a higher half comes from the reader's latch, and a
low half latches its higher halves (R8, R224). -/
def wideRead (rd : Reader) (off : Nat) (w : Word) (s : State) : Word × State :=
  let a := Config.scmBase + off
  if isHigher off then (latchGet rd a s, s)
  else (w, (List.range (wideHalves off)).foldl (fun s i =>
    latchPut rd (a + 4 * (i + 1)) (memReadWord s (a + 4 * (i + 1))) s) s)

/-! ### Ranges of shared control memory (R471), by offset and end -/

/-- The stores that every core and HMP may load. -/
def scmShared : List (Nat × Nat) :=
  [(0, 0x20000), (0x20000, 0x20600), (0x20800, 0x20900), (0x20A00, 0x20C20), (0x20E00, 0x20E40), (0x21000, 0x21180),
   (0x21200, 0x21400), (0x40000, 0x50000)]

/-- What a cycle core may load and store; what an event core and HMP may load; what an event core, and HMP, may store. -/
def scmCycleLoad : List (Nat × Nat) := scmShared ++ [(0x80000, 0x200000)]
def scmCycleStore : List (Nat × Nat) := [(0x24000, 0x28000), (0x80000, 0x200000)]
def scmPlaneLoad : List (Nat × Nat) := scmShared ++ [(0x24000, 0x28000), (0x60000, 0x70000), (0x200000, 0x210000)]
def scmEventStore : List (Nat × Nat) := [(0x60000, 0x70000), (0x200000, 0x210000)]
def scmHmpStore : List (Nat × Nat) := [(0x60000, 0x70000)]

/-- Bytes `a` to `a + n − 1` of the map lie within one of the ranges of shared control memory. -/
def scmWithin (rs : List (Nat × Nat)) (a n : Nat) : Bool :=
  decide (Config.scmBase ≤ a) &&
    rs.any (fun r => decide (r.1 ≤ a - Config.scmBase ∧ a - Config.scmBase + n ≤ r.2))

def inScm (a n : Nat) : Bool := decide (Config.scmBase ≤ a ∧ a + n ≤ Config.scmBase + 0x400000)

/-! ### Engine windows (R178, R207, R475) -/

/-- Loop engines at 0x2000_0000, wheels at 0x2002_0000. -/
def inWindows (a n : Nat) : Bool := decide (0x20000000 ≤ a ∧ a + n ≤ 0x20020C00)

/-- A wheel's window holds only its descriptor. -/
def windowHole (a : Nat) : Bool := decide (0x20020000 ≤ a) && decide (0x10 ≤ a % 0x100)

/-- A read of an engine window: any other offset of a wheel's window reads zero and is reported (R178). -/
def windowRead (master a : Nat) (s : State) : Word × State :=
  if windowHole a then (0, occur (detect 30 a master Acc.load) s) else (memReadWord s a, s)

/-! ### DRAM read by the management plane (R19, R476) -/

def inDram (a n : Nat) : Bool := decide (Config.dramBase ≤ a ∧ a + n ≤ Config.dramBase + 2 ^ 34)

/-! ### HMP memory access (R469, R471, R483, R484) -/

def hmpMaster : Nat := 0x35

/-- Why HMP may not read `n` bytes at a 40-bit address; none if it may. -/
def hmpReadRefusal (s : State) (a n : Nat) : Option Status :=
  if n < 4 ∨ 1024 < n ∨ n % 4 ≠ 0 ∨ a % 4 ≠ 0 then some .badParam
  else if inScm a n then (if scmWithin scmPlaneLoad a n then none else some .notPermitted)
  else if inWindows a n then none
  else if inDram a n then (if dramReadable s a n then none else some .notPermitted)
  else some .badParam

/-- One aligned word, for a session; what a word with an uncorrectable error is answered with is not stated (log entry
8). -/
def hmpReadWord (session : Word) (a : Nat) (s : State) : Word × State :=
  let src := if inScm a 4 then 7 else 8
  let (bad, s) := eccLoad (a / 4) src a hmpMaster Acc.load s
  if bad then drawFree s
  else if inScm a 4 then wideRead (.session session) (a - Config.scmBase) (memReadWord s a) s
  else if inWindows a 4 then windowRead hmpMaster a s
  else (memReadWord s a, s)

/-- R8: the low half of a value wider than 32 bits is read, by a core or a session; every higher half is latched for that
reader. -/
def rsLowHalfRead (rd : Reader) (a : Nat) (s : State) : State :=
  if 0x40000000 ≤ a ∧ a < 0x40130000 then (readReg rd a s).2
  else if inScm a 4 && a % 4 == 0 then (wideRead rd (a - Config.scmBase) (memReadWord s a) s).2
  else s

def execRsLowHalfRead (rd : Reader) (addr : Word) (s : State) : Host.Outcome State Fault Refusal :=
  .next (rsLowHalfRead rd addr.toNat s)

def hmpReadWords (session : Word) (a : Nat) : Nat → State → List Word × State
  | 0, s => ([], s)
  | n + 1, s =>
    let (w, s) := hmpReadWord session a s
    let (ws, s) := hmpReadWords session (a + 4) n s
    (w :: ws, s)

/-- Why HMP may not write `n` bytes at a map address. -/
def hmpWriteRefusal (a n : Nat) : Option Status :=
  if n < 4 ∨ 1024 < n ∨ n % 4 ≠ 0 ∨ a % 4 ≠ 0 then some .badParam
  else if inScm a n then (if scmWithin scmHmpStore a n then none else some .notPermitted)
  else if inWindows a n then some .notPermitted
  else some .badParam

end Sys2Proof.Machine
end

