-- ==== Sys2Proof/Machine/Mgmt.lean ====
section
/-! DEFINITION. The HMP commands of sessions, registers, memory, records, images, keys and mailboxes (R400, R460, R478 to
R487, R490, R513). Commands of other blocks stand with those blocks. -/

namespace Sys2Proof.Machine

/-! ### Sessions (R480, R482) -/

/-- OPEN: `num` is the session number that the module gives. -/
def hmpOpen (r : Req) (role : HmpRole) (num : Word) (s : State) : State :=
  if s.sys.powered = false then s
  else if s.sys.blockedSrc.contains r.src then
    { s with sys := { s.sys with answer := some ⟨0, r.seq, .authFail, [], true⟩ } }
  else if !r.tagOk then authFail 0 r.seq r.src 0x0001 s
  else if Config.sessionCap ≤ s.sys.sessions.length then
    let s := logRefusal 0x0001 0xFFFF .busy 0 0 s
    { s with sys := { s.sys with answer := some ⟨0, r.seq, .busy, [], false⟩ } }
  else if num = 0 ∨ (findSession s num).isSome then s
  else
    let x : Session := ⟨num, role, r.port, r.src, r.seq, none⟩
    hmpAnswer num r.seq .ok (wordBytes num) { s with sys := { s.sys with sessions := s.sys.sessions ++ [x] } }

def execHmpOpen (r : Req) (role : HmpRole) (num : Word) (s : State) : Host.Outcome State Fault Refusal :=
  .next (hmpOpen r role num s)

/-- CLOSE: answered, and then the session is gone. -/
def hmpClose (r : Req) (s : State) : State :=
  hmpRun r ⟨0x0002, .viewer, false, false, allModes⟩ (fun x s =>
    (closeSessions (fun y => y.num == x.num) (hmpAnswer r.session r.seq .ok [] s), none)) s

def execHmpClose (r : Req) (s : State) : Host.Outcome State Fault Refusal := .next (hmpClose r s)

/-- 60 s without a valid request. -/
def execHmpSessionIdleTimeout (num : Word) (s : State) : Host.Outcome State Fault Refusal :=
  .next (closeSessions (fun x => x.num == num) s)

/-- The 10 s for which a source is refused are over. -/
def execHmpAddressBlockExpiry (src : Word) (s : State) : Host.Outcome State Fault Refusal :=
  .next { s with sys := { s.sys with blockedSrc := s.sys.blockedSrc.filter (fun b => b != src) } }

/-! ### Registers (R460, R469, R484, R490) -/

/-- `n` registers from `a` lie in the block range. -/
def inBlocks (a n : Nat) : Bool := decide (0x40000000 ≤ a ∧ a + 4 * n ≤ 0x40130000)

def inIdBlock (a n : Nat) : Bool := decide (0x40010000 ≤ a ∧ a + 4 * n ≤ 0x40020000)

/-- REG_READ; with FLAGS.BANK the read bank answers. -/
def regReadBody (bank : Bool) (a n : Nat) (x : Session) (s : State) : State × Reply :=
  if s.sys.mode = .boot ∧ inIdBlock a n = false then (s, some (.illegalInMode, []))
  else if n < 1 ∨ 256 < n ∨ inBlocks a n = false then (s, some (.badParam, []))
  else if bank then (s, some (.ok, wordsBytes ((List.range n).map (fun i => bankRead s (a + 4 * i)))))
  else
    let (ws, s) := readRegs (.session x.num) a n s
    (s, some (.ok, wordsBytes ws))

def execRegRead (r : Req) (bank : Bool) (addr : Word) (count : Nat) (s : State) : Host.Outcome State Fault Refusal :=
  .next (hmpRun r ⟨0x0010, .viewer, false, false, allModes⟩ (regReadBody bank addr.toNat count) s)

/-- The outcome of this write is known at an adopting boundary only. -/
def adoptedLater (a : Nat) : Bool := snapshotReg a || a == Reg.SYS_UPB_COMMIT || a == Reg.SYS_MODE_REQ

/-- Write registers in ascending order: the first refusal, and whether an accepted word waits for a boundary. -/
def writeRegs (o : Origin) (a : Nat) : List Word → State → State × Status × Bool
  | [], s => (s, .ok, false)
  | w :: ws, s =>
    let (s, st) := writeReg o a w s
    let (s, st', later) := writeRegs o (a + 4) ws s
    (s, if st = .ok then st' else st, later || (adoptedLater a && st == .ok))

/-- REG_WRITE. Its words enter the command log as register writes; the answer carries the first refusal. -/
def regWriteBody (r : Req) (a : Nat) (vals : List Word) (x : Session) (s : State) : State × Reply :=
  if vals.length < 1 ∨ 64 < vals.length ∨ inBlocks a vals.length = false then (s, some (.badParam, []))
  else
    let (s, st, later) := writeRegs (.hmp x.role x.num) a vals s
    if later then
      ({ s with sys := { s.sys with due := s.sys.due ++ [⟨r.session, r.seq, s.time.cnt, st⟩] } }, none)
    else (hmpAnswer r.session r.seq st [] s, none)

def execRegWrite (r : Req) (addr : Word) (vals : List Word) (s : State) : Host.Outcome State Fault Refusal :=
  .next (hmpRun r ⟨0x0011, .operator, false, false, notBoot⟩ (regWriteBody r addr.toNat vals) s)

/-! ### Memory (R469, R471, R484) -/

def memReadBody (a n : Nat) (x : Session) (s : State) : State × Reply :=
  match hmpReadRefusal s a n with
  | some st => (s, some (st, []))
  | none =>
    let (ws, s) := hmpReadWords x.num a (n / 4) s
    (s, some (.ok, wordsBytes ws))

def execMemRead (r : Req) (addr : BitVec 40) (len : Nat) (s : State) : Host.Outcome State Fault Refusal :=
  .next (hmpRun r ⟨0x0012, .viewer, false, false, notBoot⟩ (memReadBody addr.toNat len) s)

def memWriteBody (a : Nat) (bs : List Byte) (_ : Session) (s : State) : State × Reply :=
  match hmpWriteRefusal a bs.length with
  | some st => (s, some (st, []))
  | none => (putBytes a bs s, some (.ok, []))

def execMemWrite (r : Req) (addr : Word) (bytes : List Byte) (s : State) : Host.Outcome State Fault Refusal :=
  .next (hmpRun r ⟨0x0013, .operator, false, false, notBoot⟩ (memWriteBody addr.toNat bytes) s)

/-! ### Records (R182, R402, R409, R433, R458, R483, R487, R511) -/

/-- A fault log entry (R511). -/
def FaultEntry.bytes (e : FaultEntry) : List Byte :=
  let b := wordsBytes [splitNs e.time, splitLo e.time, BitVec.ofNat 32 (splitHi e.time), e.cycle, BitVec.ofNat 32 e.addr,
    BitVec.ofNat 32 (boolNat e.capt * 2 ^ 31 + boolNat e.inj * 2 ^ 30 + e.source % 64 * 2 ^ 24 + e.cls % 4 * 2 ^ 22 +
      e.access % 16 * 2 ^ 18 + e.master % 64 * 2 ^ 12 + e.addr / 2 ^ 32 % 256),
    BitVec.ofNat 32 e.seq]
  b ++ wordBytes (crc32 b)

/-- A command log entry (R458). -/
def CmdLogEntry.bytes (e : CmdLogEntry) : List Byte :=
  let b := wordsBytes [splitNs e.time, splitLo e.time, BitVec.ofNat 32 (e.cmd % 65536 * 65536 + splitHi e.time),
    BitVec.ofNat 32 (e.block % 65536 * 65536 + e.status.code * 256 + e.mode.code * 32 + e.role.code * 8 + e.origin % 8),
    e.session, BitVec.ofNat 32 (e.chain % 128 * 65536 + e.pos % 64), e.idCrc]
  b ++ wordBytes (crc32 b)

def ArchiveRec.bytes : ArchiveRec → List Byte
  | .safetyLog l => l.flatMap SafetyLogEntry.bytes
  | .faultLog l => l.flatMap FaultEntry.bytes

/-- A ring of `n` entries of `size` bytes at physical address `a`, oldest entry first. -/
def ringBytes (s : State) (a size n wptr : Nat) (full : Bool) : List Byte :=
  if full then Memory.readList s.mem (a + size * wptr) (size * (n - wptr)) ++ Memory.readList s.mem a (size * wptr)
  else Memory.readList s.mem a (size * wptr)

/-- The bytes of a record: by kind, and for chronograph records and the archive by index. -/
def recordBytes (s : State) (kind index : Nat) : Except Status (List Byte) :=
  match kind with
  | 1 => .ok (s.fco.log.flatMap FaultEntry.bytes)
  | 2 => .ok (s.sys.cmdLog.flatMap CmdLogEntry.bytes)
  | 3 => .ok (safetyLogBytes s)
  | 4 =>
    if 16 ≤ index then .error .badParam
    else if !segClosed s index then .error .notPermitted
    else .ok (Memory.readList s.mem (segBase s index) (segSize s index))
  | 5 => .ok (ringBytes s (Config.dramBase + fget s Fld.WHL_TRC_BASE_BASE_MIB * mib) 16 65536
      (fget s Fld.WHL_TRC_WPTR_WPTR) s.sch.whlFull)
  | 6 => .ok (ringBytes s (Config.dramBase + fget s Fld.SCH_TRC_BASE_BASE_MIB * mib) 8 65536
      (fget s Fld.SCH_TRC_WPTR_WPTR) s.sch.trcFull)
  | 7 => .ok (ringBytes s (Config.dramBase + fget s Fld.SCH_REF_BASE_BASE_KIB * 1024) 32 256
      (fget s Fld.SCH_REF_WPTR_WPTR) s.sch.refFull)
  | 8 => match s.sys.archive[index]? with
    | some rec => .ok rec.bytes
    | none => .error .badParam
  | _ => .error .badParam

/-- RECORD_READ: `len` bytes from byte `off` of the record, fewer at its end. -/
def recordReadBody (kind index off len : Nat) (_ : Session) (s : State) : State × Reply :=
  if 1024 < len then (s, some (.badParam, []))
  else match recordBytes s kind index with
  | .ok bs => (s, some (.ok, (bs.drop off).take len))
  | .error st => (s, some (st, []))

def execRecordRead (r : Req) (kind index offset len : Nat) (s : State) : Host.Outcome State Fault Refusal :=
  .next (hmpRun r ⟨0x0020, .viewer, false, false, allModes⟩ (recordReadBody kind index offset len) s)

/-! ### Images (R254, R485, R486, R513) -/

/-- The flash of a kind changes, and SYS_IMG with it. -/
def setFlashKind (k : ImageKind) (f : FlashKind) (s : State) : State :=
  showImages (match k with
  | .firmware => { s with sys := { s.sys with firmware := f } }
  | .program => { s with sys := { s.sys with program := f } }
  | .commission => { s with sys := { s.sys with commission := f } })

def FlashKind.active (f : FlashKind) : FlashSlot := if f.bActive then f.slotB else f.slotA
def FlashKind.inactive (f : FlashKind) : FlashSlot := if f.bActive then f.slotA else f.slotB
def FlashKind.setInactive (f : FlashKind) (x : FlashSlot) : FlashKind :=
  if f.bActive then { f with slotA := x } else { f with slotB := x }

def imageKindOf : Nat → Option ImageKind
  | 0 => some .firmware | 1 => some .program | 2 => some .commission | _ => none

def contentKind : ImageContent → ImageKind
  | .firmware _ => .firmware | .program _ => .program | .commission _ => .commission

/-- A request that is decided now: of an open session, authentic, and with a SEQ above the last accepted one (R481). -/
def decided (r : Req) (s : State) : Bool :=
  s.sys.powered && r.tagOk && match findSession s r.session with
    | some x => decide (x.lastSeq.toNat < r.seq.toNat)
    | none => false

/-- Decide an image command of kind `kind`, if it has one; SYS_IMG_STAT then shows it and its status. -/
def imageRun (r : Req) (k : CmdRule) (kind : Option Nat) (body : Session → State → State × Reply) (s : State) : State :=
  let s' := hmpRun r k body s
  if !decided r s then s'
  else
    let s' := match kind with | some n => fset Fld.SYS_IMG_STAT_KIND (n % 4) s' | none => s'
    match s'.sys.answer with
    | some a => fset Fld.SYS_IMG_STAT_STATUS a.status.code s'
    | none => s'

/-- The kind of the transfer under way. -/
def transferKind (s : State) : Option Nat := s.sys.transfer.map (fun t => t.kind.code)

/-- IMAGE_BEGIN: a transfer into the inactive slot, which is marked not loadable. -/
def imageBeginBody (kind len : Nat) (x : Session) (s : State) : State × Reply :=
  match imageKindOf kind with
  | none => (s, some (.badParam, []))
  | some k =>
    if s.sys.transfer.isSome then (s, some (.busy, []))
    else
      let f := flashKind s k
      let s := setFlashKind k (f.setInactive { f.inactive with loadable := false }) s
      ({ s with sys := { s.sys with transfer := some ⟨x.num, k, len, [], []⟩ } }, some (.ok, []))

def execImageBegin (r : Req) (kind : Nat) (len : Nat) (s : State) : Host.Outcome State Fault Refusal :=
  .next (imageRun r ⟨0x0030, .engineer, false, false, allModes⟩ (some kind) (imageBeginBody kind len) s)

/-- The transfer of a session. -/
def transferOf (s : State) (n : Word) : Option Transfer :=
  match s.sys.transfer with
  | some t => if t.session = n then some t else none
  | none => none

/-- IMAGE_DATA. -/
def imageDataBody (off : Nat) (bs : List Byte) (x : Session) (s : State) : State × Reply :=
  match transferOf s x.num with
  | none => (s, some (.badParam, []))
  | some t =>
    if bs.length < 1 ∨ 1024 < bs.length ∨ t.len < off + bs.length then (s, some (.badParam, []))
    else
      let t := { t with got := t.got ++ [(off, bs.length)], bytes := Memory.writeList t.bytes off bs }
      ({ s with sys := { s.sys with transfer := some t } }, some (.ok, []))

def execImageData (r : Req) (offset : Nat) (bytes : List Byte) (s : State) : Host.Outcome State Fault Refusal :=
  .next (imageRun r ⟨0x0031, .engineer, false, false, allModes⟩ (transferKind s) (imageDataBody offset bytes) s)

/-- How far the ranges cover from 0 without a gap. -/
def coveredTo (got : List (Nat × Nat)) : Nat → Nat → Nat
  | 0, e => e
  | n + 1, e => coveredTo got n (got.foldl (fun e g => if g.1 ≤ e then max e (g.1 + g.2) else e) e)

def Transfer.covered (t : Transfer) : Bool := decide (t.len ≤ coveredTo t.got t.got.length 0)

/-- Sizes and declarations of a program image (R212, R248, R254). -/
def programLegal (p : ProgramImage) : Bool :=
  p.cores.all (fun c => decide (c.code.length ≤ 131072 ∧ c.data.length ≤ 131072)) &&
    decide (p.upb.length ≤ 16) && p.upb.all (fun n => n == 0 || decide (2 ≤ n ∧ n ≤ 1024))

def imageReg (c : CommImage) (a : Nat) : Word :=
  match c.regs.find? (fun e => e.1 == a) with | some e => e.2 | none => regReset a

/-- A machine whose registers are as an image sets them: the ranges that depend on another register are read in it. -/
def imageState (c : CommImage) : State :=
  { State.reset with regs := c.regs.foldl (fun m e => Store.set regReset m e.1 e.2) [] }

/-- A register value of a commissioning image lies in its stated range (R513); `s` holds the image's registers and `p` its
period. -/
def imageRegLegal (s : State) (p : Nat) (e : Nat × Word) : Bool :=
  let (a, v) := e
  if a = Reg.ESC_PERIOD then periodLegal (fieldGet v 14 0)
  else if a = Reg.ESC_APPLY then fieldGet v 14 0 % 50 == 0 && decide (fieldGet v 14 0 ≤ p)
  else if a = Reg.ESC_REFPT then decide (500 ≤ fieldGet v 14 0 ∧ fieldGet v 14 0 + 500 ≤ p)
  else if a = Reg.ESC_LEAD ∨ a = Reg.ESC_REPAIR then decide (100 ≤ fieldGet v 11 0 ∧ fieldGet v 11 0 ≤ 2500)
  else match blockOf a with
  | 0x00 => sysLegal s a v
  | 0x03 => ringLegal a v
  | 0x04 => !decide (0x1000 ≤ offOf a ∧ offOf a < 0x2000) || wheelLegal (offOf a % 0x100) v
  | 0x06 => offOf a < 0x100 || offOf a % 0x20 != 0 || (offOf a - 0x100) / 0x20 % 2 == 0 || !v.getLsbD 1
  | 0x07 => hkaLegal s a v
  | 0x08 => match fltTarget a with | some (n, off) => fltParamOk s n off v | none => true
  | 0x09 => chrParamOk s (offOf a) v
  | 0x0A => timLegal a v
  | 0x0B => ethLegal s a v
  | 0x0C => schLegal s a v
  | 0x0D => !decide (Reg.FCO_CLASS 0 ≤ a ∧ a ≤ Reg.FCO_CLASS 3) || classWordLegal ((a - Reg.FCO_CLASS 0) / 4) v
  | 0x0F => fioLegal a v
  | 0x11 => btnLegal a v
  | _ => true

/-- R69: a chain of more than 64 cells or 400 m. -/
def mapTooLong (c : CommImage) : Bool := c.chains.any (fun ch => decide (64 < ch.n ∨ 400 < ch.fibreM))

/-- The ports at which the chains of a map end, on this unit. -/
def mapPorts (c : CommImage) : List Nat :=
  c.chains.flatMap (fun ch => if c.pair then [ch.portE] else [ch.portE, ch.portW])

/-- No value stands twice. -/
def distinct : List Nat → Bool
  | [] => true
  | x :: xs => !xs.contains x && distinct xs

/-- R61, R63, R64: a chain is named by the port of its east end, and in a pair both ends use it; a port takes one chain end;
a position of a chain binds one cell slot. -/
def mapLegal (c : CommImage) : Bool :=
  c.chains.all (fun ch => ch.num == ch.portE && (!c.pair || ch.portW == ch.portE)) && distinct (mapPorts c) &&
    c.cells.all (fun m => c.chains.any (fun ch => ch.num == m.chain && decide (m.posE < ch.n))) &&
    distinct (c.cells.map (fun m => m.chain * 64 + m.posE)) && distinct (c.cells.map (fun m => m.slot))

/-- R513: every value of a commissioning image, and its map. -/
def commLegal (c : CommImage) : Bool :=
  let p := fieldGet (imageReg c Reg.ESC_PERIOD) 14 0
  let s := imageState c
  c.regs.all (imageRegLegal s p) && imageRegLegal s p (Reg.ESC_PERIOD, imageReg c Reg.ESC_PERIOD) &&
    imageRegLegal s p (Reg.ESC_APPLY, imageReg c Reg.ESC_APPLY) && imageRegLegal s p (Reg.ESC_REFPT, imageReg c Reg.ESC_REFPT) &&
    mapLegal c && !mapTooLong c

def contentLegal : ImageContent → Bool
  | .firmware _ => true | .program p => programLegal p | .commission c => commLegal c

def contentTooLong : ImageContent → Bool
  | .commission c => mapTooLong c | _ => false

def contentHashOk : ImageContent → Bool
  | .program p => p.cert.imgHash == ProgramImage.secHash p | _ => true

/-- The signature of an image (R20, R254, R485): FIRMWARE, for the supervisory and safety cores, is Haldacon's, and a
customer's image is not permitted there; the other kinds are signed by a key enrolled for them. -/
def signatureCheck (s : State) (k : ImageKind) (sig : ImageSig) : Status :=
  match k with
  | .firmware => match sig with | .haldacon => .ok | .key _ => .notPermitted | .none => .authFail
  | .program => if keyEnrolled s .program sig then .ok else .authFail
  | .commission => if keyEnrolled s .commission sig then .ok else .authFail

/-- The checks of IMAGE_END in order (R254, R485). -/
def imageChecks (s : State) (t : Transfer) (sig : ImageSig) (hashOk limitsOk : Bool) (c : ImageContent) : Status :=
  if signatureCheck s t.kind sig ≠ .ok then signatureCheck s t.kind sig
  else if !hashOk || !t.covered || !contentHashOk c then .checkFail
  else if !limitsOk || contentKind c != t.kind then .badParam
  else if contentTooLong c then .tooLong
  else if !contentLegal c then .badParam
  else .ok

/-- IMAGE_END: a passing image stands in the inactive slot, loadable. -/
def imageEndBody (sig : ImageSig) (hashOk limitsOk : Bool) (c : ImageContent) (x : Session) (s : State) : State × Reply :=
  match transferOf s x.num with
  | none => (s, some (.badParam, []))
  | some t =>
    let s := { s with sys := { s.sys with transfer := none } }
    let st := imageChecks s t sig hashOk limitsOk c
    let f := flashKind s t.kind
    (if st = .ok then setFlashKind t.kind (f.setInactive ⟨true, c⟩) s else s, some (st, []))

def execImageEnd (r : Req) (sig : ImageSig) (hashOk limitsOk : Bool) (content : ImageContent) (s : State) :
    Host.Outcome State Fault Refusal :=
  .next (imageRun r ⟨0x0032, .engineer, false, false, allModes⟩ (transferKind s) (imageEndBody sig hashOk limitsOk content) s)

/-- IMAGE_ACTIVATE of a kind (R485, R486): `act` makes the inactive slot active, or has it wait for the next boundary. -/
def imageActivate (r : Req) (k : ImageKind) (modes : List Mode) (act : State → State) (s : State) : State :=
  imageRun r ⟨0x0033, .engineer, false, false, modes⟩ (some k.code) (fun _ s =>
    let busy := match s.sys.transfer with | some t => t.kind == k | none => false
    if busy then (s, some (.busy, []))
    else if !(flashKind s k).inactive.loadable then (s, some (.checkFail, []))
    else (act s, some (.ok, []))) s

def swapActive (k : ImageKind) (s : State) : State :=
  let f := flashKind s k
  setFlashKind k { f with bActive := !f.bActive } s

def execImageActivateFirmware (r : Req) (s : State) : Host.Outcome State Fault Refusal :=
  .next (imageActivate r .firmware [.boot, .commission, .lockout] (swapActive .firmware) s)

def execImageActivateProgram (r : Req) (s : State) : Host.Outcome State Fault Refusal :=
  .next (imageActivate r .program [.commission]
    (fun s => { s with sys := { s.sys with activateProgram := some s.time.cnt } }) s)

def execImageActivateCommission (r : Req) (s : State) : Host.Outcome State Fault Refusal :=
  .next (imageActivate r .commission [.commission]
    (fun s => { s with sys := { s.sys with activateCommission := some s.time.cnt } }) s)

/-! ### Keys (R479, R483) -/

/-- KEY_ENROL: a 32-byte role key, or a 64-byte key for slot 0 to 3 of an image kind. -/
def keyEnrolBody (kind : KeyKind) (slot : Nat) (key : List Byte) (_ : Session) (s : State) : State × Reply :=
  let put := fun (m : Store (List Byte)) (i : Nat) => Store.set (fun _ => []) m i key
  match kind with
  | .role q =>
    if key.length ≠ 32 then (s, some (.badParam, []))
    else ({ s with sys := { s.sys with roleKeys := put s.sys.roleKeys q.code } }, some (.ok, []))
  | k =>
    if key.length ≠ 64 ∨ 3 < slot then (s, some (.badParam, []))
    else ({ s with sys := { s.sys with imageKeys := put s.sys.imageKeys (keyBase k + slot) } }, some (.ok, []))

def execKeyEnrol (r : Req) (kind : KeyKind) (slot : Nat) (key : List Byte) (s : State) :
    Host.Outcome State Fault Refusal :=
  .next (hmpRun r ⟨0x0034, .safetyEngineer, true, false, [.commission]⟩ (keyEnrolBody kind slot key) s)

/-! ### User mailboxes (R385, R395, R400, R484) -/

def mailbox (s : State) (m : Nat) : Option Mailbox := Store.get (fun _ => none) s.sys.mailboxes m
def setMailbox (m : Nat) (x : Option Mailbox) (s : State) : State :=
  { s with sys := { s.sys with mailboxes := Store.set (fun _ => none) s.sys.mailboxes m x } }

/-- MB_WRITE: the payload goes to DRAM and an HMP_MB event to the scheduler; the answer is R400's. -/
def mbWriteBody (r : Req) (m : Nat) (bs : List Byte) (_ : Session) (s : State) : State × Reply :=
  if 8 ≤ m ∨ bs.length < 1 ∨ 1024 < bs.length then (s, some (.badParam, []))
  else if (mailbox s m).isSome then (s, some (.busy, []))
  else
    let s := putBytes (Config.dramBase + Config.mailboxPlace m) bs s
    let e := mkEvent s 5 m (srcFlow s 5 m) (srcClass s 5 false) (BitVec.ofNat 32 m) (BitVec.ofNat 32 bs.length)
      (BitVec.ofNat 32 (Config.mailboxPlace m))
    let (s, a) := arrive e s
    if a = .refused then (s, some (.refused, []))
    else (setMailbox m (some ⟨r.session, r.seq, bs.length, e.first⟩) s, none)

def execMbWrite (r : Req) (mb : Nat) (bytes : List Byte) (s : State) : Host.Outcome State Fault Refusal :=
  .next (hmpRun r ⟨0x0060, .operator, false, false, notBoot⟩ (mbWriteBody r mb bytes) s)

/-- 10 s without an answer. -/
def execMbWriteTimeout (mb : Fin 8) (s : State) : Host.Outcome State Fault Refusal :=
  .next (mailboxAnswer mb.val .timeout [] s)

end Sys2Proof.Machine
end

