-- ==== Sys2Proof/Machine/Boot.lean ====
section
/-! DEFINITION. Power, reset, the boot sequence and the loading of images (R9, R254, R255, R412, R427, R449, R459, R460,
R462, R463, R467, R485, R487, R494, R513). -/

namespace Sys2Proof.Machine

/-! ### Program images (R212, R254, R255) -/

/-- Write one core's sections into its memory: code at 0; data at 0x2_0000 of a cycle core, behind the code of an event
core (log entry 13). New words have correct check bits. -/
def loadCore (img : ProgramImage) (s : State) (c : Nat) : State :=
  match img.cores[c]? with
  | none => s
  | some x =>
    let data := if isEventCore c then x.code.length else 0x20000
    let lo := localBase c / 4
    let s := { s with fco := { s.fco with marks := s.fco.marks.filter (fun e => !decide (lo ≤ e.1 ∧ e.1 < lo + 0x10000)) } }
    memWriteBytes (localBase c + data) x.data (memWriteBytes (localBase c) x.code s)

/-- A program image comes into force: scratchpads, masks and declarations. R50 then needs a new check. -/
def loadProgram (img : ProgramImage) (s : State) : State :=
  (List.range 8).foldl (loadCore img) (voidCheck { s with sys := { s.sys with prog := img } })

/-! ### Commissioning images (R9, R61, R63, R485, R513) -/

/-- The timing registers, which take effect together at a second boundary (R49). -/
def isTimingOrApply (a : Nat) : Bool := isTiming a || a == Reg.ESC_APPLY

/-- A register of the image: its writable bits, or all of a register that only the image sets. -/
def loadReg (s : State) (e : Nat × Word) : State :=
  match regDesc e.1 with
  | none => s
  | some d =>
    if d.rw = 0 then regSet e.1 e.2 s
    else
      let rw := BitVec.ofNat 32 d.rw
      regSet e.1 ((regGet s e.1 &&& ~~~rw) ||| (e.2 &&& rw)) s

/-- FAD_STATUS.IL shows the interleaved pairs (R260). -/
def showInterleave (s : State) : State :=
  fset Fld.FAD_STATUS_IL ((List.range 12).foldl (fun m p => setBit m p (fbit s (Fld.FAD_CH_CFG_IL (2 * p)))) 0) s

/-- RING_PCFG of a port of the map. -/
def pcfgWord (s : State) (p : Nat) (ch : ChainMap) (west : Bool) : Word :=
  let pair := s.sys.comm.pair
  let peer := if pair then p else if west then ch.portE else ch.portW
  BitVec.ofNat 32 (ch.n % 128 * 65536 + peer % 128 * 256 + boolNat pair * 4 + boolNat west * 2 + 1)

/-- What discovery found at a port, and the sources of the port and its chain, are of the old map: they go with it. -/
def clearEnd (chain p : Nat) (s : State) : State :=
  let s := (List.range 64).foldl (fun s i =>
    fset (Fld.RING_CELL_OUTCOME p i) 0 (fset (Fld.RING_CELL_TURN p i) 0 (fset (Fld.RING_CELL_PHI p i) 0 s))) s
  clearCond 17 p (clearCond 18 p (clearCond 19 chain (clearCond 20 chain s)))

/-- A port that the map uses anew: its lap is the bound (R74); it is lit if the unit has entered COMMISSION (R61). -/
def installPort (lit : Bool) (s : State) (p : Nat) : State :=
  match portChain s p with
  | none => s
  | some (ch, west) =>
    let s := clearEnd ch.num p (setPort p { Port.reset with commaAt := (port s p).commaAt, lit := lit } s)
    let s := regSet (Reg.RING_PCFG p) (pcfgWord s p ch west) s
    let s := regSet (Reg.RING_PLAP p) (BitVec.ofNat 32 (boundLap01 ch)) s
    setPortState p (if lit then PState.discovering else PState.dark) 0xFF (setReached p 0 s)

/-- A port that no end of the map uses any more; `chain` is the one that used it. -/
def removePort (chain : Nat) (s : State) (p : Nat) : State :=
  clearEnd chain p <| setPortState p PState.disabled 0xFF (setReached p 0
    (regSet (Reg.RING_PCFG p) 0 (regSet (Reg.RING_PLAP p) 0 (setPort p Port.reset s))))

/-- Ports, mapped slots and the rota follow a new map. A port whose chain is as before keeps its discovery. -/
def installMap (old : CommImage) (lit : Bool) (s : State) : State :=
  let was := { s with sys := { s.sys with comm := old } }
  let ports := mappedPorts s
  let s := ((mappedPorts was).filter (fun p => !ports.contains p)).foldl (fun s p =>
    removePort (match portChain was p with | some (ch, _) => ch.num | none => p) s p) s
  let s := (ports.filter (fun p => !lit || portChain was p != portChain s p)).foldl (installPort lit) s
  let s := old.cells.foldl (fun s m => fset (Fld.WHL_ATTR_MAPPED m.slot) 0 s) s
  let s := (old.cells.filter (fun m => !s.sys.comm.cells.contains m)).foldl
    (fun s m => clearCond 21 m.slot (clearCond 22 m.slot s)) s
  let s := s.sys.comm.cells.foldl (fun s m => fset (Fld.WHL_ATTR_MAPPED m.slot) 1 s) s
  let s := (ports.filter (fun p => (port s p).swept)).foldl (fun s p => settleEnd p s) s
  setRota (lapOf s) s

/-- The terms that an image's timing values make. -/
def imageTerms (c : CommImage) : Terms :=
  { period := fieldGet (imageReg c Reg.ESC_PERIOD) 14 0, apply := fieldGet (imageReg c Reg.ESC_APPLY) 14 0,
    lead := fieldGet (imageReg c Reg.ESC_LEAD) 11 0, refpt := fieldGet (imageReg c Reg.ESC_REFPT) 14 0,
    repair := fieldGet (imageReg c Reg.ESC_REPAIR) 11 0, laps := [] }

/-- A commissioning image comes into force during BOOT. -/
def loadComm (c : CommImage) (s : State) : State :=
  let old := s.sys.comm
  let s := c.regs.foldl loadReg (voidCheck { s with sys := { s.sys with comm := c } })
  let s := if refSelected s && s.time.ref10Ok then refState s else s
  installMap old false (showFilters (showInterleave s))

/-- A commissioning image comes into force in COMMISSION: its timing values at the next second boundary. -/
def activateComm (c : CommImage) (s : State) : State :=
  let old := s.sys.comm
  let was := s
  let regs := if escRunning s then c.regs.filter (fun e => !isTimingOrApply e.1) else c.regs
  let s := regs.foldl loadReg { s with sys := { s.sys with comm := c }, esc := { s.esc with
      checkOk := false, checkVoid := true, staged := ⟨none, none, none, none⟩,
      accepted := if escRunning s then some (imageTerms c) else none } }
  installMap old true (selectRef (adoptChans was (winImages s.saf.block (showInterleave s))))

/-- R255, R485 at a cycle boundary: the activations that wait. The slot that is made active must still be loadable. -/
def adoptImages (s : State) : State :=
  let s1 := if s.sys.activateProgram.isSome then
      let s := { s with sys := { s.sys with activateProgram := none } }
      match s.sys.program.inactive.loadable, s.sys.program.inactive.content with
      | true, .program p =>
        (List.range 4).foldl (fun s c => enterCore (4 + c) s) (loadProgram p (swapActive .program s))
      | _, _ => s
    else s
  if s1.sys.activateCommission.isSome then
    let s := { s1 with sys := { s1.sys with activateCommission := none } }
    match s.sys.commission.inactive.loadable, s.sys.commission.inactive.content with
    | true, .commission c => activateComm c (swapActive .commission s)
    | _, _ => s
  else s1

/-! ### Power and reset (R412, R427, R430, R442, R462, R463, R494) -/

/-- The safety die at its own power-up: the latch and its causes, the block and the change log are non-volatile. -/
def safRestart (key : Bool) (x : Saf) : Saf :=
  { Saf.reset with
    latch := x.latch, first := x.first, all := x.all, lockT := x.lockT, block := x.block, blockCrc := x.blockCrc,
    log := x.log, logSeq := x.logSeq, key := key, keyStuck := key,
    demand1 := x.block.pairs.any (fun p => p.func == .emergency) }

/-- What a reset keeps of management: flash, keys and the logs in MRAM. -/
def sysKept (x : Sys) : Sys :=
  { Sys.reset with
    powered := x.powered, firmware := x.firmware, program := x.program, commission := x.commission, roleKeys := x.roleKeys,
    imageKeys := x.imageKeys, cmdLog := x.cmdLog, archive := x.archive, answer := x.answer }

/-- Registers that outlive a reset, by address. -/
def keepRegs (keep : Nat → Bool) (s : State) : Store Word := s.regs.filter (fun e => keep e.1)

/-- A hardware reset (R463): every register takes its reset value (R9), and the logs stay. -/
def hardReset (key : Bool) (s : State) : State :=
  { State.reset with
    pending := s.pending, freeCtr := s.freeCtr,
    sys := sysKept s.sys, fco := { Fco.reset with log := s.fco.log, logSeq := s.fco.logSeq }, saf := safRestart key s.saf,
    btn := { Baton.reset with mramEpoch := s.btn.mramEpoch }, svcSeq := s.svcSeq }

/-- A register that a software reset leaves: FCO_STATUS, the count of refusals since hardware reset, and the segments of
closed records. -/
def softKept (s : State) (a : Nat) : Bool :=
  a == Reg.FCO_STATUS_0 || a == Reg.FCO_STATUS_1 || a == Reg.SYS_REJECT_COUNT ||
    (List.range 16).any (fun g => segClosed s g && (a == Reg.CHR_SEG g || a == Reg.CHR_SEGSTAT g))

/-- Condition sources whose cause lies outside what a software reset restarts: die links, reference, field die. -/
def softRaised (e : Nat × Bool) : Bool := [0, 1, 35, 49, 50].contains (e.1 / 65536)

/-- A software reset (R463). -/
def softReset (s : State) : State :=
  { State.reset with
    pending := s.pending, freeCtr := s.freeCtr, regs := keepRegs (softKept s) s,
    mem := s.mem.filter (fun e => decide (Config.dramBase ≤ e.1 ∧ e.1 < Config.dramBase + 2 ^ 34)),
    sys := sysKept s.sys,
    time := { TimeBase.reset with
      cnt := s.time.cnt, epoch := s.time.epoch, prev := s.time.prev, ref10Ok := s.time.ref10Ok },
    fco := { Fco.reset with
      log := s.fco.log, logSeq := s.fco.logSeq, raised := s.fco.raised.filter softRaised,
      marks := s.fco.marks.filter (fun e => decide (Config.dramBase / 4 ≤ e.1)) },
    saf := s.saf, btn := { Baton.reset with mramEpoch := s.btn.mramEpoch }, svcSeq := s.svcSeq,
    fio := { Fio.reset with field := s.fio.field } }

/-- The first supply input rises past 18 V; `key` is the level of LOCKOUT_RESET then. -/
def execPowerOn (key : Bool) (s : State) : Host.Outcome State Fault Refusal :=
  let s := hardReset key s
  .next { s with sys := { s.sys with powered := true } }

/-- Loss of both supply inputs: the module stops, and what a hardware reset clears is lost. -/
def execSupplyLoss (s : State) : Host.Outcome State Fault Refusal :=
  let s := hardReset s.saf.key s
  .next { s with sys := { s.sys with powered := false } }

def execSupplyInputFault (input : Fin 2) (s : State) : Host.Outcome State Fault Refusal :=
  .next (occur (detect 53 input.val 0x3F 0) s)

/-- SYS_RESET: legal in every mode but RUN, and in RUN on a STANDBY unit (R462). It is answered before the reset. -/
def sysReset (r : Req) (act : State → State) (s : State) : State :=
  hmpRun r ⟨0x0043, .engineer, false, false, allModes⟩ (fun _ s =>
    if s.sys.mode = .run ∧ s.sys.role ≠ .standby then (s, some (.illegalInMode, []))
    else (act (hmpAnswer r.session r.seq .ok [] s), none)) s

def execSysResetHard (r : Req) (s : State) : Host.Outcome State Fault Refusal :=
  .next (sysReset r (fun s => hardReset s.saf.key s) s)
def execSysResetSoft (r : Req) (s : State) : Host.Outcome State Fault Refusal := .next (sysReset r softReset s)

/-! ### The boot sequence (R449, R459, R460, R467, R487) -/

/-- R467: the identity structures enter the ID block; a structure with a wrong CRC shows FORMAT 0 and raises FLASH. -/
def loadIds (ids : List (List Word)) (s : State) : State :=
  (List.range 5).foldl (fun s i =>
    let ws := ids.getD i []
    let ok := ws.length == 12 && crc32 (wordsBytes (ws.take 11)) == ws.getD 11 0
    let ws := if ok then ws else fieldSet (ws.getD 0 0) 31 16 0 :: ws.drop 1
    let s := (List.range 12).foldl (fun s w =>
      regSet (if i < 4 then Reg.ID_DIE i w else Reg.ID_MOD w) (ws.getD w 0) s) s
    let s := fset Fld.ID_STATUS_CRC_OK (setBit (fget s Fld.ID_STATUS_CRC_OK) i ok) s
    if ok then s else occur (detect 54 i 0x08 0) s) s

def bootFail (step cause : Nat) (s : State) : State :=
  fset Fld.SYS_BOOT_FAIL_STEP step (fset Fld.SYS_BOOT_FAIL_CAUSE cause s)

/-- A slot holds a loadable image whose values pass the check of R513. -/
def slotPasses (k : ImageKind) (x : FlashSlot) : Bool := x.loadable && (k != .commission || contentLegal x.content)

/-- R487: the slot from which a kind is loaded: the active one, or the other with FALLBACK; none if neither passes. -/
def pickSlot (k : ImageKind) (bad : BitVec 6) (s : State) : Option State :=
  let f := flashKind s k
  let ok := fun (b : Bool) => slotPasses k (if b then f.slotB else f.slotA) && !bad.getLsbD (2 * k.code + boolNat b)
  if ok f.bActive then some s
  else
    let s := occur (detect 54 (8 + k.code) 0x08 0) s
    if ok (!f.bActive) then
      some (fset Fld.SYS_IMG_FALLBACK (setBit (fget s Fld.SYS_IMG_FALLBACK) k.code true) (swapActive k s))
    else none

def activeProgram (s : State) : Option ProgramImage :=
  match s.sys.program.active.content with | .program p => some p | _ => none
def activeCommission (s : State) : Option CommImage :=
  match s.sys.commission.active.content with | .commission c => some c | _ => none

/-- The end of BOOT: role by R449, and COMMISSION, or LOCKOUT while the latch is set (R451). -/
def leaveBoot (s : State) : State :=
  let s := winImages s.saf.block s
  let s := setEpoch s.btn.mramEpoch { s with sys := { s.sys with
      role := if s.sys.comm.pair then .standby else .solo, statPartial := true, statPeriod := fget s Fld.STAT_PERIOD_PERIOD } }
  if s.saf.latch then enterLockoutNow s else enterCommission s

/-- The boot sequence ends: COMMISSION or LOCKOUT, or BOOT with the failing step in SYS_BOOT_FAIL. -/
def bootComplete (b : BootResult) (s : State) : State :=
  if s.sys.mode ≠ .boot ∨ s.sys.powered = false then s
  else
    let s := showImages (fset Fld.SYS_IMG_FALLBACK 0 (bootFail 0 0 (loadIds b.ids s)))
    if !b.secureOk then bootFail 1 1 s
    else match pickSlot .firmware b.badImages s with
    | none => bootFail 1 1 s
    | some s =>
      if !b.memOk then bootFail 2 2 s
      else match (pickSlot .program b.badImages s).bind (pickSlot .commission b.badImages) with
      | none => bootFail 3 3 s
      | some s =>
        match activeProgram s, activeCommission s with
        | some p, some c => leaveBoot (loadComm c (loadProgram p s))
        | _, _ => bootFail 3 3 s

def execBootComplete (b : BootResult) (s : State) : Host.Outcome State Fault Refusal := .next (bootComplete b s)

end Sys2Proof.Machine
end

