-- ==== Sys2Proof/Machine/FciInt.lean ====
section
/-! DEFINITION. The scalar integer, branch and predicate instructions of FCI (08_feano_instruction_set.md). -/

namespace Sys2Proof.Machine

/-- imm16 sign-extended, and zero-extended (R215). -/
def immS (i : Half) : Word := i.signExtend 32
def immZ (i : Half) : Word := i.setWidth 32

/-! ### The operations -/

def shiftAmt (b : Word) : Nat := b.toNat % 32
def boolWord (b : Bool) : Word := if b then 1 else 0

/-- A signed value saturated to 32 bits. -/
def satS (i : Int) : Word := BitVec.ofInt 32 (max (-(2 ^ 31)) (min (2 ^ 31 - 1) i))

def Alu.min (a b : Word) : Word := if b.slt a then b else a
def Alu.max (a b : Word) : Word := if a.slt b then b else a
def Alu.minu (a b : Word) : Word := if b < a then b else a
def Alu.maxu (a b : Word) : Word := if a < b then b else a
def Alu.mulh (a b : Word) : Word := BitVec.ofInt 32 (a.toInt * b.toInt / 2 ^ 32)
def Alu.mulhu (a b : Word) : Word := BitVec.ofNat 32 (a.toNat * b.toNat / 2 ^ 32)

/-- Quotients and remainders, with the special cases of R220. -/
def Alu.div (a b : Word) : Word := if b = 0 then 0xFFFFFFFF else BitVec.ofInt 32 (a.toInt.tdiv b.toInt)
def Alu.divu (a b : Word) : Word := if b = 0 then 0xFFFFFFFF else BitVec.ofNat 32 (a.toNat / b.toNat)
def Alu.rem (a b : Word) : Word := if b = 0 then a else BitVec.ofInt 32 (a.toInt.tmod b.toInt)
def Alu.remu (a b : Word) : Word := if b = 0 then a else BitVec.ofNat 32 (a.toNat % b.toNat)

/-- Leading zeros, 0 to 32. -/
def Alu.clz (a : Word) : Word :=
  BitVec.ofNat 32 (match (List.range 32).find? (fun i => a.getLsbD (31 - i)) with | some i => i | none => 32)
def Alu.popc (a : Word) : Word := BitVec.ofNat 32 (popCount 32 a.toNat)

/-- SHI: imm[6:5] selects the kind, imm[4:0] the amount. -/
def Alu.shi (a : Word) (imm : Half) : Word :=
  let n := imm.toNat % 32
  match imm.toNat / 32 % 4 with
  | 0 => a <<< n
  | 1 => a >>> n
  | 2 => a.sshiftRight n
  | _ => a.rotateRight n

/-! ### The forms -/

/-- Register form: d := f a b. -/
def fciRRR (c : Fin 8) (d a b : Fin 32) (cost lat : Nat) (f : Word → Word → Word) (s : State) : State :=
  fciReg c.val ⟨[a.val, b.val], some d.val, cost, lat, true⟩
    (fun k => k.setS d.val (f (k.getS a.val) (k.getS b.val))) s

/-- Register form of one operand; b = 0. -/
def fciRR (c : Fin 8) (d a b : Fin 32) (f : Word → Word) (s : State) : State :=
  fciReg c.val ⟨[a.val], some d.val, 1, 1, b.val == 0⟩ (fun k => k.setS d.val (f (k.getS a.val))) s

/-- Immediate form. -/
def fciRRI (c : Fin 8) (d a : Fin 32) (lat : Nat) (legal : Bool) (f : Word → Word) (s : State) : State :=
  fciReg c.val ⟨[a.val], some d.val, 1, lat, legal⟩ (fun k => k.setS d.val (f (k.getS a.val))) s

/-- ADD: d := a + b. -/
def execAdd (c : Fin 8) (d a b : Fin 32) (s : State) : Host.Outcome State Fault Refusal :=
  .next (fciRRR c d a b 1 1 (fun x y => x + y) s)

/-- SUB: d := a − b. -/
def execSub (c : Fin 8) (d a b : Fin 32) (s : State) : Host.Outcome State Fault Refusal :=
  .next (fciRRR c d a b 1 1 (fun x y => x - y) s)

/-- AND: bitwise. -/
def execAnd (c : Fin 8) (d a b : Fin 32) (s : State) : Host.Outcome State Fault Refusal :=
  .next (fciRRR c d a b 1 1 (fun x y => x &&& y) s)

/-- OR: bitwise. -/
def execOr (c : Fin 8) (d a b : Fin 32) (s : State) : Host.Outcome State Fault Refusal :=
  .next (fciRRR c d a b 1 1 (fun x y => x ||| y) s)

/-- XOR: bitwise. -/
def execXor (c : Fin 8) (d a b : Fin 32) (s : State) : Host.Outcome State Fault Refusal :=
  .next (fciRRR c d a b 1 1 (fun x y => x ^^^ y) s)

/-- SLL: shift left by b[4:0]. -/
def execSll (c : Fin 8) (d a b : Fin 32) (s : State) : Host.Outcome State Fault Refusal :=
  .next (fciRRR c d a b 1 1 (fun x y => x <<< shiftAmt y) s)

/-- SRL: logical right shift by b[4:0]. -/
def execSrl (c : Fin 8) (d a b : Fin 32) (s : State) : Host.Outcome State Fault Refusal :=
  .next (fciRRR c d a b 1 1 (fun x y => x >>> shiftAmt y) s)

/-- SRA: arithmetic right shift by b[4:0]. -/
def execSra (c : Fin 8) (d a b : Fin 32) (s : State) : Host.Outcome State Fault Refusal :=
  .next (fciRRR c d a b 1 1 (fun x y => x.sshiftRight (shiftAmt y)) s)

/-- SLT: signed a < b. -/
def execSlt (c : Fin 8) (d a b : Fin 32) (s : State) : Host.Outcome State Fault Refusal :=
  .next (fciRRR c d a b 1 1 (fun x y => boolWord (x.slt y)) s)

/-- SLTU: unsigned a < b. -/
def execSltu (c : Fin 8) (d a b : Fin 32) (s : State) : Host.Outcome State Fault Refusal :=
  .next (fciRRR c d a b 1 1 (fun x y => boolWord (x.ult y)) s)

/-- MIN: signed minimum. -/
def execMin (c : Fin 8) (d a b : Fin 32) (s : State) : Host.Outcome State Fault Refusal :=
  .next (fciRRR c d a b 1 1 Alu.min s)

/-- MAX: signed maximum. -/
def execMax (c : Fin 8) (d a b : Fin 32) (s : State) : Host.Outcome State Fault Refusal :=
  .next (fciRRR c d a b 1 1 Alu.max s)

/-- MINU: unsigned minimum. -/
def execMinu (c : Fin 8) (d a b : Fin 32) (s : State) : Host.Outcome State Fault Refusal :=
  .next (fciRRR c d a b 1 1 Alu.minu s)

/-- MAXU: unsigned maximum. -/
def execMaxu (c : Fin 8) (d a b : Fin 32) (s : State) : Host.Outcome State Fault Refusal :=
  .next (fciRRR c d a b 1 1 Alu.maxu s)

/-- ADDS: signed a + b, saturating. -/
def execAdds (c : Fin 8) (d a b : Fin 32) (s : State) : Host.Outcome State Fault Refusal :=
  .next (fciRRR c d a b 1 1 (fun x y => satS (x.toInt + y.toInt)) s)

/-- SUBS: signed a − b, saturating. -/
def execSubs (c : Fin 8) (d a b : Fin 32) (s : State) : Host.Outcome State Fault Refusal :=
  .next (fciRRR c d a b 1 1 (fun x y => satS (x.toInt - y.toInt)) s)

/-- MUL: low 32 bits of a × b. -/
def execMul (c : Fin 8) (d a b : Fin 32) (s : State) : Host.Outcome State Fault Refusal :=
  .next (fciRRR c d a b 1 3 (fun x y => x * y) s)

/-- MULH: high 32 bits of the signed product. -/
def execMulh (c : Fin 8) (d a b : Fin 32) (s : State) : Host.Outcome State Fault Refusal :=
  .next (fciRRR c d a b 1 3 Alu.mulh s)

/-- MULHU: high 32 bits of the unsigned product. -/
def execMulhu (c : Fin 8) (d a b : Fin 32) (s : State) : Host.Outcome State Fault Refusal :=
  .next (fciRRR c d a b 1 3 Alu.mulhu s)

/-- DIV: signed quotient, R220. -/
def execDiv (c : Fin 8) (d a b : Fin 32) (s : State) : Host.Outcome State Fault Refusal :=
  .next (fciRRR c d a b 34 34 Alu.div s)

/-- DIVU: unsigned quotient, R220. -/
def execDivu (c : Fin 8) (d a b : Fin 32) (s : State) : Host.Outcome State Fault Refusal :=
  .next (fciRRR c d a b 34 34 Alu.divu s)

/-- REM: signed remainder, R220. -/
def execRem (c : Fin 8) (d a b : Fin 32) (s : State) : Host.Outcome State Fault Refusal :=
  .next (fciRRR c d a b 34 34 Alu.rem s)

/-- REMU: unsigned remainder, R220. -/
def execRemu (c : Fin 8) (d a b : Fin 32) (s : State) : Host.Outcome State Fault Refusal :=
  .next (fciRRR c d a b 34 34 Alu.remu s)

/-- CLZ: leading zeros of a. -/
def execClz (c : Fin 8) (d a b : Fin 32) (s : State) : Host.Outcome State Fault Refusal :=
  .next (fciRR c d a b Alu.clz s)

/-- POPC: number of ones in a. -/
def execPopc (c : Fin 8) (d a b : Fin 32) (s : State) : Host.Outcome State Fault Refusal :=
  .next (fciRR c d a b Alu.popc s)

/-- SEXTB: sign-extend a[7:0]. -/
def execSextb (c : Fin 8) (d a b : Fin 32) (s : State) : Host.Outcome State Fault Refusal :=
  .next (fciRR c d a b (fun x => (x.setWidth 8).signExtend 32) s)

/-- SEXTH: sign-extend a[15:0]. -/
def execSexth (c : Fin 8) (d a b : Fin 32) (s : State) : Host.Outcome State Fault Refusal :=
  .next (fciRR c d a b (fun x => (x.setWidth 16).signExtend 32) s)

/-- ADDI: d := a + imm. -/
def execAddi (c : Fin 8) (d a : Fin 32) (imm : Half) (s : State) : Host.Outcome State Fault Refusal :=
  .next (fciRRI c d a 1 true (fun x => x + immS imm) s)

/-- MULI: low 32 bits of a × imm. -/
def execMuli (c : Fin 8) (d a : Fin 32) (imm : Half) (s : State) : Host.Outcome State Fault Refusal :=
  .next (fciRRI c d a 3 true (fun x => x * immS imm) s)

/-- ANDI: bitwise with imm. -/
def execAndi (c : Fin 8) (d a : Fin 32) (imm : Half) (s : State) : Host.Outcome State Fault Refusal :=
  .next (fciRRI c d a 1 true (fun x => x &&& immZ imm) s)

/-- ORI: bitwise with imm. -/
def execOri (c : Fin 8) (d a : Fin 32) (imm : Half) (s : State) : Host.Outcome State Fault Refusal :=
  .next (fciRRI c d a 1 true (fun x => x ||| immZ imm) s)

/-- XORI: bitwise with imm. -/
def execXori (c : Fin 8) (d a : Fin 32) (imm : Half) (s : State) : Host.Outcome State Fault Refusal :=
  .next (fciRRI c d a 1 true (fun x => x ^^^ immZ imm) s)

/-- SLTI: signed a < imm. -/
def execSlti (c : Fin 8) (d a : Fin 32) (imm : Half) (s : State) : Host.Outcome State Fault Refusal :=
  .next (fciRRI c d a 1 true (fun x => boolWord (x.slt (immS imm))) s)

/-- SLTIU: unsigned a < imm. -/
def execSltiu (c : Fin 8) (d a : Fin 32) (imm : Half) (s : State) : Host.Outcome State Fault Refusal :=
  .next (fciRRI c d a 1 true (fun x => boolWord (x.ult (immZ imm))) s)

/-- LUI: d := imm << 16; a = 0. -/
def execLui (c : Fin 8) (d a : Fin 32) (imm : Half) (s : State) : Host.Outcome State Fault Refusal :=
  .next (fciRRI c d a 1 (a.val == 0) (fun _ => immZ imm <<< 16) s)

/-- SHI: shift by an immediate; imm[15:7] = 0. -/
def execShi (c : Fin 8) (d a : Fin 32) (imm : Half) (s : State) : Host.Outcome State Fault Refusal :=
  .next (fciRRI c d a 1 (decide (imm.toNat < 128)) (fun x => Alu.shi x imm) s)

/-! ### Branches and jumps (R215, R218, R225) -/

/-- Go to `target` at the issue clock `t` and update the core by `upd`: two clocks, or the PC exception and no effect for
a target that is no code address. -/
def goTo (c t : Nat) (target : Word) (upd : Core → Core) (s : State) : Eff :=
  if codeAddr c target then .ok (setCore c { upd (core s c) with pc := target, next := t + 2 } s)
  else .exc Exc.pc target Acc.fetch s

/-- A branch on two registers; the offset counts words from the branch itself. -/
def fciBranch (c : Fin 8) (a b : Fin 32) (off : Half) (cond : Word → Word → Bool) (s : State) : State :=
  let pc := (core s c.val).pc
  fci c.val ⟨[a.val, b.val], none, 1, 0, true⟩ (fun t s =>
    let k := core s c.val
    if cond (k.getS a.val) (k.getS b.val) then goTo c.val t (pc + immS off * 4) id s else .ok s) s

/-- BEQ: branch if a = b. -/
def execBeq (c : Fin 8) (a b : Fin 32) (off : Half) (s : State) : Host.Outcome State Fault Refusal :=
  .next (fciBranch c a b off (fun x y => x == y) s)

/-- BNE: branch if a ≠ b. -/
def execBne (c : Fin 8) (a b : Fin 32) (off : Half) (s : State) : Host.Outcome State Fault Refusal :=
  .next (fciBranch c a b off (fun x y => x != y) s)

/-- BLT: branch if a < b, signed. -/
def execBlt (c : Fin 8) (a b : Fin 32) (off : Half) (s : State) : Host.Outcome State Fault Refusal :=
  .next (fciBranch c a b off (fun x y => x.slt y) s)

/-- BGE: branch if a ≥ b, signed. -/
def execBge (c : Fin 8) (a b : Fin 32) (off : Half) (s : State) : Host.Outcome State Fault Refusal :=
  .next (fciBranch c a b off (fun x y => !x.slt y) s)

/-- BDNZ: a := a − 1 with λ = 1, and branch if the new a is not zero; b = 0. For a = S0 the
decremented value decides, though S0 stays zero (log entry 16). -/
def bdnz (c : Fin 8) (a b : Fin 32) (off : Half) (s : State) : State :=
  let pc := (core s c.val).pc
  fci c.val ⟨[a.val], some a.val, 1, 1, b.val == 0⟩ (fun t s =>
    let k := core s c.val
    let v := k.getS a.val - 1
    if v != 0 then goTo c.val t (pc + immS off * 4) (fun k => k.setS a.val v) s
    else .ok (setCore c.val (k.setS a.val v) s)) s

def execBdnz (c : Fin 8) (a b : Fin 32) (off : Half) (s : State) : Host.Outcome State Fault Refusal :=
  .next (bdnz c a b off s)

/-- J: PC := PC + 4 × offset. -/
def jump (c : Fin 8) (off : BitVec 26) (s : State) : State :=
  let pc := (core s c.val).pc
  fci c.val ⟨[], none, 2, 0, true⟩ (fun t s => goTo c.val t (pc + off.signExtend 32 * 4) id s) s

def execJ (c : Fin 8) (off : BitVec 26) (s : State) : Host.Outcome State Fault Refusal := .next (jump c off s)

/-- JAL: S31 := PC + 4 as well. -/
def jumpLink (c : Fin 8) (off : BitVec 26) (s : State) : State :=
  let pc := (core s c.val).pc
  fci c.val ⟨[], some 31, 2, 1, true⟩ (fun t s =>
    goTo c.val t (pc + off.signExtend 32 * 4) (fun k => k.setS 31 (pc + 4)) s) s

def execJal (c : Fin 8) (off : BitVec 26) (s : State) : Host.Outcome State Fault Refusal := .next (jumpLink c off s)

/-- JR: PC := a; d = 0 and b = 0. -/
def jumpReg (c : Fin 8) (d a b : Fin 32) (s : State) : State :=
  fci c.val ⟨[a.val], none, 2, 0, d.val == 0 && b.val == 0⟩ 
    (fun t s => goTo c.val t ((core s c.val).getS a.val) id s) s

def execJr (c : Fin 8) (d a b : Fin 32) (s : State) : Host.Outcome State Fault Refusal := .next (jumpReg c d a b s)

/-- JALR: d := PC + 4 as well; b = 0. The target is a as it was before d is written. -/
def jumpRegLink (c : Fin 8) (d a b : Fin 32) (s : State) : State :=
  let pc := (core s c.val).pc
  fci c.val ⟨[a.val], some d.val, 2, 1, b.val == 0⟩ (fun t s =>
    goTo c.val t ((core s c.val).getS a.val) (fun k => k.setS d.val (pc + 4)) s) s

def execJalr (c : Fin 8) (d a b : Fin 32) (s : State) : Host.Outcome State Fault Refusal :=
  .next (jumpRegLink c d a b s)

/-! ### Predicates (R211, R214): a field names a predicate register in its low three bits, the others zero -/

def predField (i : Fin 32) : Bool := decide (i.val < 8)
/-- A predicate destination: P0 is none (R211). -/
def predDst (i : Fin 32) : Bool := predField i && i.val != 0

def fciPred (c : Fin 8) (d : Fin 32) (legal : Bool) (srcs : List Nat) (f : Core → BitVec 16) (s : State) : State :=
  fciReg c.val ⟨srcs, some (48 + d.val), 1, 1, legal && predDst d⟩ (fun k => k.setP d.val (f k)) s

/-- PAND: P_d := P_a and P_b. -/
def execPand (c : Fin 8) (d a b : Fin 32) (s : State) : Host.Outcome State Fault Refusal :=
  .next (fciPred c d (predField a && predField b) [48 + a.val, 48 + b.val] (fun k => k.getP a.val &&& k.getP b.val) s)

/-- POR: P_d := P_a or P_b. -/
def execPor (c : Fin 8) (d a b : Fin 32) (s : State) : Host.Outcome State Fault Refusal :=
  .next (fciPred c d (predField a && predField b) [48 + a.val, 48 + b.val] (fun k => k.getP a.val ||| k.getP b.val) s)

/-- PXOR: P_d := P_a xor P_b. -/
def execPxor (c : Fin 8) (d a b : Fin 32) (s : State) : Host.Outcome State Fault Refusal :=
  .next (fciPred c d (predField a && predField b) [48 + a.val, 48 + b.val] (fun k => k.getP a.val ^^^ k.getP b.val) s)

/-- PNOT: P_d := not P_a; b = 0. -/
def execPnot (c : Fin 8) (d a b : Fin 32) (s : State) : Host.Outcome State Fault Refusal :=
  .next (fciPred c d (predField a && b.val == 0) [48 + a.val] (fun k => ~~~(k.getP a.val)) s)

/-- PFROM: P_d := S_a[15:0]; b = 0. -/
def execPfrom (c : Fin 8) (d a b : Fin 32) (s : State) : Host.Outcome State Fault Refusal :=
  .next (fciPred c d (b.val == 0) [a.val] (fun k => (k.getS a.val).setWidth 16) s)

/-- PTO: S_d := P_a zero-extended; b = 0. -/
def execPto (c : Fin 8) (d a b : Fin 32) (s : State) : Host.Outcome State Fault Refusal :=
  .next (fciReg c.val ⟨[48 + a.val], some d.val, 1, 1, predField a && b.val == 0⟩
    (fun k => k.setS d.val ((k.getP a.val).setWidth 32)) s)

/-- PCNT: S_d := number of ones in P_a; b = 0. -/
def execPcnt (c : Fin 8) (d a b : Fin 32) (s : State) : Host.Outcome State Fault Refusal :=
  .next (fciReg c.val ⟨[48 + a.val], some d.val, 1, 1, predField a && b.val == 0⟩
    (fun k => k.setS d.val (BitVec.ofNat 32 (popCount 16 (k.getP a.val).toNat))) s)

end Sys2Proof.Machine
end

