-- ==== Sys2Proof/Machine/FciFp.lean ====
section
/-! DEFINITION. The scalar FP32 instructions of FCI (R221). -/

namespace Sys2Proof.Machine

/-- d := f a b, with the flags it sets. -/
def fciFff (c : Fin 8) (d a b : Fin 32) (cost lat : Nat) (f : Word → Word → FRes) (s : State) : State :=
  fciReg c.val ⟨[a.val, b.val], some d.val, cost, lat, true⟩ (fun k =>
    let r := f (k.getS a.val) (k.getS b.val)
    (k.setS d.val r.val).orFlags r.flags) s

/-- d := f a; b = 0. -/
def fciFf (c : Fin 8) (d a b : Fin 32) (cost lat : Nat) (f : Word → FRes) (s : State) : State :=
  fciReg c.val ⟨[a.val], some d.val, cost, lat, b.val == 0⟩ (fun k =>
    let r := f (k.getS a.val)
    (k.setS d.val r.val).orFlags r.flags) s

/-- d := f d a b, fused; d is read. -/
def fciFfma (c : Fin 8) (d a b : Fin 32) (f : Word → Word → Word → FRes) (s : State) : State :=
  fciReg c.val ⟨[d.val, a.val, b.val], some d.val, 1, 4, true⟩ (fun k =>
    let r := f (k.getS d.val) (k.getS a.val) (k.getS b.val)
    (k.setS d.val r.val).orFlags r.flags) s

/-- FADD: d := a + b. -/
def execFadd (c : Fin 8) (d a b : Fin 32) (s : State) : Host.Outcome State Fault Refusal :=
  .next (fciFff c d a b 1 4 F32.add s)

/-- FSUB: d := a − b. -/
def execFsub (c : Fin 8) (d a b : Fin 32) (s : State) : Host.Outcome State Fault Refusal :=
  .next (fciFff c d a b 1 4 F32.sub s)

/-- FMUL: d := a × b. -/
def execFmul (c : Fin 8) (d a b : Fin 32) (s : State) : Host.Outcome State Fault Refusal :=
  .next (fciFff c d a b 1 4 F32.mul s)

/-- FDIV: d := a / b. -/
def execFdiv (c : Fin 8) (d a b : Fin 32) (s : State) : Host.Outcome State Fault Refusal :=
  .next (fciFff c d a b 14 14 F32.div s)

/-- FMIN: minimum. -/
def execFmin (c : Fin 8) (d a b : Fin 32) (s : State) : Host.Outcome State Fault Refusal :=
  .next (fciFff c d a b 1 1 F32.min s)

/-- FMAX: maximum. -/
def execFmax (c : Fin 8) (d a b : Fin 32) (s : State) : Host.Outcome State Fault Refusal :=
  .next (fciFff c d a b 1 1 F32.max s)

/-- FEQ: d := 1 if a = b. -/
def execFeq (c : Fin 8) (d a b : Fin 32) (s : State) : Host.Outcome State Fault Refusal :=
  .next (fciFff c d a b 1 2 F32.eq s)

/-- FLT: d := 1 if a < b. -/
def execFlt (c : Fin 8) (d a b : Fin 32) (s : State) : Host.Outcome State Fault Refusal :=
  .next (fciFff c d a b 1 2 F32.lt s)

/-- FLE: d := 1 if a ≤ b. -/
def execFle (c : Fin 8) (d a b : Fin 32) (s : State) : Host.Outcome State Fault Refusal :=
  .next (fciFff c d a b 1 2 F32.le s)

/-- FSQRT: d := √a; b = 0. -/
def execFsqrt (c : Fin 8) (d a b : Fin 32) (s : State) : Host.Outcome State Fault Refusal :=
  .next (fciFf c d a b 16 16 F32.sqrt s)

/-- FABS: sign bit cleared; b = 0. -/
def execFabs (c : Fin 8) (d a b : Fin 32) (s : State) : Host.Outcome State Fault Refusal :=
  .next (fciFf c d a b 1 1 F32.abs s)

/-- FNEG: sign bit inverted; b = 0. -/
def execFneg (c : Fin 8) (d a b : Fin 32) (s : State) : Host.Outcome State Fault Refusal :=
  .next (fciFf c d a b 1 1 F32.neg s)

/-- FCVTSW: signed integer to FP32; b = 0. -/
def execFcvtsw (c : Fin 8) (d a b : Fin 32) (s : State) : Host.Outcome State Fault Refusal :=
  .next (fciFf c d a b 1 4 F32.ofInt s)

/-- FCVTWS: FP32 to signed integer, to nearest; b = 0. -/
def execFcvtws (c : Fin 8) (d a b : Fin 32) (s : State) : Host.Outcome State Fault Refusal :=
  .next (fciFf c d a b 1 4 (F32.toInt false) s)

/-- FCVTWSZ: FP32 to signed integer, toward zero; b = 0. -/
def execFcvtwsz (c : Fin 8) (d a b : Fin 32) (s : State) : Host.Outcome State Fault Refusal :=
  .next (fciFf c d a b 1 4 (F32.toInt true) s)

/-- FMAC: d := d + a × b. -/
def execFmac (c : Fin 8) (d a b : Fin 32) (s : State) : Host.Outcome State Fault Refusal :=
  .next (fciFfma c d a b F32.fmac s)

/-- FMSC: d := d − a × b. -/
def execFmsc (c : Fin 8) (d a b : Fin 32) (s : State) : Host.Outcome State Fault Refusal :=
  .next (fciFfma c d a b F32.fmsc s)

end Sys2Proof.Machine
end

