-- ==== Sys2Proof/Machine/FciVec.lean ====
section
/-! DEFINITION. The vector instructions of FCI that work on registers (R226, R227). A vector field names V0 to V15, so
a field of 16 or more is no legal encoding (log entry 15). -/

namespace Sys2Proof.Machine

def vecField (i : Fin 32) : Bool := decide (i.val < 16)

/-- Apply `f`, lane number to result, in the active lanes of `pp`, collecting flags. -/
def Core.lanes (k : Core) (d pp : Nat) (f : Core → Nat → FRes) : Core :=
  (List.range 16).foldl (fun k' j => if k.active pp j then (k'.setV d j (f k j).val).orFlags (f k j).flags else k') k

/-- A vector instruction with a vector destination. -/
def fciVec (c : Fin 8) (d : Fin 32) (pp : Fin 8) (legal : Bool) (srcs : List Nat) (lat : Nat) (f : Core → Nat → FRes)
    (s : State) : State :=
  fciReg c.val ⟨(32 + d.val) :: (48 + pp.val) :: srcs, some (32 + d.val), 1, lat, legal && vecField d⟩
    (fun k => k.lanes d.val pp.val f) s

/-- V_d := f V_a V_b in each active lane. -/
def fciVvv (c : Fin 8) (d a b : Fin 32) (pp : Fin 8) (lat : Nat) (f : Word → Word → FRes) (s : State) : State :=
  fciVec c d pp (vecField a && vecField b) [32 + a.val, 32 + b.val] lat
    (fun k j => f (k.getV a.val j) (k.getV b.val j)) s

/-- V_d := f V_a in each active lane; b = 0. -/
def fciVv (c : Fin 8) (d a b : Fin 32) (pp : Fin 8) (lat : Nat) (f : Word → FRes) (s : State) : State :=
  fciVec c d pp (vecField a && b.val == 0) [32 + a.val] lat (fun k j => f (k.getV a.val j)) s

/-- V_d := f V_d V_a V_b, fused. -/
def fciVvma (c : Fin 8) (d a b : Fin 32) (pp : Fin 8) (f : Word → Word → Word → FRes) (s : State) : State :=
  fciVec c d pp (vecField a && vecField b) [32 + a.val, 32 + b.val] 4
    (fun k j => f (k.getV d.val j) (k.getV a.val j) (k.getV b.val j)) s

/-- V_d := f V_a S_b. -/
def fciVvs (c : Fin 8) (d a b : Fin 32) (pp : Fin 8) (lat : Nat) (f : Word → Word → FRes) (s : State) : State :=
  fciVec c d pp (vecField a) [32 + a.val, b.val] lat (fun k j => f (k.getV a.val j) (k.getS b.val)) s

/-- V_d := f V_d V_a S_b, fused. -/
def fciVvsma (c : Fin 8) (d a b : Fin 32) (pp : Fin 8) (f : Word → Word → Word → FRes) (s : State) : State :=
  fciVec c d pp (vecField a) [32 + a.val, b.val] 4
    (fun k j => f (k.getV d.val j) (k.getV a.val j) (k.getS b.val)) s

/-- The predicate word of a compare: an inactive lane gives 0 (R226). -/
def Core.compare (k : Core) (pp : Nat) (f : Nat → FRes) : BitVec 16 :=
  BitVec.ofNat 16 ((List.range 16).foldl (fun m j => if k.active pp j && (f j).val == 1 then m + 2 ^ j else m) 0)

def Core.laneFlags (k : Core) (pp : Nat) (f : Nat → FRes) : Word :=
  (List.range 16).foldl (fun m j => if k.active pp j then m ||| (f j).flags else m) 0

/-- P_d := relation of V_a and V_b, lane by lane. -/
def fciVcmp (c : Fin 8) (d a b : Fin 32) (pp : Fin 8) (f : Word → Word → FRes) (s : State) : State :=
  fciReg c.val ⟨[48 + pp.val, 32 + a.val, 32 + b.val], some (48 + d.val), 1, 2,
      predDst d && vecField a && vecField b⟩ (fun k =>
    let g := fun j => f (k.getV a.val j) (k.getV b.val j)
    (k.setP d.val (k.compare pp.val g)).orFlags (k.laneFlags pp.val g)) s

/-! ### Reductions (R227) -/

def activeLanes (k : Core) (pp a : Nat) : List Word :=
  ((List.range 16).filter (fun j => k.active pp j)).map (fun j => k.getV a j)

/-- The sum of the active lanes, modulo 2³². -/
def redAdd (k : Core) (pp a : Nat) : FRes := ⟨(activeLanes k pp a).foldl (· + ·) 0, 0⟩

/-- One level of the pairwise tree of R227. -/
def redPairs : List FRes → List FRes
  | x :: y :: r =>
    let z := F32.add x.val y.val
    ⟨z.val, x.flags ||| y.flags ||| z.flags⟩ :: redPairs r
  | l => l

/-- VFREDADD: an inactive lane enters the tree as +0.0. -/
def redFAdd (k : Core) (pp a : Nat) : FRes :=
  let l := (List.range 16).map (fun j => (⟨if k.active pp j then k.getV a j else 0, 0⟩ : FRes))
  (redPairs (redPairs (redPairs (redPairs l)))).headD ⟨0, 0⟩

/-- VFREDMAX and VFREDMIN: inactive lanes are skipped; with no active lane, the default NaN. -/
def redFold (f : Word → Word → FRes) (k : Core) (pp a : Nat) : FRes :=
  (activeLanes k pp a).foldl (fun r w => ⟨(f r.val w).val, r.flags ||| (f r.val w).flags⟩) ⟨F32.nan, 0⟩

def fciRed (c : Fin 8) (d a b : Fin 32) (pp : Fin 8) (lat : Nat) (f : Core → Nat → Nat → FRes) (s : State) : State :=
  fciReg c.val ⟨[48 + pp.val, 32 + a.val], some d.val, 1, lat, vecField a && b.val == 0⟩ (fun k =>
    let r := f k pp.val a.val
    (k.setS d.val r.val).orFlags r.flags) s

/-! ### The instructions -/

/-- An integer result sets no flag. -/
def intRes (w : Word) : FRes := ⟨w, 0⟩

/-- VADD: as ADD. -/
def execVadd (c : Fin 8) (d a b : Fin 32) (pp : Fin 8) (s : State) : Host.Outcome State Fault Refusal :=
  .next (fciVvv c d a b pp 2 (fun x y => intRes (x + y)) s)

/-- VSUB: as SUB. -/
def execVsub (c : Fin 8) (d a b : Fin 32) (pp : Fin 8) (s : State) : Host.Outcome State Fault Refusal :=
  .next (fciVvv c d a b pp 2 (fun x y => intRes (x - y)) s)

/-- VAND: as AND. -/
def execVand (c : Fin 8) (d a b : Fin 32) (pp : Fin 8) (s : State) : Host.Outcome State Fault Refusal :=
  .next (fciVvv c d a b pp 2 (fun x y => intRes (x &&& y)) s)

/-- VOR: as OR. -/
def execVor (c : Fin 8) (d a b : Fin 32) (pp : Fin 8) (s : State) : Host.Outcome State Fault Refusal :=
  .next (fciVvv c d a b pp 2 (fun x y => intRes (x ||| y)) s)

/-- VXOR: as XOR. -/
def execVxor (c : Fin 8) (d a b : Fin 32) (pp : Fin 8) (s : State) : Host.Outcome State Fault Refusal :=
  .next (fciVvv c d a b pp 2 (fun x y => intRes (x ^^^ y)) s)

/-- VSLL: shift left by lane of b. -/
def execVsll (c : Fin 8) (d a b : Fin 32) (pp : Fin 8) (s : State) : Host.Outcome State Fault Refusal :=
  .next (fciVvv c d a b pp 2 (fun x y => intRes (x <<< shiftAmt y)) s)

/-- VSRL: logical right shift by lane of b. -/
def execVsrl (c : Fin 8) (d a b : Fin 32) (pp : Fin 8) (s : State) : Host.Outcome State Fault Refusal :=
  .next (fciVvv c d a b pp 2 (fun x y => intRes (x >>> shiftAmt y)) s)

/-- VSRA: arithmetic right shift by lane of b. -/
def execVsra (c : Fin 8) (d a b : Fin 32) (pp : Fin 8) (s : State) : Host.Outcome State Fault Refusal :=
  .next (fciVvv c d a b pp 2 (fun x y => intRes (x.sshiftRight (shiftAmt y))) s)

/-- VMIN: signed minimum. -/
def execVmin (c : Fin 8) (d a b : Fin 32) (pp : Fin 8) (s : State) : Host.Outcome State Fault Refusal :=
  .next (fciVvv c d a b pp 2 (fun x y => intRes (Alu.min x y)) s)

/-- VMAX: signed maximum. -/
def execVmax (c : Fin 8) (d a b : Fin 32) (pp : Fin 8) (s : State) : Host.Outcome State Fault Refusal :=
  .next (fciVvv c d a b pp 2 (fun x y => intRes (Alu.max x y)) s)

/-- VMUL: low 32 bits of the product. -/
def execVmul (c : Fin 8) (d a b : Fin 32) (pp : Fin 8) (s : State) : Host.Outcome State Fault Refusal :=
  .next (fciVvv c d a b pp 4 (fun x y => intRes (x * y)) s)

/-- VFADD: as FADD. -/
def execVfadd (c : Fin 8) (d a b : Fin 32) (pp : Fin 8) (s : State) : Host.Outcome State Fault Refusal :=
  .next (fciVvv c d a b pp 4 F32.add s)

/-- VFSUB: as FSUB. -/
def execVfsub (c : Fin 8) (d a b : Fin 32) (pp : Fin 8) (s : State) : Host.Outcome State Fault Refusal :=
  .next (fciVvv c d a b pp 4 F32.sub s)

/-- VFMUL: as FMUL. -/
def execVfmul (c : Fin 8) (d a b : Fin 32) (pp : Fin 8) (s : State) : Host.Outcome State Fault Refusal :=
  .next (fciVvv c d a b pp 4 F32.mul s)

/-- VFMIN: as FMIN. -/
def execVfmin (c : Fin 8) (d a b : Fin 32) (pp : Fin 8) (s : State) : Host.Outcome State Fault Refusal :=
  .next (fciVvv c d a b pp 2 F32.min s)

/-- VFMAX: as FMAX. -/
def execVfmax (c : Fin 8) (d a b : Fin 32) (pp : Fin 8) (s : State) : Host.Outcome State Fault Refusal :=
  .next (fciVvv c d a b pp 2 F32.max s)

/-- VFABS: as FABS. -/
def execVfabs (c : Fin 8) (d a b : Fin 32) (pp : Fin 8) (s : State) : Host.Outcome State Fault Refusal :=
  .next (fciVv c d a b pp 2 F32.abs s)

/-- VFNEG: as FNEG. -/
def execVfneg (c : Fin 8) (d a b : Fin 32) (pp : Fin 8) (s : State) : Host.Outcome State Fault Refusal :=
  .next (fciVv c d a b pp 2 F32.neg s)

/-- VFCVTSW: as FCVTSW. -/
def execVfcvtsw (c : Fin 8) (d a b : Fin 32) (pp : Fin 8) (s : State) : Host.Outcome State Fault Refusal :=
  .next (fciVv c d a b pp 4 F32.ofInt s)

/-- VFCVTWS: as FCVTWS. -/
def execVfcvtws (c : Fin 8) (d a b : Fin 32) (pp : Fin 8) (s : State) : Host.Outcome State Fault Refusal :=
  .next (fciVv c d a b pp 4 (F32.toInt false) s)

/-- VFCVTWSZ: as FCVTWSZ. -/
def execVfcvtwsz (c : Fin 8) (d a b : Fin 32) (pp : Fin 8) (s : State) : Host.Outcome State Fault Refusal :=
  .next (fciVv c d a b pp 4 (F32.toInt true) s)

/-- VFMAC: d := d + a × b, fused. -/
def execVfmac (c : Fin 8) (d a b : Fin 32) (pp : Fin 8) (s : State) : Host.Outcome State Fault Refusal :=
  .next (fciVvma c d a b pp F32.fmac s)

/-- VFMSC: d := d − a × b, fused. -/
def execVfmsc (c : Fin 8) (d a b : Fin 32) (pp : Fin 8) (s : State) : Host.Outcome State Fault Refusal :=
  .next (fciVvma c d a b pp F32.fmsc s)

/-- VFADD.S: d := a + S_b. -/
def execVfaddS (c : Fin 8) (d a b : Fin 32) (pp : Fin 8) (s : State) : Host.Outcome State Fault Refusal :=
  .next (fciVvs c d a b pp 4 F32.add s)

/-- VFMUL.S: d := a × S_b. -/
def execVfmulS (c : Fin 8) (d a b : Fin 32) (pp : Fin 8) (s : State) : Host.Outcome State Fault Refusal :=
  .next (fciVvs c d a b pp 4 F32.mul s)

/-- VADD.S: d := a + S_b, integer. -/
def execVaddS (c : Fin 8) (d a b : Fin 32) (pp : Fin 8) (s : State) : Host.Outcome State Fault Refusal :=
  .next (fciVvs c d a b pp 2 (fun x y => intRes (x + y)) s)

/-- VFMAC.S: d := d + a × S_b, fused. -/
def execVfmacS (c : Fin 8) (d a b : Fin 32) (pp : Fin 8) (s : State) : Host.Outcome State Fault Refusal :=
  .next (fciVvsma c d a b pp F32.fmac s)

/-- VFMSC.S: d := d − a × S_b, fused. -/
def execVfmscS (c : Fin 8) (d a b : Fin 32) (pp : Fin 8) (s : State) : Host.Outcome State Fault Refusal :=
  .next (fciVvsma c d a b pp F32.fmsc s)

/-- VCEQ: P_d := a = b. -/
def execVceq (c : Fin 8) (d a b : Fin 32) (pp : Fin 8) (s : State) : Host.Outcome State Fault Refusal :=
  .next (fciVcmp c d a b pp (fun x y => intRes (boolWord (x == y))) s)

/-- VCNE: P_d := a ≠ b. -/
def execVcne (c : Fin 8) (d a b : Fin 32) (pp : Fin 8) (s : State) : Host.Outcome State Fault Refusal :=
  .next (fciVcmp c d a b pp (fun x y => intRes (boolWord (x != y))) s)

/-- VCLT: P_d := signed a < b. -/
def execVclt (c : Fin 8) (d a b : Fin 32) (pp : Fin 8) (s : State) : Host.Outcome State Fault Refusal :=
  .next (fciVcmp c d a b pp (fun x y => intRes (boolWord (x.slt y))) s)

/-- VCLE: P_d := signed a ≤ b. -/
def execVcle (c : Fin 8) (d a b : Fin 32) (pp : Fin 8) (s : State) : Host.Outcome State Fault Refusal :=
  .next (fciVcmp c d a b pp (fun x y => intRes (boolWord (x.sle y))) s)

/-- VFCEQ: P_d := FP32 a = b. -/
def execVfceq (c : Fin 8) (d a b : Fin 32) (pp : Fin 8) (s : State) : Host.Outcome State Fault Refusal :=
  .next (fciVcmp c d a b pp F32.eq s)

/-- VFCLT: P_d := FP32 a < b. -/
def execVfclt (c : Fin 8) (d a b : Fin 32) (pp : Fin 8) (s : State) : Host.Outcome State Fault Refusal :=
  .next (fciVcmp c d a b pp F32.lt s)

/-- VFCLE: P_d := FP32 a ≤ b. -/
def execVfcle (c : Fin 8) (d a b : Fin 32) (pp : Fin 8) (s : State) : Host.Outcome State Fault Refusal :=
  .next (fciVcmp c d a b pp F32.le s)

/-- VREDADD: S_d := integer sum. -/
def execVredadd (c : Fin 8) (d a b : Fin 32) (pp : Fin 8) (s : State) : Host.Outcome State Fault Refusal :=
  .next (fciRed c d a b pp 5 redAdd s)

/-- VFREDADD: S_d := FP32 sum in a pairwise tree. -/
def execVfredadd (c : Fin 8) (d a b : Fin 32) (pp : Fin 8) (s : State) : Host.Outcome State Fault Refusal :=
  .next (fciRed c d a b pp 16 redFAdd s)

/-- VFREDMAX: S_d := FP32 maximum. -/
def execVfredmax (c : Fin 8) (d a b : Fin 32) (pp : Fin 8) (s : State) : Host.Outcome State Fault Refusal :=
  .next (fciRed c d a b pp 8 (redFold F32.max) s)

/-- VFREDMIN: S_d := FP32 minimum. -/
def execVfredmin (c : Fin 8) (d a b : Fin 32) (pp : Fin 8) (s : State) : Host.Outcome State Fault Refusal :=
  .next (fciRed c d a b pp 8 (redFold F32.min) s)

/-- VMOV: d := a; b = 0. -/
def execVmov (c : Fin 8) (d a b : Fin 32) (pp : Fin 8) (s : State) : Host.Outcome State Fault Refusal :=
  .next (fciVv c d a b pp 2 intRes s)

/-- VSPLAT: d := S_a in every active lane; b = 0. -/
def execVsplat (c : Fin 8) (d a b : Fin 32) (pp : Fin 8) (s : State) : Host.Outcome State Fault Refusal :=
  .next (fciVec c d pp (b.val == 0) [a.val] 2 (fun k _ => intRes (k.getS a.val)) s)

/-- VEXT: S_d := lane b of V_a; pp = 0. -/
def execVext (c : Fin 8) (d a b : Fin 32) (pp : Fin 8) (s : State) : Host.Outcome State Fault Refusal :=
  .next (fciReg c.val ⟨[32 + a.val], some d.val, 1, 2, pp.val == 0 && vecField a && vecField b⟩
    (fun k => k.setS d.val (k.getV a.val b.val)) s)

/-- VINS: lane b of V_d := S_a; pp = 0. -/
def execVins (c : Fin 8) (d a b : Fin 32) (pp : Fin 8) (s : State) : Host.Outcome State Fault Refusal :=
  .next (fciReg c.val ⟨[a.val], some (32 + d.val), 1, 2, pp.val == 0 && vecField d && vecField b⟩
    (fun k => k.setV d.val b.val (k.getS a.val)) s)

end Sys2Proof.Machine
end

