-- ==== Sys2Proof/Machine/FciCtl.lean ====
section
/-! DEFINITION. Special registers, barriers, cycle end, TRAP, FENCE and TWAIT (R213, R228 to R231). -/

namespace Sys2Proof.Machine

/-! ### Special registers (R213) -/

def evtFlow (s : State) (c : Nat) : Word :=
  if !isEventCore c then 0
  else match curSlot s (c - 4) with
  | some e => BitVec.ofNat 32 (e.cls % 4 * 65536 + e.flow % 65536)
  | none => 0

/-- The special register numbers that exist. -/
def specialExists (n : Nat) : Bool :=
  decide (n ≤ 0x006) || (decide (0x008 ≤ n) && decide (n ≤ 0x00B)) || (decide (0x010 ≤ n) && decide (n ≤ 0x014)) ||
    n == 0x020 || n == 0x040

/-- What a special register reads at clock `t`. -/
def specialRead (s : State) (c t n : Nat) : Word :=
  let k := core s c
  match n with
  | 0x000 => cycleNo s
  | 0x001 => BitVec.ofNat 32 (if isEventCore c then 16 + (c - 4) else c)
  | 0x002 => if isEventCore c then 0 else BitVec.ofNat 32 (budgetLoad s - t)
  | 0x003 => BitVec.ofNat 32 (toffAt c t s)
  | 0x004 => splitNs (splitOf (timeAt s (cntAt c t s)))
  | 0x005 => k.timeSlo
  | 0x006 => k.timeShi
  | 0x008 => k.fpsr
  | 0x009 => k.engTmo
  | 0x00A => k.engStatus
  | 0x00B => k.engDbase
  | 0x010 => k.epc
  | 0x011 => k.ecause
  | 0x012 => k.eaddr
  | 0x013 => k.ecycle
  | 0x014 => k.ecount
  | 0x020 => s.sys.prog.barmask
  | 0x040 => evtFlow s c
  | _ => 0

/-- A read of TIME_NS latches TIME_SLO and TIME_SHI. -/
def latchTime (c t n : Nat) (s : State) : State :=
  if n = 0x004 then
    let x := splitOf (timeAt s (cntAt c t s))
    setCore c { core s c with timeSlo := splitLo x, timeShi := BitVec.ofNat 32 (splitHi x) } s
  else s

/-- λ of MFS: 6 for TOFF and the TIME registers, else 2. -/
def specialLat (n : Nat) : Nat := if 0x003 ≤ n ∧ n ≤ 0x006 then 6 else 2

/-- MFS: S_d := special register imm16; a = 0. -/
def mfs (c : Fin 8) (d a : Fin 32) (imm : Half) (s : State) : State :=
  let n := imm.toNat
  fci c.val ⟨[64 + n], some d.val, 1, specialLat n, a.val == 0 && specialExists n⟩ (fun t s =>
    let w := specialRead s c.val t n
    let s := latchTime c.val t n s
    .ok (setCore c.val ((core s c.val).setS d.val w) s)) s

def execMfs (c : Fin 8) (d a : Fin 32) (imm : Half) (s : State) : Host.Outcome State Fault Refusal :=
  .next (mfs c d a imm s)

/-- What an MTS stores (R213): only FPSR, ENG_TMO and ENG_DBASE are RW. -/
def Core.setSpecial (k : Core) (n : Nat) (w : Word) : Core :=
  match n with
  | 0x008 => { k with fpsr := w &&& 0x1F }
  | 0x009 => { k with engTmo := clampTmo w }
  | 0x00B => { k with engDbase := w &&& 0xFFFFFFF0 }
  | _ => k

/-- MTS: special register imm16 := S_a; d = 0. -/
def mts (c : Fin 8) (d a : Fin 32) (imm : Half) (s : State) : State :=
  let n := imm.toNat
  fciReg c.val ⟨[a.val], some (64 + n), 1, 2, d.val == 0 && (n == 0x008 || n == 0x009 || n == 0x00B)⟩
    (fun k => k.setSpecial n (k.getS a.val)) s

def execMts (c : Fin 8) (d a : Fin 32) (imm : Half) (s : State) : Host.Outcome State Fault Refusal :=
  .next (mts c d a imm s)

/-! ### Barriers and the end of the cycle (R228, R229) -/

/-- Cycle core `c` is a member of barrier `n`. -/
def barMember (s : State) (n c : Nat) : Bool := s.sys.prog.barmask.getLsbD (4 * n + c)

/-- Every member of barrier `n` has arrived or ended its cycle, and one waits. -/
def barReady (s : State) (n : Nat) : Bool :=
  (List.range 4).all (fun c => !barMember s n c || (core s c).run == .bar n || (core s c).run == .ended) &&
    (List.range 4).any (fun c => (core s c).run == .bar n)

/-- BAR_RELEASE: waiting members issue 3 clocks after the last arrival at `t`. -/
def barRelease (n t : Nat) (s : State) : State :=
  if barReady s n then
    (List.range 4).foldl (fun s c =>
      if (core s c).run = .bar n then setCore c { core s c with run := .running, next := t + 3 } s else s) s
  else s

/-- BAR: wait at barrier a[2:0]; d, b and a[4:3] = 0. -/
def bar (c : Fin 8) (d a b : Fin 32) (s : State) : State :=
  fci c.val ⟨[], none, 3, 0, !isEventCore c.val && d.val == 0 && b.val == 0 && decide (a.val < 8)⟩ (fun t s =>
    if barMember s a.val c.val then .ok (barRelease a.val t (setCore c.val { core s c.val with run := .bar a.val } s))
    else .exc Exc.barrier 0 Acc.none s) s

def execBar (c : Fin 8) (d a b : Fin 32) (s : State) : Host.Outcome State Fault Refusal := .next (bar c d a b s)

/-- CEND: the core issues nothing more in this cycle, and counts as arrived at every barrier. -/
def cend (c : Fin 8) (d a b : Fin 32) (s : State) : State :=
  fci c.val ⟨[], none, 1, 0, !isEventCore c.val && d.val == 0 && a.val == 0 && b.val == 0⟩ (fun t s =>
    .ok ((List.range 8).foldl (fun s n => barRelease n t s) (setCore c.val { core s c.val with run := .ended } s))) s

def execCend (c : Fin 8) (d a b : Fin 32) (s : State) : Host.Outcome State Fault Refusal := .next (cend c d a b s)

/-- TRAP: raise TRAP with code b. -/
def trap (c : Fin 8) (d a b : Fin 32) (s : State) : State :=
  fci c.val ⟨[], none, 1, 0, d.val == 0 && a.val == 0⟩
    (fun _ s => .exc Exc.trap (BitVec.ofNat 32 b.val) Acc.none s) s

def execTrap (c : Fin 8) (d a b : Fin 32) (s : State) : Host.Outcome State Fault Refusal := .next (trap c d a b s)

/-- FENCE: the next instruction issues at the later of t_f + 1 and t_s + 12 (R231). -/
def fence (c : Fin 8) (d a b : Fin 32) (s : State) : State :=
  fci c.val ⟨[], none, 1, 0, d.val == 0 && a.val == 0 && b.val == 0⟩ (fun t s =>
    let k := core s c.val
    let n := match k.lastStore with | some ts => max (t + 1) (ts + 12) | none => t + 1
    .ok (setCore c.val { k with next := n } s)) s

def execFence (c : Fin 8) (d a b : Fin 32) (s : State) : Host.Outcome State Fault Refusal := .next (fence c d a b s)

/-! ### TWAIT (R230) -/

/-- TWAIT: wait until TOFF ≥ S_a; d and b = 0. -/
def twait (c : Fin 8) (d a b : Fin 32) (s : State) : State :=
  fci c.val ⟨[a.val], none, 1, 0, d.val == 0 && b.val == 0⟩ (fun t s =>
    let k := core s c.val
    let v := k.getS a.val
    if v.toNat ≤ toffAt c.val t s then .ok s else .ok (setCore c.val { k with run := .twait v } s)) s

def execTwait (c : Fin 8) (d a b : Fin 32) (s : State) : Host.Outcome State Fault Refusal := .next (twait c d a b s)

/-- TOFF reaches the operand: the next instruction issues 2 clocks later, unless the cutoff has come (R219). TOFF is
v first at clock 2 v of a cycle core; when that is on an event core's own clock is not bounded (log entry 46). -/
def twaitRelease (c : Nat) (s : State) : State :=
  match (core s c).run with
  | .twait v =>
    if isEventCore c then wake c s else setCore c { core s c with run := .running, next := 2 * v.toNat + 2 } s
  | _ => s

def execTwaitRelease (c : Fin 8) (s : State) : Host.Outcome State Fault Refusal := .next (twaitRelease c.val s)

end Sys2Proof.Machine
end

