-- ==== Sys2Proof/Machine/FciMem.lean ====
section
/-! DEFINITION. Loads and stores (R222 to R224), the event cores' data cache (R240), and the memory of a core as its engines
reach it (R235, R241). -/

namespace Sys2Proof.Machine

/-! ### Regions (R222, R241, R468 to R476) -/

/-- What a core's address reaches. -/
inductive Region where
  | priv | slot | scm | window | regs | dram
  deriving DecidableEq, Repr

/-- The slots of an event core (R239). -/
def inSlots (a n : Nat) : Bool := decide (0xFFC0 ≤ a ∧ a + n ≤ 0x10000)

def inBlockRange (a n : Nat) : Bool := decide (0x40000000 ≤ a ∧ a + n ≤ 0x40130000)

/-- The region that a load of `n` bytes by core `c` reaches, if it may. -/
def loadRegion (s : State) (c a n : Nat) : Option Region :=
  if isEventCore c then
    if a + n ≤ 0xFFC0 then some .priv
    else if inSlots a n then some .slot
    else if scmWithin scmPlaneLoad a n then some .scm
    else if inBlockRange a n then some .regs
    else if inDramWindow a n && dramReadable s (windowPhys s (c - 4) a) n then some .dram
    else none
  else if 0x20000 ≤ a ∧ a + n ≤ 0x40000 then some .priv
  else if scmWithin scmCycleLoad a n then some .scm
  else if inWindows a n then some .window
  else none

/-- Some byte of the range is in a cycle word of the user output table (R474). -/
def meetsCycleWord (a n : Nat) : Bool :=
  (List.range n).any (fun i => decide (Config.scmBase + 0x24000 ≤ a + i ∧ a + i < Config.scmBase + 0x28000) &&
    decide ((a + i) % 32 < 4))

/-- The region that a store reaches, if it may. -/
def storeRegion (s : State) (c a n : Nat) : Option Region :=
  if isEventCore c then
    if a + n ≤ 0xFFC0 then some .priv
    else if scmWithin scmEventStore a n then some .scm
    else if inBlockRange a n then some .regs
    else if inDramWindow a n && inOwnRegion s (windowPhys s (c - 4) a) n then some .dram
    else none
  else if 0x20000 ≤ a ∧ a + n ≤ 0x40000 then some .priv
  else if scmWithin scmCycleStore a n && !meetsCycleWord a n then some .scm
  else none

/-! ### The data cache of an event core (R240) -/

def cacheLine (s : State) (c l : Nat) : Option CacheLine := Store.get (fun _ => none) (core s c).cache l

def setCacheLine (c l : Nat) (x : Option CacheLine) (s : State) : State :=
  setCore c { core s c with cache := Store.set (fun _ => none) (core s c).cache l x } s

/-- A dirty line is written back; it is complete, and seen by others, after DCSYNC. -/
def writeBack (c l : Nat) (s : State) : State :=
  match cacheLine s c l with
  | some x =>
    if x.dirty then
      let k := core s c
      setCacheLine c l (some { x with dirty := false }) (setCore c { k with writes := k.writes ++ [(l, x.bytes)] } s)
    else s
  | none => s

/-- The lines that core `c` holds in the set of line `l`. -/
def waysOf (s : State) (c l : Nat) : List Nat := (((core s c).cache.map (fun e => e.1)).filter (fun n => n % 64 == l % 64))

/-- Make room in the set of line `l`: which of four lines goes is not stated (log entry 8). -/
def makeRoom (c l : Nat) (s : State) : State :=
  let ways := waysOf s c l
  if ways.length < 4 then s
  else
    let (f, s) := drawFree s
    let v := ways.getD (f.toNat % ways.length) 0
    setCacheLine c v none (writeBack c v s)

/-- The bytes of a DRAM line as core `c` would fill it: its own unfinished writes come first. -/
def lineBytes (s : State) (c l : Nat) : List Byte :=
  match (core s c).writes.reverse.find? (fun e => e.1 == l) with
  | some e => e.2
  | none => Memory.readList s.mem (64 * l) 64

/-- Have line `l` in the cache. The flag says that the word at `phys` came with an uncorrectable error. -/
def fillLine (c l phys : Nat) (acc : Nat) (s : State) : Bool × State :=
  match cacheLine s c l with
  | some _ => (false, s)
  | none =>
    let (bad, s) := eccLoad (phys / 4) 8 phys c acc s
    if bad then (true, s)
    else (false, let s := makeRoom c l s; setCacheLine c l (some ⟨false, lineBytes s c l⟩) s)

def lineWord (bs : List Byte) (o : Nat) : Word := BitVec.ofNat 32 (bytesNat ((bs.drop (o / 4 * 4)).take 4))

/-- Write bytes to DRAM through its ECC checker. -/
def dramWrite (a : Nat) (bs : List Byte) (s : State) : State := putBytes a bs s

/-! ### One word of a core's memory -/

/-- The wheel output entries, which a cycle core reads from T_{k+1}, before the other planes do (R161, R245). -/
def wheelEntry (a : Nat) : Bool := decide (Config.scmBase + 0x21000 ≤ a ∧ a < Config.scmBase + 0x21180)

/-- A word of shared control memory as a core or its engine finds it at absolute time `now` ns. -/
def scmWord (c now a : Nat) (s : State) : Word × State :=
  if isEventCore c then (memReadWord s a, s)
  else if wheelEntry a then
    (wheelWord s a, s)
  else scmSeen c now a s

/-- A word of an event core's slots; what an empty slot shows is not stated (log entry 8). -/
def slotWord (c a : Nat) (s : State) : Word × State :=
  match (if a < 0xFFE0 then curSlot s (c - 4) else nextSlot s (c - 4)) with
  | some e => (e.words.getD (a % 32 / 4) 0, s)
  | none => drawFree s

/-- An uncorrectable error on a load, or the word. -/
abbrev Loaded := Bool × Word × State

/-- The aligned word at `a`, which core `c` loads at absolute time `now` ns; wide values come under R8. -/
def loadWord (c now : Nat) (r : Region) (a acc : Nat) (s : State) : Loaded :=
  match r with
  | .priv =>
    let (bad, s) := eccLoad (spmKey c a) (spmSource c) a c acc s
    (bad, memReadWord s (localBase c + a), s)
  | .slot => (false, slotWord c a s)
  | .scm =>
    let (bad, s) := eccLoad (a / 4) 7 a c acc s
    if bad then (true, 0, s)
    else
      let (w, s) := scmWord c now a s
      (false, wideRead (.core (Fin.ofNat 8 c)) (a - Config.scmBase) w s)
  | .window => (false, windowRead c a s)
  | .regs => (false, readReg (.core (Fin.ofNat 8 c)) a s)
  | .dram =>
    let p := windowPhys s (c - 4) a
    let (bad, s) := fillLine c (p / 64) p acc s
    if bad then (true, 0, s)
    else (false, lineWord ((match cacheLine s c (p / 64) with | some x => x.bytes | none => [])) (p % 64), s)

/-- End every ENG.WAIT whose STATUS a store has taken out of PENDING (R233). -/
def settleWaits (s : State) : State :=
  (List.range 8).foldl (fun s c =>
    let k := core s c
    match k.run with
    | .engWait a =>
      let b := memRead s a
      if b = 0xFF then s
      else wake c (setCore c { k with engStatus := b.setWidth 32 } s)
    | _ => s) s

/-- Bytes within one aligned word, stored by core `c` at clock `t`; `last` is the store's last issue clock. -/
def storeBytes (c t last : Nat) (r : Region) (a : Nat) (bs : List Byte) (s : State) : State :=
  match r with
  | .priv =>
    memWriteBytes (localBase c + a) bs (eccStore (if isEventCore c then 2 else 1) (c % 4) (spmKey c a) s)
  | .scm =>
    if scmWithin [(0x24000, 0x28000)] a 1 then
      setCore c { core s c with lastStore := some last } (hideBytes a bs s)
    else
      let s := setCore c { core s c with lastStore := some last } (eccStore 3 0 (a / 4) s)
      let s := if isEventCore c then s else noteStore c (absNs t s) a bs (absNs t s + 12) s
      settleWaits (memWriteBytes a bs s)
  | .regs =>
    if bs.length = 4 then (writeReg (.eventCore (Fin.ofNat 4 (c - 4))) a (BitVec.ofNat 32 (bytesNat bs)) s).1
    else occur (detect 30 a c Acc.regWrite) s
  | .dram =>
    let p := windowPhys s (c - 4) a
    let s := (fillLine c (p / 64) p Acc.store s).2
    match cacheLine s c (p / 64) with
    | some x => setCacheLine c (p / 64)
        (some ⟨true, x.bytes.take (p % 64) ++ bs ++ x.bytes.drop (p % 64 + bs.length)⟩) s
    | none => s
  | .slot | .window => s

/-! ### Timing (R222, R242) -/

/-- Issue cost and latency by region: scratchpad or local memory, and everything else. -/
def byRegion (r : Option Region) (near far : Nat) : Nat :=
  match r with | some .priv | some .slot => near | _ => far

/-- An access of an event core beyond its local memory has no bounded time: the next issue is a free number of clocks
later (R242, log entry 8). -/
def unbounded (c : Nat) (r : Region) (s : State) : State :=
  if isEventCore c && r != .priv && r != .slot then
    let (f, s) := drawFree s
    setCore c { core s c with next := (core s c).next + f.toNat } s
  else s

/-! ### Scalar loads and stores -/

/-- The signed displacement of M format (R215). -/
def mDisp (imm : Half) : Word := imm.signExtend 32

/-- A scalar load of `n` bytes at `a`: `ext` makes the result from the accessed bytes. -/
def scalarLoad (c : Fin 8) (d : Fin 32) (srcs : List Nat) (n : Nat) (a : Word) (ext : Word → Word) (s : State) : State :=
  let r := loadRegion s c.val a.toNat n
  fci c.val ⟨srcs, some d.val, byRegion r 1 4, byRegion r 2 12, true⟩ (fun t s =>
    if a.toNat % n ≠ 0 then .exc Exc.align a Acc.load s
    else match r with
    | none => .exc Exc.access a Acc.load s
    | some r =>
      if r = .regs ∧ n ≠ 4 then
        -- R5: the access is ignored; what the destination then holds is not stated (log entry 28)
        let (w, s) := drawFree (occur (detect 30 a.toNat c.val Acc.regRead) s)
        .ok (unbounded c.val r (setCore c.val ((core s c.val).setS d.val w) s))
      else
        let (bad, w, s) := loadWord c.val (absNs t s) r (a.toNat / 4 * 4) Acc.load s
        if bad then .exc Exc.ecc a Acc.load s
        else .ok (unbounded c.val r (setCore c.val ((core s c.val).setS d.val (ext (w >>> (8 * (a.toNat % 4))))) s))) s

/-- A scalar store of the low `n` bytes of S_d at `a`. -/
def scalarStore (c : Fin 8) (d : Fin 32) (srcs : List Nat) (n : Nat) (a : Word) (s : State) : State :=
  let r := storeRegion s c.val a.toNat n
  let cost := byRegion r 1 4
  fci c.val ⟨d.val :: srcs, none, cost, 0, true⟩ (fun t s =>
    if a.toNat % n ≠ 0 then .exc Exc.align a Acc.store s
    else match r with
    | none => .exc Exc.access a Acc.store s
    | some r =>
      .ok (unbounded c.val r
        (storeBytes c.val t (t + cost - 1) r a.toNat ((wordBytes ((core s c.val).getS d.val)).take n) s))) s

/-- The effective address of M format. -/
def mAddr (s : State) (c : Fin 8) (a : Fin 32) (imm : Half) : Word := (core s c.val).getS a.val + mDisp imm
def xAddr (s : State) (c : Fin 8) (a b : Fin 32) : Word := (core s c.val).getS a.val + (core s c.val).getS b.val

def execLdw (c : Fin 8) (d a : Fin 32) (imm : Half) (s : State) : Host.Outcome State Fault Refusal :=
  .next (scalarLoad c d [a.val] 4 (mAddr s c a imm) id s)

def execLdh (c : Fin 8) (d a : Fin 32) (imm : Half) (s : State) : Host.Outcome State Fault Refusal :=
  .next (scalarLoad c d [a.val] 2 (mAddr s c a imm) (fun w => (w.setWidth 16).signExtend 32) s)

def execLdhu (c : Fin 8) (d a : Fin 32) (imm : Half) (s : State) : Host.Outcome State Fault Refusal :=
  .next (scalarLoad c d [a.val] 2 (mAddr s c a imm) (fun w => w &&& 0xFFFF) s)

def execLdbu (c : Fin 8) (d a : Fin 32) (imm : Half) (s : State) : Host.Outcome State Fault Refusal :=
  .next (scalarLoad c d [a.val] 1 (mAddr s c a imm) (fun w => w &&& 0xFF) s)

def execStw (c : Fin 8) (d a : Fin 32) (imm : Half) (s : State) : Host.Outcome State Fault Refusal :=
  .next (scalarStore c d [a.val] 4 (mAddr s c a imm) s)

def execSth (c : Fin 8) (d a : Fin 32) (imm : Half) (s : State) : Host.Outcome State Fault Refusal :=
  .next (scalarStore c d [a.val] 2 (mAddr s c a imm) s)

def execStb (c : Fin 8) (d a : Fin 32) (imm : Half) (s : State) : Host.Outcome State Fault Refusal :=
  .next (scalarStore c d [a.val] 1 (mAddr s c a imm) s)

def execLdwx (c : Fin 8) (d a b : Fin 32) (s : State) : Host.Outcome State Fault Refusal :=
  .next (scalarLoad c d [a.val, b.val] 4 (xAddr s c a b) id s)

def execStwx (c : Fin 8) (d a b : Fin 32) (s : State) : Host.Outcome State Fault Refusal :=
  .next (scalarStore c d [a.val, b.val] 4 (xAddr s c a b) s)

/-! ### Vector loads and stores -/

/-- Words at successive addresses, read before any lane is written. -/
def loadWords (c now : Nat) (r : Region) (a : Nat) : Nat → State → Bool × List Word × State
  | 0, s => (false, [], s)
  | n + 1, s =>
    let (bad, ws, s) := loadWords c now r a n s
    if bad then (true, ws, s)
    else
      let (bad, w, s) := loadWord c now r (a + 4 * n) Acc.load s
      (bad, ws ++ [w], s)

/-- `n` free values (log entry 8). -/
def freeWords : Nat → State → List Word × State
  | 0, s => ([], s)
  | n + 1, s =>
    let (ws, s) := freeWords n s
    let (w, s) := drawFree s
    (ws ++ [w], s)

def Core.setLanes (k : Core) (d : Nat) (ws : List Word) : Core :=
  (List.range 16).foldl (fun k j => k.setV d j (ws.getD j 0)) k

/-- VLD: 64 bytes at S_a + imm. -/
def vld (c : Fin 8) (d a : Fin 32) (imm : Half) (s : State) : State :=
  let ea := mAddr s c a imm
  let r := loadRegion s c.val ea.toNat 64
  fci c.val ⟨[a.val], some (32 + d.val), byRegion r 1 8, byRegion r 3 16, vecField d⟩ (fun t s =>
    if ea.toNat % 64 ≠ 0 then .exc Exc.align ea Acc.load s
    else match r with
    | none => .exc Exc.access ea Acc.load s
    | some r =>
      -- R5: a 64-byte access of block registers is ignored and reported (log entry 28)
      let (bad, ws, s) :=
        if r = .regs then (false, freeWords 16 (occur (detect 30 ea.toNat c.val Acc.regRead) s))
        else loadWords c.val (absNs t s) r ea.toNat 16 s
      if bad then .exc Exc.ecc ea Acc.load s
      else .ok (unbounded c.val r (setCore c.val ((core s c.val).setLanes d.val ws) s))) s

def execVld (c : Fin 8) (d a : Fin 32) (imm : Half) (s : State) : Host.Outcome State Fault Refusal :=
  .next (vld c d a imm s)

/-- VST: 64 bytes at S_a + imm. -/
def vst (c : Fin 8) (d a : Fin 32) (imm : Half) (s : State) : State :=
  let ea := mAddr s c a imm
  let r := storeRegion s c.val ea.toNat 64
  let cost := byRegion r 1 8
  fci c.val ⟨[a.val, 32 + d.val], none, cost, 0, vecField d⟩ (fun t s =>
    if ea.toNat % 64 ≠ 0 then .exc Exc.align ea Acc.store s
    else match r with
    | none => .exc Exc.access ea Acc.store s
    | some r =>
      let v := (List.range 16).map (fun j => (core s c.val).getV d.val j)
      .ok (unbounded c.val r (
        if r = .regs then occur (detect 30 ea.toNat c.val Acc.regWrite) s
        else (List.range 16).foldl (fun s j =>
          storeBytes c.val t (t + cost - 1) r (ea.toNat + 4 * j) (wordBytes (v.getD j 0)) s) s))) s

def execVst (c : Fin 8) (d a : Fin 32) (imm : Half) (s : State) : Host.Outcome State Fault Refusal :=
  .next (vst c d a imm s)

/-- The address of lane `j` of a strided access. -/
def laneAddr (base stride : Word) (j : Nat) : Nat := (base + BitVec.ofNat 32 j * stride).toNat

/-- A strided access is timed as shared control memory when any lane goes there. -/
def strideFar (f : Nat → Option Region) (base stride : Word) : Bool :=
  (List.range 16).any (fun j => match f (laneAddr base stride j) with | some .priv | some .slot => false | _ => true)

/-- Lanes `j` onward of a strided load: the lanes before one that fails stand. -/
def stridedLoad (c t d : Nat) (base stride : Word) : List Nat → State → Eff
  | [], s => .ok s
  | j :: js, s =>
    let a := laneAddr base stride j
    let ea := BitVec.ofNat 32 a
    if a % 4 ≠ 0 then .exc Exc.align ea Acc.load s
    else match loadRegion s c a 4 with
    | none => .exc Exc.access ea Acc.load s
    | some r =>
      let (bad, w, s) := loadWord c (absNs t s) r a Acc.load s
      if bad then .exc Exc.ecc ea Acc.load s
      else stridedLoad c t d base stride js (unbounded c r (setCore c ((core s c).setV d j w) s))

/-- VLDS: lane j at S_a + j × S_b. -/
def vlds (c : Fin 8) (d a b : Fin 32) (s : State) : State :=
  let base := (core s c.val).getS a.val
  let stride := (core s c.val).getS b.val
  let far := strideFar (fun x => loadRegion s c.val x 4) base stride
  fci c.val ⟨[a.val, b.val], some (32 + d.val), if far then 64 else 16, if far then 72 else 17, vecField d⟩
    (fun t s => stridedLoad c.val t d.val base stride (List.range 16) s) s

def execVlds (c : Fin 8) (d a b : Fin 32) (s : State) : Host.Outcome State Fault Refusal := .next (vlds c d a b s)

def stridedStore (c t last d : Nat) (base stride : Word) : List Nat → State → Eff
  | [], s => .ok s
  | j :: js, s =>
    let a := laneAddr base stride j
    let ea := BitVec.ofNat 32 a
    if a % 4 ≠ 0 then .exc Exc.align ea Acc.store s
    else match storeRegion s c a 4 with
    | none => .exc Exc.access ea Acc.store s
    | some r =>
      stridedStore c t last d base stride js
        (unbounded c r (storeBytes c t last r a (wordBytes ((core s c).getV d j)) s))

/-- VSTS: lane j at S_a + j × S_b. -/
def vsts (c : Fin 8) (d a b : Fin 32) (s : State) : State :=
  let base := (core s c.val).getS a.val
  let stride := (core s c.val).getS b.val
  let cost := if strideFar (fun x => storeRegion s c.val x 4) base stride then 64 else 16
  fci c.val ⟨[a.val, b.val, 32 + d.val], none, cost, 0, vecField d⟩
    (fun t s => stridedStore c.val t (t + cost - 1) d.val base stride (List.range 16) s) s

def execVsts (c : Fin 8) (d a b : Fin 32) (s : State) : Host.Outcome State Fault Refusal := .next (vsts c d a b s)

/-! ### Cache instructions of the event cores (R240) -/

/-- An event-profile instruction: ILLEGAL on a cycle core. -/
def evtUse (c : Fin 8) (srcs : List Nat) (dst : Option Nat) (legal : Bool) : Use := ⟨srcs, dst, 1, 1, isEventCore c.val && legal⟩

/-- The line of a window address; an address outside the window names none. -/
def windowLine (s : State) (c : Nat) (a : Word) : Option Nat :=
  if inDramWindow a.toNat 1 then some (windowPhys s (c - 4) a.toNat / 64) else none

def dcflush (c : Fin 8) (d a b : Fin 32) (s : State) : State :=
  fci c.val (evtUse c [a.val] none (d.val == 0 && b.val == 0)) (fun _ s =>
    .ok (match windowLine s c.val ((core s c.val).getS a.val) with | some l => writeBack c.val l s | none => s)) s

def execDcflush (c : Fin 8) (d a b : Fin 32) (s : State) : Host.Outcome State Fault Refusal := .next (dcflush c d a b s)

def dcinv (c : Fin 8) (d a b : Fin 32) (s : State) : State :=
  fci c.val (evtUse c [a.val] none (d.val == 0 && b.val == 0)) (fun _ s =>
    .ok (match windowLine s c.val ((core s c.val).getS a.val) with
      | some l => setCacheLine c.val l none s
      | none => s)) s

def execDcinv (c : Fin 8) (d a b : Fin 32) (s : State) : Host.Outcome State Fault Refusal := .next (dcinv c d a b s)

/-- DCSYNC: every earlier DRAM write of the core is complete. -/
def dcsync (c : Fin 8) (d a b : Fin 32) (s : State) : State :=
  fci c.val (evtUse c [] none (d.val == 0 && a.val == 0 && b.val == 0)) (fun _ s =>
    let k := core s c.val
    .ok (unbounded c.val .dram
      (k.writes.foldl (fun s e => dramWrite (64 * e.1) e.2 s) (setCore c.val { k with writes := [] } s)))) s

def execDcsync (c : Fin 8) (d a b : Fin 32) (s : State) : Host.Outcome State Fault Refusal := .next (dcsync c d a b s)

end Sys2Proof.Machine
end

