-- ==== Sys2Proof/Machine/FciEng.lean ====
section
/-! DEFINITION. Engine instructions (R232, R233), the DMA, time and mailbox engines (R235, R236, R398), and the event
profile (R239, R394, R400, R401). -/

namespace Sys2Proof.Machine

/-! ### ENG.GO and ENG.WAIT -/

/-- The class and index are legal on the core. -/
def engLegal (c cls idx : Nat) : Bool :=
  if isEventCore c then (cls == 2 || cls == 3 || cls == 4 || cls == 5) && idx == 0
  else if cls = 0 then decide (idx < 8)
  else if cls = 1 then decide (idx < 12)
  else (cls == 2 || cls == 3 || cls == 4) && idx == 0

/-- The address of a descriptor: ENG_DBASE + 16 × offset. -/
def descAddr (k : Core) (off : Half) : Word := k.engDbase + BitVec.ofNat 32 (16 * off.toNat)

/-- A descriptor lies in shared control memory where its core may load and store (R232, log entry 17). -/
def descOk (s : State) (c a : Nat) : Bool :=
  loadRegion s c a 16 == some .scm && storeRegion s c a 16 == some .scm

/-- The STATUS byte as the core sees it. -/
def statusSeen (c now a cls : Nat) (s : State) : Loaded :=
  let p := a + statusOffset cls
  let (bad, w, s) := loadWord c now .scm (p / 4 * 4) Acc.load s
  (bad, (w >>> (8 * (p % 4))) &&& 0xFF, s)

def setEngStatus (c : Nat) (st : Status) (s : State) : State :=
  setCore c { core s c with engStatus := BitVec.ofNat 32 st.code } s

/-- Pass an operation to its engine; the last of a queue that is too long is turned away. A reference after the reference
point is late (R52). -/
def enqueueEng (cls idx c : Nat) (o : EngOp) (s : State) : State :=
  let k := engKey cls idx c
  let l := insertOp o (engQueue s k)
  if (match queueCap cls with | some n => decide (n < l.length) | none => false) then
    turnAway cls idx (l.getLastD o) (setEngQueue k l.dropLast s)
  else
    let s := setEngQueue k l s
    if cls = 1 ∧ s.esc.refDone then lateRefs idx s else s

/-- The time of an issue in ns of CNT: to the core's clock on a cycle core. -/
def issueNs (c t : Nat) (s : State) : Nat := if isEventCore c then 2 * s.time.cnt else absNs t s

/-- ENG.GO (R232): class 0 to 5. -/
def engGo (c : Fin 8) (cls : Fin 16) (idx : Fin 32) (off : Half) (s : State) : State :=
  let a := descAddr (core s c.val) off
  fci c.val ⟨[64 + 0x00B], none, 6, 0, engLegal c.val cls.val idx.val⟩ (fun t s =>
    if !descOk s c.val a.toNat then .exc Exc.access a Acc.store s
    else
      let (bad, st, s) := statusSeen c.val (absNs t s) a.toNat cls.val s
      if bad then .exc Exc.ecc a Acc.load s
      else if st = 0xFF then .ok (unbounded c.val .scm (setEngStatus c.val .busy s))
      else
        let s := memWriteBytes (a.toNat + statusOffset cls.val) [0xFF]
          (eccStore 3 0 ((a.toNat + statusOffset cls.val) / 4) s)
        .ok (unbounded c.val .scm
          (enqueueEng cls.val idx.val c.val ⟨c.val, a.toNat, issueNs c.val t s, false⟩ (setEngStatus c.val .ok s)))) s

def execEngGo (c : Fin 8) (cls : Fin 16) (idx : Fin 32) (off : Half) (s : State) : Host.Outcome State Fault Refusal :=
  .next (engGo c cls idx off s)

/-- ENG.WAIT (R233): class 0x10 to 0x15, the constructor holding class − 0x10. -/
def engWait (c : Fin 8) (cls : Fin 16) (idx : Fin 32) (off : Half) (s : State) : State :=
  let a := descAddr (core s c.val) off
  fci c.val ⟨[64 + 0x00B, 64 + 0x009], none, 2, 0, engLegal c.val cls.val idx.val⟩ (fun t s =>
    if loadRegion s c.val a.toNat 16 ≠ some .scm then .exc Exc.access a Acc.load s
    else
      let (bad, st, s) := statusSeen c.val (absNs t s) a.toNat cls.val s
      if bad then .exc Exc.ecc a Acc.load s
      else if st = 0xFF then
        .ok (setCore c.val { core s c.val with run := .engWait (a.toNat + statusOffset cls.val) } s)
      else .ok (unbounded c.val .scm (setCore c.val { core s c.val with engStatus := st } s))) s

def execEngWait (c : Fin 8) (cls : Fin 16) (idx : Fin 32) (off : Half) (s : State) : Host.Outcome State Fault Refusal :=
  .next (engWait c cls idx off s)

/-- ENG_TMO clocks pass first: TIMEOUT, and the descriptor stays PENDING. -/
def engWaitTimeout (c : Nat) (s : State) : State :=
  let k := core s c
  match k.run with
  | .engWait _ =>
    unbounded c .scm (setEngStatus c .timeout (setCore c { k with run := .running, next := k.issued + k.engTmo.toNat } s))
  | _ => s

def execEngWaitTimeout (c : Fin 8) (s : State) : Host.Outcome State Fault Refusal := .next (engWaitTimeout c.val s)

/-! ### DMA (R235) -/

/-- The master of core `c`'s channel (R409, log entry 10). -/
def dmaMaster (c : Nat) : Nat := 0x28 + c

/-- One word copied. DMA goes past the data cache (log entry 24). -/
def dmaWord (c src dst : Nat) (s : State) : State :=
  let now := 2 * s.time.cnt
  let (bad, w, s) := match loadRegion s c src 4 with
    | some .dram =>
      let p := windowPhys s (c - 4) src
      let (bad, s) := eccLoad (p / 4) 8 p (dmaMaster c) Acc.dmaRead s
      (bad, memReadWord s p, s)
    | some .priv =>
      let (bad, s) := eccLoad (spmKey c src) (spmSource c) src (dmaMaster c) Acc.dmaRead s
      (bad, memReadWord s (localBase c + src), s)
    | some .scm =>
      let (bad, s) := eccLoad (src / 4) 7 src (dmaMaster c) Acc.dmaRead s
      let (w, s) := scmWord c now src s
      (bad, w, s)
    | some r => loadWord c now r src Acc.dmaRead s
    | none => (false, 0, s)
  let (w, s) := if bad then drawFree s else (w, s)
  match storeRegion s c dst 4 with
  | some .dram => dramWrite (windowPhys s (c - 4) dst) (wordBytes w) s
  | some .scm =>
    let s := eccStore 3 0 (dst / 4) s
    if scmWithin [(0x24000, 0x28000)] dst 4 then hideBytes dst (wordBytes w) s
    else settleWaits (memWriteBytes dst (wordBytes w) s)
  | some r => storeBytes c 0 0 r dst (wordBytes w) s
  | none => s

/-- Words in ascending address order. -/
def dmaWords (c src dst : Nat) : Nat → State → State
  | 0, s => s
  | n + 1, s => dmaWord c (src + 4 * n) (dst + 4 * n) (dmaWords c src dst n s)

def dmaKey (c : Nat) : Nat := engKey 2 0 c

/-- A DMA operation completes: CYCLE and STATUS. -/
def finishDma (c : Nat) (o : EngOp) (st : Status) (s : State) : State :=
  finishOp (dmaKey c) 2 o st (putWord (o.desc + 12) (cycleNo s) s)

/-- R235 refuses a copy, or lets it start. -/
def dmaCheck (s : State) (c op words src dst : Nat) : Option Status :=
  if op ≠ 1 ∨ words = 0 ∨ 16384 < words ∨ src % 4 ≠ 0 ∨ dst % 4 ≠ 0 then some .badParam
  else if (List.range words).all (fun i =>
      (loadRegion s c (src + 4 * i) 4).isSome && (storeRegion s c (dst + 4 * i) 4).isSome) then none
  else some .notPermitted

/-- The channel takes up its next operation when it is free. -/
def dmaCopy (c : Nat) (s : State) : State :=
  match engQueue s (dmaKey c) with
  | [] => s
  | o :: rest =>
    if o.started then s
    else
      let (ws, s) := engWords o 3 s
      let w := ws.getD 0 0
      let src := (ws.getD 1 0).toNat
      let dst := (ws.getD 2 0).toNat
      match dmaCheck s c (fieldGet w 31 24) (fieldGet w 23 8) src dst with
      | some st => finishDma c o st s
      | none => setEngQueue (dmaKey c) ({ o with started := true } :: rest) (dmaWords c src dst (fieldGet w 23 8) s)

def execDmaCopy (c : Fin 8) (s : State) : Host.Outcome State Fault Refusal := .next (dmaCopy c.val s)

def dmaCopyDone (c : Nat) (s : State) : State :=
  match (engQueue s (dmaKey c)).find? (fun o => o.started) with
  | some o => finishDma c o .ok s
  | none => s

def execDmaCopyDone (c : Fin 8) (s : State) : Host.Outcome State Fault Refusal := .next (dmaCopyDone c.val s)

/-! ### Time (R236) -/

def timeKey (c : Nat) : Nat := engKey 3 0 c

/-- The next new operation of a core's time engine, if its OP is `op`; an unknown OP completes with BAD_PARAM. -/
def timeOp (c op : Nat) (body : EngOp → List Word → State → State) (s : State) : State :=
  match firstNew s (timeKey c) with
  | none => s
  | some o =>
    let (ws, s) := engWords o 4 s
    let code := fieldGet (ws.getD 0 0) 31 24
    if code = op then body o ws s
    else if code = 1 ∨ code = 2 then s
    else finishOp (timeKey c) 3 o .badParam s

/-- CAPTURE: the split of the start. -/
def timeCapture (c : Nat) (s : State) : State :=
  timeOp c 1 (fun o _ s =>
    let t := nowSplit s
    finishOp (timeKey c) 3 o .ok
      (putBytes (o.desc + 4) (wordsBytes [splitNs t, splitLo t, BitVec.ofNat 32 (splitHi t)]) s)) s

def execTimeCapture (c : Fin 8) (s : State) : Host.Outcome State Fault Refusal := .next (timeCapture c.val s)

/-- The time in a descriptor, in ns. -/
def alarmTime (ws : List Word) : Nat :=
  (fieldGet (ws.getD 3 0) 15 0 * 2 ^ 32 + (ws.getD 2 0).toNat) * 1000000000 + (ws.getD 1 0).toNat

/-- ALARM: armed, or complete at once with BUSY or DELAYED. -/
def timeAlarm (c : Nat) (s : State) : State :=
  timeOp c 2 (fun o ws s =>
    let q := engQueue s (timeKey c)
    if q.any (fun x => x.started) then finishOp (timeKey c) 3 o .busy s
    else if alarmTime ws ≤ timeAt s s.time.cnt / 65536 then finishOp (timeKey c) 3 o .delayed s
    else setEngQueue (timeKey c) (q.map (fun x => if x = o then { x with started := true } else x)) s) s

def execTimeAlarm (c : Fin 8) (s : State) : Host.Outcome State Fault Refusal := .next (timeAlarm c.val s)

def timeAlarmExpiry (c : Nat) (s : State) : State :=
  match (engQueue s (timeKey c)).find? (fun x => x.started) with
  | some o => finishOp (timeKey c) 3 o .ok s
  | none => s

def execTimeAlarmExpiry (c : Fin 8) (s : State) : Host.Outcome State Fault Refusal := .next (timeAlarmExpiry c.val s)

/-! ### The mailbox engine (R397, R398) -/

def mailboxKey : Nat := engKey 5 0 0

/-- R398: what either operation fails with, in the order of its table. `room` is how far the operation reaches from PTR. -/
def mailboxCheck (s : State) (c : Nat) (ptr len maxLen room : Nat) (portOk : Bool) : Option Status :=
  if !(inDramWindow ptr 1 && inOwnRegion s (windowPhys s (c - 4) ptr) room) then some .notPermitted
  else if ptr % 64 ≠ 0 ∨ maxLen < len ∨ !portOk then some .badParam
  else none

/-- The next operation of the mailbox engine, if its OP is `op`. -/
def mailboxOp (op : Nat) (body : EngOp → List Word → State → State × Status) (s : State) : State :=
  match firstNew s mailboxKey with
  | none => s
  | some o =>
    let (ws, s) := engWords o 4 s
    let code := fieldGet (ws.getD 0 0) 31 24
    if code = op then
      let (s, st) := body o ws s
      finishOp mailboxKey 5 o st s
    else if code = 1 ∨ code = 2 then s
    else finishOp mailboxKey 5 o .badParam s

def mailboxSvcReq (s : State) : State :=
  mailboxOp 1 (fun o ws s =>
    let w := ws.getD 1 0
    let p := fieldGet w 22 16
    let ptr := (ws.getD 2 0).toNat
    let len := fieldGet (ws.getD 3 0) 31 16
    match mailboxCheck s o.core ptr len 56 128 (portChain s p).isSome with
    | some st => (s, st)
    | none =>
      let a := windowPhys s (o.core - 4) ptr
      let owner : SvcOwner := .mailbox o.core (fieldGet (ws.getD 0 0) 23 8) (fieldGet (ws.getD 3 0) 15 0) a
      enqueueSvc p (svcRequest s (fieldGet w 13 8) (fieldGet w 7 0) (Memory.readList s.mem a len) owner) s) s

def execMailboxSvcReq (s : State) : Host.Outcome State Fault Refusal := .next (mailboxSvcReq s)

def mailboxMbReply (s : State) : State :=
  mailboxOp 2 (fun o ws s =>
    let w := ws.getD 1 0
    let ptr := (ws.getD 2 0).toNat
    let len := fieldGet (ws.getD 3 0) 31 16
    match mailboxCheck s o.core ptr len 1024 (min len 1024) (fieldGet w 22 16 == 0) with
    | some st => (s, st)
    | none =>
      let m := fieldGet w 2 0
      if (mailbox s m).isNone then (s, .checkFail)
      else (mailboxAnswer m .ok (Memory.readList s.mem (windowPhys s (o.core - 4) ptr) len) s, .ok)) s

def execMailboxMbReply (s : State) : Host.Outcome State Fault Refusal := .next (mailboxMbReply s)

/-! ### Events (R239, R388, R394, R396, R400) -/

/-- The next slot's event becomes core `c`'s current one, and S_d takes its flow and class. -/
def takeEvent (c d : Nat) (e : Event) (s : State) : State :=
  let s := setNext (c - 4) none (setCur (c - 4) (some e) s)
  let s := { s with sch := { s.sch with since := Store.set (fun _ => 0) s.sch.since (c - 4) s.time.cnt } }
  setCore c { (core s c).setS d (BitVec.ofNat 32 (e.cls % 4 * 65536 + e.flow % 65536)) with run := .running } s

/-- A core that waits in EVT.TAKE takes what has been placed. -/
def takeWaiting (c : Nat) (s : State) : State :=
  match (core s c).run, nextSlot s (c - 4) with
  | .evtTake d, some e => takeEvent c d e s
  | _, _ => s

/-- EVT.TAKE: a and b = 0. -/
def evtTake (c : Fin 8) (d a b : Fin 32) (s : State) : State :=
  let legal := a.val == 0 && b.val == 0 && (curSlot s (c.val - 4)).isNone
  fci c.val (evtUse c [] (some d.val) legal) (fun _ s =>
    let s := unbounded c.val .regs s
    .ok (match nextSlot s (c.val - 4) with
      | some e => takeEvent c.val d.val e s
      | none => setCore c.val { core s c.val with run := .evtTake d.val } s)) s

def execEvtTake (c : Fin 8) (d a b : Fin 32) (s : State) : Host.Outcome State Fault Refusal := .next (evtTake c d a b s)

def execEventDispatch (c : Fin 4) (s : State) : Host.Outcome State Fault Refusal :=
  .next (takeWaiting (c.val + 4) (dispatch c.val s))

/-- A status byte as a status of R477. What a reserved code answers is a free status other than OK (log entry 8). -/
def doneStatus (b : Nat) (s : State) : Status × State :=
  if b < 15 then (statusOf b, s)
  else
    let (f, s) := drawFree s
    (statusOf (1 + f.toNat % 14), s)

/-- EVT.DONE: d and b = 0. -/
def evtDone (c : Fin 8) (d a b : Fin 32) (s : State) : State :=
  let legal := d.val == 0 && b.val == 0 && (curSlot s (c.val - 4)).isSome
  fci c.val (evtUse c [a.val] none legal) (fun _ s =>
    let (st, s) := doneStatus (fieldGet ((core s c.val).getS a.val) 7 0) s
    .ok (completeEvent (c.val - 4) st s)) s

def execEvtDone (c : Fin 8) (d a b : Fin 32) (s : State) : Host.Outcome State Fault Refusal := .next (evtDone c d a b s)

/-- A posted event: class 0 is entered as class 1 (R396). -/
def postedEvent (c : Nat) (ws : List Word) (s : State) : Event × State :=
  let w := ws.getD 0 0
  let flow := fieldGet w 31 16
  let cls := fieldGet w 15 14
  let s := if cls = 0 then traceEvent 5 1 7 10 flow (bump Reg.SCH_DEMOTE_CNT s) else s
  (mkEvent s 10 (c - 4) flow (if cls = 0 then 1 else cls) (ws.getD 1 0) (ws.getD 2 0) (ws.getD 7 0), s)

def Arrival.status : Arrival → Status
  | .entered => .ok | .held => .delayed | .refused => .refused

/-- EVT.POST: the descriptor at local address S_a; b = 0. A held event stalls the core (R394). -/
def evtPost (c : Fin 8) (d a b : Fin 32) (s : State) : State :=
  fci c.val (evtUse c [a.val] (some d.val) (b.val == 0)) (fun t s =>
    let p := (core s c.val).getS a.val
    if p.toNat % 32 ≠ 0 then .exc Exc.align p Acc.load s
    else if 0x10000 < p.toNat + 32 then .exc Exc.access p Acc.load s
    else
      let r : Region := if p.toNat < 0xFFC0 then .priv else .slot
      let (bad, ws, s) := loadWords c.val (absNs t s) r p.toNat 8 s
      if bad then .exc Exc.ecc p Acc.load s
      else
        let s := unbounded c.val .regs s
        let (e, s) := postedEvent c.val ws s
        let (s, r) := arrive e s
        .ok (if r = .held then setCore c.val { core s c.val with run := .evtPost d.val } s
          else setCore c.val ((core s c.val).setS d.val (BitVec.ofNat 32 r.status.code)) s)) s

def execEvtPost (c : Fin 8) (d a b : Fin 32) (s : State) : Host.Outcome State Fault Refusal := .next (evtPost c d a b s)

/-- R394: a held event enters; a stalled poster goes on with DELAYED. -/
def heldEventEntry (s : State) : State :=
  match heldEntry s with
  | (s, none) => s
  | (s, some e) =>
    if e.src ≠ 10 then s
    else
      let c := 4 + e.inst
      match (core s c).run with
      | .evtPost d => setCore c { (core s c).setS d (BitVec.ofNat 32 Status.delayed.code) with run := .running } s
      | _ => s

def execHeldEventEntry (s : State) : Host.Outcome State Fault Refusal := .next (heldEventEntry s)

/-- TRC: S_a low and S_b high, with bits [33:30] replaced by 0xE; d = 0. -/
def trc (c : Fin 8) (d a b : Fin 32) (s : State) : State :=
  fci c.val (evtUse c [a.val, b.val] none (d.val == 0)) (fun _ s =>
    let k := core s c.val
    .ok (unbounded c.val .regs
      (traceRecord (fieldSet (k.getS a.val) 31 30 2) (fieldSet (k.getS b.val) 1 0 3) s))) s

def execTrc (c : Fin 8) (d a b : Fin 32) (s : State) : Host.Outcome State Fault Refusal := .next (trc c d a b s)

end Sys2Proof.Machine
end

