-- ==== Sys2Proof/Machine/Cycle.lean ====
section
/-! DEFINITION. The cycle (ch. 2): start, release, publications, reference point, cutoff and stop of the escapement, and
what every plane does at these instants. -/

namespace Sys2Proof.Machine

def setEsc (e : Esc) (s : State) : State := { s with esc := e }

/-! ### Numbering, alignment and slewing (R31 to R37) -/

/-- C of R31. -/
def cyclesPerSecond (s : State) : Nat := Config.secTicks / max 1 (periodTicks s)

/-- The cycle number of index `j` in second `sec` (R31). -/
def cycleNumber (s : State) (sec j : Nat) : Word := BitVec.ofNat 32 (sec * cyclesPerSecond s + j)

def secUnits : Nat := 1000000000 * 65536

/-- The first counter value at which corrected time, in the epoch in force, has reached second `sec` (R327). -/
def tickOf (s : State) (sec : Nat) : Nat :=
  let e := s.time.epoch
  let r := (2 * ((2 : Int) ^ 40 + e.rate)).toNat
  if sec * secUnits ≤ e.ofs then e.ce else e.ce + ((sec * secUnits - e.ofs) * 2 ^ 24 + r - 1) / max 1 r

def slewMax (s : State) : Nat := fget s Fld.ESC_CTRL_SLEW

/-- The phase error at a second boundary of the escapement, in whole ticks toward zero (R33, log entry 25). Outside RUN an
error beyond SLEW is to be removed at the next second boundary of corrected time (R34). -/
def measurePhase (t sec : Nat) (s : State) : State :=
  let ticks := Int.tdiv ((timeAt s t : Int) - (sec * secUnits : Nat)) 131072
  let (w, s) := if ticks.natAbs < 2 ^ 30 then (wordOfInt (2 * ticks), s) else drawFree s
  let again := !inRun s && decide (slewMax s < ticks.natAbs)
  regSet Reg.ESC_PHASE w (setSplitRegs Reg.ESC_TALIGN_0 ⟨sec, 0⟩
    (setEsc { s.esc with phase := ticks, realign := if again then some (timeAt s t / secUnits + 1) else none } s))

/-- ALIGNED, LOCAL and ESC_MISALIGNED (R35, R37, R334). -/
def settlePhase (s : State) : State :=
  let ptp := fbit s Fld.ESC_CTRL_ALIGN_PTP && fbit s Fld.TIM_STATUS_VALID
  let s := fset Fld.ESC_STATUS_LOCAL (boolNat !ptp) (fset Fld.ESC_STATUS_ALIGNED (boolNat (s.esc.phase == 0)) s)
  if s.esc.phase = 0 then clearCond 14 0 s
  else if inRun s ∧ 500 < s.esc.phase.natAbs then condIs true 14 0 0x3F s
  else s

/-- The length of the cycle that starts: P, less what is slewed (R33), or up to the boundary of a re-alignment (R34). -/
def setLength (s : State) : State :=
  let p := periodTicks s
  match (if inRun s then none else s.esc.realign) with
  | some sec =>
    let b := tickOf s sec
    if s.esc.tk < b ∧ b ≤ s.esc.tk + p then setEsc { s.esc with wlen := b - s.esc.tk, short := decide (b < s.esc.tk + p) } s
    else setEsc { s.esc with wlen := p } s
  | none =>
    let m : Int := slewMax s
    if !inRun s && decide (slewMax s < s.esc.phase.natAbs) then setEsc { s.esc with wlen := p } s
    else
      let d := max (-m) (min m s.esc.phase)
      let s := if d = 0 then s else bump Reg.ESC_SLEW_CNT s
      setEsc { s.esc with wlen := ((p : Int) - d).toNat, phase := s.esc.phase - d, realign := none } s

/-! ### The release of a cycle (R38) -/

/-- What a cycle collects starts empty; what came too late for the last plan counts from now on (R165). -/
def clearCycle (s : State) : State :=
  let fresh := fun (x : Cell) => { x with here := false, late := none, twinCmd := none }
  let s := s.cells.foldl (fun s e => takeLate e.1 s) s
  { s with
    cells := s.cells.map (fun e => (e.1, fresh e.2))
    loops := s.loops.map (fun e => (e.1, { e.2 with ranNow := false }))
    btn := { s.btn with ownBack := 0, rxTwin := 0, mgmtOut := [] } }

/-- Everything that waits for a cycle boundary is adopted, before any cycle core starts (R13, R15, R24, R199, R369, R453). -/
def adoptAll (s : State) : State :=
  let s := adoptUpb (adoptWrites s)
  let s := (List.range 8).foldl (fun s e => adoptLoop e s) s
  let s := adoptMode (adoptImages (adoptAccepts s))
  answerDue (adoptEngines (applyRole s))

/-- The cycle cores start at their entry vectors (R212). -/
def startCores (s : State) : State := (List.range 4).foldl (fun s c => enterCore c s) s

/-- Cycle `j` of second `sec` begins at counter value `t`. `sync` says that the filters are to be reset (R300). -/
def beginCycle (t sec j : Nat) (sync : Bool) (withheld : BitVec 128) (s : State) : State :=
  let s := setEsc { s.esc with sec := sec, j := j, tk := t, refDone := false, cutDone := false, short := false }
    { s with userOut := s.hidden }
  let s := regSet Reg.ESC_CYCLE (cycleNumber s sec j) s
  let s := adoptAll (clearCycle s)
  let s := if j = 0 then measurePhase t sec s else s
  let s := setLength (settlePhase s)
  let s := if sync then requestSync s else s
  publishRegs (launchFrames withheld (startCores (showRatios s)))

/-- Second and index of the next cycle, and whether a re-alignment puts it there (R31, R34). -/
def nextIndex (s : State) : Nat × Nat × Bool :=
  match (if inRun s then none else s.esc.realign) with
  | some sec =>
    if tickOf s sec ≤ s.esc.tk + s.esc.wlen then (sec, 0, true)
    else if s.esc.j + 1 < cyclesPerSecond s then (s.esc.sec, s.esc.j + 1, false) else (s.esc.sec + 1, 0, false)
  | none => if s.esc.j + 1 < cyclesPerSecond s then (s.esc.sec, s.esc.j + 1, false) else (s.esc.sec + 1, 0, false)

/-- CYCLE_RELEASE: `withheld` names the ports whose launch meets the block line (R26). -/
def cycleRelease (withheld : BitVec 128) (s : State) : State :=
  if !escRunning s then s
  else
    let t := s.esc.tk + s.esc.wlen
    let n := nextIndex s
    let entered := s.sys.mode == .commission && decide (s.esc.tk ≤ s.sys.modeAt)
    let s := cycleEvidence (filterBoundary (reach t s))
    let s := chrLast (chrBoundary (cycleNumber s n.1 n.2.1) s)
    beginCycle t n.1 n.2.1 (entered || (n.2.2 && !inRun s)) withheld s

def execCycleRelease (withheld : BitVec 128) (s : State) : Host.Outcome State Fault Refusal :=
  .next (cycleRelease withheld s)

/-- The second whose boundary is the first at least 1 ms after the entry into COMMISSION (R32). -/
def startSecond (s : State) : Nat := (timeAt s (s.sys.modeAt + msTicks 1) + secUnits - 1) / secUnits

/-- ESCAPEMENT_START (R32): the first cycle is released. -/
def escapementStart (s : State) : State :=
  if escRunning s || s.sys.mode != .commission then s
  else
    let sec := startSecond s
    let t := max (tickOf s sec) (s.sys.modeAt + msTicks 1)
    beginCycle t sec 0 true 0 (filterStart <| fset Fld.ESC_STATUS_RUNNING 1 (reach t s))

def execEscapementStart (s : State) : Host.Outcome State Fault Refusal := .next (escapementStart s)

/-- ESCAPEMENT_STOP (R32, R35): in LOCKOUT, on the report that the block comma has left. -/
def escapementStop (s : State) : State :=
  if escRunning s && s.sys.mode == .lockout then
    let s := (List.range 4).foldl (fun s c => setCore c { core s c with run := .idle } s) s
    let s := fset Fld.ESC_STATUS_RUNNING 0 (fset Fld.ESC_STATUS_ALIGNED 0 (fset Fld.ESC_STATUS_LOCAL 0 s))
    chrEscStop (setEsc { s.esc with realign := none } s)
  else s

def execEscapementStop (s : State) : Host.Outcome State Fault Refusal := .next (escapementStop s)

/-! ### Accepted timing values (R43, R49) -/

/-- A staged value that has been taken leaves the staging. -/
def unstage (v : Option Nat) (t : Nat) : Option Nat := if v = some t then none else v

/-- TIMING_PARAMS_TAKE_EFFECT: at a second boundary of the escapement, one of a re-alignment among them, just before the
release that it starts. D never changes outside COMMISSION (R43), and the terms take effect together: accepted terms wait
while the mode is another (log entry 84). -/
def timingParams (s : State) : State :=
  match s.esc.accepted with
  | none => s
  | some t =>
    if s.sys.mode != .commission || escRunning s && (nextIndex s).2.1 != 0 then s
    else
      let changed := t.period != periodTicks s
      let g := s.esc.staged
      let s := fset Fld.ESC_PERIOD_PERIOD t.period (fset Fld.ESC_APPLY_APPLY t.apply (fset Fld.ESC_LEAD_LEAD t.lead
        (fset Fld.ESC_REFPT_REFPT t.refpt (fset Fld.ESC_REPAIR_REPAIR t.repair s))))
      let s := setEsc { s.esc with
          accepted := none, j := cyclesPerSecond s - 1,
          staged := ⟨unstage g.period t.period, unstage g.lead t.lead, unstage g.refpt t.refpt, unstage g.repair t.repair⟩ } s
      let s := (mappedPorts s).foldl (fun s p => if (port s p).swept then settleReach p s else s) s
      if changed then newPeriod s else s

def execTimingParamsTakeEffect (s : State) : Host.Outcome State Fault Refusal := .next (timingParams s)

/-! ### Within the cycle -/

/-- MEASUREMENT_TABLE_PUBLICATION: 250 ns after T_k (R41, R278, R347, R447). -/
def measurementPublication (s : State) : State :=
  if !escRunning s then s
  else chrOutputs (publishField (publishGoose (publishHka (publishMeasurement (reach (s.esc.tk + 125) s)))))

def execMeasurementTablePublication (s : State) : Host.Outcome State Fault Refusal := .next (measurementPublication s)

/-- REFERENCE_POINT (R51, R52, R163, R179, R370). -/
def referencePoint (s : State) : State :=
  if !escRunning s || s.esc.refDone || s.esc.cutDone then s
  else
    let s := reach (s.esc.tk + fget s Fld.ESC_REFPT_REFPT) s
    let s := (List.range 12).foldl (fun s w => lateRefs w (wheelRefPoint w s)) (setEsc { s.esc with refDone := true } s)
    sendEngines s

def execReferencePoint (s : State) : Host.Outcome State Fault Refusal := .next (referencePoint s)

/-! ### The cutoff -/

/-- A cycle core has not executed CEND. -/
def coreUnended (s : State) : Bool := (List.range 4).any (fun c => (core s c).run != .ended)

/-- R55, R56: a core that has not ended its cycle stops. -/
def stopCores (s : State) : State :=
  (List.range 4).foldl (fun s c =>
    if (core s c).run = .ended then s else setCore c { core s c with run := .stopped } s) s

/-- R58: count a cut cycle, or end the run of cut cycles. -/
def countCut (cut : Bool) (s : State) : State :=
  let s := fset Fld.ESC_STATUS_CUT (boolNat cut) s
  if cut then
    let n := min 255 (fget s Fld.ESC_STATUS_CUT_RUN + 1)
    occur (detect 12 0 0x3F 0) (bump Reg.ESC_CUT_CNT (fset Fld.ESC_STATUS_CUT_RUN n (chrCut s)))
  else clearCond 13 0 (fset Fld.ESC_STATUS_CUT_RUN 0 s)

/-- The outputs of this unit's engines and the HELD flags, kept for the comparison of the next cycle (R372). -/
def keepOutputs (s : State) : State :=
  { s with btn := { s.btn with
      shadowU := (List.range 8).map (fun e => (e, winVec s e 0x40 8))
      shadowHeld := (List.range 8).any (fun e => fbit s (Fld.LOOP_STATUS_HELD e)) } }

/-- R372: compare with the active unit's cycle before. -/
def compareShadow (s : State) : State :=
  let es := (engineRecs s (cycleNo s - 1)).getD []
  compareCycle (outputsDiffer s s.btn.shadowU es) (s.btn.shadowHeld || es.any (fun r => r.held)) s

/-- CUTOFF (R38, R55 to R59, R161, R174, R370, R372, R378, R472). -/
def cutoff (s : State) : State :=
  if !escRunning s || s.esc.cutDone then s
  else
    let s := reach (s.esc.tk + s.esc.wlen - Config.cutTicks) s
    let cut := coreUnended s
    let s := countCut cut (stopCores s)
    let blocked := (wheelsOn s).filter (fun w => (wheel s w).block)
    let s := takeEvidence s
    let s := (wheelsOn s).foldl (fun s w => latchWheel w cut s) s
    let s := (List.range 8).foldl (fun s e => loopOutput cut e s) s
    let s := s.sys.comm.cells.foldl (fun s m => cellTableEntry m.slot s) s
    let s := sendRecords cut blocked (relayGrants s)
    let s := keepOutputs (keepShadow cut blocked (compareShadow s))
    setEsc { s.esc with cutDone := true, pubDue := some (cycleNo s) } s

def execCutoff (s : State) : Host.Outcome State Fault Refusal := .next (cutoff s)

/-- CUT_RUN (R58): three consecutive cut cycles. -/
def cutRun (s : State) : State :=
  if 3 ≤ fget s Fld.ESC_STATUS_CUT_RUN then condIs true 13 0 0x3F s else s

def execCutRun (s : State) : Host.Outcome State Fault Refusal := .next (cutRun s)

/-! ### The cell table publication -/

/-- A hidden user output table with the cycle number in every eighth word (R474). -/
def stampUser (k : Word) (m : Memory) : Memory :=
  (List.range 512).foldl (fun m i => Memory.writeList m (Config.scmBase + 0x24000 + 32 * i) (wordBytes k)) m

/-- The user output table of the cycle that was cut off last (R247): its program stores no more once the next cycle has
begun. -/
def publishUser (k : Word) (s : State) : State :=
  let a := Config.scmBase + 0x24000
  let m := stampUser k (if s.esc.cutDone then s.hidden else s.userOut)
  let s := eccPass a 0x4000 s
  { s with mem := Memory.copyRange a 0x4000 m s.mem }

/-- The stores that are published with the cell table (R17, R161, R208, R247). -/
def publishTables (k : Word) (s : State) : State :=
  let b := Config.scmBase
  let pub := fun (a n : Nat) (s : State) => publish (b + a) n (eccPass (b + a) n s)
  publishUser k (pub 0x21200 0x200 (pub 0x21000 0x180 (pub 0 0x20000 s)))

/-- CELL_TABLE_PUBLICATION of the cycle that was cut off last, 0.4 µs after its cutoff. -/
def cellPublication (s : State) : State :=
  match s.esc.pubDue with
  | none => s
  | some k =>
    let t := if s.esc.cutDone then s.esc.tk + s.esc.wlen + 50 else s.esc.tk + 50
    let s := setEsc { s.esc with pubDue := none } (reach t s)
    let s := publishTables k s
    noteReadiness (chrCapture k (goosePublish (renewLease s)))

def execCellTablePublication (s : State) : Host.Outcome State Fault Refusal := .next (cellPublication s)

end Sys2Proof.Machine
end

