-- ==== Sys2Proof/Machine/Sample.lean ====
section
/-! DEFINITION. The raw sample of R258: it feeds the filter chain, the window comparators and the chronograph. -/

namespace Sys2Proof.Machine

/-- The nearest code of R257. -/
def limitCode (x : Int) : Int := max (-131072) (min 131071 x)

/-- The channel samples at this CNT (R258, R259): on multiples of 50, and an interleaved pair on every multiple of 25. -/
def samplesNow (s : State) (n : Nat) : Bool :=
  live s n && (s.time.cnt % 50 == 0 || (evenIl s n && s.time.cnt % 25 == 0))

/-- The code a channel delivers: zero during a foreground calibration (R263), unspecified with a common-mode fault. -/
def sampleCode (codes : List Int) (cm : BitVec 24) (n : Nat) (s : State) : Int × State :=
  if calibrating s n then (0, s)
  else if cm.getLsbD n then
    let (w, s) := drawFree s
    (sext 18 w.toNat, s)
  else (limitCode (codes.getD n 0), s)

/-- Position of this sample in its block (R317). -/
def samplePos (s : State) (n : Nat) : Nat :=
  if evenIl s n then (s.time.cnt - (s.esc.tk + 24) / 25 * 25) / 25 else (s.time.cnt - (s.esc.tk + 49) / 50 * 50) / 50

/-- One channel: range conditions, comparator, chain, raw masks. -/
def sampleChan (codes : List Int) (cm : BitVec 24) (p : List (Nat × Int) × State) (n : Nat) : List (Nat × Int) × State :=
  let s := dueReset p.2.time.cnt n p.2
  if !samplesNow s n then (p.1, s)
  else
    let x := codes.getD n 0
    let (y, s) := sampleCode codes cm n s
    let s := if x = limitCode x then clearCond 32 n s else s
    let s := if cm.getLsbD n then s else clearCond 32 (32 + n) s
    (p.1 ++ [(n, y)], rawMasks n (samplePos s n) y (chainSample n y (winCount n y s)))

/-- R258: every fast channel takes a raw sample on its CK_ADC edge. `codes` are the codes, corrected and not yet limited,
that the inputs give; `cm` the channels whose common mode lies outside its range. -/
def rawSample (codes : List Int) (cm : BitVec 24) (s : State) : State :=
  if s.time.cnt % 25 ≠ 0 ∨ s.sys.mode = .boot then s
  else
    let (got, s) := (List.range 24).foldl (sampleChan codes cm) ([], crossLink 0 s)
    let whole := s.time.cnt % 50 == 0
    let dig := digitalBits s
    let r : RawRec := ⟨s.time.cnt, got, if whole then some dig else none⟩
    let s := if escRunning s then setChr { s.chr with raws := s.chr.raws ++ [r] } s else s
    let s := if whole then chrInstant dig s else s
    chrOutputs (placeOutputs (s.time.cnt - 100) s)

def execRawSample (codes : List Int) (commonMode : BitVec 24) (s : State) : Host.Outcome State Fault Refusal :=
  .next (rawSample codes commonMode s)

end Sys2Proof.Machine
end

