-- ==== Sys2Proof/Machine/Dispatch.lean ====
section
/-! DEFINITION. One arm per command: its meaning, or a refusal by name. -/

namespace Sys2Proof.Machine

/-- The effect of a command on everything but the queue. -/
def exec (i : Instr) (s : State) : Host.Outcome State Fault Refusal :=
  match i with
  | .powerOn key => Sys2Proof.Machine.execPowerOn key s
  | .supplyLoss => Sys2Proof.Machine.execSupplyLoss s
  | .supplyInputFault input => Sys2Proof.Machine.execSupplyInputFault input s
  | .bootComplete b => Sys2Proof.Machine.execBootComplete b s
  | .sysResetHard r => Sys2Proof.Machine.execSysResetHard r s
  | .sysResetSoft r => Sys2Proof.Machine.execSysResetSoft r s
  | .escapementStart => Sys2Proof.Machine.execEscapementStart s
  | .cycleRelease withheld => Sys2Proof.Machine.execCycleRelease withheld s
  | .escapementStop => Sys2Proof.Machine.execEscapementStop s
  | .measurementTablePublication => Sys2Proof.Machine.execMeasurementTablePublication s
  | .referencePoint => Sys2Proof.Machine.execReferencePoint s
  | .staleRefRun w => Sys2Proof.Machine.execStaleRefRun w s
  | .speculativeRoundStart r => Sys2Proof.Machine.execSpeculativeRoundStart r s
  | .speculativePlanReady w => Sys2Proof.Machine.execSpeculativePlanReady w s
  | .confirmationStart w => Sys2Proof.Machine.execConfirmationStart w s
  | .confirmationEnd w => Sys2Proof.Machine.execConfirmationEnd w s
  | .commitPlanReady w => Sys2Proof.Machine.execCommitPlanReady w s
  | .repairDone w => Sys2Proof.Machine.execRepairDone w s
  | .fallbackPlanReady w => Sys2Proof.Machine.execFallbackPlanReady w s
  | .cutoff => Sys2Proof.Machine.execCutoff s
  | .cutRun => Sys2Proof.Machine.execCutRun s
  | .poolThreshold w => Sys2Proof.Machine.execPoolThreshold w s
  | .whlFallbackRun w => Sys2Proof.Machine.execWhlFallbackRun w s
  | .bypassConfirmTimeout slot => Sys2Proof.Machine.execBypassConfirmTimeout slot s
  | .cellTablePublication => Sys2Proof.Machine.execCellTablePublication s
  | .readinessReached => Sys2Proof.Machine.execReadinessReached s
  | .readinessLost => Sys2Proof.Machine.execReadinessLost s
  | .escTimingRegisterWrite o addr val => Sys2Proof.Machine.execEscTimingRegisterWrite o addr val s
  | .escCheckGo o => Sys2Proof.Machine.execEscCheckGo o s
  | .budgetCheckDone => Sys2Proof.Machine.execBudgetCheckDone s
  | .timingParamsTakeEffect => Sys2Proof.Machine.execTimingParamsTakeEffect s
  | .discGo o => Sys2Proof.Machine.execDiscGo o s
  | .discoveryRepeat port => Sys2Proof.Machine.execDiscoveryRepeat port s
  | .sweepRestart port => Sys2Proof.Machine.execSweepRestart port s
  | .probeLaunch port => Sys2Proof.Machine.execProbeLaunch port s
  | .probeReturn port frame rtt => Sys2Proof.Machine.execProbeReturn port frame rtt s
  | .probeTimeout port => Sys2Proof.Machine.execProbeTimeout port s
  | .chainFrameReceive port frame lap codes => Sys2Proof.Machine.execChainFrameReceive port frame lap codes s
  | .portLossOfSignal port => Sys2Proof.Machine.execPortLossOfSignal port s
  | .chainFreqTimeout port => Sys2Proof.Machine.execChainFreqTimeout port s
  | .healHoldExpiry port => Sys2Proof.Machine.execHealHoldExpiry port s
  | .chainHeal r port => Sys2Proof.Machine.execChainHeal r port s
  | .healComplete port => Sys2Proof.Machine.execHealComplete port s
  | .echoLaunch port => Sys2Proof.Machine.execEchoLaunch port s
  | .echoReceive port frame t => Sys2Proof.Machine.execEchoReceive port frame t s
  | .svcResponseReceive port seg => Sys2Proof.Machine.execSvcResponseReceive port seg s
  | .svcTimeout port pos => Sys2Proof.Machine.execSvcTimeout port pos s
  | .cellAccept r chain pos => Sys2Proof.Machine.execCellAccept r chain pos s
  | .whlWithdraw o w slot => Sys2Proof.Machine.execWhlWithdraw o w slot s
  | .whlReturn o w slot => Sys2Proof.Machine.execWhlReturn o w slot s
  | .whlBypass o w slot => Sys2Proof.Machine.execWhlBypass o w slot s
  | .whlTrcEnable o val => Sys2Proof.Machine.execWhlTrcEnable o val s
  | .loopUpdate e ns => Sys2Proof.Machine.execLoopUpdate e ns s
  | .loopSetMode e => Sys2Proof.Machine.execLoopSetMode e s
  | .loopWriteCoef e => Sys2Proof.Machine.execLoopWriteCoef e s
  | .loopSetTarget e => Sys2Proof.Machine.execLoopSetTarget e s
  | .loopPreset e => Sys2Proof.Machine.execLoopPreset e s
  | .loopInputLost e => Sys2Proof.Machine.execLoopInputLost e s
  | .loopModeCmd o e val => Sys2Proof.Machine.execLoopModeCmd o e val s
  | .loopPbCommit o e val => Sys2Proof.Machine.execLoopPbCommit o e val s
  | .add c d a b => Sys2Proof.Machine.execAdd c d a b s
  | .sub c d a b => Sys2Proof.Machine.execSub c d a b s
  | .and c d a b => Sys2Proof.Machine.execAnd c d a b s
  | .or c d a b => Sys2Proof.Machine.execOr c d a b s
  | .xor c d a b => Sys2Proof.Machine.execXor c d a b s
  | .sll c d a b => Sys2Proof.Machine.execSll c d a b s
  | .srl c d a b => Sys2Proof.Machine.execSrl c d a b s
  | .sra c d a b => Sys2Proof.Machine.execSra c d a b s
  | .slt c d a b => Sys2Proof.Machine.execSlt c d a b s
  | .sltu c d a b => Sys2Proof.Machine.execSltu c d a b s
  | .min c d a b => Sys2Proof.Machine.execMin c d a b s
  | .max c d a b => Sys2Proof.Machine.execMax c d a b s
  | .minu c d a b => Sys2Proof.Machine.execMinu c d a b s
  | .maxu c d a b => Sys2Proof.Machine.execMaxu c d a b s
  | .adds c d a b => Sys2Proof.Machine.execAdds c d a b s
  | .subs c d a b => Sys2Proof.Machine.execSubs c d a b s
  | .mul c d a b => Sys2Proof.Machine.execMul c d a b s
  | .mulh c d a b => Sys2Proof.Machine.execMulh c d a b s
  | .mulhu c d a b => Sys2Proof.Machine.execMulhu c d a b s
  | .div c d a b => Sys2Proof.Machine.execDiv c d a b s
  | .divu c d a b => Sys2Proof.Machine.execDivu c d a b s
  | .rem c d a b => Sys2Proof.Machine.execRem c d a b s
  | .remu c d a b => Sys2Proof.Machine.execRemu c d a b s
  | .clz c d a b => Sys2Proof.Machine.execClz c d a b s
  | .popc c d a b => Sys2Proof.Machine.execPopc c d a b s
  | .sextb c d a b => Sys2Proof.Machine.execSextb c d a b s
  | .sexth c d a b => Sys2Proof.Machine.execSexth c d a b s
  | .addi c d a imm => Sys2Proof.Machine.execAddi c d a imm s
  | .muli c d a imm => Sys2Proof.Machine.execMuli c d a imm s
  | .andi c d a imm => Sys2Proof.Machine.execAndi c d a imm s
  | .ori c d a imm => Sys2Proof.Machine.execOri c d a imm s
  | .xori c d a imm => Sys2Proof.Machine.execXori c d a imm s
  | .slti c d a imm => Sys2Proof.Machine.execSlti c d a imm s
  | .sltiu c d a imm => Sys2Proof.Machine.execSltiu c d a imm s
  | .lui c d a imm => Sys2Proof.Machine.execLui c d a imm s
  | .shi c d a imm => Sys2Proof.Machine.execShi c d a imm s
  | .fadd c d a b => Sys2Proof.Machine.execFadd c d a b s
  | .fsub c d a b => Sys2Proof.Machine.execFsub c d a b s
  | .fmul c d a b => Sys2Proof.Machine.execFmul c d a b s
  | .fdiv c d a b => Sys2Proof.Machine.execFdiv c d a b s
  | .fsqrt c d a b => Sys2Proof.Machine.execFsqrt c d a b s
  | .fmin c d a b => Sys2Proof.Machine.execFmin c d a b s
  | .fmax c d a b => Sys2Proof.Machine.execFmax c d a b s
  | .fabs c d a b => Sys2Proof.Machine.execFabs c d a b s
  | .fneg c d a b => Sys2Proof.Machine.execFneg c d a b s
  | .fcvtsw c d a b => Sys2Proof.Machine.execFcvtsw c d a b s
  | .fcvtws c d a b => Sys2Proof.Machine.execFcvtws c d a b s
  | .fcvtwsz c d a b => Sys2Proof.Machine.execFcvtwsz c d a b s
  | .feq c d a b => Sys2Proof.Machine.execFeq c d a b s
  | .flt c d a b => Sys2Proof.Machine.execFlt c d a b s
  | .fle c d a b => Sys2Proof.Machine.execFle c d a b s
  | .fmac c d a b => Sys2Proof.Machine.execFmac c d a b s
  | .fmsc c d a b => Sys2Proof.Machine.execFmsc c d a b s
  | .ldw c d a imm => Sys2Proof.Machine.execLdw c d a imm s
  | .ldh c d a imm => Sys2Proof.Machine.execLdh c d a imm s
  | .ldhu c d a imm => Sys2Proof.Machine.execLdhu c d a imm s
  | .ldbu c d a imm => Sys2Proof.Machine.execLdbu c d a imm s
  | .stw c d a imm => Sys2Proof.Machine.execStw c d a imm s
  | .sth c d a imm => Sys2Proof.Machine.execSth c d a imm s
  | .stb c d a imm => Sys2Proof.Machine.execStb c d a imm s
  | .ldwx c d a b => Sys2Proof.Machine.execLdwx c d a b s
  | .stwx c d a b => Sys2Proof.Machine.execStwx c d a b s
  | .beq c a b off => Sys2Proof.Machine.execBeq c a b off s
  | .bne c a b off => Sys2Proof.Machine.execBne c a b off s
  | .blt c a b off => Sys2Proof.Machine.execBlt c a b off s
  | .bge c a b off => Sys2Proof.Machine.execBge c a b off s
  | .j c off => Sys2Proof.Machine.execJ c off s
  | .jal c off => Sys2Proof.Machine.execJal c off s
  | .jr c d a b => Sys2Proof.Machine.execJr c d a b s
  | .jalr c d a b => Sys2Proof.Machine.execJalr c d a b s
  | .bdnz c a b off => Sys2Proof.Machine.execBdnz c a b off s
  | .vadd c d a b pp => Sys2Proof.Machine.execVadd c d a b pp s
  | .vsub c d a b pp => Sys2Proof.Machine.execVsub c d a b pp s
  | .vand c d a b pp => Sys2Proof.Machine.execVand c d a b pp s
  | .vor c d a b pp => Sys2Proof.Machine.execVor c d a b pp s
  | .vxor c d a b pp => Sys2Proof.Machine.execVxor c d a b pp s
  | .vsll c d a b pp => Sys2Proof.Machine.execVsll c d a b pp s
  | .vsrl c d a b pp => Sys2Proof.Machine.execVsrl c d a b pp s
  | .vsra c d a b pp => Sys2Proof.Machine.execVsra c d a b pp s
  | .vmin c d a b pp => Sys2Proof.Machine.execVmin c d a b pp s
  | .vmax c d a b pp => Sys2Proof.Machine.execVmax c d a b pp s
  | .vmul c d a b pp => Sys2Proof.Machine.execVmul c d a b pp s
  | .vfadd c d a b pp => Sys2Proof.Machine.execVfadd c d a b pp s
  | .vfsub c d a b pp => Sys2Proof.Machine.execVfsub c d a b pp s
  | .vfmul c d a b pp => Sys2Proof.Machine.execVfmul c d a b pp s
  | .vfmin c d a b pp => Sys2Proof.Machine.execVfmin c d a b pp s
  | .vfmax c d a b pp => Sys2Proof.Machine.execVfmax c d a b pp s
  | .vfabs c d a b pp => Sys2Proof.Machine.execVfabs c d a b pp s
  | .vfneg c d a b pp => Sys2Proof.Machine.execVfneg c d a b pp s
  | .vfcvtsw c d a b pp => Sys2Proof.Machine.execVfcvtsw c d a b pp s
  | .vfcvtws c d a b pp => Sys2Proof.Machine.execVfcvtws c d a b pp s
  | .vfcvtwsz c d a b pp => Sys2Proof.Machine.execVfcvtwsz c d a b pp s
  | .vfmac c d a b pp => Sys2Proof.Machine.execVfmac c d a b pp s
  | .vfmsc c d a b pp => Sys2Proof.Machine.execVfmsc c d a b pp s
  | .vfaddS c d a b pp => Sys2Proof.Machine.execVfaddS c d a b pp s
  | .vfmulS c d a b pp => Sys2Proof.Machine.execVfmulS c d a b pp s
  | .vfmacS c d a b pp => Sys2Proof.Machine.execVfmacS c d a b pp s
  | .vfmscS c d a b pp => Sys2Proof.Machine.execVfmscS c d a b pp s
  | .vaddS c d a b pp => Sys2Proof.Machine.execVaddS c d a b pp s
  | .vceq c d a b pp => Sys2Proof.Machine.execVceq c d a b pp s
  | .vcne c d a b pp => Sys2Proof.Machine.execVcne c d a b pp s
  | .vclt c d a b pp => Sys2Proof.Machine.execVclt c d a b pp s
  | .vcle c d a b pp => Sys2Proof.Machine.execVcle c d a b pp s
  | .vfceq c d a b pp => Sys2Proof.Machine.execVfceq c d a b pp s
  | .vfclt c d a b pp => Sys2Proof.Machine.execVfclt c d a b pp s
  | .vfcle c d a b pp => Sys2Proof.Machine.execVfcle c d a b pp s
  | .vredadd c d a b pp => Sys2Proof.Machine.execVredadd c d a b pp s
  | .vfredadd c d a b pp => Sys2Proof.Machine.execVfredadd c d a b pp s
  | .vfredmax c d a b pp => Sys2Proof.Machine.execVfredmax c d a b pp s
  | .vfredmin c d a b pp => Sys2Proof.Machine.execVfredmin c d a b pp s
  | .vmov c d a b pp => Sys2Proof.Machine.execVmov c d a b pp s
  | .vsplat c d a b pp => Sys2Proof.Machine.execVsplat c d a b pp s
  | .vext c d a b pp => Sys2Proof.Machine.execVext c d a b pp s
  | .vins c d a b pp => Sys2Proof.Machine.execVins c d a b pp s
  | .vld c d a imm => Sys2Proof.Machine.execVld c d a imm s
  | .vst c d a imm => Sys2Proof.Machine.execVst c d a imm s
  | .vlds c d a b => Sys2Proof.Machine.execVlds c d a b s
  | .vsts c d a b => Sys2Proof.Machine.execVsts c d a b s
  | .mfs c d a imm => Sys2Proof.Machine.execMfs c d a imm s
  | .mts c d a imm => Sys2Proof.Machine.execMts c d a imm s
  | .pand c d a b => Sys2Proof.Machine.execPand c d a b s
  | .por c d a b => Sys2Proof.Machine.execPor c d a b s
  | .pxor c d a b => Sys2Proof.Machine.execPxor c d a b s
  | .pnot c d a b => Sys2Proof.Machine.execPnot c d a b s
  | .pfrom c d a b => Sys2Proof.Machine.execPfrom c d a b s
  | .pto c d a b => Sys2Proof.Machine.execPto c d a b s
  | .pcnt c d a b => Sys2Proof.Machine.execPcnt c d a b s
  | .bar c d a b => Sys2Proof.Machine.execBar c d a b s
  | .cend c d a b => Sys2Proof.Machine.execCend c d a b s
  | .trap c d a b => Sys2Proof.Machine.execTrap c d a b s
  | .fence c d a b => Sys2Proof.Machine.execFence c d a b s
  | .twait c d a b => Sys2Proof.Machine.execTwait c d a b s
  | .twaitRelease c => Sys2Proof.Machine.execTwaitRelease c s
  | .engGo c cls idx off => Sys2Proof.Machine.execEngGo c cls idx off s
  | .engWait c cls idx off => Sys2Proof.Machine.execEngWait c cls idx off s
  | .engWaitTimeout c => Sys2Proof.Machine.execEngWaitTimeout c s
  | .evtTake c d a b => Sys2Proof.Machine.execEvtTake c d a b s
  | .evtDone c d a b => Sys2Proof.Machine.execEvtDone c d a b s
  | .evtPost c d a b => Sys2Proof.Machine.execEvtPost c d a b s
  | .trc c d a b => Sys2Proof.Machine.execTrc c d a b s
  | .dcflush c d a b => Sys2Proof.Machine.execDcflush c d a b s
  | .dcinv c d a b => Sys2Proof.Machine.execDcinv c d a b s
  | .dcsync c d a b => Sys2Proof.Machine.execDcsync c d a b s
  | .dmaCopy c => Sys2Proof.Machine.execDmaCopy c s
  | .dmaCopyDone c => Sys2Proof.Machine.execDmaCopyDone c s
  | .timeCapture c => Sys2Proof.Machine.execTimeCapture c s
  | .timeAlarm c => Sys2Proof.Machine.execTimeAlarm c s
  | .timeAlarmExpiry c => Sys2Proof.Machine.execTimeAlarmExpiry c s
  | .mailboxSvcReq => Sys2Proof.Machine.execMailboxSvcReq s
  | .mailboxMbReply => Sys2Proof.Machine.execMailboxMbReply s
  | .sysUpbCommit o val => Sys2Proof.Machine.execSysUpbCommit o val s
  | .fadOverrange ch => Sys2Proof.Machine.execFadOverrange ch s
  | .fadCommonMode ch => Sys2Proof.Machine.execFadCommonMode ch s
  | .fgcalGo o val => Sys2Proof.Machine.execFgcalGo o val s
  | .fgcalEnd offs gain => Sys2Proof.Machine.execFgcalEnd offs gain s
  | .bgCalConverged pair => Sys2Proof.Machine.execBgCalConverged pair s
  | .windowComparatorTrip ch => Sys2Proof.Machine.execWindowComparatorTrip ch s
  | .windowComparatorRelease ch => Sys2Proof.Machine.execWindowComparatorRelease ch s
  | .hkaScanGo o => Sys2Proof.Machine.execHkaScanGo o s
  | .hkaTimedScanStart => Sys2Proof.Machine.execHkaTimedScanStart s
  | .hkaConversion code => Sys2Proof.Machine.execHkaConversion code s
  | .hkaScanEnd => Sys2Proof.Machine.execHkaScanEnd s
  | .hkaInjReq o val => Sys2Proof.Machine.execHkaInjReq o val s
  | .hkaInjConversion code => Sys2Proof.Machine.execHkaInjConversion code s
  | .hkaInjResRead slot => Sys2Proof.Machine.execHkaInjResRead slot s
  | .hkaCalGo o => Sys2Proof.Machine.execHkaCalGo o s
  | .hkaCalEnd => Sys2Proof.Machine.execHkaCalEnd s
  | .syncInEdge falling => Sys2Proof.Machine.execSyncInEdge falling s
  | .fltSyncGo o => Sys2Proof.Machine.execFltSyncGo o s
  | .syncResetApply => Sys2Proof.Machine.execSyncResetApply s
  | .fltConfigWrite o addr val => Sys2Proof.Machine.execFltConfigWrite o addr val s
  | .chrArm src => Sys2Proof.Machine.execChrArm src s
  | .chrDisarm src => Sys2Proof.Machine.execChrDisarm src s
  | .chrTrigger src => Sys2Proof.Machine.execChrTrigger src s
  | .chrMark => Sys2Proof.Machine.execChrMark s
  | .chrRelease src => Sys2Proof.Machine.execChrRelease src s
  | .chrConfigWrite o addr val => Sys2Proof.Machine.execChrConfigWrite o addr val s
  | .trigInEdge falling => Sys2Proof.Machine.execTrigInEdge falling s
  | .chrBlockWrite room => Sys2Proof.Machine.execChrBlockWrite room s
  | .chrRecordClose => Sys2Proof.Machine.execChrRecordClose s
  | .chrHoldoffEnd => Sys2Proof.Machine.execChrHoldoffEnd s
  | .chrRearm => Sys2Proof.Machine.execChrRearm s
  | .chrSeqWindowExpiry => Sys2Proof.Machine.execChrSeqWindowExpiry s
  | .chrStreamDatagram => Sys2Proof.Machine.execChrStreamDatagram s
  | .timAdjCommit o val => Sys2Proof.Machine.execTimAdjCommit o val s
  | .timEpochStart => Sys2Proof.Machine.execTimEpochStart s
  | .ref10Loss => Sys2Proof.Machine.execRef10Loss s
  | .ref10Restore => Sys2Proof.Machine.execRef10Restore s
  | .ppsOutPulse => Sys2Proof.Machine.execPpsOutPulse s
  | .ppsInEdge falling => Sys2Proof.Machine.execPpsInEdge falling s
  | .servoMeasurement offset rate => Sys2Proof.Machine.execServoMeasurement offset rate s
  | .servoHoldover silence => Sys2Proof.Machine.execServoHoldover silence s
  | .servoHoldMaxExpiry => Sys2Proof.Machine.execServoHoldMaxExpiry s
  | .ptpMessageReceive port msg phase => Sys2Proof.Machine.execPtpMessageReceive port msg phase s
  | .ptpMessageSend port kind phase => Sys2Proof.Machine.execPtpMessageSend port kind phase s
  | .prpSupervisionSend => Sys2Proof.Machine.execPrpSupervisionSend s
  | .twinTimeCompare diff => Sys2Proof.Machine.execTwinTimeCompare diff s
  | .ethTxtsRead rd port => Sys2Proof.Machine.execEthTxtsRead rd port s
  | .lqPost o port q addr => Sys2Proof.Machine.execLqPost o port q addr s
  | .timedLaunch port phase => Sys2Proof.Machine.execTimedLaunch port phase s
  | .gooseReceive port f => Sys2Proof.Machine.execGooseReceive port f s
  | .gooseTalExpiry e => Sys2Proof.Machine.execGooseTalExpiry e s
  | .gooseRepeat g => Sys2Proof.Machine.execGooseRepeat g s
  | .svFrameReceive port f => Sys2Proof.Machine.execSvFrameReceive port f s
  | .svStreamLost st => Sys2Proof.Machine.execSvStreamLost st s
  | .arpRequestReceive port ip => Sys2Proof.Machine.execArpRequestReceive port ip s
  | .icmpEchoReceive port ip src data => Sys2Proof.Machine.execIcmpEchoReceive port ip src data s
  | .ethLinkDown port => Sys2Proof.Machine.execEthLinkDown port s
  | .heartbeatSend j => Sys2Proof.Machine.execHeartbeatSend j s
  | .heartbeatReceive hb => Sys2Proof.Machine.execHeartbeatReceive hb s
  | .silenceTimeout => Sys2Proof.Machine.execSilenceTimeout s
  | .leaseExpiry => Sys2Proof.Machine.execLeaseExpiry s
  | .mirrorLaneLoss l => Sys2Proof.Machine.execMirrorLaneLoss l s
  | .mirrorRecordReceive part lat => Sys2Proof.Machine.execMirrorRecordReceive part lat s
  | .relayFrameLaunch ch => Sys2Proof.Machine.execRelayFrameLaunch ch s
  | .btnSelftestStart => Sys2Proof.Machine.execBtnSelftestStart s
  | .btnSelftestDone pass => Sys2Proof.Machine.execBtnSelftestDone pass s
  | .btnSelftestResultTimeout => Sys2Proof.Machine.execBtnSelftestResultTimeout s
  | .btnCmdHandover o => Sys2Proof.Machine.execBtnCmdHandover o s
  | .btnCmdReadyAck o => Sys2Proof.Machine.execBtnCmdReadyAck o s
  | .btnCmdSelftest o => Sys2Proof.Machine.execBtnCmdSelftest o s
  | .handoverAcceptDeadline => Sys2Proof.Machine.execHandoverAcceptDeadline s
  | .modeDiffTimeout => Sys2Proof.Machine.execModeDiffTimeout s
  | .pbDiffTimeout => Sys2Proof.Machine.execPbDiffTimeout s
  | .joinTimeout => Sys2Proof.Machine.execJoinTimeout s
  | .joinComplete => Sys2Proof.Machine.execJoinComplete s
  | .eventDispatch c => Sys2Proof.Machine.execEventDispatch c s
  | .heldEventEntry => Sys2Proof.Machine.execHeldEventEntry s
  | .schTimerExpiry t => Sys2Proof.Machine.execSchTimerExpiry t s
  | .schTraceMark => Sys2Proof.Machine.execSchTraceMark s
  | .schTrcEnable o val => Sys2Proof.Machine.execSchTrcEnable o val s
  | .eventWatchdogExpiry c next => Sys2Proof.Machine.execEventWatchdogExpiry c next s
  | .fcoStatusClear o n val => Sys2Proof.Machine.execFcoStatusClear o n val s
  | .fcoCaptureRelease o => Sys2Proof.Machine.execFcoCaptureRelease o s
  | .fcoClassWrite o n val => Sys2Proof.Machine.execFcoClassWrite o n val s
  | .fcoInjectGo o val => Sys2Proof.Machine.execFcoInjectGo o val s
  | .fcoInjectCancel o => Sys2Proof.Machine.execFcoInjectCancel o s
  | .swFaultRaise o => Sys2Proof.Machine.execSwFaultRaise o s
  | .swFaultClear o => Sys2Proof.Machine.execSwFaultClear o s
  | .fcoFoutWrite o val => Sys2Proof.Machine.execFcoFoutWrite o val s
  | .faultOutTminExpiry => Sys2Proof.Machine.execFaultOutTminExpiry s
  | .pllLossOfLock => Sys2Proof.Machine.execPllLossOfLock s
  | .supervisoryWatchdogExpiry => Sys2Proof.Machine.execSupervisoryWatchdogExpiry s
  | .dieLinkLoss l => Sys2Proof.Machine.execDieLinkLoss l s
  | .opticsAlarm inst => Sys2Proof.Machine.execOpticsAlarm inst s
  | .safetyFirmwareStep chA chB svOk selfOk => Sys2Proof.Machine.execSafetyFirmwareStep chA chB svOk selfOk s
  | .safetyBlockDecision => Sys2Proof.Machine.execSafetyBlockDecision s
  | .blockCommaRepeat => Sys2Proof.Machine.execBlockCommaRepeat s
  | .sf3WatchdogExpiry => Sys2Proof.Machine.execSf3WatchdogExpiry s
  | .testPulse tp missed followedOther => Sys2Proof.Machine.execTestPulse tp missed followedOther s
  | .safetyDiscrepancyTimeout pair => Sys2Proof.Machine.execSafetyDiscrepancyTimeout pair s
  | .outputSwitchTest q high => Sys2Proof.Machine.execOutputSwitchTest q high s
  | .outputSwitchTestEnd q high pass => Sys2Proof.Machine.execOutputSwitchTestEnd q high pass s
  | .outputReadbackMismatch q => Sys2Proof.Machine.execOutputReadbackMismatch q s
  | .outputOvercurrent q => Sys2Proof.Machine.execOutputOvercurrent q s
  | .permitDelayExpiry q => Sys2Proof.Machine.execPermitDelayExpiry q s
  | .safetyLinkSilence => Sys2Proof.Machine.execSafetyLinkSilence s
  | .svSupplyOutOfRange => Sys2Proof.Machine.execSvSupplyOutOfRange s
  | .safetySelftestEnd pass => Sys2Proof.Machine.execSafetySelftestEnd pass s
  | .lockoutRelease r => Sys2Proof.Machine.execLockoutRelease r s
  | .releaseWindowExpiry => Sys2Proof.Machine.execReleaseWindowExpiry s
  | .lockoutResetFallingEdge heldMs => Sys2Proof.Machine.execLockoutResetFallingEdge heldMs s
  | .lockoutResetLongPress => Sys2Proof.Machine.execLockoutResetLongPress s
  | .keyStuckClear => Sys2Proof.Machine.execKeyStuckClear s
  | .safePbLoad r passwordOk sig block image => Sys2Proof.Machine.execSafePbLoad r passwordOk sig block image s
  | .safeLogAck r seq crc => Sys2Proof.Machine.execSafeLogAck r seq crc s
  | .fieldFrameToLogic body crc fv term oc extv => Sys2Proof.Machine.execFieldFrameToLogic body crc fv term oc extv s
  | .fieldFrameToField body crc => Sys2Proof.Machine.execFieldFrameToField body crc s
  | .fieldLinkSilenceField => Sys2Proof.Machine.execFieldLinkSilenceField s
  | .fieldLinkSilenceLogic => Sys2Proof.Machine.execFieldLinkSilenceLogic s
  | .fieldInputChange n on => Sys2Proof.Machine.execFieldInputChange n on s
  | .fieldWireBreak n => Sys2Proof.Machine.execFieldWireBreak n s
  | .fieldWireBreakClear n => Sys2Proof.Machine.execFieldWireBreakClear n s
  | .fieldOutputOvercurrent n => Sys2Proof.Machine.execFieldOutputOvercurrent n s
  | .fieldOutputExtVoltage n => Sys2Proof.Machine.execFieldOutputExtVoltage n s
  | .fieldSupplyWarn => Sys2Proof.Machine.execFieldSupplyWarn s
  | .fieldSupplyWarnClear => Sys2Proof.Machine.execFieldSupplyWarnClear s
  | .fieldSupplyOff => Sys2Proof.Machine.execFieldSupplyOff s
  | .fieldSupplyOk => Sys2Proof.Machine.execFieldSupplyOk s
  | .supRearm o => Sys2Proof.Machine.execSupRearm o s
  | .linkRearm o => Sys2Proof.Machine.execLinkRearm o s
  | .fioDqWrite o val => Sys2Proof.Machine.execFioDqWrite o val s
  | .modeReqCommission c => Sys2Proof.Machine.execModeReqCommission c s
  | .modeReqCharge c => Sys2Proof.Machine.execModeReqCharge c s
  | .modeReqReady c => Sys2Proof.Machine.execModeReqReady c s
  | .modeReqRun c => Sys2Proof.Machine.execModeReqRun c s
  | .statBoundary => Sys2Proof.Machine.execStatBoundary s
  | .statPeriodWrite o val => Sys2Proof.Machine.execStatPeriodWrite o val s
  | .statBankValRead m => Sys2Proof.Machine.execStatBankValRead m s
  | .rsLowHalfRead rd addr => Sys2Proof.Machine.execRsLowHalfRead rd addr s
  | .registerWrite o addr val => Sys2Proof.Machine.execRegisterWrite o addr val s
  | .hmpOpen r role num => Sys2Proof.Machine.execHmpOpen r role num s
  | .hmpClose r => Sys2Proof.Machine.execHmpClose r s
  | .hmpSessionIdleTimeout num => Sys2Proof.Machine.execHmpSessionIdleTimeout num s
  | .hmpAddressBlockExpiry src => Sys2Proof.Machine.execHmpAddressBlockExpiry src s
  | .regRead r bank addr count => Sys2Proof.Machine.execRegRead r bank addr count s
  | .regWrite r addr vals => Sys2Proof.Machine.execRegWrite r addr vals s
  | .memRead r addr len => Sys2Proof.Machine.execMemRead r addr len s
  | .memWrite r addr bytes => Sys2Proof.Machine.execMemWrite r addr bytes s
  | .recordRead r kind index offset len => Sys2Proof.Machine.execRecordRead r kind index offset len s
  | .imageBegin r kind len => Sys2Proof.Machine.execImageBegin r kind len s
  | .imageData r offset bytes => Sys2Proof.Machine.execImageData r offset bytes s
  | .imageEnd r sig hashOk limitsOk content => Sys2Proof.Machine.execImageEnd r sig hashOk limitsOk content s
  | .imageActivateFirmware r => Sys2Proof.Machine.execImageActivateFirmware r s
  | .imageActivateProgram r => Sys2Proof.Machine.execImageActivateProgram r s
  | .imageActivateCommission r => Sys2Proof.Machine.execImageActivateCommission r s
  | .keyEnrol r kind slot key => Sys2Proof.Machine.execKeyEnrol r kind slot key s
  | .mbWrite r mb bytes => Sys2Proof.Machine.execMbWrite r mb bytes s
  | .rawSample codes commonMode => Sys2Proof.Machine.execRawSample codes commonMode s
  | .portSignalReturn port => Sys2Proof.Machine.execPortSignalReturn port s
  | .chainFreqReturn port => Sys2Proof.Machine.execChainFreqReturn port s
  | .mirrorLaneRestore l => Sys2Proof.Machine.execMirrorLaneRestore l s
  | .ethLinkUp port => Sys2Proof.Machine.execEthLinkUp port s
  | .dieLinkRestore l => Sys2Proof.Machine.execDieLinkRestore l s
  | .mbWriteTimeout mb => Sys2Proof.Machine.execMbWriteTimeout mb s
  | .arpReplyReceive port ip => Sys2Proof.Machine.execArpReplyReceive port ip s
  | .managementChannelReceive msg => Sys2Proof.Machine.execManagementChannelReceive msg s

end Sys2Proof.Machine
end

