-- ==== Sys2Proof/Machine/Step.lean ====
section
/-! DEFINITION. One step: the command at the front of the queue, or, on an empty queue, one CK_TIME tick. -/

namespace Sys2Proof.Machine

/-- On an empty queue the free-running counter of R326 advances by one tick, and the safety die's own oscillator by the
same time (log entry 5, R10). -/
def idle (s : State) : State :=
  { s with
    time := { s.time with cnt := (s.time.cnt + 1) % 2 ^ 64 }
    saf := { s.saf with osc := s.saf.osc + 1 } }

/-- One step of the block. -/
def step (s : State) : Host.Outcome State Fault Refusal :=
  match s.pending with
  | [] => .next (idle s)
  | c :: rest => exec c { s with pending := rest }

/-- The state with the command that a table word spells in front of its queue. The table gives no row any bits, so no
word spells a command. -/
def State.withFetchWord (s : State) (nbits w : Nat) : State :=
  match Sys2Proof.decodeTableWord nbits w with
  | some c => { s with pending := c :: s.pending }
  | none => s

end Sys2Proof.Machine
end

