-- ==== Sys2Proof/WellFormed.lean ====
section
/-! DEFINITION. Which terms of `Instr` stand for commands that the outside of the module can send: the sizes that the
manual gives a frame, a record, a block or a measurement hold. A request that the manual lets arrive and answers with a
refusal is well-formed. -/

namespace Sys2Proof

/-- R459, R467: the boot sequence loads five identity structures. -/
def BootResult.wf (b : BootResult) : Bool := decide (b.ids.length = 5)

/-- ch. 4, The frame (R91): a chain frame has at most 40 + 64 × 16 + 4 bytes and 16 tail segments of 64 bytes. -/
def chainFrameOk (f : List LinkChar) : Bool := decide (f ≠ [] ∧ f.length ≤ 40 + 64 * 16 + 4 + 16 * 64)

/-- R335: fields of a PTP header; the portState values of IEEE 1588 are 1 to 9, and 10 is PASSIVE_SLAVE. -/
def PtpMsg.wf (m : PtpMsg) : Bool := decide (m.domain < 256 ∧ m.seq < 2 ^ 16 ∧ 1 ≤ m.portState ∧ m.portState ≤ 10)

/-- R344: a source address of 48 bits and a sequence number of 16. -/
def PrpInfo.wf (p : PrpInfo) : Bool :=
  decide (p.src < 2 ^ 48) && (match p.trailer with | some (n, _) => decide (n < 2 ^ 16) | none => true)

/-- R349: up to 16 elements, each an INT32. -/
def SvAsdu.wf (a : SvAsdu) : Bool :=
  decide (a.smpCnt < 2 ^ 16 ∧ a.elems.length ≤ 16) && a.elems.all (fun e => decide (-2 ^ 31 ≤ e.1 ∧ e.1 < 2 ^ 31))

/-- R349: 1 to 8 ASDUs. -/
def SvFrame.wf (f : SvFrame) : Bool :=
  decide (f.smpRate < 2 ^ 16 ∧ 1 ≤ f.asdus.length ∧ f.asdus.length ≤ 8) && f.asdus.all SvAsdu.wf

/-- R360: the field widths of a heartbeat. -/
def Heartbeat.wf (h : Heartbeat) : Bool :=
  decide (h.seq < 256 ∧ h.ack < 256 ∧ h.stSeq < 2 ^ 16 ∧ h.stRes < 256)

/-- R370: an engine record holds x̂[16], z[8], r[8], targets[8] and u[8]. -/
def EngineRec.wf (e : EngineRec) : Bool :=
  decide (e.mode < 4 ∧ e.x.length = 16 ∧ e.z.length = 8 ∧ e.r.length = 8 ∧ e.targets.length = 8 ∧ e.u.length = 8)

/-- R370: at most 24 delta entries, and 8 refresh entries, per wheel. -/
def WheelRec.wf (w : WheelRec) : Bool := decide (w.deltas.length ≤ 24 ∧ w.refresh.length ≤ 8)

/-- R370: the counts of a cycle record. -/
def MirrorPart.wf : MirrorPart → Bool
  | .engine _ _ _ engs => decide (engs.length = 8) && engs.all EngineRec.wf
  | .rest _ _ _ _ wheels ids relay =>
    decide (wheels.length = 12 ∧ ids.length ≤ 26 ∧ relay.length ≤ 512) && wheels.all WheelRec.wf
  | .standby _ _ _ _ reports => decide (reports.length ≤ 512)

/-- R71, R90: a chain end has at most 64 positions. -/
def MgmtMsg.wf : MgmtMsg → Bool
  | .sweepEnd _ cells => decide (cells.length ≤ 64)
  | .reached _ n => decide (n ≤ 64)
  | .discovery _ cells _ => decide (cells.length ≤ 64)
  | .sweepStart _ => true
  | .lastSegment _ _ => true
  | .images _ _ _ => true
  | .reach _ r _ => decide (r ≤ 64)
  | .healStart _ => true
  | .healMeasured _ _ _ => true
  | .healEnd _ => true
  | .selftest _ => true

/-- R431: eight input pairs, four outputs and 24 channels. -/
def SafetyBlock.wf (b : SafetyBlock) : Bool := decide (b.pairs.length = 8 ∧ b.permit.length = 4 ∧ b.win.length = 24)

/-- R254: a program image covers 4 cycle cores and, with log entry 13, up to 4 event cores. -/
def ProgramImage.wf (p : ProgramImage) : Bool := decide (p.cores.length ≤ 8 ∧ p.upb.length ≤ 16 ∧ p.cert.coreWc.length = 4)

/-- R63: 128 chains, five parameter words (R461). -/
def CommImage.wf (c : CommImage) : Bool :=
  decide (c.chains.length ≤ 128 ∧ c.params.length ≤ 5 ∧ c.goose.length ≤ 16)

def ImageContent.wf : ImageContent → Bool
  | .firmware _ => true
  | .program p => p.wf
  | .commission c => c.wf

/-- R483: a 32-byte role key, or a 64-byte public key for slot 0 to 3. -/
def keyOk (k : KeyKind) (slot : Nat) (key : List Byte) : Bool :=
  match k with
  | .role _ => decide (key.length = 32)
  | .program => decide (key.length = 64 ∧ slot < 4)
  | .commission => decide (key.length = 64 ∧ slot < 4)
  | .safety => decide (key.length = 64 ∧ slot < 4)

/-- The command is one that can be sent. -/
def Instr.wellFormed : Instr → Bool
  | .bootComplete b => b.wf
  | .probeReturn _ f _ => chainFrameOk f
  | .chainFrameReceive _ f _ _ => chainFrameOk f
  | .chainHeal _ p => decide (p < 2 ^ 16)
  | .echoReceive _ f _ => chainFrameOk f
  | .svcResponseReceive _ g => decide (g.length = 64)
  | .cellAccept _ c p => decide (c < 2 ^ 16 ∧ p < 2 ^ 16)
  | .fgcalEnd o g => decide (o.length = 24 ∧ g.length = 24)
  | .ptpMessageReceive _ m _ => m.wf
  | .gooseReceive _ f => f.prp.wf && decide (f.tal < 2 ^ 32)
  | .svFrameReceive _ f => f.wf
  | .icmpEchoReceive _ _ _ d => decide (d.length ≤ 1472)
  | .heartbeatReceive h => h.wf
  | .mirrorRecordReceive p _ => p.wf
  | .opticsAlarm i => decide (i < 64)
  | .safePbLoad _ _ _ b _ => b.wf
  | .fieldFrameToLogic b _ _ _ _ _ => decide (b ≠ [])
  | .fieldFrameToField b _ => decide (b ≠ [])
  | .regRead _ _ _ n => decide (n < 2 ^ 16)
  | .regWrite _ _ v => decide (v.length < 2 ^ 16)
  | .memRead _ _ n => decide (n < 2 ^ 32)
  | .memWrite _ _ b => decide (b.length < 2 ^ 16)
  | .recordRead _ k i o n => decide (k < 2 ^ 32 ∧ i < 2 ^ 32 ∧ o < 2 ^ 32 ∧ n < 2 ^ 32)
  | .imageBegin _ k n => decide (k < 2 ^ 32 ∧ n < 2 ^ 32)
  | .imageData _ o b => decide (o < 2 ^ 32 ∧ b.length < 2 ^ 16)
  | .imageEnd _ _ _ _ c => c.wf
  | .keyEnrol _ k n key => keyOk k n key
  | .mbWrite _ m b => decide (m < 2 ^ 32 ∧ b.length < 2 ^ 16)
  | .rawSample codes _ => decide (codes.length = 24)
  | .managementChannelReceive m => m.wf
  | .powerOn .. | .supplyLoss | .supplyInputFault .. | .sysResetHard .. | .sysResetSoft .. | .escapementStart
  | .cycleRelease .. | .escapementStop | .measurementTablePublication | .referencePoint | .staleRefRun ..
  | .speculativeRoundStart .. | .speculativePlanReady .. | .confirmationStart .. | .confirmationEnd ..
  | .commitPlanReady .. | .repairDone .. | .fallbackPlanReady .. | .cutoff | .cutRun | .poolThreshold ..
  | .whlFallbackRun .. | .bypassConfirmTimeout .. | .cellTablePublication | .readinessReached
  | .readinessLost | .escTimingRegisterWrite .. | .escCheckGo .. | .budgetCheckDone | .timingParamsTakeEffect
  | .discGo .. | .discoveryRepeat .. | .sweepRestart .. | .probeLaunch .. | .probeTimeout ..
  | .portLossOfSignal .. | .chainFreqTimeout .. | .healHoldExpiry .. | .healComplete .. | .echoLaunch ..
  | .svcTimeout .. | .whlWithdraw .. | .whlReturn .. | .whlBypass .. | .whlTrcEnable .. | .loopUpdate ..
  | .loopSetMode .. | .loopWriteCoef .. | .loopSetTarget .. | .loopPreset .. | .loopInputLost ..
  | .loopModeCmd .. | .loopPbCommit .. | .add .. | .sub .. | .and .. | .or .. | .xor .. | .sll .. | .srl ..
  | .sra .. | .slt .. | .sltu .. | .min .. | .max .. | .minu .. | .maxu .. | .adds .. | .subs .. | .mul ..
  | .mulh .. | .mulhu .. | .div .. | .divu .. | .rem .. | .remu .. | .clz .. | .popc .. | .sextb ..
  | .sexth .. | .addi .. | .muli .. | .andi .. | .ori .. | .xori .. | .slti .. | .sltiu .. | .lui ..
  | .shi .. | .fadd .. | .fsub .. | .fmul .. | .fdiv .. | .fsqrt .. | .fmin .. | .fmax .. | .fabs ..
  | .fneg .. | .fcvtsw .. | .fcvtws .. | .fcvtwsz .. | .feq .. | .flt .. | .fle .. | .fmac .. | .fmsc ..
  | .ldw .. | .ldh .. | .ldhu .. | .ldbu .. | .stw .. | .sth .. | .stb .. | .ldwx .. | .stwx .. | .beq ..
  | .bne .. | .blt .. | .bge .. | .j .. | .jal .. | .jr .. | .jalr .. | .bdnz .. | .vadd .. | .vsub ..
  | .vand .. | .vor .. | .vxor .. | .vsll .. | .vsrl .. | .vsra .. | .vmin .. | .vmax .. | .vmul ..
  | .vfadd .. | .vfsub .. | .vfmul .. | .vfmin .. | .vfmax .. | .vfabs .. | .vfneg .. | .vfcvtsw ..
  | .vfcvtws .. | .vfcvtwsz .. | .vfmac .. | .vfmsc .. | .vfaddS .. | .vfmulS .. | .vfmacS .. | .vfmscS ..
  | .vaddS .. | .vceq .. | .vcne .. | .vclt .. | .vcle .. | .vfceq .. | .vfclt .. | .vfcle .. | .vredadd ..
  | .vfredadd .. | .vfredmax .. | .vfredmin .. | .vmov .. | .vsplat .. | .vext .. | .vins .. | .vld ..
  | .vst .. | .vlds .. | .vsts .. | .mfs .. | .mts .. | .pand .. | .por .. | .pxor .. | .pnot .. | .pfrom ..
  | .pto .. | .pcnt .. | .bar .. | .cend .. | .trap .. | .fence .. | .twait .. | .twaitRelease .. | .engGo ..
  | .engWait .. | .engWaitTimeout .. | .evtTake .. | .evtDone .. | .evtPost .. | .trc .. | .dcflush ..
  | .dcinv .. | .dcsync .. | .dmaCopy .. | .dmaCopyDone .. | .timeCapture .. | .timeAlarm ..
  | .timeAlarmExpiry .. | .mailboxSvcReq | .mailboxMbReply | .sysUpbCommit .. | .fadOverrange ..
  | .fadCommonMode .. | .fgcalGo .. | .bgCalConverged .. | .windowComparatorTrip ..
  | .windowComparatorRelease .. | .hkaScanGo .. | .hkaTimedScanStart | .hkaConversion .. | .hkaScanEnd
  | .hkaInjReq .. | .hkaInjConversion .. | .hkaInjResRead .. | .hkaCalGo .. | .hkaCalEnd | .syncInEdge ..
  | .fltSyncGo .. | .syncResetApply | .fltConfigWrite .. | .chrArm .. | .chrDisarm .. | .chrTrigger ..
  | .chrMark | .chrRelease .. | .chrConfigWrite .. | .trigInEdge .. | .chrBlockWrite .. | .chrRecordClose
  | .chrHoldoffEnd | .chrRearm | .chrSeqWindowExpiry | .chrStreamDatagram | .timAdjCommit .. | .timEpochStart
  | .ref10Loss | .ref10Restore | .ppsOutPulse | .ppsInEdge .. | .servoMeasurement .. | .servoHoldover ..
  | .servoHoldMaxExpiry | .ptpMessageSend .. | .prpSupervisionSend | .twinTimeCompare .. | .ethTxtsRead ..
  | .lqPost .. | .timedLaunch .. | .gooseTalExpiry .. | .gooseRepeat .. | .svStreamLost ..
  | .arpRequestReceive .. | .ethLinkDown .. | .heartbeatSend .. | .silenceTimeout | .leaseExpiry
  | .mirrorLaneLoss .. | .relayFrameLaunch .. | .btnSelftestStart | .btnSelftestDone ..
  | .btnSelftestResultTimeout | .btnCmdHandover .. | .btnCmdReadyAck .. | .btnCmdSelftest ..
  | .handoverAcceptDeadline | .modeDiffTimeout | .pbDiffTimeout | .joinTimeout | .joinComplete
  | .eventDispatch .. | .heldEventEntry | .schTimerExpiry .. | .schTraceMark | .schTrcEnable ..
  | .eventWatchdogExpiry .. | .fcoStatusClear .. | .fcoCaptureRelease .. | .fcoClassWrite ..
  | .fcoInjectGo .. | .fcoInjectCancel .. | .swFaultRaise .. | .swFaultClear .. | .fcoFoutWrite ..
  | .faultOutTminExpiry | .pllLossOfLock | .supervisoryWatchdogExpiry | .dieLinkLoss ..
  | .safetyFirmwareStep .. | .safetyBlockDecision | .blockCommaRepeat | .sf3WatchdogExpiry | .testPulse ..
  | .safetyDiscrepancyTimeout .. | .outputSwitchTest .. | .outputSwitchTestEnd ..
  | .outputReadbackMismatch .. | .outputOvercurrent .. | .permitDelayExpiry .. | .safetyLinkSilence
  | .svSupplyOutOfRange | .safetySelftestEnd .. | .lockoutRelease .. | .releaseWindowExpiry
  | .lockoutResetFallingEdge .. | .lockoutResetLongPress | .keyStuckClear | .safeLogAck ..
  | .fieldLinkSilenceField | .fieldLinkSilenceLogic | .fieldInputChange .. | .fieldWireBreak ..
  | .fieldWireBreakClear .. | .fieldOutputOvercurrent .. | .fieldOutputExtVoltage .. | .fieldSupplyWarn
  | .fieldSupplyWarnClear | .fieldSupplyOff | .fieldSupplyOk | .supRearm .. | .linkRearm .. | .fioDqWrite ..
  | .modeReqCommission .. | .modeReqCharge .. | .modeReqReady .. | .modeReqRun .. | .statBoundary
  | .statPeriodWrite .. | .statBankValRead .. | .rsLowHalfRead .. | .registerWrite .. | .hmpOpen ..
  | .hmpClose .. | .hmpSessionIdleTimeout .. | .hmpAddressBlockExpiry .. | .imageActivateFirmware ..
  | .imageActivateProgram .. | .imageActivateCommission .. | .portSignalReturn .. | .chainFreqReturn ..
  | .mirrorLaneRestore .. | .ethLinkUp .. | .dieLinkRestore .. | .mbWriteTimeout .. | .arpReplyReceive .. => true

end Sys2Proof
end

