-- ==== Sys2Proof/Safety.lean ====
section
/-! DEFINITION. The terms in which claims are made: what a well-kept state is, what a step may leave alone, when a core can
issue, and when the safety outputs are off. -/

namespace Sys2Proof.Machine

/-! ### Well-kept states -/

/-- Memory, its hidden buffers and the register store are in canonical form: equal contents are equal data. -/
def Canonical (s : State) : Prop :=
  Memory.wf s.mem = true ∧ Memory.wf s.hidden = true ∧ Memory.wf s.userOut = true ∧ Store.wf regReset s.regs = true

/-- A step keeps the queue of `s`, and the canonical form if `s` had it. -/
def Keeps (s t : State) : Prop := t.pending = s.pending ∧ (Canonical s → Canonical t)

/-- Every safety output is off and both its switches are open (R413). -/
def outputsOff (s : State) : Prop := ∀ o ∈ s.saf.outs, o.on = false ∧ (o.test = none → o.swH = false ∧ o.swL = false)

/-! ### What a step leaves alone -/

/-- Every block register but those at `as` holds what it held. -/
def regsBut (as : List Nat) (s t : State) : Prop := ∀ a, a ∉ as → regGet t a = regGet s a

/-- Nothing but the block registers at `as` changed. -/
def onlyRegs (as : List Nat) (s t : State) : Prop := t = { s with regs := t.regs } ∧ regsBut as s t

/-- Nothing but the registers of core `c` changed, and none of any other core. -/
def onlyCore (c : Nat) (s t : State) : Prop := t = { s with cores := t.cores } ∧ ∀ c', c' ≠ c → core t c' = core s c'

/-- Every byte of memory outside `[a, a + n)` reads as before. -/
def memBut (a n : Nat) (s t : State) : Prop := ∀ x, ¬(a ≤ x ∧ x < a + n) → memRead t x = memRead s x

/-- Address `x` lies in neither the scheduling trace nor the refusal ring (R395, R402). -/
def ringsApart (s : State) (x : Nat) : Prop :=
  let trc := Config.dramBase + fget s Fld.SCH_TRC_BASE_BASE_MIB * 2 ^ 20
  let ref := Config.dramBase + fget s Fld.SCH_REF_BASE_BASE_KIB * 1024
  ¬(trc ≤ x ∧ x < trc + 8 * 65536) ∧ ¬(ref ≤ x ∧ x < ref + 32 * 256)

/-- What an occurrence of a fault source may change: registers, memory in the trace and the refusal ring alone, the fault
collector, the scheduler, the causes of the safety die, the baton and the chronograph's noted latches. -/
def onlyFault (s t : State) : Prop :=
  t = { s with regs := t.regs, mem := t.mem, fco := t.fco, sch := t.sch, saf := t.saf, btn := t.btn, chr := t.chr } ∧
    t.saf = { s.saf with pending := t.saf.pending } ∧ t.chr = { s.chr with faults := t.chr.faults } ∧
    ∀ x, ringsApart s x → memRead t x = memRead s x

/-- What the ECC checkers make of a write of memory (R411): marks, and FCO_INJ_STAT by an armed checker alone. -/
def passesEcc (s t : State) : Prop :=
  t.fco = { s.fco with marks := t.fco.marks } ∧ regsBut [Reg.FCO_INJ_STAT] s t ∧ (injState s ≠ 1 → t.regs = s.regs)

/-- The staged writes once a write of `v` to `a` by `o` waits: it replaces one of the same register (R16), unless each
write of it is a request of its own (R279). -/
def waiting (s : State) (a : Nat) (v : Word) (o : Origin) : List StagedWrite :=
  s.staged.filter (fun w => queuesWrites a || w.addr != a) ++ [⟨s.time.cnt, a, v, o⟩]

/-- A write of `v` to `a` by `o` now waits for its boundary; one that it replaces is counted as superseded (R16). Beside
that, only registers changed. -/
def staged (a : Nat) (v : Word) (o : Origin) (s t : State) : Prop :=
  t = { s with regs := t.regs, staged := waiting s a v o, sys := { s.sys with superseded := t.sys.superseded } } ∧
    ∀ k, Store.get (fun _ => 0) t.sys.superseded k = Store.get (fun _ => 0) s.sys.superseded k +
      if k = a ∧ queuesWrites a = false ∧ (∃ w ∈ s.staged, w.addr = a) then 1 else 0

/-! ### Instructions of the cores -/

/-- Core `c` can issue an instruction of use `u`: it issues, its cutoff has not come, and the word at its pc is fetched
without an exception (R216, R219, R225). -/
def canIssue (s : State) (c : Nat) (u : Use) : Prop :=
  (core s c).run = .running ∧ (isEventCore c = true ∨ (core s c).issueClock u < budgetLoad s) ∧
    codeAddr c (core s c).pc = true ∧ Store.get (fun _ => 0) s.fco.marks (spmKey c (core s c).pc.toNat) = 0

/-- The clocks and the scoreboard of core `k'` after it issued, from `k`, an instruction of use `u` (R216), its pc apart. -/
def clocked (k k' : Core) (u : Use) : Prop :=
  k'.issued = k.issueClock u ∧ k'.next = k.issueClock u + u.cost ∧
    ∀ r, Store.get (fun _ => 0) k'.ready r =
      if u.dst = some r ∧ r ≠ 0 then k.issueClock u + u.lat else Store.get (fun _ => 0) k.ready r

/-- Scalar register `d` takes `w`, unless it is S0, and every other scalar register stands (R211). -/
def writesS (d : Nat) (w : Word) (k k' : Core) : Prop :=
  ∀ i, k'.getS i = if i = d ∧ d ≠ 0 then w else k.getS i

/-- Predicate register `d` takes `w`, and every other stands. -/
def writesP (d : Nat) (w : BitVec 16) (k k' : Core) : Prop := ∀ i, k'.getP i = if i = d then w else k.getP i

/-- In each lane of vector register `d` that `pp` makes active, `f` gives the new value; every other lane of every
register stands (R226). -/
def writesV (d pp : Nat) (f : Nat → Word) (k k' : Core) : Prop :=
  ∀ i j, j < 16 → k'.getV i j = if i = d ∧ k.active pp j = true then f j else k.getV i j

/-- The state in which a command finds the module once core `c` has issued: what the effect of an instruction starts
from. -/
def afterIssue (s : State) (c : Nat) (u : Use) : State := setCore c ((core s c).issue u ((core s c).issueClock u)) s

/-- An exception of core `c` (R237, R238): what it records. -/
def recordsException (c cause : Nat) (pc eaddr : Word) (s t : State) : Prop :=
  (core t c).epc = pc ∧ (core t c).ecause = BitVec.ofNat 32 cause ∧ (core t c).eaddr = eaddr ∧
    (core t c).ecycle = cycleNo s ∧
    (core t c).ecount = (if (core s c).ecount = 0xFFFFFFFF then (core s c).ecount else (core s c).ecount + 1)

end Sys2Proof.Machine
end

