-- ==== Sys2Proof/Certificates/Slice0/Obligations.lean ====
section
/-! DEFINITION. The statements about the model, one `Obligations.<Name> : Prop` each, and the tables they speak of. -/

open Sys2Proof Sys2Proof.Machine

/-! ### Tables of the cores' instructions: constructor, issue cost, latency, operation -/

/-- A register form of three fields. -/
abbrev FormT := Fin 8 → Fin 32 → Fin 32 → Fin 32 → Instr
/-- A vector form. -/
abbrev FormV := Fin 8 → Fin 32 → Fin 32 → Fin 32 → Fin 8 → Instr

/-- R216, R220: the integer forms of two operands. -/
def integerForms : List (FormT × Nat × Nat × (Word → Word → Word)) :=
  [(.add, 1, 1, fun x y => x + y), (.sub, 1, 1, fun x y => x - y), (.and, 1, 1, fun x y => x &&& y),
   (.or, 1, 1, fun x y => x ||| y), (.xor, 1, 1, fun x y => x ^^^ y),
   (.sll, 1, 1, fun x y => x <<< (y.toNat % 32)), (.srl, 1, 1, fun x y => x >>> (y.toNat % 32)),
   (.sra, 1, 1, fun x y => x.sshiftRight (y.toNat % 32)),
   (.slt, 1, 1, fun x y => if x.toInt < y.toInt then 1 else 0),
   (.sltu, 1, 1, fun x y => if x.toNat < y.toNat then 1 else 0),
   (.min, 1, 1, fun x y => if x.toInt < y.toInt then x else y),
   (.max, 1, 1, fun x y => if x.toInt < y.toInt then y else x),
   (.minu, 1, 1, fun x y => if x.toNat < y.toNat then x else y),
   (.maxu, 1, 1, fun x y => if x.toNat < y.toNat then y else x),
   (.adds, 1, 1, fun x y => BitVec.ofInt 32 (max (-2147483648) (min 2147483647 (x.toInt + y.toInt)))),
   (.subs, 1, 1, fun x y => BitVec.ofInt 32 (max (-2147483648) (min 2147483647 (x.toInt - y.toInt)))),
   (.mul, 1, 3, fun x y => x * y), (.mulh, 1, 3, fun x y => BitVec.ofInt 32 (x.toInt * y.toInt / 2 ^ 32)),
   (.mulhu, 1, 3, fun x y => BitVec.ofNat 32 (x.toNat * y.toNat / 2 ^ 32)),
   (.div, 34, 34, fun x y => if y = 0 then 0xFFFFFFFF else BitVec.ofInt 32 (x.toInt.tdiv y.toInt)),
   (.divu, 34, 34, fun x y => if y = 0 then 0xFFFFFFFF else BitVec.ofNat 32 (x.toNat / y.toNat)),
   (.rem, 34, 34, fun x y => if y = 0 then x else BitVec.ofInt 32 (x.toInt.tmod y.toInt)),
   (.remu, 34, 34, fun x y => if y = 0 then x else BitVec.ofNat 32 (x.toNat % y.toNat))]

/-- The integer forms of one operand, whose b is 0. -/
def integerUnary : List (FormT × (Word → Word)) :=
  [(.clz, Alu.clz), (.popc, Alu.popc), (.sextb, fun x => BitVec.ofInt 32 (sext 8 x.toNat)),
   (.sexth, fun x => BitVec.ofInt 32 (sext 16 x.toNat))]

/-- R215: the immediate forms, with their latency and whether the immediate is legal. -/
def immediateForms : List ((Fin 8 → Fin 32 → Fin 32 → Half → Instr) × Nat × (Fin 32 → Half → Bool) × (Word → Half → Word)) :=
  [(.addi, 1, fun _ _ => true, fun x i => x + BitVec.ofInt 32 i.toInt),
   (.muli, 3, fun _ _ => true, fun x i => x * BitVec.ofInt 32 i.toInt),
   (.andi, 1, fun _ _ => true, fun x i => x &&& BitVec.ofNat 32 i.toNat),
   (.ori, 1, fun _ _ => true, fun x i => x ||| BitVec.ofNat 32 i.toNat),
   (.xori, 1, fun _ _ => true, fun x i => x ^^^ BitVec.ofNat 32 i.toNat),
   (.slti, 1, fun _ _ => true, fun x i => if x.toInt < i.toInt then 1 else 0),
   (.sltiu, 1, fun _ _ => true, fun x i => if x.toNat < i.toNat then 1 else 0),
   (.lui, 1, fun a _ => a.val == 0, fun _ i => BitVec.ofNat 32 (i.toNat * 65536)),
   (.shi, 1, fun _ i => decide (i.toNat < 128), fun x i =>
     if i.toNat / 32 = 0 then x <<< (i.toNat % 32) else if i.toNat / 32 = 1 then x >>> (i.toNat % 32)
     else if i.toNat / 32 = 2 then x.sshiftRight (i.toNat % 32) else x.rotateRight (i.toNat % 32))]

/-- R221: the FP32 forms of two operands, with the operations of F32. -/
def floatForms : List (FormT × Nat × Nat × (Word → Word → FRes)) :=
  [(.fadd, 1, 4, F32.add), (.fsub, 1, 4, F32.sub), (.fmul, 1, 4, F32.mul), (.fdiv, 14, 14, F32.div),
   (.fmin, 1, 1, F32.min), (.fmax, 1, 1, F32.max), (.feq, 1, 2, F32.eq), (.flt, 1, 2, F32.lt), (.fle, 1, 2, F32.le)]

/-- The FP32 forms of one operand, whose b is 0. -/
def floatUnary : List (FormT × Nat × Nat × (Word → FRes)) :=
  [(.fsqrt, 16, 16, F32.sqrt), (.fabs, 1, 1, F32.abs), (.fneg, 1, 1, F32.neg), (.fcvtsw, 1, 4, F32.ofInt),
   (.fcvtws, 1, 4, F32.toInt false), (.fcvtwsz, 1, 4, F32.toInt true)]

def floatFused : List (FormT × (Word → Word → Word → FRes)) := [(.fmac, F32.fmac), (.fmsc, F32.fmsc)]

/-- R226: lane operations on two vectors; integer forms set no flag. -/
def laneForms : List (FormV × Nat × (Word → Word → FRes)) :=
  [(.vadd, 2, fun x y => ⟨x + y, 0⟩), (.vsub, 2, fun x y => ⟨x - y, 0⟩), (.vand, 2, fun x y => ⟨x &&& y, 0⟩),
   (.vor, 2, fun x y => ⟨x ||| y, 0⟩), (.vxor, 2, fun x y => ⟨x ^^^ y, 0⟩),
   (.vsll, 2, fun x y => ⟨x <<< (y.toNat % 32), 0⟩), (.vsrl, 2, fun x y => ⟨x >>> (y.toNat % 32), 0⟩),
   (.vsra, 2, fun x y => ⟨x.sshiftRight (y.toNat % 32), 0⟩),
   (.vmin, 2, fun x y => ⟨if x.toInt < y.toInt then x else y, 0⟩),
   (.vmax, 2, fun x y => ⟨if x.toInt < y.toInt then y else x, 0⟩), (.vmul, 4, fun x y => ⟨x * y, 0⟩),
   (.vfadd, 4, F32.add), (.vfsub, 4, F32.sub), (.vfmul, 4, F32.mul), (.vfmin, 2, F32.min), (.vfmax, 2, F32.max)]

/-- Lane operations on one vector, whose b is 0. -/
def laneUnary : List (FormV × Nat × (Word → FRes)) :=
  [(.vfabs, 2, F32.abs), (.vfneg, 2, F32.neg), (.vfcvtsw, 4, F32.ofInt), (.vfcvtws, 4, F32.toInt false),
   (.vfcvtwsz, 4, F32.toInt true), (.vmov, 2, fun x => ⟨x, 0⟩)]

/-- Lane operations with a scalar operand. -/
def laneScalar : List (FormV × Nat × (Word → Word → FRes)) :=
  [(.vfaddS, 4, F32.add), (.vfmulS, 4, F32.mul), (.vaddS, 2, fun x y => ⟨x + y, 0⟩)]

/-- Fused lane operations: of V_d, V_a and V_b, and of V_d, V_a and S_b. -/
def laneFused : List (FormV × (Word → Word → Word → FRes)) := [(.vfmac, F32.fmac), (.vfmsc, F32.fmsc)]
def laneFusedScalar : List (FormV × (Word → Word → Word → FRes)) := [(.vfmacS, F32.fmac), (.vfmscS, F32.fmsc)]

/-- Lane comparisons. -/
def compareForms : List (FormV × (Word → Word → FRes)) :=
  [(.vceq, fun x y => ⟨if x = y then 1 else 0, 0⟩), (.vcne, fun x y => ⟨if x = y then 0 else 1, 0⟩),
   (.vclt, fun x y => ⟨if x.toInt < y.toInt then 1 else 0, 0⟩),
   (.vcle, fun x y => ⟨if x.toInt ≤ y.toInt then 1 else 0, 0⟩), (.vfceq, F32.eq), (.vfclt, F32.lt), (.vfcle, F32.le)]

/-- Predicate operations on two predicates. -/
def predicateForms : List (FormT × (BitVec 16 → BitVec 16 → BitVec 16)) :=
  [(.pand, fun x y => x &&& y), (.por, fun x y => x ||| y), (.pxor, fun x y => x ^^^ y)]

/-- What a form that computes on scalar registers does to its core: S_d, the pc, the clocks; the flags `fl` are added to
FPSR; vector, predicate and special registers stand. -/
def scalarResult (d : Nat) (w fl : Word) (u : Use) (k k' : Core) : Prop :=
  writesS d w k k' ∧ clocked k k' u ∧ k'.pc = k.pc + 4 ∧
    k' = { k with s := k'.s, fpsr := k.fpsr ||| fl, pc := k'.pc, issued := k'.issued, next := k'.next, ready := k'.ready }

/-- As `scalarResult`, for a vector destination: `f` gives each active lane's result and flags. -/
def vectorResult (d pp : Nat) (f : Nat → FRes) (u : Use) (k k' : Core) : Prop :=
  writesV d pp (fun j => (f j).val) k k' ∧ clocked k k' u ∧ k'.pc = k.pc + 4 ∧
    k'.fpsr = k.fpsr ||| k.laneFlags pp f ∧
    k' = { k with v := k'.v, fpsr := k'.fpsr, pc := k'.pc, issued := k'.issued, next := k'.next, ready := k'.ready }

/-- As `scalarResult`, for a predicate destination. -/
def predicateResult (d : Nat) (w : BitVec 16) (fl : Word) (u : Use) (k k' : Core) : Prop :=
  writesP d w k k' ∧ clocked k k' u ∧ k'.pc = k.pc + 4 ∧
    k' = { k with p := k'.p, fpsr := k.fpsr ||| fl, pc := k'.pc, issued := k'.issued, next := k'.next, ready := k'.ready }

/-! ### Scalar forms -/

/-- The integer register forms write their operation's result to S_d, at its cost and latency.
(08_feano_instruction_set.md: R210, R211, R216, R217, R220) -/
def Obligations.IntegerInstructionsComputeTheirOperation : Prop :=
  ∀ (s : State) (c : Fin 8) (d a b : Fin 32),
    (∀ p ∈ integerForms, canIssue s c ⟨[a.val, b.val], some d.val, p.2.1, p.2.2.1, true⟩ →
      ∃ t, exec (p.1 c d a b) s = .next t ∧ onlyCore c s t ∧
        scalarResult d (p.2.2.2 ((core s c).getS a) ((core s c).getS b)) 0
          ⟨[a.val, b.val], some d.val, p.2.1, p.2.2.1, true⟩ (core s c) (core t c)) ∧
    (∀ p ∈ integerUnary, b.val = 0 → canIssue s c ⟨[a.val], some d.val, 1, 1, true⟩ →
      ∃ t, exec (p.1 c d a b) s = .next t ∧ onlyCore c s t ∧
        scalarResult d (p.2 ((core s c).getS a)) 0 ⟨[a.val], some d.val, 1, 1, true⟩ (core s c) (core t c))

/-- The immediate forms compute on S_a and the immediate as R215 extends it. (08_feano_instruction_set.md: R211,
R215, R216) -/
def Obligations.ImmediateInstructionsExtendTheirImmediate : Prop :=
  ∀ (s : State) (c : Fin 8) (d a : Fin 32) (i : Half), ∀ p ∈ immediateForms, p.2.2.1 a i = true →
    canIssue s c ⟨[a.val], some d.val, 1, p.2.1, true⟩ →
      ∃ t, exec (p.1 c d a i) s = .next t ∧ onlyCore c s t ∧
        scalarResult d (p.2.2.2 ((core s c).getS a) i) 0 ⟨[a.val], some d.val, 1, p.2.1, true⟩ (core s c) (core t c)

/-- The scalar FP32 forms write their result to S_d and add their flags to FPSR. (08_feano_instruction_set.md: R211,
R213, R216, R221) -/
def Obligations.FloatInstructionsWriteResultAndFlags : Prop :=
  ∀ (s : State) (c : Fin 8) (d a b : Fin 32),
    (∀ p ∈ floatForms, canIssue s c ⟨[a.val, b.val], some d.val, p.2.1, p.2.2.1, true⟩ →
      ∃ t, exec (p.1 c d a b) s = .next t ∧ onlyCore c s t ∧
        scalarResult d (p.2.2.2 ((core s c).getS a) ((core s c).getS b)).val
          (p.2.2.2 ((core s c).getS a) ((core s c).getS b)).flags
          ⟨[a.val, b.val], some d.val, p.2.1, p.2.2.1, true⟩ (core s c) (core t c)) ∧
    (∀ p ∈ floatUnary, b.val = 0 → canIssue s c ⟨[a.val], some d.val, p.2.1, p.2.2.1, true⟩ →
      ∃ t, exec (p.1 c d a b) s = .next t ∧ onlyCore c s t ∧
        scalarResult d (p.2.2.2 ((core s c).getS a)).val (p.2.2.2 ((core s c).getS a)).flags
          ⟨[a.val], some d.val, p.2.1, p.2.2.1, true⟩ (core s c) (core t c)) ∧
    (∀ p ∈ floatFused, canIssue s c ⟨[d.val, a.val, b.val], some d.val, 1, 4, true⟩ →
      ∃ t, exec (p.1 c d a b) s = .next t ∧ onlyCore c s t ∧
        scalarResult d (p.2 ((core s c).getS d) ((core s c).getS a) ((core s c).getS b)).val
          (p.2 ((core s c).getS d) ((core s c).getS a) ((core s c).getS b)).flags
          ⟨[d.val, a.val, b.val], some d.val, 1, 4, true⟩ (core s c) (core t c))

/-- Division never raises an exception, and its special cases have the results of R220. (R220) -/
def Obligations.DivisionSpecialCasesOfR220 : Prop :=
  ∀ (s : State) (c : Fin 8) (d a b : Fin 32), d.val ≠ 0 → canIssue s c ⟨[a.val, b.val], some d.val, 34, 34, true⟩ →
    (∀ f ∈ ([.div, .divu, .rem, .remu] : List FormT), ∃ t, exec (f c d a b) s = .next t ∧
      (core t c).run = .running ∧ (core t c).ecount = (core s c).ecount ∧ (core t c).ecause = (core s c).ecause) ∧
    ((core s c).getS b = 0 →
      (∃ t, exec (.div c d a b) s = .next t ∧ (core t c).getS d = BitVec.ofInt 32 (-1)) ∧
      (∃ t, exec (.divu c d a b) s = .next t ∧ (core t c).getS d = 0xFFFFFFFF) ∧
      (∃ t, exec (.rem c d a b) s = .next t ∧ (core t c).getS d = (core s c).getS a) ∧
      (∃ t, exec (.remu c d a b) s = .next t ∧ (core t c).getS d = (core s c).getS a)) ∧
    ((core s c).getS a = 0x80000000 → (core s c).getS b = 0xFFFFFFFF →
      (∃ t, exec (.div c d a b) s = .next t ∧ (core t c).getS d = 0x80000000) ∧
      (∃ t, exec (.divu c d a b) s = .next t ∧ (core t c).getS d = 0) ∧
      (∃ t, exec (.rem c d a b) s = .next t ∧ (core t c).getS d = 0) ∧
      (∃ t, exec (.remu c d a b) s = .next t ∧ (core t c).getS d = 0x80000000))

/-- S0 reads zero and P0 reads 0xFFFF; a result for S0 is discarded at its normal timing; P0 as destination is
ILLEGAL. (08_feano_instruction_set.md: R210, R211, R214, R216) -/
def Obligations.ZeroRegistersAndTheirDestinations : Prop :=
  (∀ k : Core, k.getS 0 = 0 ∧ k.getP 0 = 0xFFFF) ∧
  (∀ (s : State) (c : Fin 8) (a b : Fin 32), ∀ p ∈ integerForms,
    canIssue s c ⟨[a.val, b.val], some 0, p.2.1, p.2.2.1, true⟩ →
      ∃ t, exec (p.1 c 0 a b) s = .next t ∧ (∀ i, (core t c).getS i = (core s c).getS i) ∧
        clocked (core s c) (core t c) ⟨[a.val, b.val], some 0, p.2.1, p.2.2.1, true⟩ ∧ (core t c).pc = (core s c).pc + 4) ∧
  (∀ (s : State) (c : Fin 8) (a b : Fin 32), ∀ p ∈ floatForms,
    canIssue s c ⟨[a.val, b.val], some 0, p.2.1, p.2.2.1, true⟩ →
      ∃ t, exec (p.1 c 0 a b) s = .next t ∧ (∀ i, (core t c).getS i = (core s c).getS i) ∧
        clocked (core s c) (core t c) ⟨[a.val, b.val], some 0, p.2.1, p.2.2.1, true⟩) ∧
  (∀ (s : State) (c : Fin 8) (a b : Fin 32),
    (∀ p ∈ predicateForms, canIssue s c ⟨[48 + a.val, 48 + b.val], some 48, 1, 1, false⟩ →
      ∃ t, exec (p.1 c 0 a b) s = .next t ∧ recordsException c 1 (core s c).pc 0 s t) ∧
    (canIssue s c ⟨[48 + a.val], some 48, 1, 1, false⟩ → ∃ t, exec (.pnot c 0 a b) s = .next t ∧
      recordsException c 1 (core s c).pc 0 s t) ∧
    (canIssue s c ⟨[a.val], some 48, 1, 1, false⟩ → ∃ t, exec (.pfrom c 0 a b) s = .next t ∧
      recordsException c 1 (core s c).pc 0 s t) ∧
    (∀ pp : Fin 8, ∀ p ∈ compareForms,
      canIssue s c ⟨[48 + pp.val, 32 + a.val, 32 + b.val], some 48, 1, 2, false⟩ →
      ∃ t, exec (p.1 c 0 a b pp) s = .next t ∧ recordsException c 1 (core s c).pc 0 s t))

/-! ### Branches -/

/-- The relation on which a branch of two registers branches. -/
def branchForms : List ((Fin 8 → Fin 32 → Fin 32 → Half → Instr) × (Word → Word → Bool)) :=
  [(.beq, fun x y => decide (x = y)), (.bne, fun x y => decide (x ≠ y)), (.blt, fun x y => decide (x.toInt < y.toInt)),
   (.bge, fun x y => decide (y.toInt ≤ x.toInt))]

/-- A core that goes on at `pc`, its next issue `n` clocks after this one; scalar registers by `w`. -/
def jumpsTo (pc : Word) (n : Nat) (u : Use) (k k' : Core) : Prop :=
  k'.pc = pc ∧ k'.issued = k.issueClock u ∧ k'.next = k.issueClock u + n ∧
    k' = { k with s := k'.s, pc := k'.pc, issued := k'.issued, next := k'.next, ready := k'.ready }

/-- Branches and jumps set pc, link register and issue time as R215 and R218 say. (08_feano_instruction_set.md: R215,
R216, R218, R225) -/
def Obligations.BranchesAndJumpsGoToTheirTarget : Prop :=
  ∀ (s : State) (c : Fin 8) (d a b : Fin 32) (off : Half) (o26 : BitVec 26),
    let k := core s c
    let tgt := k.pc + BitVec.ofInt 32 off.toInt * 4
    let far := k.pc + BitVec.ofInt 32 o26.toInt * 4
    (∀ p ∈ branchForms, canIssue s c ⟨[a.val, b.val], none, 1, 0, true⟩ →
      (p.2 (k.getS a) (k.getS b) = true → codeAddr c tgt = true →
        ∃ t, exec (p.1 c a b off) s = .next t ∧ onlyCore c s t ∧ (∀ i, (core t c).getS i = k.getS i) ∧
          jumpsTo tgt 2 ⟨[a.val, b.val], none, 1, 0, true⟩ k (core t c)) ∧
      (p.2 (k.getS a) (k.getS b) = false →
        ∃ t, exec (p.1 c a b off) s = .next t ∧ onlyCore c s t ∧ (∀ i, (core t c).getS i = k.getS i) ∧
          jumpsTo (k.pc + 4) 1 ⟨[a.val, b.val], none, 1, 0, true⟩ k (core t c))) ∧
    (canIssue s c ⟨[], none, 2, 0, true⟩ → codeAddr c far = true →
      ∃ t, exec (.j c o26) s = .next t ∧ onlyCore c s t ∧ (∀ i, (core t c).getS i = k.getS i) ∧
        jumpsTo far 2 ⟨[], none, 2, 0, true⟩ k (core t c)) ∧
    (canIssue s c ⟨[], some 31, 2, 1, true⟩ → codeAddr c far = true →
      ∃ t, exec (.jal c o26) s = .next t ∧ onlyCore c s t ∧ writesS 31 (k.pc + 4) k (core t c) ∧
        jumpsTo far 2 ⟨[], some 31, 2, 1, true⟩ k (core t c)) ∧
    (d.val = 0 → b.val = 0 → canIssue s c ⟨[a.val], none, 2, 0, true⟩ → codeAddr c (k.getS a) = true →
      ∃ t, exec (.jr c d a b) s = .next t ∧ onlyCore c s t ∧ (∀ i, (core t c).getS i = k.getS i) ∧
        jumpsTo (k.getS a) 2 ⟨[a.val], none, 2, 0, true⟩ k (core t c)) ∧
    (b.val = 0 → canIssue s c ⟨[a.val], some d.val, 2, 1, true⟩ → codeAddr c (k.getS a) = true →
      ∃ t, exec (.jalr c d a b) s = .next t ∧ onlyCore c s t ∧ writesS d (k.pc + 4) k (core t c) ∧
        jumpsTo (k.getS a) 2 ⟨[a.val], some d.val, 2, 1, true⟩ k (core t c)) ∧
    (b.val = 0 → canIssue s c ⟨[a.val], some a.val, 1, 1, true⟩ →
      (k.getS a = 1 → ∃ t, exec (.bdnz c a b off) s = .next t ∧ onlyCore c s t ∧ writesS a 0 k (core t c) ∧
        jumpsTo (k.pc + 4) 1 ⟨[a.val], some a.val, 1, 1, true⟩ k (core t c)) ∧
      (k.getS a ≠ 1 → codeAddr c tgt = true →
        ∃ t, exec (.bdnz c a b off) s = .next t ∧ onlyCore c s t ∧ writesS a (k.getS a - 1) k (core t c) ∧
          jumpsTo tgt 2 ⟨[a.val], some a.val, 1, 1, true⟩ k (core t c)))

/-- A taken branch or a jump to an address outside the code raises PC, and only when taken. (R225) -/
def Obligations.BadBranchTargetsRaisePc : Prop :=
  ∀ (s : State) (c : Fin 8) (d a b : Fin 32) (off : Half) (o26 : BitVec 26),
    let k := core s c
    let tgt := k.pc + BitVec.ofInt 32 off.toInt * 4
    let far := k.pc + BitVec.ofInt 32 o26.toInt * 4
    let bad := fun (x : Word) => codeAddr c x = false
    let raises := fun (i : Instr) (x : Word) => ∃ t, exec i s = .next t ∧ recordsException c 7 k.pc x s t ∧
      (isEventCore c = false → (core t c).run = .stopped ∧ ∀ j, (core t c).getS j = k.getS j)
    (∀ p ∈ branchForms, canIssue s c ⟨[a.val, b.val], none, 1, 0, true⟩ →
      (p.2 (k.getS a) (k.getS b) = true → bad tgt → raises (p.1 c a b off) tgt) ∧
      (p.2 (k.getS a) (k.getS b) = false → ∃ t, exec (p.1 c a b off) s = .next t ∧ (core t c).ecount = k.ecount ∧
        (core t c).run = .running)) ∧
    (canIssue s c ⟨[], none, 2, 0, true⟩ → bad far → raises (.j c o26) far) ∧
    (canIssue s c ⟨[], some 31, 2, 1, true⟩ → bad far → raises (.jal c o26) far) ∧
    (d.val = 0 → b.val = 0 → canIssue s c ⟨[a.val], none, 2, 0, true⟩ → bad (k.getS a) →
      raises (.jr c d a b) (k.getS a)) ∧
    (b.val = 0 → canIssue s c ⟨[a.val], some d.val, 2, 1, true⟩ → bad (k.getS a) → raises (.jalr c d a b) (k.getS a)) ∧
    (b.val = 0 → canIssue s c ⟨[a.val], some a.val, 1, 1, true⟩ → k.getS a ≠ 1 → bad tgt → raises (.bdnz c a b off) tgt)

/-! ### Predicates and vectors -/

/-- Lane operations write the active lanes of V_d, leave the others, and collect the flags of active lanes.
(08_feano_instruction_set.md: R211, R214, R216, R226) -/
def Obligations.VectorInstructionsActOnTheirActiveLanes : Prop :=
  ∀ (s : State) (c : Fin 8) (d a b : Fin 32) (pp : Fin 8),
    let k := core s c
    let vu := fun (srcs : List Nat) (lat : Nat) =>
      (⟨(32 + d.val) :: (48 + pp.val) :: srcs, some (32 + d.val), 1, lat, true⟩ : Use)
    let gives := fun (i : Instr) (srcs : List Nat) (lat : Nat) (f : Nat → FRes) =>
      canIssue s c (vu srcs lat) →
        ∃ t, exec i s = .next t ∧ onlyCore c s t ∧ vectorResult d pp f (vu srcs lat) k (core t c)
    (d.val < 16 → a.val < 16 →
      (∀ p ∈ laneForms, b.val < 16 → gives (p.1 c d a b pp) [32 + a.val, 32 + b.val] p.2.1
        (fun j => p.2.2 (k.getV a j) (k.getV b j))) ∧
      (∀ p ∈ laneUnary, b.val = 0 → gives (p.1 c d a b pp) [32 + a.val] p.2.1 (fun j => p.2.2 (k.getV a j))) ∧
      (∀ p ∈ laneScalar, gives (p.1 c d a b pp) [32 + a.val, b.val] p.2.1 (fun j => p.2.2 (k.getV a j) (k.getS b))) ∧
      (∀ p ∈ laneFused, b.val < 16 → gives (p.1 c d a b pp) [32 + a.val, 32 + b.val] 4
        (fun j => p.2 (k.getV d j) (k.getV a j) (k.getV b j))) ∧
      (∀ p ∈ laneFusedScalar, gives (p.1 c d a b pp) [32 + a.val, b.val] 4
        (fun j => p.2 (k.getV d j) (k.getV a j) (k.getS b)))) ∧
    (d.val < 16 → b.val = 0 → gives (.vsplat c d a b pp) [a.val] 2 (fun _ => ⟨k.getS a, 0⟩)) ∧
    (pp.val = 0 → b.val < 16 →
      (d.val < 16 → canIssue s c ⟨[a.val], some (32 + d.val), 1, 2, true⟩ →
        ∃ t, exec (.vins c d a b pp) s = .next t ∧ onlyCore c s t ∧
          (∀ i j, j < 16 → (core t c).getV i j = if i = d.val ∧ j = b.val then k.getS a else k.getV i j) ∧
          (∀ i, (core t c).getS i = k.getS i) ∧ clocked k (core t c) ⟨[a.val], some (32 + d.val), 1, 2, true⟩ ∧
          (core t c).pc = k.pc + 4) ∧
      (a.val < 16 → canIssue s c ⟨[32 + a.val], some d.val, 1, 2, true⟩ →
        ∃ t, exec (.vext c d a b pp) s = .next t ∧ onlyCore c s t ∧
          scalarResult d (k.getV a b) 0 ⟨[32 + a.val], some d.val, 1, 2, true⟩ k (core t c)))

/-- An FP32 operation on two results: its value, with the flags of both and its own. -/
def flagged (f : Word → Word → FRes) (x y : FRes) : FRes := ⟨(f x.val y.val).val, x.flags ||| y.flags ||| (f x.val y.val).flags⟩

/-- Predicate operations and vector comparisons write P_d; PTO, PCNT and the reductions write S_d.
(08_feano_instruction_set.md: R210, R211, R214, R216, R226, R227) -/
def Obligations.PredicatesComparisonsAndReductions : Prop :=
  ∀ (s : State) (c : Fin 8) (d a b : Fin 32) (pp : Fin 8),
    let k := core s c
    let cu : Use := ⟨[48 + pp.val, 32 + a.val, 32 + b.val], some (48 + d.val), 1, 2, true⟩
    let ru := fun (lat : Nat) => (⟨[48 + pp.val, 32 + a.val], some d.val, 1, lat, true⟩ : Use)
    let lane := fun (j : Nat) => (⟨if k.active pp j = true then k.getV a j else 0, 0⟩ : FRes)
    let sum := flagged F32.add
    let red := fun (i : Instr) (lat : Nat) (r : FRes) => canIssue s c (ru lat) →
      ∃ t, exec i s = .next t ∧ onlyCore c s t ∧ scalarResult d r.val r.flags (ru lat) k (core t c)
    (0 < d.val ∧ d.val < 8 → a.val < 16 → b.val < 16 → ∀ p ∈ compareForms, canIssue s c cu →
      ∃ t, exec (p.1 c d a b pp) s = .next t ∧ onlyCore c s t ∧
        ∃ w, predicateResult d w (k.laneFlags pp (fun j => p.2 (k.getV a j) (k.getV b j))) cu k (core t c) ∧
          ∀ j, j < 16 → (w.getLsbD j = true ↔ k.active pp j = true ∧ (p.2 (k.getV a j) (k.getV b j)).val = 1)) ∧
    (a.val < 16 → b.val = 0 →
      red (.vredadd c d a b pp) 5 ⟨(List.range 16).foldl (fun x j => x + (lane j).val) 0, 0⟩ ∧
      red (.vfredadd c d a b pp) 16
        (sum (sum (sum (sum (lane 0) (lane 1)) (sum (lane 2) (lane 3))) (sum (sum (lane 4) (lane 5)) (sum (lane 6) (lane 7))))
          (sum (sum (sum (lane 8) (lane 9)) (sum (lane 10) (lane 11)))
            (sum (sum (lane 12) (lane 13)) (sum (lane 14) (lane 15))))) ∧
      red (.vfredmax c d a b pp) 8 ((activeLanes k pp a).foldl (fun x y => flagged F32.max x ⟨y, 0⟩) ⟨F32.nan, 0⟩) ∧
      red (.vfredmin c d a b pp) 8 ((activeLanes k pp a).foldl (fun x y => flagged F32.min x ⟨y, 0⟩) ⟨F32.nan, 0⟩)) ∧
    (0 < d.val ∧ d.val < 8 →
      (∀ p ∈ predicateForms, a.val < 8 → b.val < 8 →
        canIssue s c ⟨[48 + a.val, 48 + b.val], some (48 + d.val), 1, 1, true⟩ →
        ∃ t, exec (p.1 c d a b) s = .next t ∧ onlyCore c s t ∧ predicateResult d (p.2 (k.getP a) (k.getP b)) 0
          ⟨[48 + a.val, 48 + b.val], some (48 + d.val), 1, 1, true⟩ k (core t c)) ∧
      (a.val < 8 → b.val = 0 → canIssue s c ⟨[48 + a.val], some (48 + d.val), 1, 1, true⟩ →
        ∃ t, exec (.pnot c d a b) s = .next t ∧ onlyCore c s t ∧ predicateResult d (~~~(k.getP a)) 0
          ⟨[48 + a.val], some (48 + d.val), 1, 1, true⟩ k (core t c)) ∧
      (b.val = 0 → canIssue s c ⟨[a.val], some (48 + d.val), 1, 1, true⟩ →
        ∃ t, exec (.pfrom c d a b) s = .next t ∧ onlyCore c s t ∧ predicateResult d (BitVec.ofNat 16 (k.getS a).toNat) 0
          ⟨[a.val], some (48 + d.val), 1, 1, true⟩ k (core t c))) ∧
    (a.val < 8 → b.val = 0 → canIssue s c ⟨[48 + a.val], some d.val, 1, 1, true⟩ →
      (∃ t, exec (.pto c d a b) s = .next t ∧ onlyCore c s t ∧ scalarResult d (BitVec.ofNat 32 (k.getP a).toNat) 0
        ⟨[48 + a.val], some d.val, 1, 1, true⟩ k (core t c)) ∧
      (∃ t, exec (.pcnt c d a b) s = .next t ∧ onlyCore c s t ∧
        scalarResult d (BitVec.ofNat 32 ((List.range 16).filter (fun j => (k.getP a).getLsbD j)).length) 0
          ⟨[48 + a.val], some d.val, 1, 1, true⟩ k (core t c)))

/-! ### Loads and stores -/

/-- The scalar loads of M format: bytes, and what the accessed bytes give. -/
def loadForms : List ((Fin 8 → Fin 32 → Fin 32 → Half → Instr) × Nat × (Nat → Word)) :=
  [(.ldw, 4, fun n => BitVec.ofNat 32 n), (.ldh, 2, fun n => BitVec.ofInt 32 (sext 16 n)),
   (.ldhu, 2, fun n => BitVec.ofNat 32 n), (.ldbu, 1, fun n => BitVec.ofNat 32 n)]

/-- The scalar stores of M format. -/
def storeForms : List ((Fin 8 → Fin 32 → Fin 32 → Half → Instr) × Nat) := [(.stw, 4), (.sth, 2), (.stb, 1)]

/-- The number that the `n` bytes from address `a` of memory spell. -/
def memNat (s : State) (a n : Nat) : Nat := bytesNat ((List.range n).map (fun j => memRead s (a + j)))

/-- The effective address of M format. -/
def effAddr (s : State) (c : Fin 8) (a : Fin 32) (imm : Half) : Word :=
  (core s c).getS a + BitVec.ofInt 32 imm.toInt

/-- A register access of another size than a word, which is ignored and reported by REG_ACCESS, source 30 (R5): beside the
core nothing else happens. -/
def ignoredAccess (c : Fin 8) (ea access : Nat) (s t : State) : Prop :=
  t = { occur (detect 30 ea c access) s with cores := t.cores, freeCtr := t.freeCtr }

/-- An aligned scalar load of `n` bytes at `ea` into S_d, which reads the registers `srcs`: what it gives where the core's
own memory is reached, and where any region is. -/
def loadGives (s : State) (c : Fin 8) (d : Fin 32) (srcs : List Nat) (i : Instr) (n : Nat) (ext : Nat → Word)
    (ea : Word) : Prop :=
  ∀ r, loadRegion s c ea.toNat n = some r → ea.toNat % n = 0 →
    let u : Use := ⟨srcs, some d.val, byRegion (some r) 1 4, byRegion (some r) 2 12, true⟩
    canIssue s c u →
      (r = .priv → Store.get (fun _ => 0) s.fco.marks (spmKey c (ea.toNat / 4 * 4)) = 0 →
        ∃ t, exec i s = .next t ∧ onlyCore c s t ∧
          scalarResult d (ext (memNat s (localBase c + ea.toNat) n)) 0 u (core s c) (core t c)) ∧
      (r ≠ .regs ∨ n = 4 →
        let l := loadWord c (absNs ((core s c).issueClock u) s) r (ea.toNat / 4 * 4) Acc.load (afterIssue s c u)
        l.1 = false → ∃ t, exec i s = .next t ∧ (core t c).pc = (core s c).pc + 4 ∧ t.time = s.time ∧ t.esc = s.esc ∧
          writesS d (ext ((l.2.1 >>> (8 * (ea.toNat % 4))).toNat % 256 ^ n)) (core s c) (core t c)) ∧
      (r = .regs → n ≠ 4 → ∃ t w, exec i s = .next t ∧ (core t c).pc = (core s c).pc + 4 ∧
        writesS d w (core s c) (core t c) ∧ ignoredAccess c ea.toNat Acc.regRead (afterIssue s c u) t)

/-- Scalar loads put the bytes at S_a + imm into S_d, extended as the form says. (08_feano_instruction_set.md: R215,
R216, R222, R224, 20_management_and_address_map.md: R468) -/
def Obligations.LoadsReadTheirBytes : Prop :=
  ∀ (s : State) (c : Fin 8) (d a b : Fin 32) (imm : Half),
    (∀ p ∈ loadForms, loadGives s c d [a.val] (p.1 c d a imm) p.2.1 p.2.2 (effAddr s c a imm)) ∧
    loadGives s c d [a.val, b.val] (.ldwx c d a b) 4 (fun n => BitVec.ofNat 32 n)
      ((core s c).getS a + (core s c).getS b)

/-- A line of DRAM as core `c` has it: from its cache, or as it would fill it. -/
def lineNow (s : State) (c l : Nat) : List Byte :=
  match cacheLine s c l with | some x => x.bytes | none => lineBytes s c l

/-- An aligned scalar store of the low `n` bytes of S_d at `ea`. -/
def storeGives (s : State) (c : Fin 8) (d : Fin 32) (srcs : List Nat) (i : Instr) (n : Nat) (ea : Word) : Prop :=
  ∀ r x, storeRegion s c ea.toNat n = some r → ea.toNat % n = 0 →
    let u : Use := ⟨d.val :: srcs, none, byRegion (some r) 1 4, 0, true⟩
    let w := (core s c).getS d
    let kept := fun (k k' : Core) => k'.pc = k.pc + 4 ∧ ∀ i, k'.getS i = k.getS i
    canIssue s c u →
      (r = .priv → ∃ t, exec i s = .next t ∧ kept (core s c) (core t c) ∧
        t = { s with cores := t.cores, mem := t.mem, fco := t.fco, regs := t.regs } ∧
        (∀ j, j < n → memRead t (localBase c + ea.toNat + j) = (w >>> (8 * j)).setWidth 8) ∧
        memBut (localBase c + ea.toNat) n s t) ∧
      (r = .scm → scmWithin [(0x24000, 0x28000)] ea.toNat 1 = false →
        ∃ t, exec i s = .next t ∧ kept (core s c) (core t c) ∧
        (∀ j, j < n → memRead t (ea.toNat + j) = (w >>> (8 * j)).setWidth 8) ∧ memBut ea.toNat n s t ∧
        t.hidden = s.hidden) ∧
      (r = .scm → scmWithin [(0x24000, 0x28000)] ea.toNat 1 = true →
        ∃ t, exec i s = .next t ∧ kept (core s c) (core t c) ∧ t.mem = s.mem ∧
        (∀ x, Memory.read t.hidden x = if ea.toNat ≤ x ∧ x < ea.toNat + n then (w >>> (8 * (x - ea.toNat))).setWidth 8
          else Memory.read s.hidden x)) ∧
      (r = .regs → n = 4 → ∃ t, exec i s = .next t ∧
        t = { (writeReg (.eventCore (Fin.ofNat 4 (c.val - 4))) ea.toNat w (afterIssue s c u)).1 with
              cores := t.cores, freeCtr := t.freeCtr }) ∧
      (r = .regs → n ≠ 4 → ∃ t, exec i s = .next t ∧ kept (core s c) (core t c) ∧
        ignoredAccess c ea.toNat Acc.regWrite (afterIssue s c u) t) ∧
      (r = .dram → lineNow s c (windowPhys s (c.val - 4) ea.toNat / 64) = x → x.length = 64 →
        (cacheLine s c (windowPhys s (c.val - 4) ea.toNat / 64) = none →
          Store.get (fun _ => 0) s.fco.marks (windowPhys s (c.val - 4) ea.toNat / 4) = 0) →
        ∃ t y, exec i s = .next t ∧ kept (core s c) (core t c) ∧ t.mem = s.mem ∧
          cacheLine t c (windowPhys s (c.val - 4) ea.toNat / 64) = some y ∧ y.dirty = true ∧
          ∀ j, j < 64 → y.bytes.getD j 0 =
            if windowPhys s (c.val - 4) ea.toNat % 64 ≤ j ∧ j < windowPhys s (c.val - 4) ea.toNat % 64 + n
            then (w >>> (8 * (j - windowPhys s (c.val - 4) ea.toNat % 64))).setWidth 8 else x.getD j 0)

/-- Scalar stores write the low bytes of S_d at S_a + imm and no other byte of memory. (08_feano_instruction_set.md:
R215, R216, R222, R223, R240, 20_management_and_address_map.md: R468, R474) -/
def Obligations.StoresWriteTheirBytesOnly : Prop :=
  ∀ (s : State) (c : Fin 8) (d a b : Fin 32) (imm : Half),
    (∀ p ∈ storeForms, storeGives s c d [a.val] (p.1 c d a imm) p.2 (effAddr s c a imm)) ∧
    storeGives s c d [a.val, b.val] (.stwx c d a b) 4 ((core s c).getS a + (core s c).getS b)

/-- A misaligned scalar access raises ALIGN, an access outside the core's reach ACCESS, with the address.
(08_feano_instruction_set.md: R215, R222, R237, R238) -/
def Obligations.MisalignedAndForbiddenAccessesTrap : Prop :=
  ∀ (s : State) (c : Fin 8) (d a : Fin 32) (imm : Half), isEventCore c = false →
    let ea := effAddr s c a imm
    let raises := fun (i : Instr) (cause : Nat) => ∃ t, exec i s = .next t ∧
      recordsException c cause (core s c).pc ea s t ∧ (core t c).run = .stopped ∧
      ∀ j, (core t c).getS j = (core s c).getS j
    (∀ p ∈ loadForms,
      canIssue s c ⟨[a.val], some d.val, byRegion (loadRegion s c ea.toNat p.2.1) 1 4,
        byRegion (loadRegion s c ea.toNat p.2.1) 2 12, true⟩ →
      (ea.toNat % p.2.1 ≠ 0 → raises (p.1 c d a imm) 2) ∧
      (ea.toNat % p.2.1 = 0 → loadRegion s c ea.toNat p.2.1 = none → raises (p.1 c d a imm) 3)) ∧
    (∀ p ∈ storeForms,
      canIssue s c ⟨[d.val, a.val], none, byRegion (storeRegion s c ea.toNat p.2) 1 4, 0, true⟩ →
      (ea.toNat % p.2 ≠ 0 → raises (p.1 c d a imm) 2) ∧
      (ea.toNat % p.2 = 0 → storeRegion s c ea.toNat p.2 = none → raises (p.1 c d a imm) 3))

/-- VLD, VST, VLDS and VSTS move the sixteen lanes of V_d between it and memory. (08_feano_instruction_set.md: R215,
R216, R222, R226) -/
def Obligations.VectorLoadsAndStoresMoveSixteenWords : Prop :=
  ∀ (s : State) (c : Fin 8) (d a b : Fin 32) (imm : Half), d.val < 16 →
    let ea := effAddr s c a imm
    let k := core s c
    let lane := fun (j : Nat) => (k.getS a + BitVec.ofNat 32 j * k.getS b).toNat
    let others := fun (k' : Core) => ∀ i j, j < 16 → i ≠ d.val → k'.getV i j = k.getV i j
    (ea.toNat % 64 = 0 → loadRegion s c ea.toNat 64 = some .priv →
      canIssue s c ⟨[a.val], some (32 + d.val), 1, 3, true⟩ →
      (∀ j, j < 16 → Store.get (fun _ => 0) s.fco.marks (spmKey c (ea.toNat + 4 * j)) = 0) →
      ∃ t, exec (.vld c d a imm) s = .next t ∧ onlyCore c s t ∧ others (core t c) ∧ (core t c).pc = k.pc + 4 ∧
        ∀ j, j < 16 → (core t c).getV d j = BitVec.ofNat 32 (memNat s (localBase c + ea.toNat + 4 * j) 4)) ∧
    (∀ r, ea.toNat % 64 = 0 → loadRegion s c ea.toNat 64 = some r → r ≠ .regs →
      let u : Use := ⟨[a.val], some (32 + d.val), byRegion (some r) 1 8, byRegion (some r) 3 16, true⟩
      let l := loadWords c (absNs (k.issueClock u) s) r ea.toNat 16 (afterIssue s c u)
      canIssue s c u → l.1 = false →
      ∃ t, exec (.vld c d a imm) s = .next t ∧ ∀ j, j < 16 → (core t c).getV d j = l.2.1.getD j 0) ∧
    (let u : Use := ⟨[a.val], some (32 + d.val), 8, 16, true⟩
     ea.toNat % 64 = 0 → loadRegion s c ea.toNat 64 = some .regs → canIssue s c u →
      ∃ t, exec (.vld c d a imm) s = .next t ∧ others (core t c) ∧ (core t c).pc = k.pc + 4 ∧
        ignoredAccess c ea.toNat Acc.regRead (afterIssue s c u) t) ∧
    (let u : Use := ⟨[a.val, 32 + d.val], none, 8, 0, true⟩
     ea.toNat % 64 = 0 → storeRegion s c ea.toNat 64 = some .regs → canIssue s c u →
      ∃ t, exec (.vst c d a imm) s = .next t ∧ (core t c).pc = k.pc + 4 ∧
        ignoredAccess c ea.toNat Acc.regWrite (afterIssue s c u) t) ∧
    (ea.toNat % 64 = 0 → storeRegion s c ea.toNat 64 = some .scm → canIssue s c ⟨[a.val, 32 + d.val], none, 8, 0, true⟩ →
      ∃ t, exec (.vst c d a imm) s = .next t ∧ (core t c).pc = k.pc + 4 ∧ memBut ea.toNat 64 s t ∧
        ∀ j, j < 16 → BitVec.ofNat 32 (memNat t (ea.toNat + 4 * j) 4) = k.getV d j) ∧
    (∀ f : Bool, f = strideFar (fun x => loadRegion s c x 4) (k.getS a) (k.getS b) →
      let u : Use := ⟨[a.val, b.val], some (32 + d.val), if f then 64 else 16, if f then 72 else 17, true⟩
      canIssue s c u → ∀ t, stridedLoad c (k.issueClock u) d (k.getS a) (k.getS b) (List.range 16) (afterIssue s c u) =
        .ok t → exec (.vlds c d a b) s = .next t) ∧
    (∀ f : Bool, f = strideFar (fun x => storeRegion s c x 4) (k.getS a) (k.getS b) →
      let n := if f then 64 else 16
      let u : Use := ⟨[a.val, b.val, 32 + d.val], none, n, 0, true⟩
      canIssue s c u → ∀ t, stridedStore c (k.issueClock u) (k.issueClock u + n - 1) d (k.getS a) (k.getS b)
        (List.range 16) (afterIssue s c u) = .ok t → exec (.vsts c d a b) s = .next t) ∧
    (ea.toNat % 64 = 0 → storeRegion s c ea.toNat 64 = some .priv →
      canIssue s c ⟨[a.val, 32 + d.val], none, 1, 0, true⟩ →
      ∃ t, exec (.vst c d a imm) s = .next t ∧ (core t c).pc = k.pc + 4 ∧ memBut (localBase c + ea.toNat) 64 s t ∧
        ∀ j, j < 16 → BitVec.ofNat 32 (memNat t (localBase c + ea.toNat + 4 * j) 4) = k.getV d j) ∧
    ((∀ j, j < 16 → lane j % 4 = 0 ∧ loadRegion s c (lane j) 4 = some .priv ∧
        Store.get (fun _ => 0) s.fco.marks (spmKey c (lane j)) = 0) →
      canIssue s c ⟨[a.val, b.val], some (32 + d.val), 16, 17, true⟩ →
      ∃ t, exec (.vlds c d a b) s = .next t ∧ onlyCore c s t ∧ others (core t c) ∧ (core t c).pc = k.pc + 4 ∧
        ∀ j, j < 16 → (core t c).getV d j = BitVec.ofNat 32 (memNat s (localBase c + lane j) 4)) ∧
    ((∀ j, j < 16 → lane j % 4 = 0 ∧ storeRegion s c (lane j) 4 = some .priv) →
      (∀ i j, i < j → j < 16 → lane i ≠ lane j) →
      canIssue s c ⟨[a.val, b.val, 32 + d.val], none, 16, 0, true⟩ →
      ∃ t, exec (.vsts c d a b) s = .next t ∧ (core t c).pc = k.pc + 4 ∧
        (∀ j, j < 16 → BitVec.ofNat 32 (memNat t (localBase c + lane j) 4) = k.getV d j) ∧
        ∀ x, (∀ j, j < 16 → ¬(localBase c + lane j ≤ x ∧ x < localBase c + lane j + 4)) → memRead t x = memRead s x)

/-! ### Special registers, control, events -/

/-- MFS reads the special registers of R213; MTS writes FPSR, ENG_TMO and ENG_DBASE as R213 stores them.
(08_feano_instruction_set.md: R211, R213, R216) -/
def Obligations.SpecialRegistersReadAndWrite : Prop :=
  ∀ (s : State) (c : Fin 8) (d a : Fin 32) (n : Half),
    let k := core s c
    let lat := if 3 ≤ n.toNat ∧ n.toNat ≤ 6 then 6 else 2
    let ru : Use := ⟨[64 + n.toNat], some d.val, 1, lat, true⟩
    let wu : Use := ⟨[a.val], some (64 + n.toNat), 1, 2, true⟩
    let reads := fun (w : Word) => ∃ t, exec (.mfs c d 0 n) s = .next t ∧ onlyCore c s t ∧
      scalarResult d w 0 ru k (core t c)
    (canIssue s c ru →
      (n.toNat = 0x000 → reads (cycleNo s)) ∧
      (n.toNat = 0x001 → reads (BitVec.ofNat 32 (if 4 ≤ c.val then 12 + c.val else c.val))) ∧
      (n.toNat = 0x002 → reads (specialRead s c (k.issueClock ru) 2)) ∧
      (n.toNat = 0x003 → reads (specialRead s c (k.issueClock ru) 3)) ∧
      (n.toNat = 0x004 → ∃ t, exec (.mfs c d 0 n) s = .next t ∧ onlyCore c s t ∧
        writesS d (specialRead s c (k.issueClock ru) 4) k (core t c) ∧
        (let x := splitOf (timeAt s (cntAt c (k.issueClock ru) s));
          (core t c).timeSlo = BitVec.ofNat 32 x.sec ∧ (core t c).timeShi = BitVec.ofNat 32 (x.sec / 2 ^ 32 % 2 ^ 16))) ∧
      (n.toNat = 0x005 → reads k.timeSlo) ∧ (n.toNat = 0x006 → reads k.timeShi) ∧ (n.toNat = 0x008 → reads k.fpsr) ∧
      (n.toNat = 0x009 → reads k.engTmo) ∧ (n.toNat = 0x00A → reads k.engStatus) ∧
      (n.toNat = 0x00B → reads k.engDbase) ∧ (n.toNat = 0x010 → reads k.epc) ∧ (n.toNat = 0x011 → reads k.ecause) ∧
      (n.toNat = 0x012 → reads k.eaddr) ∧ (n.toNat = 0x013 → reads k.ecycle) ∧ (n.toNat = 0x014 → reads k.ecount) ∧
      (n.toNat = 0x020 → reads s.sys.prog.barmask) ∧ (n.toNat = 0x040 → reads (evtFlow s c))) ∧
    (specialExists n.toNat = false → canIssue s c { ru with legal := false } →
      ∃ t, exec (.mfs c d 0 n) s = .next t ∧ recordsException c 1 k.pc 0 s t) ∧
    (canIssue s c wu →
      (n.toNat = 0x008 → ∃ t, exec (.mts c 0 a n) s = .next t ∧ onlyCore c s t ∧
        (core t c).fpsr = k.getS a &&& 0x1F ∧ (core t c).pc = k.pc + 4 ∧ clocked k (core t c) wu) ∧
      (n.toNat = 0x009 → ∃ t, exec (.mts c 0 a n) s = .next t ∧ onlyCore c s t ∧
        (core t c).engTmo.toNat = max 16 (min 65535 (k.getS a).toNat) ∧ (core t c).pc = k.pc + 4) ∧
      (n.toNat = 0x00B → ∃ t, exec (.mts c 0 a n) s = .next t ∧ onlyCore c s t ∧
        (core t c).engDbase = k.getS a &&& 0xFFFFFFF0 ∧ (core t c).pc = k.pc + 4)) ∧
    (n.toNat ≠ 0x008 → n.toNat ≠ 0x009 → n.toNat ≠ 0x00B → canIssue s c { wu with legal := false } →
      ∃ t, exec (.mts c 0 a n) s = .next t ∧ recordsException c 1 k.pc 0 s t)

/-- BAR, CEND, FENCE, TWAIT and TRAP, and the release of TWAIT. (08_feano_instruction_set.md: R213, R216, R228, R229,
R230, R231, R237) -/
def Obligations.BarriersWaitsAndCycleEnd : Prop :=
  ∀ (s : State) (c : Fin 8) (a b : Fin 32),
    let k := core s c
    let u := fun (cost : Nat) => (⟨[], none, cost, 0, true⟩ : Use)
    let sregs := fun (t : State) => ∀ i, (core t c).getS i = k.getS i
    (isEventCore c = false → a.val < 8 → canIssue s c (u 3) →
      (barMember s a c = false → ∃ t, exec (.bar c 0 a 0) s = .next t ∧ recordsException c 5 k.pc 0 s t ∧
        (core t c).run = .stopped) ∧
      (barMember s a c = true →
        (∃ o : Fin 4, o.val ≠ c.val ∧ barMember s a o = true ∧ (core s o).run ≠ .bar a ∧ (core s o).run ≠ .ended) →
        ∃ t, exec (.bar c 0 a 0) s = .next t ∧ onlyCore c s t ∧ (core t c).run = .bar a ∧ sregs t) ∧
      (barMember s a c = true →
        (∀ o : Fin 4, o.val ≠ c.val → barMember s a o = true → (core s o).run = .bar a ∨ (core s o).run = .ended) →
        ∃ t, exec (.bar c 0 a 0) s = .next t ∧ t = { s with cores := t.cores } ∧ sregs t ∧
          (core t c).run = .running ∧ (core t c).next = k.issueClock (u 3) + 3 ∧
          ∀ o : Fin 4, o.val ≠ c.val → (core s o).run = .bar a →
            (core t o).run = .running ∧ (core t o).next = k.issueClock (u 3) + 3)) ∧
    (isEventCore c = false → canIssue s c (u 1) → ∃ t, exec (.cend c 0 0 0) s = .next t ∧
      t = { s with cores := t.cores } ∧ (core t c).run = .ended ∧ sregs t) ∧
    (canIssue s c (u 1) → ∃ t, exec (.fence c 0 0 0) s = .next t ∧ onlyCore c s t ∧ sregs t ∧
      (core t c).next = (match k.lastStore with
        | some ts => max (k.issueClock (u 1) + 1) (ts + 12) | none => k.issueClock (u 1) + 1)) ∧
    (canIssue s c ⟨[a.val], none, 1, 0, true⟩ → ∃ t, exec (.twait c 0 a 0) s = .next t ∧ onlyCore c s t ∧ sregs t ∧
      (core t c).run = if (k.getS a).toNat ≤ toffAt c (k.issueClock ⟨[a.val], none, 1, 0, true⟩) s then .running
        else .twait (k.getS a)) ∧
    (∀ v, k.run = .twait v →
      (isEventCore c = false → ∃ t, exec (.twaitRelease c) s = .next t ∧ onlyCore c s t ∧
        core t c = { k with run := .running, next := 2 * v.toNat + 2 }) ∧
      (isEventCore c = true → ∃ t, exec (.twaitRelease c) s = .next t ∧
        t = { s with cores := t.cores, freeCtr := t.freeCtr } ∧ k.next ≤ (core t c).next ∧
        core t c = { k with run := .running, next := (core t c).next })) ∧
    (canIssue s c (u 1) → ∃ t, exec (.trap c 0 0 b) s = .next t ∧
      recordsException c 6 k.pc (BitVec.ofNat 32 b.val) s t ∧ (isEventCore c = false → (core t c).run = .stopped))

/-- ENG.GO marks its descriptor PENDING and queues it; ENG.WAIT takes its status or waits; a wait times out.
(07_loop_engines.md: R202, 08_feano_instruction_set.md: R213, R232, R233, R234, R235,
20_management_and_address_map.md: R477) -/
def Obligations.EngineInstructionsPostAndWait : Prop :=
  ∀ (s : State) (c : Fin 8) (cls : Fin 16) (idx : Fin 32) (off : Half),
    let k := core s c
    let a := (k.engDbase + BitVec.ofNat 32 (16 * off.toNat)).toNat
    let gu : Use := ⟨[64 + 0x00B], none, 6, 0, true⟩
    let wu : Use := ⟨[64 + 0x00B, 64 + 0x009], none, 2, 0, true⟩
    let o : EngOp := ⟨c.val, a, issueNs c (k.issueClock gu) s, false⟩
    let q := engQueue s (engKey cls idx c)
    let seen := fun (u : Use) => statusSeen c (absNs (k.issueClock u) s) a cls (afterIssue s c u)
    (engLegal c cls idx = true → canIssue s c gu → descOk s c a = true → (seen gu).1 = false →
      ((seen gu).2.1 = 0xFF → ∃ t, exec (.engGo c cls idx off) s = .next t ∧ (core t c).engStatus = 1 ∧ t.eng = s.eng) ∧
      ((seen gu).2.1 ≠ 0xFF → (cls.val = 0 ∨ cls.val = 2) → (if cls.val = 0 then 4 else 2) ≤ q.length →
        ∃ t, exec (.engGo c cls idx off) s = .next t ∧ (core t c).engStatus = 0 ∧
          engQueue t (engKey cls idx c) = (insertOp o q).dropLast ∧ memRead t ((insertOp o q).getLastD o).desc = 1 ∧
          (cls.val = 0 → (regGet t (Reg.LOOP_BUSY_CNT idx)).toNat =
            min 0xFFFFFFFF ((regGet s (Reg.LOOP_BUSY_CNT idx)).toNat + 1))) ∧
      ((seen gu).2.1 ≠ 0xFF → (cls.val = 0 → q.length < 4) → (cls.val = 2 → q.length < 2) →
        (cls.val = 1 → s.esc.refDone = false) →
        ∃ t, exec (.engGo c cls idx off) s = .next t ∧ (core t c).engStatus = 0 ∧
          memRead t (a + statusOffset cls) = 0xFF ∧ engQueue t (engKey cls idx c) = insertOp o q ∧
          (Store.get (fun _ => 0) s.fco.marks ((a + statusOffset cls) / 4) = 0 → memBut (a + statusOffset cls) 1 s t))) ∧
    (engLegal c cls idx = true → canIssue s c gu → descOk s c a = false →
      ∃ t, exec (.engGo c cls idx off) s = .next t ∧ recordsException c 3 k.pc (BitVec.ofNat 32 a) s t ∧ t.eng = s.eng) ∧
    (engLegal c cls idx = true → canIssue s c wu → loadRegion s c a 16 = some .scm → (seen wu).1 = false →
      ∃ t, exec (.engWait c cls idx off) s = .next t ∧ t.eng = s.eng ∧
        (Store.get (fun _ => 0) s.fco.marks ((a + statusOffset cls) / 4) = 0 → t.mem = s.mem) ∧
        (if (seen wu).2.1 = 0xFF then (core t c).run = .engWait (a + statusOffset cls)
         else (core t c).run = .running ∧ (core t c).engStatus = (seen wu).2.1)) ∧
    (∀ x, k.run = .engWait x → ∃ t, exec (.engWaitTimeout c) s = .next t ∧
      t = { s with cores := t.cores, freeCtr := t.freeCtr } ∧ (∀ c', c' ≠ c.val → core t c' = core s c') ∧
      (core t c).engStatus = 13 ∧ (core t c).run = .running ∧
      (isEventCore c = false → t.freeCtr = s.freeCtr ∧ (core t c).next = k.issued + k.engTmo.toNat))

/-- DMA copies, captures and alarms of a core's engines complete with their STATUS and results.
(08_feano_instruction_set.md: R232, R235, R236, 20_management_and_address_map.md: R477) -/
def Obligations.CoreEnginesCompleteTheirOperations : Prop :=
  ∀ (s : State) (c : Fin 8) (o : EngOp),
    let kept := fun (t : State) => t.sys = s.sys ∧ t.esc = s.esc ∧ t.time = s.time ∧ t.cells = s.cells
    let d := engWords o 3 s
    let dw := d.1.getD 0 0
    let src := (d.1.getD 1 0).toNat
    let dst := (d.1.getD 2 0).toNat
    let chk := dmaCheck d.2 c (fieldGet dw 31 24) (fieldGet dw 23 8) src dst
    let tm := engWords o 4 s
    let code := fieldGet (tm.1.getD 0 0) 31 24
    (engQueue s (dmaKey c) = [o] → o.started = false →
      (chk = none → ∃ t, exec (.dmaCopy c) s = .next t ∧ engQueue t (dmaKey c) = [{ o with started := true }] ∧
        ∀ x, memRead t x = memRead (dmaWords c src dst (fieldGet dw 23 8) d.2) x) ∧
      (∀ st, chk = some st → ∃ t, exec (.dmaCopy c) s = .next t ∧ engQueue t (dmaKey c) = [] ∧
        memRead t o.desc = BitVec.ofNat 8 st.code)) ∧
    (engQueue s (dmaKey c) = [o] → o.started = true → ∃ t, exec (.dmaCopyDone c) s = .next t ∧ kept t ∧
      engQueue t (dmaKey c) = [] ∧ memRead t o.desc = 0 ∧ memNat t (o.desc + 12) 4 = (cycleNo s).toNat ∧
      ∀ x, x ≠ o.desc → ¬(o.desc + 12 ≤ x ∧ x < o.desc + 16) → memRead t x = memRead s x) ∧
    (engQueue s (timeKey c) = [o] → o.started = false →
      (code = 1 → ∃ t, exec (.timeCapture c) s = .next t ∧ engQueue t (timeKey c) = [] ∧ memRead t o.desc = 0 ∧
        memNat t (o.desc + 4) 4 = (nowSplit tm.2).ns % 2 ^ 32 ∧ memNat t (o.desc + 8) 4 = (nowSplit tm.2).sec % 2 ^ 32) ∧
      (code = 2 → alarmTime tm.1 ≤ timeAt tm.2 tm.2.time.cnt / 65536 → ∃ t, exec (.timeAlarm c) s = .next t ∧
        engQueue t (timeKey c) = [] ∧ memRead t o.desc = 8) ∧
      (code = 2 → timeAt tm.2 tm.2.time.cnt / 65536 < alarmTime tm.1 → ∃ t, exec (.timeAlarm c) s = .next t ∧
        engQueue t (timeKey c) = [{ o with started := true }])) ∧
    (engQueue s (timeKey c) = [o] → o.started = true → ∃ t, exec (.timeAlarmExpiry c) s = .next t ∧ kept t ∧
      engQueue t (timeKey c) = [] ∧ memRead t o.desc = 0 ∧ ∀ x, x ≠ o.desc → memRead t x = memRead s x)

/-- The mailbox engine queues a service request, or answers a user mailbox, and completes its descriptor.
(15_event_plane.md: R397, R398, R400, 20_management_and_address_map.md: R484) -/
def Obligations.MailboxEngineAnswersAndAsks : Prop :=
  ∀ (s : State) (o : EngOp), engQueue s mailboxKey = [o] → o.started = false →
    let e := engWords o 4 s
    let w0 := e.1.getD 0 0
    let w := e.1.getD 1 0
    let ptr := (e.1.getD 2 0).toNat
    let len := fieldGet (e.1.getD 3 0) 31 16
    let svc := mailboxCheck e.2 o.core ptr len 56 128 (portChain e.2 (fieldGet w 22 16)).isSome
    let rep := mailboxCheck e.2 o.core ptr len 1024 (min len 1024) (fieldGet w 22 16 == 0)
    (fieldGet w0 31 24 = 1 →
      (∀ st, svc = some st → ∃ t, exec .mailboxSvcReq s = .next t ∧ engQueue t mailboxKey = [] ∧
        memRead t o.desc = BitVec.ofNat 8 st.code ∧ t.ports = s.ports) ∧
      (svc = none → ∃ t st, exec .mailboxSvcReq s = .next t ∧ engQueue t mailboxKey = [] ∧
        memRead t o.desc = BitVec.ofNat 8 st ∧
        t.sys = e.2.sys ∧ t.ports = (enqueueSvc (fieldGet w 22 16) (svcRequest e.2 (fieldGet w 13 8) (fieldGet w 7 0)
          (Memory.readList e.2.mem (windowPhys e.2 (o.core - 4) ptr) len)
          (.mailbox o.core (fieldGet w0 23 8) (fieldGet (e.1.getD 3 0) 15 0) (windowPhys e.2 (o.core - 4) ptr))) e.2).1.ports)) ∧
    (fieldGet w0 31 24 = 2 →
      (∀ st, rep = some st → ∃ t, exec .mailboxMbReply s = .next t ∧ engQueue t mailboxKey = [] ∧
        memRead t o.desc = BitVec.ofNat 8 st.code ∧ t.sys = e.2.sys) ∧
      (rep = none → ∀ m, mailbox e.2 (fieldGet w 2 0) = some m → ∃ t, exec .mailboxMbReply s = .next t ∧
        engQueue t mailboxKey = [] ∧ memRead t o.desc = 0 ∧ mailbox t (fieldGet w 2 0) = none) ∧
      (rep = none → mailbox e.2 (fieldGet w 2 0) = none → ∃ t, exec .mailboxMbReply s = .next t ∧
        engQueue t mailboxKey = [] ∧ memRead t o.desc = 14 ∧ t.sys = e.2.sys))

/-- EVT.TAKE, EVT.DONE, EVT.POST and TRC act on the core's slots, the scheduler and the trace.
(08_feano_instruction_set.md: R239, 15_event_plane.md: R384, R388, R392, R394, R396, R400, R401) -/
def Obligations.EventInstructionsTakeDoneAndPost : Prop :=
  ∀ (s : State) (c : Fin 8) (d a b : Fin 32), isEventCore c = true →
    let k := core s c
    let eu := fun (srcs : List Nat) (dst : Option Nat) => (⟨srcs, dst, 1, 1, true⟩ : Use)
    (canIssue s c (eu [] (some d.val)) → curSlot s (c.val - 4) = none →
      (∀ e, nextSlot s (c.val - 4) = some e → ∃ t, exec (.evtTake c d 0 0) s = .next t ∧
        curSlot t (c.val - 4) = some e ∧ nextSlot t (c.val - 4) = none ∧ (core t c).run = .running ∧
        writesS d (BitVec.ofNat 32 (e.cls % 4 * 65536 + e.flow % 65536)) k (core t c) ∧ t.mem = s.mem ∧ t.regs = s.regs) ∧
      (nextSlot s (c.val - 4) = none → ∃ t, exec (.evtTake c d 0 0) s = .next t ∧ (core t c).run = .evtTake d ∧
        t.sch = s.sch ∧ t.mem = s.mem ∧ t.regs = s.regs)) ∧
    (canIssue s c (eu [a.val] none) → (curSlot s (c.val - 4)).isSome = true →
      ∃ t, exec (.evtDone c 0 a 0) s = .next t ∧ curSlot t (c.val - 4) = none ∧ (core t c).pc = k.pc + 4 ∧
        (∀ i, (core t c).getS i = k.getS i) ∧ t.mem = s.mem ∧
        (fieldGet (k.getS a) 7 0 = 0 → regGet t Reg.SCH_FAIL_CNT = regGet s Reg.SCH_FAIL_CNT) ∧
        (fieldGet (k.getS a) 7 0 ≠ 0 → (regGet t Reg.SCH_FAIL_CNT).toNat =
          min 0xFFFFFFFF ((regGet s Reg.SCH_FAIL_CNT).toNat + 1))) ∧
    (let u := eu [a.val] (some d.val)
      let p := (k.getS a).toNat
      let l := loadWords c (absNs (k.issueClock u) s) .priv p 8 (afterIssue s c u)
      let e := postedEvent c l.2.1 (unbounded c .regs l.2.2)
      let r := arrive e.1 e.2
      canIssue s c u → p % 32 = 0 → p + 32 ≤ 0xFFC0 → l.1 = false → ∃ t, exec (.evtPost c d a 0) s = .next t ∧
        t.sch = r.1.sch ∧ (if r.2 = .held then (core t c).run = .evtPost d
          else (core t c).run = .running ∧ writesS d (BitVec.ofNat 32 r.2.status.code) k (core t c))) ∧
    (canIssue s c (eu [a.val, b.val] none) → ∃ t, exec (.trc c 0 a b) s = .next t ∧ (core t c).pc = k.pc + 4 ∧
      (∀ i, (core t c).getS i = k.getS i) ∧
      t.mem = (traceRecord (fieldSet (k.getS a) 31 30 2) (fieldSet (k.getS b) 1 0 3) s).mem ∧
      t.regs = (traceRecord (fieldSet (k.getS a) 31 30 2) (fieldSet (k.getS b) 1 0 3) s).regs) ∧
    (∀ (n : Fin 4) e, nextSlot s n = some e → (∀ x, (core s (n.val + 4)).run ≠ .evtTake x) →
      exec (.eventDispatch n) s = .next s) ∧
    (∀ (n : Fin 4) e, s.sys.mode ≠ .boot → nextSlot s n = none → choose s (readyList s n) = some e →
      (∀ x, (core s (n.val + 4)).run ≠ .evtTake x) → ∃ t, exec (.eventDispatch n) s = .next t ∧
        nextSlot t n = some e ∧ t.sch.ready = s.sch.ready.erase e) ∧
    (∀ e res, firstHeld s = some e → usableEntry s e.cls = some res → ∃ t, exec .heldEventEntry s = .next t ∧
      t.sch.held = s.sch.held.erase e ∧ t.sch.ready.length = s.sch.ready.length + 1)

/-- DCFLUSH writes a dirty line back, DCINV drops a line, DCSYNC completes earlier writes.
(08_feano_instruction_set.md: R240) -/
def Obligations.CacheInstructionsActOnOneLine : Prop :=
  ∀ (s : State) (c : Fin 8) (a : Fin 32), isEventCore c = true →
    let k := core s c
    let u : Use := ⟨[a.val], none, 1, 1, true⟩
    let l := windowPhys s (c.val - 4) (k.getS a).toNat / 64
    (inDramWindow (k.getS a).toNat 1 = true → canIssue s c u →
      (∀ x, cacheLine s c l = some x → ∃ t, exec (.dcflush c 0 a 0) s = .next t ∧ onlyCore c s t ∧
        cacheLine t c l = some { x with dirty := false } ∧
        (core t c).writes = (if x.dirty = true then k.writes ++ [(l, x.bytes)] else k.writes)) ∧
      (∃ t, exec (.dcinv c 0 a 0) s = .next t ∧ onlyCore c s t ∧ cacheLine t c l = none ∧
        (core t c).writes = k.writes ∧ ∀ n, n ≠ l → cacheLine t c n = cacheLine s c n)) ∧
    (canIssue s c ⟨[], none, 1, 1, true⟩ → ∃ t, exec (.dcsync c 0 0 0) s = .next t ∧ (core t c).writes = [] ∧
      (k.writes = [] → t.mem = s.mem) ∧
      (∀ n bs, k.writes = [(n, bs)] → (∀ j, j < bs.length → memRead t (64 * n + j) = bs.getD j 0) ∧
        memBut (64 * n) bs.length s t) ∧ (injState s ≠ 1 → t.regs = s.regs))

/-! ### The management plane -/

/-- The request is one of open session `x`, authentic and new, and passes the checks of R457 that `k` names: it is decided
by its command's own rules. -/
def admitted (r : Req) (k : CmdRule) (x : Session) (s : State) : Prop :=
  s.sys.powered = true ∧ findSession s r.session = some x ∧ r.tagOk = true ∧ x.lastSeq.toNat < r.seq.toNat ∧
    k.least.code ≤ x.role.code ∧ (k.ethM = true → r.port = .ethM) ∧ (k.holder = true → s.sys.role ≠ .standby) ∧
    s.sys.mode ∈ k.modes

/-- The last answer sent is the one to this request. -/
def answers (t : State) (r : Req) (st : Status) (payload : List Byte) : Prop :=
  t.sys.answer = some ⟨r.session, r.seq, st, payload, false⟩

/-- The command is one of the HMP commands that run in a session, with request `r`. -/
def hmpCommand (r : Req) (i : Instr) : Prop :=
  i = .hmpClose r ∨ (∃ b a n, i = .regRead r b a n) ∨ (∃ a ws, i = .regWrite r a ws) ∨ (∃ a n, i = .memRead r a n) ∨
  (∃ a bs, i = .memWrite r a bs) ∨ (∃ k n o l, i = .recordRead r k n o l) ∨ (∃ k n, i = .imageBegin r k n) ∨
  (∃ o bs, i = .imageData r o bs) ∨ (∃ a b c d, i = .imageEnd r a b c d) ∨ i = .imageActivateFirmware r ∨
  i = .imageActivateProgram r ∨ i = .imageActivateCommission r ∨ (∃ k n b, i = .keyEnrol r k n b) ∨
  (∃ a b, i = .cellAccept r a b) ∨ (∃ a, i = .chainHeal r a) ∨ i = .sysResetHard r ∨ i = .sysResetSoft r ∨
  i = .lockoutRelease r ∨ (∃ a b, i = .safeLogAck r a b) ∨ (∃ m bs, i = .mbWrite r m bs)

/-- OPEN and CLOSE, idle and blocked sources, and the refusal of every request of no session or with a wrong tag.
(16_fault_collection.md: R403, 20_management_and_address_map.md: R458, R480, R481, R482, R486) -/
def Obligations.SessionsAdmitOnlyAuthenticRequests : Prop :=
  (∀ (s : State) (r : Req), s.sys.powered = true → ∀ i, hmpCommand r i →
    ((findSession s r.session = none ∨ r.tagOk = false) →
      ∃ t, exec i s = .next t ∧ t.sys.answer = some ⟨r.session, r.seq, .authFail, [], true⟩ ∧
        (regGet t Reg.FCO_STATUS_1).getLsbD 24 = true ∧
        (regGet t Reg.SYS_REJECT_COUNT).toNat = min 0xFFFFFFFF ((regGet s Reg.SYS_REJECT_COUNT).toNat + 1) ∧
        t.sys.firmware = s.sys.firmware ∧ t.sys.program = s.sys.program ∧ t.sys.commission = s.sys.commission ∧
        t.sys.roleKeys = s.sys.roleKeys ∧ t.sys.imageKeys = s.sys.imageKeys ∧ t.sys.mode = s.sys.mode ∧
        t.ports = s.ports ∧ t.hidden = s.hidden) ∧
    (∀ x, findSession s r.session = some x → r.tagOk = true →
      (r.seq.toNat < x.lastSeq.toNat → exec i s = .next s) ∧
      (r.seq = x.lastSeq → ∀ a, x.resp = some a →
        exec i s = .next { s with sys := { s.sys with answer := some a } }))) ∧
  ∀ (s : State) (r : Req) (role : HmpRole) (num src : Word),
    (s.sys.powered = true → ¬ r.src ∈ s.sys.blockedSrc → r.tagOk = true → s.sys.sessions.length < 8 → num ≠ 0 →
      findSession s num = none →
      ∃ t x, exec (.hmpOpen r role num) s = .next t ∧ t = { s with sys := t.sys } ∧ findSession t num = some x ∧
        x.role = role ∧ x.port = r.port ∧ x.src = r.src ∧ x.lastSeq = r.seq ∧
        t.sys.answer = some ⟨num, r.seq, .ok, wordBytes num, false⟩ ∧
        (∀ n, n ≠ num → findSession t n = findSession s n) ∧ t.sys.sessions.length = s.sys.sessions.length + 1) ∧
    (∀ x, admitted r ⟨0x0002, .viewer, false, false, allModes⟩ x s →
      ∃ t, exec (.hmpClose r) s = .next t ∧ t = { s with sys := t.sys } ∧ answers t r .ok [] ∧
        findSession t r.session = none ∧ t.sys.mode = s.sys.mode ∧ t.sys.cmdLog = s.sys.cmdLog) ∧
    (∃ t, exec (.hmpSessionIdleTimeout num) s = .next t ∧ t = { s with sys := t.sys } ∧ findSession t num = none ∧
      (∀ n, n ≠ num → findSession t n = findSession s n) ∧ t.sys.answer = s.sys.answer ∧
      (∀ x, findSession s num = some x → ∀ tr, s.sys.transfer = some tr → tr.session = num → t.sys.transfer = none)) ∧
    (∃ t, exec (.hmpAddressBlockExpiry src) s = .next t ∧ t = { s with sys := t.sys } ∧ ¬ src ∈ t.sys.blockedSrc ∧
      (∀ x, x ≠ src → (x ∈ t.sys.blockedSrc ↔ x ∈ s.sys.blockedSrc)) ∧ t.sys.sessions = s.sys.sessions)

/-- HMP reads answer the values read; a low half latches its higher halves; a bank value follows its selection.
(00_scope.md: R8, 20_management_and_address_map.md: R469, R471, R483, R484, R489, R490) -/
def Obligations.ReadsAnswerWhatTheyRead : Prop :=
  (∀ (s : State) (r : Req) (x : Session) (a : Word) (n : Nat),
    admitted r ⟨0x0010, .viewer, false, false, allModes⟩ x s → s.sys.mode ≠ .boot → 1 ≤ n → n ≤ 256 →
    inBlocks a.toNat n = true →
    (∃ t, exec (.regRead r false a n) s = .next t ∧
      answers t r .ok (wordsBytes (readRegs (.session x.num) a.toNat n (acceptSeq r.session r.seq s)).1)) ∧
    (∃ t, exec (.regRead r true a n) s = .next t ∧ t = { s with sys := t.sys } ∧
      answers t r .ok (wordsBytes ((List.range n).map (fun i => bankRead s (a.toNat + 4 * i)))))) ∧
  (∀ (s : State) (r : Req) (x : Session) (a : BitVec 40) (n : Nat),
    admitted r ⟨0x0012, .viewer, false, false, notBoot⟩ x s → hmpReadRefusal s a.toNat n = none →
    (∃ t, exec (.memRead r a n) s = .next t ∧
      answers t r .ok (wordsBytes (hmpReadWords x.num a.toNat (n / 4) (acceptSeq r.session r.seq s)).1)) ∧
    (n = 4 → scmWithin [(0x60000, 0x70000), (0x200000, 0x210000)] a.toNat 4 = true →
      Store.get (fun _ => 0) s.fco.marks (a.toNat / 4) = 0 →
      ∃ t, exec (.memRead r a n) s = .next t ∧ t = { s with sys := t.sys } ∧
        answers t r .ok [memRead s a.toNat, memRead s (a.toNat + 1), memRead s (a.toNat + 2), memRead s (a.toNat + 3)])) ∧
  (∀ (s : State) (r : Req) (x : Session) (kind index off len : Nat) (bs : List Byte),
    admitted r ⟨0x0020, .viewer, false, false, allModes⟩ x s → len ≤ 1024 → recordBytes s kind index = .ok bs →
    ∃ t, exec (.recordRead r kind index off len) s = .next t ∧ t = { s with sys := t.sys } ∧
      answers t r .ok ((bs.drop off).take len)) ∧
  (∀ (s : State) (rd : Reader) (a : Word) (d : RegDesc), a.toNat % 4 = 0 → regDesc a.toNat = some d → 0 < d.rs →
    d.rc = false → d.up = 0 → ¬(0x400B1000 ≤ a.toNat ∧ a.toNat < 0x400B1400) →
    ¬(0x40120020 ≤ a.toNat ∧ a.toNat < 0x40120040) →
    ∃ t, exec (.rsLowHalfRead rd a) s = .next t ∧ t = { s with latches := t.latches } ∧
      (∀ i, i < d.rs → latchGet rd (a.toNat + 4 * (i + 1)) t = regShown s d (a.toNat + 4 * (i + 1)))) ∧
  (∀ (s : State) (m : Fin 4),
    ∃ t, exec (.statBankValRead m) s = .next t ∧ onlyRegs [Reg.STAT_BANK_VAL m, Reg.STAT_BANK_STAT] s t ∧
      match bankSelected s m with
      | some a => regGet t (Reg.STAT_BANK_VAL m) = bankGet s a ∧ (fget t Fld.STAT_BANK_STAT_NOT_COUNTER).testBit m = false
      | none => regGet t (Reg.STAT_BANK_VAL m) = 0 ∧ (fget t Fld.STAT_BANK_STAT_NOT_COUNTER).testBit m = true)

/-- MEM_WRITE, REG_WRITE, MB_WRITE and its timeout, KEY_ENROL. (15_event_plane.md: R385, R400,
16_fault_collection.md: R411, 20_management_and_address_map.md: R471, R483, R484) -/
def Obligations.HmpWritesAndMailboxes : Prop :=
  (∀ (s : State) (r : Req) (x : Session) (a : Word) (bs : List Byte),
    admitted r ⟨0x0013, .operator, false, false, notBoot⟩ x s → hmpWriteRefusal a.toNat bs.length = none →
    ∃ t, exec (.memWrite r a bs) s = .next t ∧ t = { s with sys := t.sys, mem := t.mem, regs := t.regs, fco := t.fco } ∧
      passesEcc s t ∧ answers t r .ok [] ∧
      (∀ j, j < bs.length → memRead t (a.toNat + j) = bs.getD j 0) ∧ memBut a.toNat bs.length s t) ∧
  (∀ (s : State) (r : Req) (x : Session) (a w : Word),
    admitted r ⟨0x0011, .operator, false, false, notBoot⟩ x s → inBlocks a.toNat 1 = true →
    let o := writeReg (.hmp x.role x.num) a.toNat w (acceptSeq r.session r.seq s)
    ∃ t, exec (.regWrite r a [w]) s = .next t ∧ t.regs = o.1.regs ∧ t.staged = o.1.staged ∧ t.mem = o.1.mem ∧
      (if adoptedLater a.toNat = true ∧ o.2 = .ok then ∃ d, t.sys.due = o.1.sys.due ++ [d] ∧ d.session = r.session ∧
          d.seq = r.seq ∧ d.status = .ok
        else answers t r o.2 [])) ∧
  (∀ (s : State) (r : Req) (x : Session) (m : Nat) (bs : List Byte),
    admitted r ⟨0x0060, .operator, false, false, notBoot⟩ x s → m < 8 → 1 ≤ bs.length → bs.length ≤ 1024 →
    mailbox s m = none →
    let a := Config.dramBase + Config.mailboxPlace m
    let s1 := putBytes a bs (acceptSeq r.session r.seq s)
    let e := mkEvent s1 5 m (srcFlow s1 5 m) (srcClass s1 5 false) (BitVec.ofNat 32 m) (BitVec.ofNat 32 bs.length)
      (BitVec.ofNat 32 (Config.mailboxPlace m))
    (arrive e s1).2 ≠ .refused →
    ∃ t y, exec (.mbWrite r m bs) s = .next t ∧ mailbox t m = some y ∧ y.session = r.session ∧ y.seq = r.seq ∧
      y.len = bs.length ∧ t.sch = (arrive e s1).1.sch ∧ t.mem = (arrive e s1).1.mem) ∧
  (∀ (s : State) (m : Fin 8) (y : Mailbox), mailbox s m = some y →
    ∃ t, exec (.mbWriteTimeout m) s = .next t ∧ t = { s with sys := t.sys } ∧ mailbox t m = none ∧
      t.sys.answer = some ⟨y.session, y.seq, .timeout, [], false⟩ ∧ ∀ n, n ≠ m.val → mailbox t n = mailbox s n) ∧
  (∀ (s : State) (r : Req) (x : Session) (q : HmpRole) (n slot : Nat) (key : List Byte),
    admitted r ⟨0x0034, .safetyEngineer, true, false, [.commission]⟩ x s →
    (key.length = 32 → ∃ t, exec (.keyEnrol r (.role q) slot key) s = .next t ∧ t = { s with sys := t.sys } ∧
      answers t r .ok [] ∧ Store.get (fun _ => []) t.sys.roleKeys q.code = key ∧ t.sys.imageKeys = s.sys.imageKeys ∧
      ∀ q', q' ≠ q → Store.get (fun _ => []) t.sys.roleKeys q'.code = Store.get (fun _ => []) s.sys.roleKeys q'.code) ∧
    (key.length = 64 → slot < 4 → ∀ p ∈ [(KeyKind.program, 0), (KeyKind.commission, 4), (KeyKind.safety, 8)],
      ∃ t, exec (.keyEnrol r p.1 slot key) s = .next t ∧ t = { s with sys := t.sys } ∧ answers t r .ok [] ∧
        Store.get (fun _ => []) t.sys.imageKeys (p.2 + slot) = key ∧ t.sys.roleKeys = s.sys.roleKeys ∧
        (n ≠ p.2 + slot → Store.get (fun _ => []) t.sys.imageKeys n = Store.get (fun _ => []) s.sys.imageKeys n)))

/-- An image is transferred into the inactive slot, checked, marked loadable, and activated by kind.
(08_feano_instruction_set.md: R254, R255, 20_management_and_address_map.md: R485, R486) -/
def Obligations.ImageTransferAndActivation : Prop :=
  (∀ (s : State) (r : Req) (x : Session) (k : ImageKind) (len : Nat),
    admitted r ⟨0x0030, .engineer, false, false, allModes⟩ x s → s.sys.transfer = none →
    ∃ t, exec (.imageBegin r k.code len) s = .next t ∧ t = { s with sys := t.sys, regs := t.regs } ∧ answers t r .ok [] ∧
      t.sys.transfer = some ⟨x.num, k, len, [], []⟩ ∧ (flashKind t k).inactive.loadable = false ∧
      (flashKind t k).active = (flashKind s k).active ∧ (∀ j, j ≠ k → flashKind t j = flashKind s j) ∧
      regsBut [Reg.SYS_IMG_STAT, Reg.SYS_IMG] s t ∧ fget t Fld.SYS_IMG_STAT_KIND = k.code ∧
      fget t Fld.SYS_IMG_STAT_STATUS = 0) ∧
  (∀ (s : State) (r : Req) (x : Session) (tr : Transfer) (off : Nat) (bs : List Byte),
    admitted r ⟨0x0031, .engineer, false, false, allModes⟩ x s → s.sys.transfer = some tr → tr.session = x.num →
    1 ≤ bs.length → bs.length ≤ 1024 → off + bs.length ≤ tr.len →
    ∃ t, exec (.imageData r off bs) s = .next t ∧ t = { s with sys := t.sys, regs := t.regs } ∧ answers t r .ok [] ∧
      t.sys.transfer = some { tr with got := tr.got ++ [(off, bs.length)], bytes := Memory.writeList tr.bytes off bs } ∧
      ∀ j, flashKind t j = flashKind s j) ∧
  (∀ (s : State) (r : Req) (x : Session) (tr : Transfer) (sig : ImageSig) (hash lim : Bool) (c : ImageContent),
    admitted r ⟨0x0032, .engineer, false, false, allModes⟩ x s → s.sys.transfer = some tr → tr.session = x.num →
    ∃ t, exec (.imageEnd r sig hash lim c) s = .next t ∧ answers t r (imageChecks s tr sig hash lim c) [] ∧
      fget t Fld.SYS_IMG_STAT_KIND = tr.kind.code ∧
      fget t Fld.SYS_IMG_STAT_STATUS = (imageChecks s tr sig hash lim c).code ∧
      t.sys.transfer = none ∧ (flashKind t tr.kind).active = (flashKind s tr.kind).active ∧
      (∀ j, j ≠ tr.kind → flashKind t j = flashKind s j) ∧
      (flashKind t tr.kind).inactive =
        (if imageChecks s tr sig hash lim c = .ok then ⟨true, c⟩ else (flashKind s tr.kind).inactive)) ∧
  (∀ (s : State) (r : Req) (x : Session), s.sys.transfer = none →
    (admitted r ⟨0x0033, .engineer, false, false, [.boot, .commission, .lockout]⟩ x s →
      ∃ t, exec (.imageActivateFirmware r) s = .next t ∧
        (if s.sys.firmware.inactive.loadable = true then answers t r .ok [] ∧
            t.sys.firmware = { s.sys.firmware with bActive := !s.sys.firmware.bActive }
          else answers t r .checkFail [] ∧ t.sys.firmware = s.sys.firmware) ∧
        t.sys.program = s.sys.program ∧ t.sys.commission = s.sys.commission) ∧
    (admitted r ⟨0x0033, .engineer, false, false, [.commission]⟩ x s →
      (∃ t, exec (.imageActivateProgram r) s = .next t ∧ t.sys.prog = s.sys.prog ∧ t.sys.program = s.sys.program ∧
        (if s.sys.program.inactive.loadable = true then answers t r .ok [] ∧ t.sys.activateProgram = some s.time.cnt
          else answers t r .checkFail [] ∧ t.sys.activateProgram = s.sys.activateProgram)) ∧
      (∃ t, exec (.imageActivateCommission r) s = .next t ∧ t.sys.comm = s.sys.comm ∧
        t.sys.commission = s.sys.commission ∧
        (if s.sys.commission.inactive.loadable = true then answers t r .ok [] ∧ t.sys.activateCommission = some s.time.cnt
          else answers t r .checkFail [] ∧ t.sys.activateCommission = s.sys.activateCommission))))

/-- Power-on, supply loss and both resets go to BOOT and keep what is non-volatile. (17_safety_functions.md: R427,
R430, 19_modes_and_start_up.md: R459, R462, R463, 21_electrical_and_mechanical.md: R494) -/
def Obligations.ResetAndPowerKeepWhatTheyMust : Prop :=
  let stays := fun (s t : State) => t.sys.mode = .boot ∧ t.sys.sessions = [] ∧ t.cores = [] ∧ t.fco.log = s.fco.log ∧
    t.sys.roleKeys = s.sys.roleKeys ∧ t.sys.imageKeys = s.sys.imageKeys ∧ t.sys.firmware = s.sys.firmware ∧
    t.sys.program = s.sys.program ∧ t.sys.commission = s.sys.commission ∧ t.saf.latch = s.saf.latch ∧
    t.saf.all = s.saf.all ∧ t.saf.block = s.saf.block ∧ t.saf.log = s.saf.log ∧ t.btn.mramEpoch = s.btn.mramEpoch ∧
    t.svcSeq = s.svcSeq ∧ t.pending = s.pending
  (∀ (s : State) (key : Bool), ∃ t, exec (.powerOn key) s = .next t ∧ stays s t ∧ t.sys.powered = true ∧
    t.sys.cmdLog = s.sys.cmdLog ∧ t.saf.key = key ∧ t.saf.selfTest = .running ∧ t.mem = [] ∧ t.time.cnt = 0 ∧
    (∀ o ∈ t.saf.outs, o.on = false)) ∧
  (∀ s : State, ∃ t, exec .supplyLoss s = .next t ∧ stays s t ∧ t.sys.powered = false ∧ t.mem = [] ∧
    (∀ o ∈ t.saf.outs, o.on = false)) ∧
  (∀ (s : State) (r : Req) (x : Session), admitted r ⟨0x0043, .engineer, false, false, allModes⟩ x s →
    ((s.sys.mode ≠ .run ∨ s.sys.role = .standby) →
      (∃ t, exec (.sysResetHard r) s = .next t ∧ stays s t ∧ answers t r .ok [] ∧ t.mem = [] ∧ t.time.cnt = 0) ∧
      (∃ t, exec (.sysResetSoft r) s = .next t ∧ stays s t ∧ answers t r .ok [] ∧ t.saf = s.saf ∧
        t.time.cnt = s.time.cnt ∧ t.time.epoch = s.time.epoch ∧ t.fio.field = s.fio.field ∧
        (∀ a, Config.dramBase ≤ a → a < Config.dramBase + 2 ^ 34 → memRead t a = memRead s a) ∧
        (∀ a, a < Config.dramBase → memRead t a = 0))) ∧
    (s.sys.mode = .run → s.sys.role ≠ .standby →
      (∃ t, exec (.sysResetHard r) s = .next t ∧ answers t r .illegalInMode [] ∧ t.sys.mode = .run ∧ t.cores = s.cores) ∧
      (∃ t, exec (.sysResetSoft r) s = .next t ∧ answers t r .illegalInMode [] ∧ t.sys.mode = .run ∧ t.cores = s.cores)))

/-- The boot sequence ends in COMMISSION, or LOCKOUT while the latch is set, or stays in BOOT with its failing step.
(17_safety_functions.md: R427, 19_modes_and_start_up.md: R449, R451, R459, R460, R467,
20_management_and_address_map.md: R487) -/
def Obligations.BootEndsInItsModeOrItsFailure : Prop :=
  ∀ (s : State) (b : BootResult),
    (s.sys.mode ≠ .boot ∨ s.sys.powered = false → exec (.bootComplete b) s = .next s) ∧
    (s.sys.mode = .boot → s.sys.powered = true →
      (b.secureOk = false → ∃ t, exec (.bootComplete b) s = .next t ∧ t.sys.mode = .boot ∧
        fget t Fld.SYS_BOOT_FAIL_STEP = 1) ∧
      (b.secureOk = true → b.memOk = false → s.sys.firmware.active.loadable = true → b.badImages = 0 →
        ∃ t, exec (.bootComplete b) s = .next t ∧ t.sys.mode = .boot ∧ fget t Fld.SYS_BOOT_FAIL_STEP = 2) ∧
      (b.secureOk = true → b.memOk = true → b.badImages = 0 → s.sys.firmware.active.loadable = true →
        s.sys.program.active.loadable = true → s.sys.commission.active.loadable = true →
        ∀ p c, s.sys.program.active.content = .program p → s.sys.commission.active.content = .commission c → commLegal c = true →
        ∃ t, exec (.bootComplete b) s = .next t ∧ t.sys.mode = (if s.saf.latch = true then .lockout else .commission) ∧
          t.sys.role = (if c.pair = true then .standby else .solo) ∧ t.sys.prog = p ∧ t.sys.comm = c ∧
          t.saf.latch = s.saf.latch))

/-- A legal mode request waits for its boundary; readiness moves between CHARGE and READY. (19_modes_and_start_up.md:
R356, R451, R452, R453, R454, R457) -/
def Obligations.ModeRequestsWaitForTheirBoundary : Prop :=
  let asks := [((fun c => .modeReqCommission c), Mode.commission), ((fun c => .modeReqCharge c), Mode.charge),
    ((fun c => .modeReqReady c), Mode.ready), ((fun c => .modeReqRun c), Mode.run)]
  (∀ (s : State) (o : Origin), ∀ p ∈ (asks : List ((Caller → Instr) × Mode)),
    (firstFail (modeChecks o p.2 s) = none →
      ∃ t, exec (p.1 (.reg o)) s = .next t ∧ t.sys.waiting = some ⟨p.2, s.time.cnt, .reg o⟩ ∧ t.sys.mode = s.sys.mode ∧
        t.mem = s.mem ∧ t.saf = s.saf ∧ t.cores = s.cores) ∧
    (∀ st, firstFail (modeChecks o p.2 s) = some st →
      ∃ t, exec (p.1 (.reg o)) s = .next t ∧ t.sys.waiting = s.sys.waiting ∧ t.sys.mode = s.sys.mode ∧
        fget t Fld.SYS_MODE_STAT_STATUS = st.code ∧
        (regGet t Reg.SYS_REJECT_COUNT).toNat = min 0xFFFFFFFF ((regGet s Reg.SYS_REJECT_COUNT).toNat + 1))) ∧
  (∀ (s : State) (r : Req) (x : Session), admitted r ⟨0x0040, .viewer, false, false, allModes⟩ x s →
    ∀ p ∈ (asks : List ((Caller → Instr) × Mode)), firstFail (modeChecks (.hmp x.role x.num) p.2 s) = none →
      s.sys.waiting = none →
      ∃ t, exec (p.1 (.req r)) s = .next t ∧ t.sys.waiting = some ⟨p.2, s.time.cnt, .req r⟩ ∧
        t.sys.mode = s.sys.mode ∧ t.sys.answer = s.sys.answer) ∧
  (∀ s : State,
    let asked := (match s.sys.waiting with | some q => q.target == .commission | none => false) = true
    (s.sys.mode = .charge → s.sys.role ≠ .standby → held20ms s s.sys.readyAt = true → ¬asked →
      ∃ t, exec .readinessReached s = .next t ∧ t.sys.mode = .ready ∧ t.sys.modeAt = s.time.cnt ∧ t.saf = s.saf) ∧
    ((s.sys.mode ≠ .charge ∨ s.sys.role = .standby ∨ held20ms s s.sys.readyAt = false ∨ asked) →
      exec .readinessReached s = .next s) ∧
    (s.sys.mode = .ready → s.sys.role ≠ .standby → held20ms s s.sys.notReadyAt = true →
      exec .readinessLost s = .next { s with sys := { s.sys with mode := .charge, modeAt := s.time.cnt } }) ∧
    ((s.sys.mode ≠ .ready ∨ s.sys.role = .standby ∨ held20ms s s.sys.notReadyAt = false) →
      exec .readinessLost s = .next s))

/-! ### Fault collection -/

/-- A detection of source `src` has become an occurrence: its bit is latched, the fault log has its entry, and only what
an occurrence may change has changed. -/
def occurred (src addr master : Nat) (s t : State) : Prop :=
  (regGet t (Reg.FCO_STATUS_0 + 4 * (src / 32))).getLsbD (src % 32) = true ∧
    (∃ e ∈ t.fco.log, e.source = src ∧ e.addr = addr ∧ e.master = master ∧ e.seq = s.fco.logSeq ∧ e.time = nowSplit s) ∧
    onlyFault s t

/-- As `occurred`, and no block register has changed but those of the scheduler, the fault collector and the baton. -/
def occurredAlone (src addr master : Nat) (s t : State) : Prop :=
  occurred src addr master s t ∧ ∀ a, a / 0x10000 ∉ [0x400C, 0x400D, 0x4011] → regGet t a = regGet s a

/-- A refused register write: one more refusal is counted, the command log has its entry, and nothing else changed but
the registers at `as` (R458). -/
def refusedWrite (as : List Nat) (st : Status) (s t : State) : Prop :=
  t = { s with regs := t.regs, sys := { s.sys with cmdLog := t.sys.cmdLog } } ∧
    (∃ e ∈ t.sys.cmdLog, e.status = st ∧ e.time = nowSplit s ∧ e.mode = s.sys.mode) ∧
    (regGet t Reg.SYS_REJECT_COUNT).toNat = min 0xFFFFFFFF ((regGet s Reg.SYS_REJECT_COUNT).toNat + 1) ∧
    regsBut (Reg.SYS_REJECT_COUNT :: as) s t

/-- A detection of a source latches its bit, enters the fault log, and changes only what a fault may change.
(01_module_architecture.md: R11, 16_fault_collection.md: R403, R405, R409, 21_electrical_and_mechanical.md: R501) -/
def Obligations.OccurrencesAreLatchedAndLogged : Prop :=
  ∀ s : State,
    (∃ t, exec .pllLossOfLock s = .next t ∧ occurredAlone 3 0 0x3F s t) ∧
    (∃ t, exec .supervisoryWatchdogExpiry s = .next t ∧ occurredAlone 60 0 0x08 s t) ∧
    (∀ n, ∃ t, exec (.opticsAlarm n) s = .next t ∧ occurredAlone 59 n 0x32 s t) ∧
    (∀ i, ∃ t, exec (.supplyInputFault i) s = .next t ∧ occurredAlone 53 i.val 0x3F s t) ∧
    (∀ p ∈ [(DieLink.safety, 0, 0x0A), (DieLink.frontEnd, 1, 0x31)],
      (raisedSrc s p.2.1 = true → exec (.dieLinkLoss p.1) s = .next s) ∧
      (raisedSrc s p.2.1 = false → ∃ t, exec (.dieLinkLoss p.1) s = .next t ∧ occurredAlone p.2.1 0 p.2.2 s t ∧
        raisedSrc t p.2.1 = true) ∧
      ∃ t, exec (.dieLinkRestore p.1) s = .next t ∧
        t = { s with fco := { s.fco with raised := t.fco.raised }, saf := { s.saf with present := t.saf.present } } ∧
        Store.get (fun _ => false) t.fco.raised (Fco.key p.2.1 0) = false ∧
        (∀ k, k ≠ Fco.key p.2.1 0 →
          Store.get (fun _ => false) t.fco.raised k = Store.get (fun _ => false) s.fco.raised k) ∧
        ∀ n, n < 10 → t.saf.present.getLsbD n = (s.saf.present.getLsbD n && !(p.2.1 == 0 && n == 7)))

/-- Status and capture clearing, classes, injection, software fault and FAULT_OUT do what they say or are refused by
the first failing check. (16_fault_collection.md: R404, R406, R409, R410, R412, 20_management_and_address_map.md:
R457, R458) -/
def Obligations.FaultCommandsWriteTheirRegisters : Prop :=
  ∀ (s : State) (o : Origin) (val : Word),
    let eng : Bool × Status := (roleAtLeast .engineer o, .notPermitted);
    (∀ st, firstFail [eng] = some st →
      (∀ n, ∃ t, exec (.fcoStatusClear o n val) s = .next t ∧ refusedWrite [] st s t) ∧
      (∃ t, exec (.fcoCaptureRelease o) s = .next t ∧ refusedWrite [] st s t) ∧
      (∃ t, exec (.fcoInjectCancel o) s = .next t ∧ refusedWrite [] st s t) ∧
      (∃ t, exec (.swFaultRaise o) s = .next t ∧ refusedWrite [] st s t) ∧
      (∃ t, exec (.swFaultClear o) s = .next t ∧ refusedWrite [] st s t)) ∧
    (firstFail [eng] = none →
      (∀ n : Fin 2, ∃ t, exec (.fcoStatusClear o n val) s = .next t ∧ onlyRegs [Reg.FCO_STATUS_0 + 4 * n.val] s t ∧
        ∀ i, i < 32 → (regGet t (Reg.FCO_STATUS_0 + 4 * n.val)).getLsbD i =
          ((regGet s (Reg.FCO_STATUS_0 + 4 * n.val)).getLsbD i && !(val.getLsbD i && !raisedSrc s (32 * n.val + i)))) ∧
      (∃ t, exec (.fcoCaptureRelease o) s = .next t ∧ onlyRegs [Reg.FCO_CAP_1] s t ∧
        ∀ i, i < 32 → (regGet t Reg.FCO_CAP_1).getLsbD i = ((regGet s Reg.FCO_CAP_1).getLsbD i && i != 31)) ∧
      (fget s Fld.FCO_INJ_STAT_STATE ≠ 1 → exec (.fcoInjectCancel o) s = .next s) ∧
      (fget s Fld.FCO_INJ_STAT_STATE = 1 → ∃ t, exec (.fcoInjectCancel o) s = .next t ∧ onlyRegs [Reg.FCO_INJ_STAT] s t ∧
        fget t Fld.FCO_INJ_STAT_STATE = 0 ∧ fget t Fld.FCO_INJ_STAT_STATUS = fget s Fld.FCO_INJ_STAT_STATUS) ∧
      (raisedSrc s 62 = true → exec (.swFaultRaise o) s = .next s) ∧
      (raisedSrc s 62 = false → ∃ t, exec (.swFaultRaise o) s = .next t ∧ occurred 62 0 0x3F s t ∧
        raisedSrc t 62 = true) ∧
      (∃ t, exec (.swFaultClear o) s = .next t ∧ t = { s with fco := { s.fco with raised := t.fco.raised } } ∧
        ∀ k, Store.get (fun _ => false) t.fco.raised k =
          (Store.get (fun _ => false) s.fco.raised k && k != Fco.key 62 0))) ∧
    (∀ n : Fin 4,
      let checks := [eng, (s.sys.mode == .commission, .illegalInMode), (classWordLegal n.val val, .badParam)];
      (firstFail checks = none → ∃ t, exec (.fcoClassWrite o n val) s = .next t ∧ onlyRegs [Reg.FCO_CLASS n.val] s t ∧
        regGet t (Reg.FCO_CLASS n.val) = val) ∧
      (∀ st, firstFail checks = some st → ∃ t, exec (.fcoClassWrite o n val) s = .next t ∧ refusedWrite [] st s t)) ∧
    (let checks := [eng, (s.sys.mode != .boot && s.sys.mode != .run, .illegalInMode),
        (decide (fieldGet val 7 0 < checkerInstances (fieldGet val 15 8)), .badParam),
        (fget s Fld.FCO_INJ_STAT_STATE != 1, Status.busy)];
      (firstFail checks = none → ∃ t, exec (.fcoInjectGo o val) s = .next t ∧
        t = { s with regs := t.regs, fco := { s.fco with arm := val &&& 0x3000FFFF } } ∧
        regsBut [Reg.FCO_INJECT, Reg.FCO_INJ_STAT] s t ∧ fget t Fld.FCO_INJ_STAT_STATE = 1 ∧
        fget t Fld.FCO_INJ_STAT_STATUS = 0 ∧ fget t Fld.FCO_INJECT_CHECKER = fieldGet val 15 8 ∧
        fget t Fld.FCO_INJECT_INST = fieldGet val 7 0 ∧ fget t Fld.FCO_INJECT_MODE = fieldGet val 28 28 ∧
        fget t Fld.FCO_INJECT_REACT = fieldGet val 29 29) ∧
      (∀ st, firstFail checks = some st → ∃ t, exec (.fcoInjectGo o val) s = .next t ∧
        refusedWrite [Reg.FCO_INJ_STAT] st s t ∧ fget t Fld.FCO_INJ_STAT_STATUS = st.code ∧
        fget t Fld.FCO_INJ_STAT_STATE = fget s Fld.FCO_INJ_STAT_STATE)) ∧
    (let tmin := fieldGet val 6 0;
      let checks := [eng, (tmin == fget s Fld.FCO_FOUT_TMIN || s.sys.mode == .commission, .illegalInMode),
        (decide (1 ≤ tmin ∧ tmin ≤ 100), .badParam)];
      (firstFail checks = none → ∃ t, exec (.fcoFoutWrite o val) s = .next t ∧ onlyRegs [Reg.FCO_FOUT] s t ∧
        fget t Fld.FCO_FOUT_TMIN = tmin ∧ fget t Fld.FCO_FOUT_SW = fieldGet val 31 31 ∧
        fget t Fld.FCO_FOUT_PULSE = fget s Fld.FCO_FOUT_PULSE ∧
        (fbit t Fld.FCO_FOUT_STATE = true ↔
          s.sys.mode = .boot ∨ fbit s Fld.FCO_FOUT_PULSE = true ∨ val.getLsbD 31 = true)) ∧
      (∀ st, firstFail checks = some st → ∃ t, exec (.fcoFoutWrite o val) s = .next t ∧ refusedWrite [] st s t)) ∧
    (fbit s Fld.FCO_FOUT_PULSE = false → exec .faultOutTminExpiry s = .next s) ∧
    (fbit s Fld.FCO_FOUT_PULSE = true → ∃ t, exec .faultOutTminExpiry s = .next t ∧ onlyRegs [Reg.FCO_FOUT] s t ∧
      fbit t Fld.FCO_FOUT_PULSE = false ∧ fget t Fld.FCO_FOUT_TMIN = fget s Fld.FCO_FOUT_TMIN ∧
      fget t Fld.FCO_FOUT_SW = fget s Fld.FCO_FOUT_SW ∧
      (fbit t Fld.FCO_FOUT_STATE = true ↔ s.sys.mode = .boot ∨ fbit s Fld.FCO_FOUT_SW = true))

/-! ### The safety die -/

/-- Every safety output is off. -/
def allOff (t : State) : Prop :=
  ∀ q, q < 4 → (outState t q).on = false ∧
    ((outState t q).test = none → (outState t q).swH = false ∧ (outState t q).swL = false)

/-- LOCKOUT is latched; a new latch took the time and the causes `c`, counted, raised SAFE_TRIP and took the module out of
its mode, unless that was BOOT (R426, R454). -/
def locks (c : BitVec 10) (s t : State) : Prop :=
  t.saf.latch = true ∧ t.saf.relArmed = false ∧
    (s.saf.latch = true → t.saf.all = s.saf.all ||| c ∧ t.saf.first = s.saf.first ∧ t = { s with saf := t.saf }) ∧
    (s.saf.latch = false → t.saf.all = c ∧ t.saf.first = lowestCause c ∧ t.saf.lockT = nowSplit s ∧
      (regGet t Reg.FCO_STATUS_0).getLsbD 2 = true ∧
      (regGet t Reg.SAF_TRIP_CNT).toNat = min 0xFFFFFFFF ((regGet s Reg.SAF_TRIP_CNT).toNat + 1) ∧
      t.sys.mode = (if s.sys.mode = .boot then .boot else .lockout) ∧ t.cores = s.cores ∧ t.hidden = s.hidden)

/-- A pair after one sample (R420): its channels, and the evaluation that changes once the opposite has held t_filter. -/
def sampled (par : PairPar) (a b : Bool) (now : Nat) (p p' : PairState) : Prop :=
  p'.chA = a ∧ p'.chB = b ∧
    (par.func = .none → p'.healthy = false ∧ p'.cross = false ∧ p'.disc = false) ∧
    (par.func ≠ .none →
      let h := match par.type with
        | .equivalent => a && b
        | .antivalent => a && !b
      p'.cross = p.cross ∧ p'.disc = (p.disc && !channelsAgree par.type a b) ∧
      p'.healthy = (if h ≠ p.healthy ∧ par.filterUs * 500 ≤ now - p.changeAt.getD now then h else p.healthy) ∧
      p'.changeAt = (if h = p.healthy ∨ par.filterUs * 500 ≤ now - p.changeAt.getD now then none
        else some (p.changeAt.getD now)))

/-- A firmware step evaluates the pairs, sets the demands and latches LOCKOUT exactly on a cause; self-tests, silence
and SV+ latch it too. (17_safety_functions.md: R414, R416, R418, R420, R426, R427, 19_modes_and_start_up.md: R454) -/
def Obligations.SafetyFirmwareLatchesItsCauses : Prop :=
  ∀ (s : State) (chA chB : BitVec 8) (svOk selfOk pass : Bool),
    let cause := fun (n : Nat) => (BitVec.ofNat 10 (2 ^ (n - 1)))
    let left := fun (t : State) => ∃ i, i < 8 ∧ (pairPar s i).func = .emergency ∧ (pairState s i).healthy = true ∧
      (pairState t i).healthy = false;
    (s.saf.selfTest ≠ .passed ∨ s.sys.powered = false → exec (.safetyFirmwareStep chA chB svOk selfOk) s = .next s) ∧
    (s.saf.selfTest = .passed → s.sys.powered = true →
      ∃ t, exec (.safetyFirmwareStep chA chB svOk selfOk) s = .next t ∧
        (∀ i, i < 8 → sampled (pairPar s i) (chA.getLsbD i) (chB.getLsbD i) s.saf.osc (pairState s i) (pairState t i)) ∧
        (t.saf.demand1 = true ↔
          ∃ i, i < 8 ∧ (pairPar s i).func = .emergency ∧ (pairState t i).healthy = false) ∧
        t.saf.demand3 = (s.saf.demand3 && inRun s) ∧ t.saf.demand4 = s.saf.demand4 ∧
        (t.saf.latch = true ↔ s.saf.latch = true ∨ s.saf.pending ≠ 0 ∨ selfOk = false ∨ left t) ∧
        (t.saf.latch = s.saf.latch → armed s 7 1 = false → t = { s with saf := t.saf }) ∧
        (s.saf.latch = false → t.saf.latch = true → ∃ c, locks c s t ∧ (c.getLsbD 0 = true ↔ s.saf.pending.getLsbD 0 = true ∨ left t)) ∧
        (t.saf.latch = true → ∀ q, q < 4 → isPermit s q = false → (outState t q).on = false)) ∧
    (s.saf.selfTest ≠ .passed →
      exec .safetyLinkSilence s = .next s ∧ exec .svSupplyOutOfRange s = .next s) ∧
    (s.saf.selfTest = .passed → ∀ p ∈ [(Instr.safetyLinkSilence, 8), (Instr.svSupplyOutOfRange, 10)],
      ∃ t, exec p.1 s = .next t ∧ locks (s.saf.pending ||| cause p.2) s t ∧
        t.saf.present = s.saf.present ||| cause p.2 ∧ allOff t) ∧
    (s.saf.selfTest ≠ .running ∨ s.sys.powered = false → exec (.safetySelftestEnd pass) s = .next s) ∧
    (s.saf.selfTest = .running → s.sys.powered = true →
      (∃ t, exec (.safetySelftestEnd true) s = .next t ∧ t = { s with saf := t.saf } ∧ t.saf.selfTest = .passed ∧
        t.saf.latch = s.saf.latch ∧ t.saf.refreshed = true) ∧
      (∃ t, exec (.safetySelftestEnd false) s = .next t ∧ t.saf.selfTest = .failed ∧
        locks (cause 9 ||| s.saf.pending) s t))

/-- The block comma has left now (R25): the safety die notes it, and every enabled port of the map, where it may have
replaced one character of the frame in flight; no other port has changed. -/
def commaSent (s t : State) : Prop :=
  t.saf.commaAt = some s.saf.osc ∧
    (∀ p, p ∈ mappedPorts s → (port s p).lit = true →
      port t p = { port s p with blockAt := some s.saf.osc, hit := (port t p).hit } ∧
      ((port t p).hit = (port s p).hit ∨ ∃ i, (port t p).hit = some i ∧ i < (port s p).tx.length)) ∧
    ∀ p, ¬(p ∈ mappedPorts s ∧ (port s p).lit = true) → port t p = port s p

/-- A block decision sends the block comma, ends output tests and opens the TRIP outputs; SF3 demands it in RUN.
(17_safety_functions.md: R416, R418, R425, 01_module_architecture.md: R25) -/
def Obligations.SafetyBlockSwitchesTheTripOutputsOff : Prop :=
  ∀ s : State,
    let reason := demandStands s = true ∨ s.saf.pending ≠ 0 ∨ s.saf.latch = true;
    (¬reason ∨ s.sys.powered = false → exec .safetyBlockDecision s = .next s) ∧
    (reason → s.sys.powered = true → ∃ t, exec .safetyBlockDecision s = .next t ∧
      t = { s with saf := { s.saf with commaAt := t.saf.commaAt, outs := t.saf.outs }, ports := t.ports, freeCtr := t.freeCtr } ∧
      commaSent s t ∧
      ∀ q, q < 4 → (outState t q).test = none ∧ (outState t q).fault = (outState s q).fault ∧
        (isPermit s q = false → (outState t q).on = false ∧ (outState t q).swH = false ∧ (outState t q).swL = false) ∧
        (isPermit s q = true → let on := (outState s q).on
          outState t q = { outState s q with test := none, swH := on, swL := on, rbH := on, rbL := on })) ∧
    (s.saf.latch = true → s.saf.commaAt.isSome = true →
      ∃ t, exec .blockCommaRepeat s = .next t ∧ commaSent s t ∧
        t = { s with saf := { s.saf with commaAt := t.saf.commaAt }, ports := t.ports, freeCtr := t.freeCtr }) ∧
    (s.saf.latch = false ∨ s.saf.commaAt = none → exec .blockCommaRepeat s = .next s) ∧
    (inRun s = true → s.saf.block.sf3En = true → s.saf.selfTest = .passed →
      exec .sf3WatchdogExpiry s = .next { s with saf := { s.saf with demand3 := true, pending := s.saf.pending ||| 0x002 } }) ∧
    (inRun s = false ∨ s.saf.block.sf3En = false ∨ s.saf.selfTest ≠ .passed → exec .sf3WatchdogExpiry s = .next s)

/-- Test pulses and discrepancy: which pairs get a fault, and that a new fault is cause 6 with every output off.
(17_safety_functions.md: R419, R420, R426) -/
def Obligations.SafetyInputsShowTheirFaults : Prop :=
  ∀ (s : State) (tp : Fin 2) (missed other : BitVec 8) (n : Fin 8),
    let par := pairPar s n.val
    let p := pairState s n.val
    let within := fun (t : State) =>
      t = { s with saf := { s.saf with pairs := t.saf.pairs, outs := t.saf.outs, pending := t.saf.pending } };
    (s.saf.selfTest ≠ .passed →
      exec (.testPulse tp missed other) s = .next s ∧ exec (.safetyDiscrepancyTimeout n) s = .next s) ∧
    (s.saf.selfTest = .passed → ∃ t, exec (.testPulse tp missed other) s = .next t ∧ within t ∧
      (let p' := pairState t n.val
        let equi := par.type == .equivalent
        let own := if tp.val = 0 then p.chA else p.chB && equi
        let across := if tp.val = 0 then p.chB && equi else p.chA
        let m := missed.getLsbD n.val
        let f := other.getLsbD n.val
        let count := if tp.val = 0 then p.missA else p.missB
        let count' := if own && m then count + 1 else 0;
        (par.func = .none → p' = p) ∧
        (par.func ≠ .none → p'.missA = (if tp.val = 0 then count' else p.missA) ∧
          p'.missB = (if tp.val = 0 then p.missB else count') ∧
          (p'.cross = true ↔ (own = true ∧ 2 ≤ count') ∨ (across = true ∧ f = true) ∨
            (p.cross = true ∧ (m = true ∨ f = true ∨ own = false))) ∧
          p'.disc = p.disc ∧ p'.healthy = p.healthy ∧ p'.chA = p.chA ∧ p'.chB = p.chB)) ∧
      (pairFault s = false → pairFault t = true → t.saf.pending = s.saf.pending ||| 0x020 ∧ allOff t) ∧
      (pairFault s = true ∨ pairFault t = false → t.saf.pending = s.saf.pending ∧ t.saf.outs = s.saf.outs)) ∧
    (par.func = .none ∨ channelsAgree par.type p.chA p.chB = true → exec (.safetyDiscrepancyTimeout n) s = .next s) ∧
    (s.saf.selfTest = .passed → par.func ≠ .none → channelsAgree par.type p.chA p.chB = false →
      ∃ t, exec (.safetyDiscrepancyTimeout n) s = .next t ∧ within t ∧ pairState t n.val = { p with disc := true } ∧
        (∀ i, i < 8 → i ≠ n.val → pairState t i = pairState s i) ∧ t.saf.pending = s.saf.pending ||| 0x020 ∧ allOff t)

/-- Switch tests, output faults and the permit delay. (17_safety_functions.md: R422, R423, R424, R426) -/
def Obligations.SafetyOutputsAreTestedAndFail : Prop :=
  ∀ (s : State) (q : Fin 4) (high pass : Bool),
    let o := outState s q.val
    let others := fun (t : State) => ∀ i, i < 4 → i ≠ q.val → outState t i = outState s i
    let fails := fun (t : State) => t.saf.pending = s.saf.pending ||| 0x040 ∧ (outState t q.val).fault = true ∧
      (outState t q.val).test = none ∧ allOff t;
    (o.test.isSome = true ∨ s.saf.selfTest ≠ .passed → exec (.outputSwitchTest q high) s = .next s ∧
      exec (.outputReadbackMismatch q) s = .next s) ∧
    (s.saf.selfTest ≠ .passed → exec (.outputOvercurrent q) s = .next s) ∧
    (o.test = none → s.saf.selfTest = .passed →
      (∃ t, exec (.outputSwitchTest q high) s = .next t ∧ t = { s with saf := { s.saf with outs := t.saf.outs } } ∧ others t ∧
        outState t q.val = (if high = true then { o with test := some true, swH := !o.on, rbH := !o.on }
          else { o with test := some false, swL := !o.on, rbL := !o.on })) ∧
      (∃ t, exec (.outputReadbackMismatch q) s = .next t ∧ t = { s with saf := t.saf } ∧ fails t)) ∧
    (s.saf.selfTest = .passed → ∃ t, exec (.outputOvercurrent q) s = .next t ∧ t = { s with saf := t.saf } ∧ fails t) ∧
    (o.test ≠ some high → exec (.outputSwitchTestEnd q high pass) s = .next s) ∧
    (o.test = some high →
      (∃ t, exec (.outputSwitchTestEnd q high true) s = .next t ∧
        t = { s with saf := { s.saf with outs := t.saf.outs }, regs := t.regs } ∧ regsBut [Reg.SAF_TEST_CNT] s t ∧
        (regGet t Reg.SAF_TEST_CNT).toNat = min 0xFFFFFFFF ((regGet s Reg.SAF_TEST_CNT).toNat + 1) ∧
        (outState t q.val).test = none ∧ (outState t q.val).fault = false) ∧
      (∃ t, exec (.outputSwitchTestEnd q high false) s = .next t ∧ t = { s with saf := t.saf, regs := t.regs } ∧
        regsBut [Reg.SAF_TESTFAIL_CNT] s t ∧
        (regGet t Reg.SAF_TESTFAIL_CNT).toNat = min 0xFFFFFFFF ((regGet s Reg.SAF_TESTFAIL_CNT).toNat + 1) ∧ fails t)) ∧
    (let may := isPermit s q.val && proofsHold s && permitDue s o && !detectedFault s && s.saf.selfTest == .passed &&
        !o.fault;
      (may = true → ∃ t, exec (.permitDelayExpiry q) s = .next t ∧ t = { s with saf := { s.saf with outs := t.saf.outs } } ∧
        others t ∧ outState t q.val = { o with on := true, swH := true, swL := true, rbH := true, rbL := true }) ∧
      (may = false → exec (.permitDelayExpiry q) s = .next s))

/-- LOCKOUT_RELEASE arms only with no cause present, and only the key edge in its window releases the latch.
(17_safety_functions.md: R428, R430, 19_modes_and_start_up.md: R451, 20_management_and_address_map.md: R457) -/
def Obligations.LockoutReleaseNeedsBothActs : Prop :=
  ∀ (s : State) (r : Req) (x : Session) (ms : Nat),
    (admitted r ⟨0x0050, .safetyEngineer, true, false, [.lockout]⟩ x s →
      (s.saf.latch = false → ∃ t, exec (.lockoutRelease r) s = .next t ∧ answers t r .illegalInMode [] ∧ t.saf = s.saf) ∧
      (s.saf.latch = true → causePresent s = true →
        ∃ t, exec (.lockoutRelease r) s = .next t ∧ answers t r .checkFail [] ∧ t.saf = s.saf) ∧
      (s.saf.latch = true → causePresent s = false → ∃ t, exec (.lockoutRelease r) s = .next t ∧ answers t r .ok [] ∧
        t = { s with sys := t.sys, saf := { s.saf with relArmed := true, relAt := s.saf.osc } } ∧ t.sys.mode = s.sys.mode)) ∧
    exec .releaseWindowExpiry s = .next { s with saf := { s.saf with relArmed := false } } ∧
    exec .lockoutResetLongPress s =
      .next { s with saf := { s.saf with key := true, keyStuck := true, relArmed := false } } ∧
    exec .keyStuckClear s = .next { s with saf := { s.saf with key := false, keyStuck := false } } ∧
    (let both := s.saf.latch = true ∧ s.saf.relArmed = true ∧ s.saf.keyStuck = false ∧ 500 ≤ ms ∧ ms ≤ 5000 ∧
        s.saf.relAt + msTicks ms ≤ s.saf.osc ∧ s.saf.pending = 0;
      (¬both → exec (.lockoutResetFallingEdge ms) s = .next { s with saf := { s.saf with key := false } }) ∧
      (both → ∃ t, exec (.lockoutResetFallingEdge ms) s = .next t ∧ t.saf.latch = false ∧ t.saf.all = 0 ∧
        t.saf.first = 0 ∧ t.saf.relArmed = false ∧ t.saf.key = false ∧ t.saf.commaAt = none ∧
        (regGet t Reg.SAF_REL_CNT).toNat = min 0xFFFFFFFF ((regGet s Reg.SAF_REL_CNT).toNat + 1) ∧
        t.sys.mode = (if s.sys.mode = .lockout then .commission else s.sys.mode)))

/-- SAFE_PB_LOAD is refused by its first failing check or writes its log entry and takes effect whole; SAFE_LOG_ACK
empties only on a match. (17_safety_functions.md: R431, R432, R433, 16_fault_collection.md: R403,
20_management_and_address_map.md: R487) -/
def Obligations.SafetyBlockLoadIsCheckedAndLogged : Prop :=
  ∀ (s : State) (r : Req) (x : Session) (pwOk : Bool) (sig : ImageSig) (b : SafetyBlock) (image : List Byte) (seq crc : Word),
    (admitted r ⟨0x0051, .viewer, false, false, allModes⟩ x s →
      let checks := [(x.role == .safetyEngineer && r.port == .ethM, Status.notPermitted), (pwOk && keyEnrolled s .safety sig, .authFail),
        (s.sys.mode == .commission || s.sys.mode == .lockout, .illegalInMode), (safetyBlockOk b, .badParam),
        (decide (s.saf.log.length < 512), .logFull)]
      (∀ st, firstFail checks = some st → ∃ t, exec (.safePbLoad r pwOk sig b image) s = .next t ∧ answers t r st [] ∧
        (regGet t Reg.FCO_STATUS_1).getLsbD 20 = true ∧
        t.saf = { s.saf with pbStatus := st, pending := t.saf.pending }) ∧
      (firstFail checks = none → ∃ t, exec (.safePbLoad r pwOk sig b image) s = .next t ∧ answers t r .ok [] ∧
        t = { s with sys := t.sys, saf := t.saf, regs := t.regs } ∧ t.saf.block = b ∧ t.saf.blockCrc = crc32 image ∧
        t.saf.pbStatus = .ok ∧ t.saf.latch = s.saf.latch ∧ t.saf.logSeq = s.saf.logSeq + 1 ∧
        t.saf.log = s.saf.log ++ [⟨nowSplit s, b.id, s.saf.blockCrc, crc32 image, s.saf.logSeq⟩])) ∧
    (s.sys.powered = true → authentic r s = false → ∃ t, exec (.safePbLoad r pwOk sig b image) s = .next t ∧
      t.sys.answer = some ⟨r.session, r.seq, .authFail, [], true⟩ ∧ (regGet t Reg.FCO_STATUS_1).getLsbD 20 = true ∧
      t.saf = { s.saf with pbStatus := .authFail, pending := t.saf.pending }) ∧
    (admitted r ⟨0x0052, .safetyEngineer, true, false, notBoot⟩ x s →
      let hit := seq = BitVec.ofNat 32 (s.saf.logSeq - 1) ∧ crc = crc32 (safetyLogBytes s);
      (hit → ∃ t, exec (.safeLogAck r seq crc) s = .next t ∧ answers t r .ok [] ∧
        t = { s with sys := t.sys, saf := { s.saf with log := [] } } ∧
        t.sys.archive = (if s.saf.log = [] then s.sys.archive
          else archiveKept (32 * s.saf.log.length) s.sys.archive ++ [.safetyLog s.saf.log])) ∧
      (¬hit → ∃ t, exec (.safeLogAck r seq crc) s = .next t ∧ answers t r .checkFail [] ∧ t.saf = s.saf))

/-! ### Field inputs and outputs -/

/-- What happens on the field die stays there until a frame whose CRC holds carries it across. (18_field_io.md: R435,
R436, R437, R438, R439, R440, R441, R442, R443, R444, R446) -/
def Obligations.FieldDieAndItsFrames : Prop :=
  (∀ (s : State) (n : Fin 32) (q : Fin 16) (on : Bool),
      let f := s.fio.field
      let field := fun (g : FieldDie) => Host.Outcome.next { s with fio := { s.fio with field := g } };
      (∃ g, exec (.fieldInputChange n on) s = field g ∧ g = { f with di := g.di } ∧
        ∀ i, i < 32 → g.di.getLsbD i = if i = n.val then on else f.di.getLsbD i) ∧
      (f.wbEn.getLsbD n.val = true → f.wb.getLsbD n.val = false →
        ∃ g, exec (.fieldWireBreak n) s = field g ∧
          g = { f with wb := g.wb, wbSeen := g.wbSeen, wiring := f.wiring ++ [n.val] } ∧
          ∀ i, i < 32 → g.wb.getLsbD i = (f.wb.getLsbD i || i == n.val) ∧ g.wbSeen.getLsbD i = (f.wbSeen.getLsbD i || i == n.val)) ∧
      (f.wbEn.getLsbD n.val = false ∨ f.wb.getLsbD n.val = true →
        exec (.fieldWireBreak n) s = .next s) ∧
      (∃ g, exec (.fieldWireBreakClear n) s = field g ∧ g = { f with wb := g.wb } ∧
        ∀ i, i < 32 → g.wb.getLsbD i = (f.wb.getLsbD i && i != n.val)) ∧
      (∃ g, exec (.fieldOutputOvercurrent q) s = field g ∧
        g = { f with ocSeen := g.ocSeen, ocEvents := f.ocEvents + 1, wiring := f.wiring ++ [q.val] } ∧
        ∀ i, i < 16 → g.ocSeen.getLsbD i = (f.ocSeen.getLsbD i || i == q.val)) ∧
      (f.cmd.getLsbD q.val = true → exec (.fieldOutputExtVoltage q) s = .next s) ∧
      (f.cmd.getLsbD q.val = false → ∃ g, exec (.fieldOutputExtVoltage q) s = field g ∧
        g = { f with extvSeen := g.extvSeen, wiring := f.wiring ++ [q.val] } ∧
        ∀ i, i < 16 → g.extvSeen.getLsbD i = (f.extvSeen.getLsbD i || i == q.val)) ∧
      exec .fieldSupplyWarn s = field { f with warn := true } ∧
      exec .fieldSupplyWarnClear s = field { f with warn := false } ∧
      (f.supOff = true → f.supOk = false → exec .fieldSupplyOff s = .next s) ∧
      (f.supOff = false ∨ f.supOk = true →
        exec .fieldSupplyOff s = field { f with supOff := true, supOk := false, supLatches := f.supLatches + 1 }) ∧
      (f.supOff = true → exec .fieldSupplyOk s = field { f with supOk := true }) ∧
      (f.supOff = false → exec .fieldSupplyOk s = .next s) ∧
      (f.up = true → ∃ g, exec .fieldLinkSilenceField s = field g ∧
        g = { f with up := false, linkSafe := true, silences := f.silences + 1 } ∧
        (f.configured = true → f.supOff = false → ∀ i, i < 16 → g.outs.getLsbD i = f.safeState i)) ∧
      (f.up = false → exec .fieldLinkSilenceField s = .next s)) ∧
  (∀ (s : State) (body : List Byte) (crc : Half) (fv term oc extv : Half) (o : Origin) (val : Word),
      let f := s.fio.field;
      (s.sys.mode = .boot → exec (.fieldFrameToField body crc) s = .next s ∧
        exec (.fieldFrameToLogic body crc fv term oc extv) s = .next s ∧ exec .fieldLinkSilenceLogic s = .next s) ∧
      (s.sys.mode ≠ .boot →
        (crc16 body ≠ crc → exec (.fieldFrameToField body crc) s =
          .next { s with fio := { s.fio with field := { f with frameErrs := f.frameErrs + 1 } } }) ∧
        (crc16 body = crc → ∃ t, exec (.fieldFrameToField body crc) s = .next t ∧
          t = { s with fio := { s.fio with field := t.fio.field, supRearm := false, linkRearm := false } } ∧
          t.fio.field = { f with
            up := true, configured := true, cmd := dqCommand s, safe := regGet s Reg.FIO_DQ_SAFE,
            par := regGet s Reg.FIO_DQ_PAR, wbEn := regGet s Reg.FIO_DI_WB, wb := f.wb &&& regGet s Reg.FIO_DI_WB, supOff := f.supOff && !(s.fio.supRearm && f.supOk),
            linkSafe := f.linkSafe && !s.fio.linkRearm }) ∧
        (armed s 6 0 = false → crc16 body ≠ crc → ∃ t, exec (.fieldFrameToLogic body crc fv term oc extv) s = .next t ∧
          (raisedSrc s 49 = false → occurred 49 0 0x37 s t) ∧
          (raisedSrc s 49 = true → onlyRegs [Reg.FIO_CRC_CNT] s t) ∧ (regGet t Reg.FIO_CRC_CNT).toNat = min 0xFFFFFFFF ((regGet s Reg.FIO_CRC_CNT).toNat + 1) ∧
          regGet t Reg.FIO_DI = regGet s Reg.FIO_DI) ∧
        (armed s 6 0 = false → crc16 body = crc → ∃ t, exec (.fieldFrameToLogic body crc fv term oc extv) s = .next t ∧
          regGet t Reg.FIO_DI = f.di ∧
          regGet t Reg.FIO_DI_VALID = (if f.supOff = true ∧ f.supOk = false then 0 else 0xFFFFFFFF) ∧
          (regGet t Reg.FIO_STATUS).toNat = fv.toNat * 65536 + boolNat f.supOk * 16 + boolNat f.supOff * 8 +
            boolNat f.warn * 4 + boolNat f.linkSafe * 2 + 1 ∧
          regGet t Reg.FIO_WB = regGet s Reg.FIO_WB ||| f.wbSeen ∧
          t.fio.wb = f.wb ∧ t.fio.term = term ∧ t.fio.oc = oc ∧ t.fio.extv = extv ∧ t.fio.field.di = f.di ∧
          Store.get (fun _ => false) t.fco.raised (Fco.key 49 1) = false ∧ t.cores = s.cores ∧ t.hidden = s.hidden) ∧
        (Store.get (fun _ => false) s.fco.raised (Fco.key 49 1) = true → exec .fieldLinkSilenceLogic s = .next s) ∧
        (Store.get (fun _ => false) s.fco.raised (Fco.key 49 1) = false →
          ∃ t, exec .fieldLinkSilenceLogic s = .next t ∧ regGet t Reg.FIO_DI_VALID = 0 ∧
            regGet t Reg.FIO_DI = regGet s Reg.FIO_DI ∧ fget t Fld.FIO_STATUS_LINK_OK = 0 ∧ t.fio = s.fio ∧
            Store.get (fun _ => false) t.fco.raised (Fco.key 49 1) = true ∧ onlyFault s t)) ∧
      (∀ p ∈ [(Instr.supRearm o, Reg.FIO_CTRL, (1 : Word), fbit s Fld.FIO_STATUS_SUP_OK),
          (Instr.linkRearm o, Reg.FIO_CTRL, 2, fbit s Fld.FIO_STATUS_LINK_OK), (Instr.fioDqWrite o val, Reg.FIO_DQ, val, true)],
        let shown := if p.2.1 = Reg.FIO_CTRL then [Reg.FIO_CMD_STAT] else []
        let checks := [(roleOrCore .operator o, Status.notPermitted), (s.sys.mode != .boot, .illegalInMode),
          (p.2.2.2, .checkFail)];
        (firstFail checks = none → ∃ t, exec p.1 s = .next t ∧
          staged p.2.1 p.2.2.1 o s t ∧ regsBut shown s t) ∧
        (∀ st, firstFail checks = some st → ∃ t, exec p.1 s = .next t ∧ refusedWrite shown st s t ∧
          (p.2.1 = Reg.FIO_CTRL → fget t Fld.FIO_CMD_STAT_STATUS = st.code))))

/-! ### The cycle -/

/-- Nothing waits for a cycle boundary: no write, block, image, acceptance, request, role, answer or late report. -/
def nothingWaits (s : State) : Prop :=
  s.staged = [] ∧ (∀ b, Store.get (fun _ => none) s.sys.upb b = none) ∧ s.sys.accepts = [] ∧ s.sys.due = [] ∧
    (∀ e, (loop s e).modeCmd = none ∧ (loop s e).block = none) ∧ s.sys.activateProgram = none ∧
    s.sys.activateCommission = none ∧ s.sys.waiting = none ∧ s.btn.commit = none ∧ s.sys.role ≠ .standby ∧
    ∀ i, (cell s i).late = none

/-- Each cycle core is at the entry vector of its image with cleared registers, or has ended its cycle for want of one
(R212, R243). -/
def coresEntered (t : State) : Prop :=
  ∀ c, c < 4 → (core t c).run = (if (coreImage t c).entry = none then .ended else .running) ∧
    (core t c).pc = BitVec.ofNat 32 ((coreImage t c).entry.getD 0) ∧ (∀ i, (core t c).getS i = 0) ∧ (core t c).fpsr = 0

/-- The escapement starts in COMMISSION, releases cycle after cycle, and stops in LOCKOUT. (02_the_cycle.md: R31,
R32, R38, R35, 08_feano_instruction_set.md: R212) -/
def Obligations.CyclesStartReleaseAndStop : Prop :=
  ∀ (s : State) (withheld : BitVec 128),
    (escRunning s = true ∨ s.sys.mode ≠ .commission → exec .escapementStart s = .next s) ∧
    (escRunning s = false → s.sys.mode = .commission → ∃ t, exec .escapementStart s = .next t ∧ t.esc.j = 0 ∧
      t.esc.sec = startSecond s ∧ t.esc.tk = max (tickOf s (startSecond s)) (s.sys.modeAt + 500000) ∧
      t.esc.refDone = false ∧ t.esc.cutDone = false ∧ t.time.cnt = max s.time.cnt t.esc.tk ∧ t.time.epoch = s.time.epoch ∧
      (nothingWaits s → escRunning t = true ∧ t.sys.mode = .commission ∧ coresEntered t ∧
        regGet t Reg.ESC_CYCLE = BitVec.ofNat 32 (t.esc.sec * cyclesPerSecond s))) ∧
    (escRunning s = false → exec (.cycleRelease withheld) s = .next s) ∧
    (escRunning s = true → ∃ t, exec (.cycleRelease withheld) s = .next t ∧ t.esc.tk = s.esc.tk + s.esc.wlen ∧
      t.esc.refDone = false ∧ t.esc.cutDone = false ∧ t.time.cnt = max s.time.cnt t.esc.tk ∧
      (∀ i, (cell t i).here = false ∧ (cell t i).late = none) ∧
      (s.esc.realign = none ∨ inRun s = true → (t.esc.sec, t.esc.j) =
        if s.esc.j + 1 < cyclesPerSecond s then (s.esc.sec, s.esc.j + 1) else (s.esc.sec + 1, 0)) ∧
      (nothingWaits s → regGet t Reg.ESC_CYCLE = BitVec.ofNat 32 (t.esc.sec * cyclesPerSecond s + t.esc.j) ∧
        t.sys.mode = s.sys.mode ∧ coresEntered t ∧
        (t.esc.j ≠ 0 → s.esc.phase = 0 → s.esc.realign = none → t.esc.wlen = periodTicks s))) ∧
    (escRunning s = false ∨ s.sys.mode ≠ .lockout → exec .escapementStop s = .next s) ∧
    (escRunning s = true → s.sys.mode = .lockout → ∃ t, exec .escapementStop s = .next t ∧ escRunning t = false ∧
      fget t Fld.ESC_STATUS_ALIGNED = 0 ∧ fget t Fld.ESC_STATUS_LOCAL = 0 ∧ t.sys = s.sys ∧ t.mem = s.mem ∧
      t.cells = s.cells ∧ t.wheels = s.wheels ∧ t.ports = s.ports ∧
      ∀ c, c < 4 → core t c = { core s c with run := .idle })

/-- Measurement publication, reference point, cutoff and cell table publication. (00_scope.md: R17, 02_the_cycle.md:
R38, R41, R53, R55, R56, R58, 18_field_io.md: R447) -/
def Obligations.InstantsOfTheCycleDoTheirWork : Prop :=
  ∀ s : State,
    let scm := Config.scmBase
    (escRunning s = false → exec .measurementTablePublication s = .next s) ∧
    (escRunning s = true → ∃ t, exec .measurementTablePublication s = .next t ∧
      t.time.cnt = max s.time.cnt (s.esc.tk + 125) ∧ memReadWord t (scm + 0x20E00) = cycleNo s ∧
      memReadWord t (scm + 0x20E04) = regGet s Reg.FIO_DI ∧ memReadWord t (scm + 0x20E08) = regGet s Reg.FIO_DI_VALID ∧
      memReadWord t (scm + 0x20E20) = cycleNo s ∧ t.sys = s.sys ∧ t.cores = s.cores ∧ t.cells = s.cells ∧
      t.wheels = s.wheels) ∧
    (escRunning s = false ∨ s.esc.refDone = true ∨ s.esc.cutDone = true → exec .referencePoint s = .next s) ∧
    (escRunning s = true → s.esc.refDone = false → s.esc.cutDone = false → ∃ t, exec .referencePoint s = .next t ∧
      t.esc = { s.esc with refDone := true } ∧ t.time.cnt = max s.time.cnt (s.esc.tk + fget s Fld.ESC_REFPT_REFPT) ∧
      t.sys = s.sys ∧
      ∀ w, w < 12 → (wheel t w).spec = none ∧ (wheel t w).conf = false ∧ (wheel t w).checks = none ∧
        (wheel t w).final = none ∧ (wheel t w).fall = none ∧
        (wheelOn s w = true → fbit s (Fld.WHL_STATUS_NO_REF w) = false →
          engQueue s (engKey 1 w 0) = [] → (wheel t w).staleRun = (wheel s w).staleRun + 1 ∧
            (wheel t w).ref = (wheel s w).ref ∧ fbit t (Fld.WHL_STATUS_STALE_REF w) = true ∧
            (wheel t w).block = (!inRun s || s.esc.short || (wheel s w).ref.blockArm))) ∧
    (escRunning s = false ∨ s.esc.cutDone = true → exec .cutoff s = .next s) ∧
    (escRunning s = true → s.esc.cutDone = false → ∃ t, exec .cutoff s = .next t ∧
      t.esc = { s.esc with cutDone := true, pubDue := some (cycleNo s) } ∧
      t.time.cnt = max s.time.cnt (s.esc.tk + s.esc.wlen - Config.cutTicks) ∧
      (∀ c, c < 4 → (core t c).run = (if (core s c).run = .ended then .ended else .stopped)) ∧
      (∀ c, 4 ≤ c → core t c = core s c) ∧
      (coreUnended s = true → fbit t Fld.ESC_STATUS_CUT = true ∧
        fget t Fld.ESC_STATUS_CUT_RUN = min 255 (fget s Fld.ESC_STATUS_CUT_RUN + 1) ∧
        (regGet t Reg.FCO_STATUS_0).getLsbD 12 = true ∧
        (regGet t Reg.ESC_CUT_CNT).toNat = min 0xFFFFFFFF ((regGet s Reg.ESC_CUT_CNT).toNat + 1)) ∧
      (coreUnended s = false → fbit t Fld.ESC_STATUS_CUT = false ∧ fget t Fld.ESC_STATUS_CUT_RUN = 0 ∧
        regGet t Reg.ESC_CUT_CNT = regGet s Reg.ESC_CUT_CNT) ∧
      ∀ w, w < 12 → wheelOn s w = true → (wheel t w).spec = none ∧ (wheel t w).final = none ∧ (wheel t w).conf = false) ∧
    (fget s Fld.ESC_STATUS_CUT_RUN < 3 ∨ Store.get (fun _ => false) s.fco.raised (Fco.key 13 0) = true →
      exec .cutRun s = .next s) ∧
    (3 ≤ fget s Fld.ESC_STATUS_CUT_RUN → Store.get (fun _ => false) s.fco.raised (Fco.key 13 0) = false →
      ∃ t, exec .cutRun s = .next t ∧ Store.get (fun _ => false) t.fco.raised (Fco.key 13 0) = true ∧ onlyFault s t) ∧
    (s.esc.pubDue = none → exec .cellTablePublication s = .next s) ∧
    (∀ k, s.esc.pubDue = some k → ∃ t, exec .cellTablePublication s = .next t ∧
      t.esc = { s.esc with pubDue := none } ∧ t.cores = s.cores ∧ t.wheels = s.wheels ∧ t.cells = s.cells ∧
      (∀ a, (scm ≤ a ∧ a < scm + 0x20000) ∨ (scm + 0x21000 ≤ a ∧ a < scm + 0x21180) ∨
        (scm + 0x21200 ≤ a ∧ a < scm + 0x21400) → memRead t a = Memory.read s.hidden a) ∧
      (∀ i, i < 512 → memReadWord t (scm + 0x24000 + 32 * i) = k) ∧
      (∀ a, scm + 0x24000 ≤ a → a < scm + 0x28000 → 4 ≤ (a - scm) % 32 →
        memRead t a = Memory.read (if s.esc.cutDone then s.hidden else s.userOut) a))

/-- Timing values are staged, checked as a whole, and take effect at a second boundary only when every condition
held. (02_the_cycle.md: R43, R46, R48, R49, 05_balance_wheels.md: R132, 20_management_and_address_map.md: R457) -/
def Obligations.TheBudgetCheckDecidesByItsConditions : Prop :=
  ∀ (s : State) (o : Origin) (a val : Word),
    let commission : List (Bool × Status) :=
      [(roleOrCore .operator o, .notPermitted), (s.sys.mode == .commission, .illegalInMode)]
    let g := s.esc.staged
    (isTiming a.toNat = false → exec (.escTimingRegisterWrite o a val) s = .next s) ∧
    (∀ p ∈ [(Reg.ESC_PERIOD, { g with period := some (fieldGet val 14 0) }),
        (Reg.ESC_LEAD, { g with lead := some (fieldGet val 11 0) }),
        (Reg.ESC_REFPT, { g with refpt := some (fieldGet val 14 0) }),
        (Reg.ESC_REPAIR, { g with repair := some (fieldGet val 11 0) })], a.toNat = p.1 →
      let checks := commission ++ [(timingLegal s a.toNat (timingValue a.toNat val), Status.badParam)];
      (firstFail checks = none → exec (.escTimingRegisterWrite o a val) s =
        .next { s with esc := { s.esc with staged := p.2, checkOk := false, checkVoid := true } }) ∧
      (∀ st, firstFail checks = some st →
        ∃ t, exec (.escTimingRegisterWrite o a val) s = .next t ∧ refusedWrite [] st s t)) ∧
    (firstFail commission = none → ∃ t, exec (.escCheckGo o) s = .next t ∧
      t = { s with regs := t.regs, esc := { s.esc with checking := some (termsNow s), checkVoid := false } } ∧
      regsBut [Reg.ESC_STATUS, Reg.ESC_BUDGET_STAT] s t ∧ fbit t Fld.ESC_STATUS_CHECKING = true ∧
      fget t Fld.ESC_BUDGET_STAT_STATUS = Status.busy.code) ∧
    (∀ st, firstFail commission = some st → ∃ t, exec (.escCheckGo o) s = .next t ∧ refusedWrite [] st s t) ∧
    (s.esc.checking = none → exec .budgetCheckDone s = .next s) ∧
    (∀ tm, s.esc.checking = some tm →
      let fail := budgetFirstFail s tm
      let ok := fail = 0 ∧ (∀ w, w < 12 → mapReason s w = 0) ∧ s.sys.mode = .commission;
      ∃ t, exec .budgetCheckDone s = .next t ∧ t.esc.checking = none ∧ fbit t Fld.ESC_STATUS_CHECKING = false ∧
        fget t Fld.ESC_BUDGET_STAT_FIRST_FAIL = fail ∧
        fget t Fld.ESC_BUDGET_STAT_STATUS = (if fail = 0 then Status.ok.code else Status.tooLong.code) ∧
        regGet t Reg.ESC_BUDGET_SLACK = BitVec.ofInt 32 ((budgetSlack s tm).fdiv 20) ∧
        fget t Fld.ESC_BUDGET_NCELL_NMAX = cellMax tm.period % 65536 ∧
        (ok → t.esc.accepted = some tm ∧ t.esc.usedLaps = tm.laps ∧ t.esc.checkOk = !(s.esc.checkVoid || lapsVoid tm.laps s)) ∧
        (¬ok → t.esc.accepted = s.esc.accepted ∧ t.esc.checkOk = false ∧ t.ports = s.ports ∧ t.mem = s.mem) ∧
        t.esc.checkVoid = false ∧ t.sys = s.sys ∧ t.time = s.time ∧ t.cores = s.cores ∧ t.wheels = s.wheels) ∧
    (s.esc.accepted = none ∨ s.sys.mode ≠ .commission ∨ (escRunning s = true ∧ (nextIndex s).2.1 ≠ 0) →
      exec .timingParamsTakeEffect s = .next s) ∧
    (∀ tm, s.esc.accepted = some tm → s.sys.mode = .commission → (escRunning s = false ∨ (nextIndex s).2.1 = 0) →
      ∃ t, exec .timingParamsTakeEffect s = .next t ∧ fget t Fld.ESC_PERIOD_PERIOD = tm.period % 2 ^ 15 ∧
        fget t Fld.ESC_APPLY_APPLY = tm.apply % 2 ^ 15 ∧ fget t Fld.ESC_LEAD_LEAD = tm.lead % 2 ^ 12 ∧
        fget t Fld.ESC_REFPT_REFPT = tm.refpt % 2 ^ 15 ∧ fget t Fld.ESC_REPAIR_REPAIR = tm.repair % 2 ^ 12 ∧
        t.esc.accepted = none ∧ t.sys = s.sys ∧ t.mem = s.mem ∧
        (tm.period = periodTicks s → inPair s = false → t = { s with regs := t.regs, esc := t.esc } ∧
          regsBut [Reg.ESC_PERIOD, Reg.ESC_APPLY, Reg.ESC_LEAD, Reg.ESC_REFPT, Reg.ESC_REPAIR] s t))

/-! ### Wheels -/

/-- Nothing but wheel `w` changed, and it is now `x`. -/
def onlyWheel (w : Nat) (x : Wheel) (s t : State) : Prop :=
  t = { s with wheels := t.wheels } ∧ wheel t w = x ∧ ∀ v, v ≠ w → wheel t v = wheel s v

/-- Each planning command completes its stage of its wheel, once, and changes nothing else.
(06_speculative_planning.md: R159, R160, R164, R168, R169, R170, R171, R173) -/
def Obligations.PlanningGoesThroughItsStages : Prop :=
  ∀ (s : State) (w : Fin 12) (r : Fin 3),
    let x := wheel s w
    let ended := fun (n : Nat) => s.esc.tk + x.confAt + 40 + n;
    (s.esc.refDone = false ∨ s.esc.cutDone = true → exec (.speculativeRoundStart r) s = .next s) ∧
    (s.esc.refDone = true → s.esc.cutDone = false → ∃ t, exec (.speculativeRoundStart r) s = .next t ∧
      t = { reach (s.esc.tk + fget s Fld.ESC_REFPT_REFPT + 450 * r.val) s with wheels := t.wheels } ∧
      ∀ v, wheel t v = { wheel s v with sorting := (wheel s v).sorting ||
        (decide (v < 12) && wheelOn s v && fget s (Fld.WHL_ROTA_ROUND v) == r.val && fbit s (Fld.WHL_ROTA_USED v) &&
          !(wheel s v).block && (wheel s v).spec.isNone) }) ∧
    (x.sorting = false → exec (.speculativePlanReady w) s = .next s) ∧
    (x.sorting = true →
      let u := reach (s.esc.tk + fget s Fld.ESC_REFPT_REFPT + 450 * (fget s (Fld.WHL_ROTA_ROUND w) + 1)) s
      ∃ t, exec (.speculativePlanReady w) s = .next t ∧
        onlyWheel w { x with
          sorting := false, specAt := sinceTk u,
          spec := some (planSelect (planIn s w (specCells s w) (specDesc s w) none)) } u t) ∧
    (let start := s.esc.refDone && !s.esc.cutDone && wheelOn s w && !x.conf && (x.spec.isSome || x.block) && !holdsFabric s w;
      (start = true → let u := reach (confInstant s w) s
        ∃ t, exec (.confirmationStart w) s = .next t ∧
          onlyWheel w { x with conf := true, confAt := u.time.cnt - s.esc.tk } u t) ∧
      (start = false → exec (.confirmationStart w) s = .next s)) ∧
    (x.conf = false ∨ x.checks.isSome = true ∨ s.esc.cutDone = true → exec (.confirmationEnd w) s = .next s) ∧
    (x.conf = true → x.checks = none → s.esc.cutDone = false → ∃ t, exec (.confirmationEnd w) s = .next t ∧
      onlyWheel w (match x.spec with
        | none => { x with checks := some 0 }
        | some q => { x with
            dm := measDesc s w q.desc, checks := some (failedChecks s w q (measDesc s w q.desc)) })
        (reach (ended 0) s) t) ∧
    (∀ q, x.checks = some 0 → x.spec = some q → x.final = none → s.esc.cutDone = false →
      ∃ t, exec (.commitPlanReady w) s = .next t ∧ onlyWheel w { x with
        final := some (planCommit (planIn s w (measCells s w) q.desc none) q),
        finalAt := sinceTk (reach (ended 20) s) } (reach (ended 20) s) t) ∧
    (x.checks ≠ some 0 ∨ x.spec = none ∨ x.final.isSome = true ∨ s.esc.cutDone = true →
      exec (.commitPlanReady w) s = .next s) ∧
    (∀ q n, x.checks = some (n + 1) → x.spec = some q → x.final = none → x.gaveUp = false → s.esc.cutDone = false →
      ∃ t, exec (.repairDone w) s = .next t ∧
        t = { reach (ended (10 * (wheel t w).moves + if (wheel t w).gaveUp then 0 else 20)) s with wheels := t.wheels } ∧
        (∀ v, v ≠ w.val → wheel t v = wheel s v) ∧ (wheel t w).moves ≤ 32 ∧
        ((wheel t w).gaveUp = true ↔ (wheel t w).final = none) ∧ (wheel t w).spec = x.spec ∧ (wheel t w).checks = x.checks) ∧
    (x.checks = none ∨ x.checks = some 0 ∨ x.spec = none ∨ x.final.isSome = true ∨ x.gaveUp = true ∨
      s.esc.cutDone = true → exec (.repairDone w) s = .next s) ∧
    (x.checks.isSome = true → x.fall = none → s.esc.cutDone = false → ∃ t, exec (.fallbackPlanReady w) s = .next t ∧
      onlyWheel w { x with fall := some (fallbackOf w s), fallAt := sinceTk (reach (ended 80) s) } (reach (ended 80) s) t) ∧
    (x.checks = none ∨ x.fall.isSome = true ∨ s.esc.cutDone = true → exec (.fallbackPlanReady w) s = .next s)

/-- Stale references, pool thresholds, fallback runs and bypass waits raise and clear their sources by their counts.
(02_the_cycle.md: R53, 05_balance_wheels.md: R139, R141, 06_speculative_planning.md: R176) -/
def Obligations.WheelSourcesFollowTheirCounts : Prop :=
  ∀ (s : State) (w : Fin 12) (slot : Fin 4096),
    let x := wheel s w
    let up := fun (t : State) (src : Nat) => Store.get (fun _ => false) t.fco.raised (Fco.key src w.val)
    (x.staleRun ≤ fget s Fld.ESC_STALE_MAX_STALE_MAX ∨ up s 16 = true → exec (.staleRefRun w) s = .next s) ∧
    (fget s Fld.ESC_STALE_MAX_STALE_MAX < x.staleRun → up s 16 = false →
      ∃ t, exec (.staleRefRun w) s = .next t ∧ onlyFault s t ∧ up t 16 = true) ∧
    (x.fbRun < 16 ∨ up s 26 = true → exec (.whlFallbackRun w) s = .next s) ∧
    (16 ≤ x.fbRun → up s 26 = false → ∃ t, exec (.whlFallbackRun w) s = .next t ∧ onlyFault s t ∧ up t 26 = true) ∧
    (let h := fget s (Fld.WHL_THR_THR_HOLD w);
      ∃ t, exec (.poolThreshold w) s = .next t ∧ onlyFault s t ∧
        ∀ p ∈ [(Fld.WHL_STATUS_POOL_LOW w, 24, x.lowRun, x.lowOk), (Fld.WHL_STATUS_POOL_MIN w, 25, x.minRun, x.minOk)],
          (h ≤ p.2.2.1 → fbit t p.1 = true ∧ up t p.2.1 = true) ∧
          (p.2.2.1 < h → h ≤ p.2.2.2 → fbit t p.1 = false ∧ up t p.2.1 = false) ∧
          (p.2.2.1 < h → p.2.2.2 < h → fget t p.1 = fget s p.1 ∧ up t p.2.1 = up s p.2.1)) ∧
    (let n := (cell s slot.val).byp;
      (∀ k v, n = some k → 10 ≤ k → wheelOf s slot.val = some v → ∃ t, exec (.bypassConfirmTimeout slot) s = .next t ∧
        (cell t slot.val) = { cell s slot.val with byp := none, faulted := true, bypFailed := true } ∧
        (∀ i, i ≠ slot.val → cell t i = cell s i) ∧ occurred 23 slot.val (0x18 + v) s { t with cells := s.cells } ∧
        (regGet t (Reg.WHL_BYPFAIL_CNT v)).toNat = min 0xFFFFFFFF ((regGet s (Reg.WHL_BYPFAIL_CNT v)).toNat + 1)) ∧
      ((∀ k, n = some k → k < 10) ∨ wheelOf s slot.val = none → exec (.bypassConfirmTimeout slot) s = .next s))

/-- WITHDRAW, RETURN and BYPASS act on their cell alone after their checks; WHL_TRC_ENABLE restarts the trace.
(05_balance_wheels.md: R136, R137, R140, 06_speculative_planning.md: R182, 20_management_and_address_map.md: R457,
R458) -/
def Obligations.CellCommandsWithdrawReturnAndBypass : Prop :=
  ∀ (s : State) (o : Origin) (w : Fin 12) (slot : Fin 4096) (val : Word),
    let x := cell s slot.val
    let inWheel : Bool × Status := (inRange s w.val slot.val, .badParam)
    let notStandby : Bool × Status := (s.sys.role != .standby, .notHolder)
    let oper : Bool × Status := (roleOrCore .operator o, .notPermitted)
    let awake : Bool × Status := (s.sys.mode != .boot, .illegalInMode)
    let shown := fun (t : State) (st : Status) => fget t (Fld.WHL_CELL_STAT_SLOT w) = slot.val ∧
      fget t (Fld.WHL_CELL_STAT_STATUS w) = st.code;
    (∀ p ∈ [(Instr.whlWithdraw o w slot, [oper, notStandby, awake, inWheel], { x with withdrawn := true }, []),
        (Instr.whlReturn o w slot, [oper, notStandby, awake, inWheel,
          (!x.bypassed && !rptFault x.lastRpt && !rptFresh x.lastRpt && !rptBypassed x.lastRpt, .checkFail)],
          { x with withdrawn := false, faulted := false, bypFailed := false }, []),
        (Instr.whlBypass o w slot, [(roleAtLeast .engineer o, .notPermitted), notStandby, (inRun s, .illegalInMode),
          inWheel, (!x.bypassed && x.byp.isNone, .checkFail)], { x with byp := some 0, bypFailed := false }, [Reg.WHL_BYP_CNT w])],
      (firstFail p.2.1 = none → ∃ t, exec p.1 s = .next t ∧ shown t .ok ∧
        t = { s with regs := t.regs, cells := t.cells } ∧ cell t slot.val = p.2.2.1 ∧
        (∀ i, i ≠ slot.val → cell t i = cell s i) ∧ regsBut (Reg.WHL_CELL_STAT w :: p.2.2.2) s t ∧
        (p.2.2.2 ≠ [] → (regGet t (Reg.WHL_BYP_CNT w)).toNat = min 0xFFFFFFFF ((regGet s (Reg.WHL_BYP_CNT w)).toNat + 1))) ∧
      (∀ st, firstFail p.2.1 = some st → ∃ t, exec p.1 s = .next t ∧ shown t st ∧
        refusedWrite [Reg.WHL_CELL_STAT w] st s t)) ∧
    (let checks := [oper, (s.sys.mode != .boot && s.sys.mode != .lockout, Status.illegalInMode)];
      (firstFail checks = none → ∃ t, exec (.whlTrcEnable o val) s = .next t ∧
        t = { s with regs := t.regs, sch := t.sch } ∧ regsBut [Reg.WHL_TRC_CTRL, Reg.WHL_TRC_STAT, Reg.WHL_TRC_WPTR] s t ∧
        t.sch = { s.sch with whlFull := s.sch.whlFull && !(val.getLsbD 0 && !fbit s Fld.WHL_TRC_CTRL_EN) } ∧
        regGet t Reg.WHL_TRC_CTRL = val &&& 0x3FFC000F ∧
        (val.getLsbD 0 = true → fbit s Fld.WHL_TRC_CTRL_EN = false →
          regGet t Reg.WHL_TRC_STAT = 0 ∧ regGet t Reg.WHL_TRC_WPTR = 0) ∧
        (val.getLsbD 0 = false ∨ fbit s Fld.WHL_TRC_CTRL_EN = true →
          regGet t Reg.WHL_TRC_STAT = regGet s Reg.WHL_TRC_STAT ∧ regGet t Reg.WHL_TRC_WPTR = regGet s Reg.WHL_TRC_WPTR)) ∧
      (∀ st, firstFail checks = some st → ∃ t, exec (.whlTrcEnable o val) s = .next t ∧ refusedWrite [] st s t))

/-! ### Cell chains -/

/-- Nothing but port `p` changed, and it is now `x`. -/
def onlyPort (p : Nat) (x : Port) (s t : State) : Prop :=
  t = { s with ports := t.ports } ∧ port t p = x ∧ ∀ q, q ≠ p → port t q = port s q

/-- A sweep of the end of port `p` may start now: the mode allows one, the unit does not join, and neither end of the chain
is swept (R70, R383). -/
def endFree (s : State) (p : Nat) : Prop :=
  (port s p).sweep = none ∧ maySweep s = true ∧ joiningTwin s = false ∧ portChain s p ≠ none ∧ (port s p).withheld = false ∧
    ∀ q, peerPort s p = some q → (port s q).sweep = none

/-- A port that begins its sweep, and one that waits for a sweep of the other end. -/
def sweeping (x : Port) : Port := { x with sweep := some ⟨[], false, none, [], [], false⟩, broken := false, wantSweep := false }

/-- A sweep of port `p` starts: nothing changes but the port and what the twin is told. -/
def sweepStarts (p : Nat) (s t : State) : Prop :=
  t = { s with ports := t.ports, btn := { s.btn with mgmtOut := t.btn.mgmtOut } } ∧ port t p = sweeping (port s p) ∧
    ∀ q, q ≠ p → port t q = port s q

/-- A sweep starts where its rules admit it, sends one probe at a time, and ends with requests or at once.
(03_cell_chains.md: R70, R71, R72, R73, R85, 04_cell_frame.md: R93, R118) -/
def Obligations.DiscoverySweepsProbeTheirEnd : Prop :=
  ∀ (s : State) (o : Origin) (p : Fin 128) (frame : List LinkChar) (rtt : Nat),
    let named := fun (q : Nat) => (regGet s (Reg.RING_DISC_MASK (q / 32))).getLsbD (q % 32) = true
    let x := port s p
    let bytes := linkBytes frame
    let good := hcrcOk bytes = true ∧ fcrcOk bytes 0 = true
    let checks := [(roleOrCore .operator o, Status.notPermitted), (s.sys.mode == .ready, .illegalInMode)];
    (firstFail checks = none → ∃ t, exec (.discGo o) s = .next t ∧
      t = { s with ports := t.ports, btn := { s.btn with mgmtOut := t.btn.mgmtOut } } ∧
      (∀ q, q < 128 → named q → endFree s q → (∀ r, peerPort s q = some r → ¬named r) → port t q = sweeping (port s q)) ∧
      (∀ q, ¬named q → port t q = port s q)) ∧
    (∀ st, firstFail checks = some st → ∃ t, exec (.discGo o) s = .next t ∧ refusedWrite [] st s t) ∧
    (let due := (s.sys.mode = .commission ∨ s.sys.mode = .charge) ∧ x.broken = false ∧
        (allMatched s p = false ∨ x.countOut = true) ∧ x.lit = true;
      (due → endFree s p → ∃ t, exec (.discoveryRepeat p) s = .next t ∧ sweepStarts p s t) ∧
      (¬due → exec (.discoveryRepeat p) s = .next s)) ∧
    (x.broken = true → endFree s p → ∃ t, exec (.sweepRestart p) s = .next t ∧ sweepStarts p s t) ∧
    (x.broken = false ∨ maySweep s = false → exec (.sweepRestart p) s = .next s) ∧
    (x.sweep = none ∨ portChain s p = none → exec (.probeLaunch p) s = .next s) ∧
    (portLit s p = false → exec (.probeReturn p frame rtt) s = .next s) ∧
    (portLit s p = true → armed s 5 p = false → ¬good → ∃ t, exec (.probeReturn p frame rtt) s = .next t ∧
      occurred 63 p 0x32 s t ∧
      (regGet t (Reg.RING_PHCRC_CNT p)).toNat = min 0xFFFFFFFF ((regGet s (Reg.RING_PHCRC_CNT p)).toNat + 1)) ∧
    (portLit s p = true → armed s 5 p = false → good →
      (x.sweep = none ∨ ∀ h, readHeader bytes = some h → h.type ≠ 2) →
      ∃ t, exec (.probeReturn p frame rtt) s = .next t ∧ onlyRegs [Reg.RING_PCODE_CNT p] s t) ∧
    (x.sweep = none → exec (.probeTimeout p) s = .next s) ∧
    (∀ w, x.sweep = some w →
      (∀ ch west, portChain s p = some (ch, west) →
        (w.flying = false → w.ids = none → w.probes.length < 64 → ∃ t, exec (.probeLaunch p) s = .next t ∧
          onlyPort p { x with
            sweep := some { w with flying := true, begun := true },
            tx := (headerFor s west Frame.probe 0 (BitVec.ofNat 32 (2 ^ 15 + w.probes.length))).bytes ++ [0, 0, 0, 0] } s t) ∧
        (w.flying = true ∨ w.ids.isSome = true ∨ 64 ≤ w.probes.length → exec (.probeLaunch p) s = .next s) ∧
        (w.flying = true → w.probes = [] → ∃ t, exec (.probeTimeout p) s = .next t ∧ (port t p).swept = true ∧
          (port t p).reached = 0) ∧
        (w.flying = true → w.probes ≠ [] → ∃ t w', exec (.probeTimeout p) s = .next t ∧ (port t p).sweep = some w' ∧
          w'.probes = w.probes ∧ w'.flying = false ∧
          (w'.ids = some (2 * w.probes.length) ∨ w'.ids = some (2 * w.probes.length + 1)) ∧
          ∀ q, q ≠ p.val → port t q = port s q)) ∧
      (w.flying = false → exec (.probeTimeout p) s = .next s) ∧
      (∀ h, portLit s p = true → armed s 5 p = false → good → readHeader bytes = some h → h.type = 2 →
        (w.flying = false → ∃ t, exec (.probeReturn p frame rtt) s = .next t ∧ onlyRegs [Reg.RING_PCODE_CNT p] s t) ∧
        (w.flying = true → w.probes.length < 63 →
          ∃ t, exec (.probeReturn p frame rtt) s = .next t ∧ t.cells = s.cells ∧
            port t p = { x with sweep := some { w with flying := false, probes := w.probes ++ [⟨rtt, h.tf, h.tr⟩] } } ∧
            ∀ q, q ≠ p.val → port t q = port s q)))

/-- A returning frame delivers its sound slots in time, a bad one is counted and a fault, and loss of light folds the
port. (03_cell_chains.md: R61, R62, R81, R82, R83, 04_cell_frame.md: R97, R118, 21_electrical_and_mechanical.md:
R509) -/
def Obligations.ChainEndsTakeFramesAndLoss : Prop :=
  ∀ (s : State) (p : Fin 128) (frame : List LinkChar) (lap codes : Nat),
    let x := port s p
    let bytes := linkBytes frame
    (portChain s p = none → exec (.chainFrameReceive p frame lap codes) s = .next s ∧
      exec (.portLossOfSignal p) s = .next s ∧ exec (.portSignalReturn p) s = .next s ∧
      exec (.chainFreqTimeout p) s = .next s ∧ exec (.chainFreqReturn p) s = .next s) ∧
    (∀ ch west, portChain s p = some (ch, west) →
      (x.lit = false → exec (.portLossOfSignal p) s = .next s ∧
        exec (.chainFrameReceive p frame lap codes) s = .next s) ∧
      (x.lit = true → armed s 5 p = false → (hcrcOk bytes = false ∨ fcrcOk bytes ch.n = false) →
        ∃ t, exec (.chainFrameReceive p frame lap codes) s = .next t ∧ (regGet t Reg.FCO_STATUS_1).getLsbD 31 = true ∧
          (regGet t (Reg.RING_PHCRC_CNT p)).toNat = min 0xFFFFFFFF ((regGet s (Reg.RING_PHCRC_CNT p)).toNat + 1)) ∧
      (∀ h, x.lit = true → armed s 5 p = false → hcrcOk bytes = true → fcrcOk bytes ch.n = true →
        readHeader bytes = some h → h.type = 1 → ∃ t, exec (.chainFrameReceive p frame lap codes) s = .next t ∧
          regGet t (Reg.RING_PLAP_NOW p) = BitVec.ofNat 32 (lap % 2 ^ 17) ∧
          regGet t (Reg.RING_PHCRC_CNT p) = regGet s (Reg.RING_PHCRC_CNT p) ∧ t.wheels = s.wheels ∧ t.cores = s.cores ∧
          (h.cycle = cycleNo s → ∀ j c r m,
            j < (if h.west = west then min ch.n ((h.hops - 1) / 2 + 1) else ch.n) → slotOf bytes j = some (c, r) →
            lap - ((ch.n - 1 - j) * 128 + 32) * 2 ≤ (s.esc.wlen - Config.cutTicks) * 20 → crc8Ok r = true → mapAt s ch.num (posFrom ch.n j h.west) = some m → (cell t m.slot).here = true)) ∧
      (x.lit = true → ∃ t, exec (.portLossOfSignal p) s = .next t ∧ (port t p).commaAt = none ∧ (port t p).heal = none ∧
        (∀ w, x.sweep = some w → w.begun = true → peerPort s p ≠ some p.val →
          (port t p).sweep = none ∧ (port t p).broken = true) ∧
        ((x.sweep = none ∨ ∃ w, x.sweep = some w ∧ w.begun = false) → (port t p).sweep = x.sweep) ∧
        (regGet t (Reg.RING_PLOS_CNT p)).toNat = min 0xFFFFFFFF ((regGet s (Reg.RING_PLOS_CNT p)).toNat + 1) ∧
        ((s.sys.mode = .ready ∨ s.sys.mode = .run) → 2 ≤ portState s p → portState s p ≤ 4 →
          portState t p = PState.folded ∧ fget t (Fld.RING_PSTAT_REACHED p) = 0 ∧
          fget t (Fld.RING_PSTAT_FOLD_POS p) = 0xFF) ∧
        (s.sys.mode ≠ .ready → s.sys.mode ≠ .run → portState s p = PState.inService →
          portState t p = PState.discovering ∧ fget t (Fld.RING_PSTAT_REACHED p) = 0)) ∧
      (x.commaAt = none → ∃ t, exec (.portSignalReturn p) s = .next t ∧
        onlyPort p { x with commaAt := some s.time.cnt } s t) ∧
      (x.commaAt.isSome = true → exec (.portSignalReturn p) s = .next s) ∧
      (∀ q ∈ [(Instr.chainFreqTimeout p, true), (Instr.chainFreqReturn p, false)], ∃ t, exec q.1 s = .next t ∧
        port t p = { x with freqOff := q.2 } ∧ (∀ r, r ≠ p.val → port t r = port s r) ∧
        onlyFault s { t with ports := s.ports } ∧
        Store.get (fun _ => false) t.fco.raised (Fco.key 17 p) = q.2))

/-- Heals start, measure and complete by their steps; service requests end by response or timeout; CELL_ACCEPT binds
an identity. (03_cell_chains.md: R79, R86, R87, 04_cell_frame.md: R121, R129, 20_management_and_address_map.md: R457,
R486) -/
def Obligations.HealingAndServiceRequestsEnd : Prop :=
  ∀ (s : State) (p : Fin 128) (r : Req) (x : Session) (frame : List LinkChar) (seg : List Byte) (n : Nat)
      (pos : Fin 64),
    let y := port s p
    let c := cycleNo s + 8
    let bytes := linkBytes frame
    let good := hcrcOk bytes = true ∧ fcrcOk bytes 0 = true
    let heals := fun (t : State) => ∀ ch west, portChain s p = some (ch, west) →
      let q := healLeader s p ch.n
      portState t q = PState.healing ∧ (port t q).heal = some (if s.sys.role = .standby then .follow c else .echo c)
    let waits := fun (t : State) => (port t p).queue.length + (port t p).todo.length
    let plain := fun (q : SvcReq) => q.owner = .params ∨ ∃ a b d e, q.owner = .mailbox a b d e;
    (mayHeal s p = true → fbit s Fld.RING_CTRL_AUTO_HEAL = true → portChain s p ≠ none →
      ∃ t, exec (.healHoldExpiry p) s = .next t ∧ heals t) ∧
    (mayHeal s p = true → fbit s Fld.RING_CTRL_AUTO_HEAL = false ∨ portChain s p = none →
      ∃ t, exec (.healHoldExpiry p) s = .next t ∧ onlyPort p { y with healReady := true } s t) ∧
    (mayHeal s p = false → exec (.healHoldExpiry p) s = .next s) ∧
    (admitted r ⟨0x0042, .engineer, false, true, [.commission, .charge, .ready, .run]⟩ x s →
      (portChain s p = none → ∃ t, exec (.chainHeal r p) s = .next t ∧ answers t r .badParam [] ∧ t.ports = s.ports) ∧
      (portChain s p ≠ none → mayHeal s p = false ∨ y.healReady = false →
        ∃ t, exec (.chainHeal r p) s = .next t ∧ answers t r .checkFail [] ∧ t.ports = s.ports) ∧
      (portChain s p ≠ none → mayHeal s p = true → y.healReady = true → ∃ t, exec (.chainHeal r p) s = .next t ∧ answers t r .ok [] ∧ heals t)) ∧
    (∀ ch west k, portChain s p = some (ch, west) → y.heal = some (.stop k) →
      ((cycleNo s).toNat < k.toNat → exec (.healComplete p) s = .next s) ∧
      (k.toNat ≤ (cycleNo s).toNat → ∃ t, exec (.healComplete p) s = .next t ∧ ∀ q ∈ healPorts s p,
        portState t q = PState.inService ∧ (port t q).heal = none ∧
        Store.get (fun _ => false) t.fco.raised (Fco.key 18 q) = false ∧
        fget t (Fld.RING_PSTAT_REACHED q) =
          (if facing s p ch.n = true then ch.n % 256 else fget s (Fld.RING_PSTAT_REACHED q)))) ∧
    ((∀ k, y.heal ≠ some (.stop k)) → exec (.healComplete p) s = .next s) ∧
    (∀ ch west k, portChain s p = some (ch, west) → echoCycle y.heal = some k →
      (fget s (Fld.RING_PSTAT_FOLD_POS p) = 0xFF → y.echo = none → k.toNat ≤ (cycleNo s).toNat → ∃ t, exec (.echoLaunch p) s = .next t ∧
        onlyPort p { y with
          echo := some (k.toNat % 65536),
          tx := (headerFor s west Frame.echo 0 (BitVec.ofNat 32 (k.toNat % 65536))).bytes ++ [0, 0, 0, 0] } s t) ∧
      (fget s (Fld.RING_PSTAT_FOLD_POS p) ≠ 0xFF ∨ y.echo.isSome = true ∨ (cycleNo s).toNat < k.toNat →
        exec (.echoLaunch p) s = .next s)) ∧
    (echoCycle y.heal = none ∨ portChain s p = none → exec (.echoLaunch p) s = .next s) ∧
    (portLit s p = false → exec (.echoReceive p frame n) s = .next s) ∧
    (portLit s p = true → armed s 5 p = false →
      (¬good → ∃ t, exec (.echoReceive p frame n) s = .next t ∧ occurred 63 p 0x32 s t) ∧
      (∀ h, good → readHeader bytes = some h →
        (h.type ≠ 3 → ∃ t, exec (.echoReceive p frame n) s = .next t ∧ onlyRegs [Reg.RING_PCODE_CNT p] s t) ∧
        (h.type = 3 → y.echo ≠ some (h.range.toNat % 65536) → ∃ t, exec (.echoReceive p frame n) s = .next t ∧
          onlyPort p { y with tx := Header.bytes { h with tr := min 0xFFFF (h.tr + n) } ++ [0, 0, 0, 0] } s
            { t with regs := s.regs } ∧ regsBut [Reg.RING_PCODE_CNT p] s t) ∧
        (h.type = 3 → y.echo = some (h.range.toNat % 65536) → ∃ t, exec (.echoReceive p frame n) s = .next t ∧
          (port t p).echo = none ∧
          ((∃ k, y.heal = some (.echo k)) → (port t p).heal = none ∨ (port t p).heal = some (.stop c)) ∧
          ((∀ k, y.heal ≠ some (.echo k)) → port t p = { y with echo := none } ∧
            (∀ q, q ≠ p.val → port t q = port s q) ∧
            t = { s with ports := t.ports, regs := t.regs, btn := { s.btn with mgmtOut := t.btn.mgmtOut } } ∧
            regsBut [Reg.RING_PCODE_CNT p] s t)))) ∧
    (let g := segmentOf (List.replicate 44 0 ++ seg) 0 0;
      (g = none → exec (.svcResponseReceive p seg) s = .next s) ∧
      (∀ v, g = some v →
        let found := y.queue.find? (fun q => q.pos == v.pos && q.seq == v.seq && q.op == v.op && q.first.isSome);
        (found = none ∨ v.kind ≠ 2 ∨ statusOf (v.payload.headD 0).toNat = .busy →
          exec (.svcResponseReceive p seg) s = .next s) ∧
        (∀ q, found = some q → v.kind = 2 → statusOf (v.payload.headD 0).toNat ≠ .busy → plain q →
          ∃ t, exec (.svcResponseReceive p seg) s = .next t ∧ waits t + 1 = waits s ∧
            ∀ i, i ≠ p.val → port t i = port s i))) ∧
    (let found := y.queue.find? (fun q => q.pos == pos.val && q.first.isSome && !q.due);
      (found = none → exec (.svcTimeout p pos) s = .next s) ∧
      (∀ q, found = some q →
        ((cycleNo s - q.last).toNat < fget s Fld.RING_SVC_CTRL_TMO → exec (.svcTimeout p pos) s = .next s) ∧
        (fget s Fld.RING_SVC_CTRL_TMO ≤ (cycleNo s - q.last).toNat → q.tries < fget s Fld.RING_SVC_CTRL_RETRY →
          ∃ t, exec (.svcTimeout p pos) s = .next t ∧ t = { s with ports := t.ports, regs := t.regs } ∧
            regsBut [Reg.RING_PSVC p] s t ∧
            (port t p).queue = y.queue.map (fun i => if i = q then { q with tries := q.tries + 1, due := true } else i)) ∧
        (fget s Fld.RING_SVC_CTRL_TMO ≤ (cycleNo s - q.last).toNat → fget s Fld.RING_SVC_CTRL_RETRY ≤ q.tries → plain q →
          ∃ t, exec (.svcTimeout p pos) s = .next t ∧ waits t + 1 = waits s ∧
            (regGet t Reg.RING_SVC_TMO_CNT).toNat = min 0xFFFFFFFF ((regGet s Reg.RING_SVC_TMO_CNT).toNat + 1)))) ∧
    (∀ chain posE, admitted r ⟨0x0041, .engineer, false, true, [.commission, .charge, .ready]⟩ x s →
      (chainOf s chain = none ∨ mapAt s chain posE = none →
        ∃ t, exec (.cellAccept r chain posE) s = .next t ∧ answers t r .badParam [] ∧ t.sys.comm = s.sys.comm) ∧
      (∀ ch m, chainOf s chain = some ch → mapAt s chain posE = some m →
        (outcomeOf s m ≠ Outcome.foreign ∨ agreedIdent (viewsOf s ch posE) = none →
          ∃ t, exec (.cellAccept r chain posE) s = .next t ∧ answers t r .checkFail [] ∧ t.sys.comm = s.sys.comm) ∧
        (∀ b, outcomeOf s m = Outcome.foreign → agreedIdent (viewsOf s ch posE) = some b →
          ∃ t, exec (.cellAccept r chain posE) s = .next t ∧ answers t r .ok [] ∧ t = { s with sys := t.sys } ∧
            t.sys.accepts = s.sys.accepts ++ [(s.time.cnt, m.chain, m.posE)] ∧
            t.sys.comm.cells = s.sys.comm.cells.map (fun k => if k = m then { k with ident := identOf b } else k) ∧
            ∃ e ∈ t.sys.cmdLog, e.cmd = 0x0041 ∧ e.chain = m.chain ∧ e.pos = m.posE ∧ e.idCrc = crc32 b ∧
              e.session = x.num)))

/-! ### Loop engines -/

/-- The descriptor lies in shared control memory. -/
def descInScm (o : EngOp) : Prop := Config.scmBase ≤ o.desc ∧ o.desc + 16 ≤ Config.scmBase + 0x400000

/-- The superseded counter of the block committed by register `a` counts one more if `b`, and no other counts (R16). -/
def supersedes (a : Nat) (b : Bool) (s t : State) : Prop :=
  ∀ k, Store.get (fun _ => 0) t.sys.superseded k =
    Store.get (fun _ => 0) s.sys.superseded k + if k = a ∧ b = true then 1 else 0

/-- One more in a saturating counter. -/
def countedUp (a : Nat) (s t : State) : Prop :=
  (regGet t a).toNat = min 0xFFFFFFFF ((regGet s a).toNat + 1)

/-- UPDATE, SET_MODE, WRITE_COEF, SET_TARGET and PRESET complete the operation at the head of their engine's queue.
(07_loop_engines.md: R184, R188, R191, R194, R195, R197, R198, R199, R200, R201, R203, R205) -/
def Obligations.LoopOperationsCompleteByTheirRules : Prop :=
  ∀ (s : State) (e : Fin 8) (ns : Nat),
    let key := engKey 0 e 0
    let ops := [(Instr.loopUpdate e ns, 1), (Instr.loopSetMode e, 2), (Instr.loopWriteCoef e, 3), (Instr.loopSetTarget e, 4),
      (Instr.loopPreset e, 5)]
    let m := loopMode s e
    (firstNew s key = none → ∀ p ∈ ops, exec p.1 s = .next s) ∧
    (∀ o, firstNew s key = some o → descInScm o →
      let d := engWords o 2 s
      let code := fieldGet (d.1.getD 0 0) 31 24
      let arg := fieldGet (d.1.getD 0 0) 23 8
      let ptr := (d.1.getD 1 0).toNat
      let ends := fun (t : State) (st : Status) => memRead t o.desc = BitVec.ofNat 8 st.code ∧
        engQueue t key = (engQueue s key).erase o ∧ memNat t (o.desc + 8) 4 = (cycleNo s).toNat ∧
        memNat t (o.desc + 12) 4 = (regGet t (Reg.LOOP_STATUS e)).toNat ∧ t.sys = s.sys ∧ t.cells = s.cells;
      (∀ p ∈ ops, code ≠ p.2 → 1 ≤ code → code ≤ 5 → exec p.1 s = .next s) ∧
      (∀ p ∈ ops, code = 0 ∨ 5 < code → ∃ t, exec p.1 s = .next t ∧ ends t .badParam) ∧
      (code = 2 →
        (3 ≤ arg → ∃ t, exec (.loopSetMode e) s = .next t ∧ ends t .badParam ∧ loopMode t e = m) ∧
        (arg < 3 → s.sys.mode = .lockout → arg ≠ LoopMode.manual →
          ∃ t, exec (.loopSetMode e) s = .next t ∧ ends t .illegalInMode ∧ loopMode t e = m) ∧
        (arg < 3 → (s.sys.mode ≠ .lockout ∨ arg = LoopMode.manual) →
          ∃ t, exec (.loopSetMode e) s = .next t ∧ ends t .ok ∧ loopMode t e = arg ∧
            (arg ≠ m → (loop t e).first = (arg == LoopMode.auto)))) ∧
      (code = 1 →
        let needs := (List.range 16).any (fun k => fieldGet (winGet d.2 e (0x12C0 + 16 * k)) 31 28 == 1) ||
          m != LoopMode.auto
        let rd := if needs then operandWords o ptr 24 d.2 else ([], d.2)
        let c := loopCalc rd.2 e ⟨m, m == LoopMode.auto && (loop s e).first, arg, rd.1,
          (secsOf (cfgDiv (winGet d.2 e) * periodTicks s)).toF32⟩
        let bad := 256 ≤ arg ∨ (needs = true ∧ ptrOk ptr 96 = false);
        (s.sys.mode = .boot → ∃ t, exec (.loopUpdate e ns) s = .next t ∧ ends t .illegalInMode) ∧
        (s.sys.mode ≠ .boot → bad → ∃ t, exec (.loopUpdate e ns) s = .next t ∧ ends t .badParam) ∧
        (s.sys.mode ≠ .boot → ¬bad → (loop s e).ranNow = true →
          ∃ t, exec (.loopUpdate e ns) s = .next t ∧ ends t .refused ∧ countedUp (Reg.LOOP_BUSY_CNT e) s t) ∧
        (s.sys.mode ≠ .boot → ¬bad → (loop s e).ranNow = false →
          ((c.x ++ c.z ++ c.u).all F32.finite = true → ∃ t, exec (.loopUpdate e ns) s = .next t ∧ ends t .ok ∧
            winVec t e 0x40 8 = c.u ∧ winVec t e 0x100 16 = c.x ∧ winGet t e 4 = cycleNo s ∧
            countedUp (Reg.LOOP_UPD_CNT e) s t ∧ (loop t e).first = false ∧ (loop t e).ranNow = true ∧ loopMode t e = m) ∧
          ((c.x ++ c.z ++ c.u).all F32.finite = false → ∃ t, exec (.loopUpdate e ns) s = .next t ∧ ends t .checkFail ∧
            loopMode t e = LoopMode.manual ∧ countedUp (Reg.LOOP_NONFIN_CNT e) s t ∧ (loop t e).ranNow = true))) ∧
      (code = 3 →
        (∀ off n, loopRegion arg = some (off, n) → ptrOk ptr n = true →
          let rd := operandWords o ptr (n / 4) d.2
          let legal := (floatWords arg rd.1).all F32.finite && loopLegal (withRegion (winGet rd.2 e) off rd.1);
          (m = LoopMode.auto → arg ≠ 8 → ∃ t, exec (.loopWriteCoef e) s = .next t ∧ ends t .loopClosed ∧
            countedUp (Reg.LOOP_CLOSED_CNT e) s t) ∧
          (m ≠ LoopMode.auto ∨ arg = 8 →
            (legal = false → ∃ t, exec (.loopWriteCoef e) s = .next t ∧ ends t .badParam) ∧
            (legal = true → ∃ t, exec (.loopWriteCoef e) s = .next t ∧ ends t .ok ∧ winVec t e off (n / 4) = rd.1))) ∧
        ((loopRegion arg = none ∨ ∀ off n, loopRegion arg = some (off, n) → ptrOk ptr n = false) →
          ∃ t, exec (.loopWriteCoef e) s = .next t ∧ ends t .badParam)) ∧
      (code = 4 →
        let rd := operandWords o ptr 8 d.2
        let legal := (floatWords 8 rd.1).all F32.finite && loopLegal (withRegion (winGet rd.2 e) (0x11C0 + 32 * arg) rd.1);
        (8 ≤ arg ∨ ptrOk ptr 32 = false ∨ legal = false → ∃ t, exec (.loopSetTarget e) s = .next t ∧ ends t .badParam) ∧
        (arg < 8 → ptrOk ptr 32 = true → legal = true → ∃ t, exec (.loopSetTarget e) s = .next t ∧ ends t .ok ∧
          winVec t e (0x11C0 + 32 * arg) 8 = rd.1)) ∧
      (code = 5 →
        let rd := operandWords o ptr 24 d.2
        (4 ≤ arg ∨ ptrOk ptr 96 = false → ∃ t, exec (.loopPreset e) s = .next t ∧ ends t .badParam) ∧
        (arg < 4 → ptrOk ptr 96 = true → m = LoopMode.auto → ∃ t, exec (.loopPreset e) s = .next t ∧ ends t .loopClosed ∧
          countedUp (Reg.LOOP_CLOSED_CNT e) s t) ∧
        (arg < 4 → ptrOk ptr 96 = true → m ≠ LoopMode.auto → ∃ t, exec (.loopPreset e) s = .next t ∧ ends t .ok ∧
          winVec t e 0x100 16 = (if arg.testBit 0 = true then (rd.1.take 16).map F32.flush else winVec s e 0x100 16) ∧
          (∀ j, j < 8 → winGet t e (0x80 + 4 * j) = if arg.testBit 1 = true then
            if integOut (winGet rd.2 e) j = 15 then 0 else clampF (vget rd.1 (16 + j)) (winGet rd.2 e (0x1104 + 16 * j)) (winGet rd.2 e (0x1108 + 16 * j))
            else winGet s e (0x80 + 4 * j))))) ∧
    (let lost := (loop s e).held.any (fun h => decide (cfgHoldMax (winGet s e) < h.2));
      (lost = true → ∃ t, exec (.loopInputLost e) s = .next t ∧ onlyFault s t ∧
        Store.get (fun _ => false) t.fco.raised (Fco.key 27 e) = true) ∧
      (lost = false → exec (.loopInputLost e) s = .next s)) ∧
    (∀ (o : Origin) (val : Word),
      let mode := [(roleOrCore .operator o, Status.notPermitted), (s.sys.role != .standby, .notHolder),
        (fieldGet val 1 0 != 3, .badParam)]
      let block := [(roleOrCore .operator o, Status.notPermitted)];
      (∀ st, firstFail mode = some st → ∃ t, exec (.loopModeCmd o e val) s = .next t ∧ refusedWrite [] st s t) ∧
      (firstFail mode = none → ∃ t, exec (.loopModeCmd o e val) s = .next t ∧ 
        t = { s with regs := t.regs, loops := t.loops, sys := { s.sys with superseded := t.sys.superseded } } ∧
        supersedes (Reg.LOOP_MODE_CMD e) (val.getLsbD 31 && (loop s e).modeCmd.isSome) s t ∧
        regsBut [Reg.LOOP_MODE_CMD e] s t ∧ (∀ i, i ≠ e.val → loop t i = loop s i) ∧
        loop t e = (if val.getLsbD 31 = true then { loop s e with modeCmd := some (fieldGet val 1 0, s.time.cnt) } else loop s e)) ∧
      (∀ st, firstFail block = some st → ∃ t, exec (.loopPbCommit o e val) s = .next t ∧ refusedWrite [] st s t) ∧
      (firstFail block = none → ∃ t, exec (.loopPbCommit o e val) s = .next t ∧
        t = { s with regs := t.regs, loops := t.loops, sys := { s.sys with superseded := t.sys.superseded } } ∧
        supersedes (Reg.LOOP_PB_CTRL e) (val.getLsbD 15 && (loop s e).block.isSome) s t ∧
        regsBut [Reg.LOOP_PB_CTRL e] s t ∧
        (∀ i, i ≠ e.val → loop t i = loop s i) ∧
        loop t e = (if val.getLsbD 15 = true then { loop s e with
            block := some ⟨s.time.cnt, fieldGet val 31 16, fieldGet val 10 0, stagedWords s e (fieldGet val 10 0)⟩ }
          else loop s e)))

/-! ### Measurement inputs -/

/-- Nothing but fast channel `n` changed outside the registers at `as`. -/
def onlyChan (n : Nat) (c : Chan) (as : List Nat) (s t : State) : Prop :=
  t = { s with regs := t.regs, front := { s.front with chans := t.front.chans } } ∧ chan t n = c ∧
    (∀ i, i ≠ n → chan t i = chan s i) ∧ regsBut as s t

/-- A condition source instance is raised. -/
def raisedAt (t : State) (src inst : Nat) : Bool := Store.get (fun _ => false) t.fco.raised (Fco.key src inst)

/-- Range and common-mode faults, calibration, window comparators, synchronising resets and filter writes.
(10_measurement_inputs.md: R257, R258, R261, R262, R263, R265, R266, R267, R268, 11_filter_chain.md: R300, R301,
R304) -/
def Obligations.FastChannelsFollowTheirConditions : Prop :=
  ∀ (s : State) (n : Fin 24) (o : Origin) (val : Word) (falling : Bool) (offs gain : List Word) (codes : List Int)
      (cm : BitVec 24) (m : Fin 12) (a : Word),
    let c := chan s n
    (∃ t, exec (.fadOverrange n) s = .next t ∧ onlyFault s t ∧ (regGet t Reg.FAD_OVR).getLsbD n = true ∧
      countedUp (Reg.FAD_OVR_CNT n) s t ∧ raisedAt t 32 n = true) ∧
    (∃ t, exec (.fadCommonMode n) s = .next t ∧ onlyFault s { t with front := s.front } ∧
      (regGet t Reg.FAD_CMR).getLsbD n = true ∧ chan t n = { c with cmCount := c.cmCount + 1 } ∧
      (∀ i, i ≠ n.val → chan t i = chan s i) ∧ raisedAt t 32 (32 + n.val) = true) ∧
    (let checks := [(roleOrCore .operator o, Status.notPermitted),
        (s.sys.mode == .commission || s.sys.mode == .ready, .illegalInMode), (!fbit s Fld.FAD_STATUS_FGCAL, .busy)];
      (firstFail checks = none → ∃ t, exec (.fgcalGo o val) s = .next t ∧ t = { s with regs := t.regs, front := t.front } ∧
        fbit t Fld.FAD_STATUS_FGCAL = true ∧ t.front.calMask = fieldGet val 23 0 ∧
        fget t Fld.FAD_CTRL_CAL_MASK = fieldGet val 23 0 ∧ fget t Fld.FAD_CAL_STAT_STATUS = 0 ∧
        fget t Fld.FAD_CAL_STAT_ABORT = 0 ∧ regsBut [Reg.FAD_STATUS, Reg.FAD_CTRL, Reg.FAD_CAL_STAT] s t ∧
        chan t n = (if val.getLsbD n = true then { c with runOut := 0, runIn := 0 } else c)) ∧
      (∀ st, firstFail checks = some st → ∃ t, exec (.fgcalGo o val) s = .next t ∧ refusedWrite [Reg.FAD_CAL_STAT] st s t ∧
        fget t Fld.FAD_CAL_STAT_STATUS = st.code)) ∧
    (fbit s Fld.FAD_STATUS_FGCAL = false → exec (.fgcalEnd offs gain) s = .next s) ∧
    (fbit s Fld.FAD_STATUS_FGCAL = true → ∃ t, exec (.fgcalEnd offs gain) s = .next t ∧
      fbit t Fld.FAD_STATUS_FGCAL = false ∧ fget t Fld.FAD_CAL_STAT_STATUS = 0 ∧ t.mem = s.mem ∧ t.sys = s.sys ∧
      regGet t (Reg.FAD_CH_OFFS n) = (if s.front.calMask.testBit n then offs.getD n 0 else regGet s (Reg.FAD_CH_OFFS n)) ∧
      regGet t (Reg.FAD_CH_GAIN n) = (if s.front.calMask.testBit n then gain.getD n 0 else regGet s (Reg.FAD_CH_GAIN n))) ∧
    (let pair := evenIl s (2 * m.val) && fbit s (Fld.FAD_CH_CFG_EN (2 * m.val));
      (pair = false → exec (.bgCalConverged m) s = .next s) ∧
      (pair = true → ∃ t, exec (.bgCalConverged m) s = .next t ∧ onlyRegs [Reg.FAD_STATUS] s t ∧
        (fget t Fld.FAD_STATUS_BG_CONV).testBit m = true ∧
        ∀ i, i < 12 → i ≠ m.val → (fget t Fld.FAD_STATUS_BG_CONV).testBit i = (fget s Fld.FAD_STATUS_BG_CONV).testBit i)) ∧
    (let due := fbit s (Fld.FAD_WIN_CFG_EN n) && live s n && !tripped s n && !calibrating s n &&
        decide (fget s (Fld.FAD_WIN_CFG_QUAL n) + 1 ≤ c.runOut);
      (due = false → exec (.windowComparatorTrip n) s = .next s) ∧
      (due = true → ∃ t, exec (.windowComparatorTrip n) s = .next t ∧ tripped t n = true ∧
        (fget t Fld.FAD_WIN_LATCH_SEEN).testBit n = true ∧ countedUp (Reg.FAD_TRIP_CNT n) s t ∧
        (regGet t Reg.FCO_STATUS_0).getLsbD 31 = true ∧ chan t n = { c with runIn := 0 } ∧
        t.saf.demand4 = (if fbit s (Fld.FAD_WIN_CFG_BLK_EN n) = true then s.saf.demand4 ||| BitVec.ofNat 24 (2 ^ n.val)
          else s.saf.demand4) ∧
        t.saf.pending.getLsbD 2 = (fbit s (Fld.FAD_WIN_CFG_BLK_EN n) || s.saf.pending.getLsbD 2) ∧ t.sys = s.sys)) ∧
    (let due := tripped s n && decide (fget s (Fld.FAD_WIN_CFG_QUAL n) + 1 ≤ c.runIn);
      (due = false → exec (.windowComparatorRelease n) s = .next s) ∧
      (due = true → ∃ t, exec (.windowComparatorRelease n) s = .next t ∧ tripped t n = false ∧
        (∀ i, i < 24 → i ≠ n.val → tripped t i = tripped s i) ∧
        t = { s with regs := t.regs, front := t.front, saf := { s.saf with demand4 := t.saf.demand4 } } ∧
        regsBut [Reg.FAD_WIN_STAT] s t ∧ t.saf.demand4.getLsbD n = false)) ∧
    (let edge := fbit s Fld.FLT_CTRL_SYNC_EN && falling == fbit s Fld.FLT_CTRL_SYNC_POL
      let shut := inRun s && !fbit s Fld.FLT_CTRL_SYNC_RUN
      let asked := fun (t : State) => 
        t = { s with regs := t.regs, front := { s.front with syncAt := t.front.syncAt, chans := t.front.chans } } ∧
        ∃ tr, (∀ i, chan t i = { chan s i with resetAt := (chan s i).resetAt.filter (fun r => decide (r < tr)) }) ∧ t.front.syncAt = some tr ∧ fbit t Fld.FLT_SYNC_STAT_PENDING = true ∧ tr % 50 = 0 ∧
          s.time.cnt + 100 ≤ tr ∧ tr < s.time.cnt + 150
      let checks := [(roleOrCore .operator o, Status.notPermitted),
        (s.sys.mode != .boot && (!inRun s || fbit s Fld.FLT_CTRL_SYNC_RUN), .illegalInMode)];
      (edge = false → exec (.syncInEdge falling) s = .next s) ∧
      (edge = true → shut = true → ∃ t, exec (.syncInEdge falling) s = .next t ∧ onlyRegs [Reg.FLT_SYNC_IGN_CNT] s t ∧
        countedUp Reg.FLT_SYNC_IGN_CNT s t) ∧
      (edge = true → shut = false → s.front.syncAt = none → ∃ t, exec (.syncInEdge falling) s = .next t ∧ asked t) ∧
      (edge = true → shut = false → s.front.syncAt.isSome = true → exec (.syncInEdge falling) s = .next s) ∧
      (firstFail checks = none → ∃ t, exec (.fltSyncGo o) s = .next t ∧ fget t Fld.FLT_SYNC_STAT_STATUS = 0 ∧
        (s.front.syncAt = none → asked t) ∧ (s.front.syncAt.isSome = true → onlyRegs [Reg.FLT_SYNC_STAT] s t)) ∧
      (∀ st, firstFail checks = some st → ∃ t, exec (.fltSyncGo o) s = .next t ∧
        refusedWrite [Reg.FLT_SYNC_STAT] st s t ∧ fget t Fld.FLT_SYNC_STAT_STATUS = st.code)) ∧
    (s.front.syncAt = none → exec .syncResetApply s = .next s) ∧
    (∀ tr, s.front.syncAt = some tr → ∃ t, exec .syncResetApply s = .next t ∧ t.front.syncAt = none ∧
      fbit t Fld.FLT_SYNC_STAT_PENDING = false ∧ countedUp Reg.FLT_SYNC_CNT s t ∧ t.mem = s.mem ∧ t.sys = s.sys ∧
      (live s n = true → (chan t n).acc = [] ∧ (chan t n).comb = [] ∧ (chan t n).fir = [] ∧ (chan t n).hist = [])) ∧
    (fltTarget a.toNat = none → exec (.fltConfigWrite o a val) s = .next s) ∧
    (∀ i off, fltTarget a.toNat = some (i, off) →
      let frz := freezeOnly s i off val
      let checks := [(roleOrCore .operator o, Status.notPermitted),
        (if frz then s.sys.mode != .boot else s.sys.mode == .commission || s.sys.mode == .charge || s.sys.mode == .ready,
          .illegalInMode), (!oddIl s i && (frz || fltParamOk s i off val), .badParam)];
      (firstFail checks = none → ∃ t, exec (.fltConfigWrite o a val) s = .next t ∧ staged a.toNat val o s t ∧
        t.regs = s.regs) ∧
      (∀ st, firstFail checks = some st → ∃ t, exec (.fltConfigWrite o a val) s = .next t ∧ refusedWrite [] st s t)) ∧
    (s.time.cnt % 25 ≠ 0 ∨ s.sys.mode = .boot → exec (.rawSample codes cm) s = .next s) ∧
    (s.time.cnt % 25 = 0 → s.sys.mode ≠ .boot → ∃ t, exec (.rawSample codes cm) s = .next t ∧ t.sys = s.sys ∧
      t.esc = s.esc ∧ t.time = s.time ∧ t.cores = s.cores ∧ t.cells = s.cells ∧ t.hidden = s.hidden ∧
      (winOn s n = true → calibrating s n = false → samplesNow s n = true → cm.getLsbD n = false →
        (chan t n).runOut = (if winHi s n < limitCode (codes.getD n 0) ∨ limitCode (codes.getD n 0) < winLo s n
          then c.runOut + 1 else 0)))

/-- Scans, injected conversions and the self-calibration of the housekeeping converter. (10_measurement_inputs.md:
R273, R274, R275, R276, R279, R280, R281) -/
def Obligations.HousekeepingScansInjectsAndCalibrates : Prop :=
  ∀ (s : State) (o : Origin) (val : Word) (code : Half) (slot : Fin 4),
    let h := s.front.hka
    let base := [(roleOrCore .operator o, Status.notPermitted), (s.sys.mode != .boot, .illegalInMode)]
    let within := fun (t : State) => t = { s with regs := t.regs, front := { s.front with hka := t.front.hka } }
    let undelayed := h.inj.map (fun (r : InjReq) => if r.at_ = s.time.cnt then { r with delayed := false } else r)
    let begun := fun (t : State) (inj : List InjReq) => within t ∧ t.front.hka.scanning = true ∧ t.front.hka.todo = hkaMask s ∧
      t.front.hka.got = [] ∧ fbit t Fld.HKA_STATUS_SCANNING = true ∧ t.front.hka.inj = inj ∧
      regGet t Reg.HKA_SCAN_T_0 = splitNs (nowSplit s)
    let starts := fun (i : Instr) =>
      (hkaMask s = [] → exec i s = .next s) ∧
      (hkaMask s ≠ [] → h.scanning = true → ∃ t, exec i s = .next t ∧ onlyRegs [Reg.HKA_SKIP_BUSY_CNT] s t ∧
        countedUp Reg.HKA_SKIP_BUSY_CNT s t) ∧
      (hkaMask s ≠ [] → h.scanning = false → (∀ c, h.cal ≠ .running c) → ∃ t, exec i s = .next t ∧ begun t h.inj) ∧
      (∀ c, hkaMask s ≠ [] → h.scanning = false → h.cal = .running c →
        (c = s.time.cnt → ∃ t, exec i s = .next t ∧ begun t undelayed ∧ t.front.hka.cal = .pending 0) ∧
        (c ≠ s.time.cnt → ∃ t, exec i s = .next t ∧ onlyRegs [Reg.HKA_SKIP_CAL_CNT] s t ∧
          countedUp Reg.HKA_SKIP_CAL_CNT s t));
    (∀ st, firstFail base = some st → (∃ t, exec (.hkaScanGo o) s = .next t ∧ refusedWrite [] st s t) ∧
      (∃ t, exec (.hkaInjReq o val) s = .next t ∧ refusedWrite [] st s t)) ∧
    (firstFail base = none → (fget s Fld.HKA_CTRL_TRIG = 0 → exec (.hkaScanGo o) s = .next s) ∧
      (fget s Fld.HKA_CTRL_TRIG ≠ 0 → starts (.hkaScanGo o)) ∧
      (∀ i, i < 4 → h.slots.testBit i = false → (∀ j, j < i → h.slots.testBit j = true) →
        ∃ t, exec (.hkaInjReq o val) s = .next t ∧ within t ∧
          t.front.hka.inj = h.inj ++ [⟨i, fieldGet val 4 0, s.time.cnt, calRunning s⟩] ∧
          (∀ j, t.front.hka.slots.testBit j = (h.slots.testBit j || j == i)) ∧ fget t Fld.HKA_INJ_STAT_SLOT = i ∧
          fget t Fld.HKA_INJ_STAT_STATUS = 0) ∧
      ((∀ j, j < 4 → h.slots.testBit j = true) → ∃ t, exec (.hkaInjReq o val) s = .next t ∧
        refusedWrite [Reg.HKA_INJ_STAT, Reg.HKA_INJ_REF_CNT] .refused s t ∧ countedUp Reg.HKA_INJ_REF_CNT s t ∧
        fget t Fld.HKA_INJ_STAT_STATUS = Status.refused.code)) ∧
    (fget s Fld.HKA_CTRL_TRIG = 1 → starts .hkaTimedScanStart) ∧
    (fget s Fld.HKA_CTRL_TRIG = 2 →
      (escRunning s = true → (cycleNo s).toNat % max 1 (fget s Fld.HKA_ESCDIV_DIV) = 0 → starts .hkaTimedScanStart) ∧
      (escRunning s = false ∨ (cycleNo s).toNat % max 1 (fget s Fld.HKA_ESCDIV_DIV) ≠ 0 →
        exec .hkaTimedScanStart s = .next s)) ∧
    (fget s Fld.HKA_CTRL_TRIG ≠ 1 → fget s Fld.HKA_CTRL_TRIG ≠ 2 → exec .hkaTimedScanStart s = .next s) ∧
    (let first := h.inj.any (fun r => decide (r.at_ + 500 ≤ s.time.cnt));
      (h.todo = [] ∨ h.scanning = false ∨ first = true → exec (.hkaConversion code) s = .next s) ∧
      (∀ ch rest, h.todo = ch :: rest → h.scanning = true → first = false → ch < 32 →
        ∃ t, exec (.hkaConversion code) s = .next t ∧ t.front.hka.todo = rest ∧
          t.front.hka.got = h.got ++ [(ch, if ch = 31 then 0 else code.toNat)] ∧ t.front.hka.seq = h.seq ∧
          regGet t (Reg.HKA_LAST ch) =
            BitVec.ofNat 32 (ch * 2 ^ 27 + h.seq % 2048 * 2 ^ 16 + (if ch = 31 then 0 else code.toNat)) ∧ t.sys = s.sys)) ∧
    (h.scanning = false ∨ h.todo ≠ [] → exec .hkaScanEnd s = .next s) ∧
    (h.scanning = true → h.todo = [] → ∃ t, exec .hkaScanEnd s = .next t ∧ t.front.hka.scanning = false ∧
      t.front.hka.seq = (h.seq + 1) % 2048 ∧ countedUp Reg.HKA_SCAN_CNT s t ∧
      fbit t Fld.HKA_STATUS_SCANNING = false ∧ t.sys = s.sys ∧ t.front.hka.inj.length = h.inj.length) ∧
    (h.inj = [] ∨ calRunning s = true → exec (.hkaInjConversion code) s = .next s) ∧
    (∀ r rest, h.inj = r :: rest → calRunning s = false → r.slot < 4 → ∃ t, exec (.hkaInjConversion code) s = .next t ∧
      within t ∧ t.front.hka.inj.length = rest.length ∧
      regGet t (Reg.HKA_INJ_RES r.slot) = BitVec.ofNat 32 (2 ^ 31 + boolNat r.delayed * 2 ^ 30 + r.ch * 2 ^ 16 +
        (if r.ch = 31 then 0 else code.toNat))) ∧
    ((hkaResShown s slot).getLsbD 31 = false → exec (.hkaInjResRead slot) s = .next s) ∧
    ((hkaResShown s slot).getLsbD 31 = true → ∃ t, exec (.hkaInjResRead slot) s = .next t ∧ within { t with pub := s.pub } ∧
      regGet t (Reg.HKA_INJ_RES slot) = 0 ∧ hkaResShown t slot = 0 ∧
      (∀ b, b ≠ Reg.HKA_INJ_RES slot → Store.get regReset t.pub b = Store.get regReset s.pub b) ∧
      ∀ j, t.front.hka.slots.testBit j = (h.slots.testBit j && j != slot.val)) ∧
    (let checks := base ++ [(h.cal == .none, Status.busy)];
      (∀ st, firstFail checks = some st → ∃ t, exec (.hkaCalGo o) s = .next t ∧ refusedWrite [] st s t) ∧
      (firstFail checks = none → ∃ t, exec (.hkaCalGo o) s = .next t ∧ within t ∧ fbit t Fld.HKA_STATUS_CAL = true ∧
        t.front.hka.cal = (if h.scanning = true ∨ h.inj ≠ [] then .pending h.inj.length else .running s.time.cnt))) ∧
    (calRunning s = false → exec .hkaCalEnd s = .next s) ∧
    (calRunning s = true → ∃ t, exec .hkaCalEnd s = .next t ∧ within t ∧ t.front.hka.cal = .none ∧
      fbit t Fld.HKA_STATUS_CAL = false ∧ fbit t Fld.HKA_STATUS_CAL_DONE = true ∧ t.front.hka.inj = h.inj)

/-! ### The chronograph -/

/-- Segment `g` is armed: ARMED in the block that starts now, with no trigger. -/
def chrArmed (g : Nat) (stream : Bool) (s t : State) : Prop :=
  chrState t = ChrState.armed ∧ segInUse t = g ∧
    segState t g = (if stream = true then SegState.stream else SegState.writing) ∧ t.chr.first = s.chr.ser ∧
    t.chr.trig = none ∧ t.chr.due = none ∧ t.chr.record = s.chr.record ∧ t.mem = s.mem ∧ t.sys = s.sys ∧ t.fco = s.fco

/-- The trigger of source `code` is taken in the block that runs (R318). -/
def chrTaken (code : Nat) (s t : State) : Prop :=
  chrState t = ChrState.triggered ∧ t = { s with regs := t.regs, chr := t.chr } ∧
    (∃ x, t.chr.trig = some x ∧ x.src = code ∧ x.ser = s.chr.ser ∧ x.split = nowSplit s ∧ x.fsCount = s.chr.fsCount ∧
      x.cycle = cycleNo s + 1) ∧
    t.chr.fsCount = 0 ∧ regGet t Reg.CHR_TRIG_T_0 = splitNs (nowSplit s)

/-- A record is closed (R321): its segment, its count and its number. -/
def chrClosed (s t : State) : Prop :=
  segState t (segInUse s) = SegState.closed ∧ countedUp Reg.CHR_REC_CNT s t ∧ t.chr.record = s.chr.record + 1 ∧
    t.chr.trig = none ∧ t.chr.due = none ∧ t.sys = s.sys ∧ t.cells = s.cells ∧ t.front = s.front ∧
    fget t (Fld.CHR_SEGSTAT_RECORD (segInUse s)) = s.chr.record % 65536

/-- ARM, DISARM, TRIGGER, MARK and RELEASE, as register commands and as operations. (12_chronograph.md: R310, R311,
R313, R316, R318, R319, R320, R321, R323, R325) -/
def Obligations.ChronographCommandsFollowItsStates : Prop :=
  ∀ (s : State) (o : Origin) (v : Word),
    let base := [(roleOrCore .operator o, Status.notPermitted), (s.sys.mode != .boot, .illegalInMode)]
    let n := chrState s
    let key := engKey 4 0 0
    let one := fbit s Fld.CHR_SEQ_A_EN = false ∧ (fget s Fld.CHR_TEN_TEN).testBit 7 = true
    let regs := [Instr.chrArm (.reg o v), Instr.chrDisarm (.reg o v), Instr.chrTrigger (.reg o v), Instr.chrRelease (.reg o v)]
    let ops := [(Instr.chrArm .op, 1), (Instr.chrDisarm .op, 2), (Instr.chrTrigger .op, 3), (Instr.chrMark, 4),
      (Instr.chrRelease .op, 5)]
    let refused := fun (as : List Nat) (st : Status) (t : State) => refusedWrite as st s t ∧
      fget t Fld.CHR_STATUS_STATUS = st.code ∧ chrState t = n;
    (∀ i ∈ regs, ∀ st, firstFail base = some st → ∃ t, exec i s = .next t ∧ refused [Reg.CHR_STATUS] st t) ∧
    (firstFail base = none →
      (ctrlConfig v s = none → ∃ t, exec (.chrArm (.reg o v)) s = .next t ∧ refused [Reg.CHR_STATUS] .busy t) ∧
      (∀ s1, ctrlConfig v s = some s1 →
        (∀ st, armRefusal s1 = some st → ∃ t, exec (.chrArm (.reg o v)) s = .next t ∧
          refused [Reg.CHR_STATUS] st t) ∧
        (armRefusal s1 = none → ∃ g t, armSegment s1 = some g ∧ exec (.chrArm (.reg o v)) s = .next t ∧
          chrArmed g (fbit s1 Fld.CHR_CTRL_DEST) s t ∧ t.chr.shape = some (shapeNow s1) ∧
          fget t Fld.CHR_STATUS_STATUS = 0)) ∧
      (n ≠ ChrState.idle → n ≠ ChrState.triggered → ∃ t, exec (.chrDisarm (.reg o v)) s = .next t ∧ t = { s with regs := t.regs } ∧
        chrState t = ChrState.idle ∧ segState t (segInUse s) = SegState.free ∧
        regsBut [Reg.CHR_STATUS, Reg.CHR_SEGSTAT (segInUse s)] s t) ∧
      (n = ChrState.idle → ∃ t, exec (.chrDisarm (.reg o v)) s = .next t ∧ chrState t = n ∧
        onlyRegs [Reg.CHR_STATUS] s t) ∧
      (n = ChrState.triggered → s.chr.shape.isSome = true → s.chr.trig.isSome = true →
        ∃ t, exec (.chrDisarm (.reg o v)) s = .next t ∧ chrClosed s t ∧ chrState t = ChrState.idle) ∧
      (n = ChrState.idle → ∃ t, exec (.chrTrigger (.reg o v)) s = .next t ∧ refused [Reg.CHR_STATUS] .refused t) ∧
      (n = ChrState.armed → one → s.chr.shape.isSome = true → ∃ t, exec (.chrTrigger (.reg o v)) s = .next t ∧
        chrTaken 8 s t ∧ fget t Fld.CHR_STATUS_STATUS = 0) ∧
      (n = ChrState.holdoff ∨ n = ChrState.rearm → ∃ t, exec (.chrTrigger (.reg o v)) s = .next t ∧
        chrState t = n ∧ t.chr.trig = s.chr.trig ∧ (one → t.chr.fsCount = s.chr.fsCount + 1 ∧ countedUp Reg.CHR_FS_CNT s t) ∧
        fget t Fld.CHR_STATUS_STATUS = Status.refused.code) ∧
      (let g := fieldGet v 3 0
        let busy := segState s g == SegState.writing || (segState s g == SegState.stream && (n == 1 || n == 2));
        (busy = true → ∃ t, exec (.chrRelease (.reg o v)) s = .next t ∧ refused [Reg.CHR_STATUS] .busy t) ∧
        (busy = false → ∃ t, exec (.chrRelease (.reg o v)) s = .next t ∧ segState t g = SegState.free ∧
          onlyRegs [Reg.CHR_STATUS, Reg.CHR_SEGSTAT g] s t ∧ chrState t = n))) ∧
    (firstNew s key = none → ∀ p ∈ ops, exec p.1 s = .next s) ∧
    (∀ q, firstNew s key = some q → descInScm q →
      let d := engWord q 0 s
      let code := fieldGet d.1 31 24
      let ends := fun (t : State) (st : Status) => memRead t q.desc = BitVec.ofNat 8 st.code ∧
        engQueue t key = (engQueue s key).erase q
      let gives := fun (t : State) (w : Nat) => memNat t (q.desc + 8) 4 = (cycleNo s).toNat ∧ memNat t (q.desc + 12) 4 = w % 2 ^ 32
      let k := ((cycleNo s).toNat + 1) % 2 ^ 32;
      (∀ p ∈ ops, code ≠ p.2 → 1 ≤ code → code ≤ 5 → exec p.1 s = .next s) ∧
      (∀ p ∈ ops, code = 0 ∨ 5 < code → ∃ t, exec p.1 s = .next t ∧ ends t .badParam ∧ chrState t = n ∧ t.sys = s.sys) ∧
      (code = 1 →
        (∀ st, armRefusal d.2 = some st → ∃ t, exec (.chrArm .op) s = .next t ∧ ends t st ∧ gives t 0 ∧ chrState t = n) ∧
        (armRefusal d.2 = none → ∃ g t, armSegment d.2 = some g ∧ exec (.chrArm .op) s = .next t ∧ ends t .ok ∧
          gives t g ∧ chrState t = ChrState.armed ∧ segInUse t = g ∧ t.chr.shape = some (shapeNow d.2))) ∧
      (code = 2 → n ≠ ChrState.triggered → ∃ t, exec (.chrDisarm .op) s = .next t ∧ ends t .ok ∧ gives t 0 ∧
        chrState t = ChrState.idle ∧ t.sys = s.sys) ∧
      (code = 3 →
        (n = ChrState.idle → ∃ t, exec (.chrTrigger .op) s = .next t ∧ ends t .refused ∧ gives t 0 ∧ chrState t = n) ∧
        (n = ChrState.armed → one → s.chr.shape.isSome = true → ∃ t, exec (.chrTrigger .op) s = .next t ∧ ends t .ok ∧
          chrState t = ChrState.triggered)) ∧
      (code = 4 →
        let here := (s.chr.marks.filter (fun m => m.ser == s.chr.ser)).length;
        (n ≠ ChrState.armed → n ≠ ChrState.triggered → ∃ t, exec .chrMark s = .next t ∧ ends t .refused ∧ gives t k ∧
          t.chr.marks = s.chr.marks) ∧
        (n = ChrState.armed ∨ n = ChrState.triggered → 4 ≤ here → ∃ t, exec .chrMark s = .next t ∧ ends t .refused ∧
          gives t k ∧ t.chr.marks = s.chr.marks ∧ countedUp Reg.CHR_MARK_LOST_CNT s t) ∧
        (n = ChrState.armed ∨ n = ChrState.triggered → here < 4 → ∃ t, exec .chrMark s = .next t ∧ ends t .ok ∧ gives t k ∧
          t.chr.marks = s.chr.marks ++ [⟨s.chr.ser, fieldGet d.1 23 8, q.core, sinceTk s⟩])) ∧
      (code = 5 →
        let g := fieldGet d.1 11 8
        let busy := segState s g == SegState.writing || (segState s g == SegState.stream && (n == 1 || n == 2));
        (busy = true → ∃ t, exec (.chrRelease .op) s = .next t ∧ ends t .busy ∧ segState t g = segState s g) ∧
        (busy = false → ∃ t, exec (.chrRelease .op) s = .next t ∧ ends t .ok ∧ segState t g = SegState.free)))

/-- Trigger input, stage window, block writes, record close, hold-off, re-arming, configuration and streaming.
(12_chronograph.md: R305, R312, R313, R316, R318, R319, R321, R322, R323, 13_time_and_ethernet.md: R352) -/
def Obligations.ChronographRecordsItsBlocks : Prop :=
  ∀ (s : State) (o : Origin) (a v : Word) (falling room : Bool),
    let n := chrState s
    let c := s.chr
    let sel := (fget s Fld.CHR_TRIGIO_IN_EDGE = 0 ∧ falling = false) ∨ (fget s Fld.CHR_TRIGIO_IN_EDGE = 1 ∧ falling = true) ∨
      2 ≤ fget s Fld.CHR_TRIGIO_IN_EDGE
    let one := fbit s Fld.CHR_SEQ_A_EN = false ∧ (fget s Fld.CHR_TEN_TEN).testBit 5 = true
    let within := fun (t : State) => t = { s with regs := t.regs, chr := t.chr }
    let g := segInUse s;
    (¬sel ∨ n = ChrState.idle → exec (.trigInEdge falling) s = .next s) ∧
    (sel → one →
      (n = ChrState.armed → c.shape.isSome = true → ∃ t, exec (.trigInEdge falling) s = .next t ∧ chrTaken 6 s t) ∧
      (n = ChrState.holdoff ∨ n = ChrState.rearm → ∃ t, exec (.trigInEdge falling) s = .next t ∧ within t ∧
        t.chr.fsCount = c.fsCount + 1 ∧ countedUp Reg.CHR_FS_CNT s t ∧ chrState t = n ∧
        t.chr.holdCount = (if n = ChrState.holdoff then c.holdCount + 1 else c.holdCount) ∧
        t.chr.fsFirst = (if c.fsCount = 0 then nowSplit s else c.fsFirst))) ∧
    (c.seqAt = none → exec .chrSeqWindowExpiry s = .next s) ∧
    (c.seqAt.isSome = true → ∃ t, exec .chrSeqWindowExpiry s = .next t ∧ t.chr = { c with seqAt := none } ∧ within t ∧
      regsBut [Reg.CHR_STATUS] s t ∧ fget t Fld.CHR_STATUS_STAGE_B = 0 ∧ chrState t = n) ∧
    (c.blks.find? (fun b => b.body.isSome) = none → exec (.chrBlockWrite room) s = .next s) ∧
    (∀ b h, c.blks.find? (fun b => b.body.isSome) = some b → c.shape = some h → h.stream = false → c.first ≤ b.ser →
      let put := fun (off : Nat) (t : State) => memBut (segBase s g + off) h.stride s t ∧ t.hidden = s.hidden ∧
        ∀ i, i < h.stride / 4 * 4 → memRead t (segBase s g + off + i) = (wordsBytes (blockWords s h b)).getD i 0
      let ringOff := 64 + (b.ser - c.first) % h.pre * h.stride;
      (c.trig = none → n = ChrState.armed →
        (room = true → h.pre ≠ 0 → ∃ t, exec (.chrBlockWrite true) s = .next t ∧
          t = { s with mem := t.mem, chr := t.chr, regs := t.regs, fco := t.fco } ∧ passesEcc s t ∧ put ringOff t ∧ t.chr.first = c.first) ∧
        (room = true → h.pre = 0 → ∃ t, exec (.chrBlockWrite true) s = .next t ∧ t = { s with chr := t.chr }) ∧
        (room = false → ∃ t, exec (.chrBlockWrite false) s = .next t ∧ t.chr.first = b.ser + 1 ∧
          countedUp Reg.CHR_OVF_CNT s t ∧ (regGet t (Reg.FCO_STATUS_0 + 4)).getLsbD 2 = true ∧ chrState t = n)) ∧
      (∀ x, c.trig = some x → c.due = none → x.ser ≤ b.ser →
        (room = true → ∃ t, exec (.chrBlockWrite true) s = .next t ∧ t = { s with mem := t.mem, chr := t.chr, regs := t.regs, fco := t.fco } ∧ passesEcc s t ∧
          put (64 + (h.pre + (b.ser - x.ser)) * h.stride) t ∧ t.chr.written = b.ser - x.ser + 1 ∧ t.chr.last = b.cycle ∧
          t.chr.due = (if c.stopSer.any (fun y => decide (y ≤ b.ser)) = true ∨ b.ser = x.ser + h.post then some 0
            else if c.escSer.any (fun y => decide (y ≤ b.ser)) = true then some Close.escStop else none)) ∧
        (room = false → ∃ t, exec (.chrBlockWrite false) s = .next t ∧ chrState t ≠ ChrState.triggered ∧
          segState t g = SegState.closed ∧ countedUp Reg.CHR_REC_CNT s t ∧ countedUp Reg.CHR_OVF_CNT s t ∧
          t.chr.trig = none ∧ t.chr.record = c.record + 1))) ∧
    (c.due = none → exec .chrRecordClose s = .next s) ∧
    (∀ f, c.due = some f → c.shape.isSome = true → c.trig.isSome = true → ∃ t, exec .chrRecordClose s = .next t ∧
      chrClosed s t ∧ ((f ≠ 0 ∧ f ≠ Close.ovf) ∨ c.stopSer.isSome = true → chrState t = ChrState.idle) ∧
      (f = 0 → c.stopSer = none → chrState t = (if (if fbit s Fld.CHR_CTRL_HOLD_MODE = true then fget s Fld.CHR_HOLD_HOLD_N
        else fget s Fld.CHR_HOLD_HOLD_T) ≠ 0 then ChrState.holdoff
        else if fbit s Fld.CHR_CTRL_AUTO_REARM = true then ChrState.rearm else ChrState.idle))) ∧
    (let due := n = ChrState.holdoff ∧ ¬(fbit s Fld.CHR_CTRL_HOLD_MODE = true ∧ c.holdCount < fget s Fld.CHR_HOLD_HOLD_N);
      (¬due → exec .chrHoldoffEnd s = .next s) ∧
      (due → ∃ t, exec .chrHoldoffEnd s = .next t ∧ onlyRegs [Reg.CHR_STATUS] s t ∧
        chrState t = (if fbit s Fld.CHR_CTRL_AUTO_REARM = true then ChrState.rearm else ChrState.idle))) ∧
    (n ≠ ChrState.rearm ∨ armSegment s = none → exec .chrRearm s = .next s) ∧
    (∀ i, n = ChrState.rearm → armSegment s = some i → ∃ t, exec .chrRearm s = .next t ∧
      chrArmed i (fbit s Fld.CHR_CTRL_DEST) s t ∧ t.chr.shape = c.shape) ∧
    (let off := a.toNat - 0x40090000
      let seg := decide (0x0C0 ≤ off ∧ off < 0x100)
      let checks := [(roleOrCore .operator o, Status.notPermitted), (s.sys.mode != .boot, .illegalInMode),
        (chrParamOk s off v, .badParam),
        (n == ChrState.idle && (!seg || segState s ((off - 0x0C0) / 4) == SegState.free), .busy)];
      (firstFail checks = none → ∃ t, exec (.chrConfigWrite o a v) s = .next t ∧
        staged a.toNat v o s t ∧ regsBut [Reg.CHR_STATUS] s t ∧ fget t Fld.CHR_STATUS_STATUS = 0) ∧
      (∀ st, firstFail checks = some st → ∃ t, exec (.chrConfigWrite o a v) s = .next t ∧
        refusedWrite [Reg.CHR_STATUS] st s t ∧ fget t Fld.CHR_STATUS_STATUS = st.code)) ∧
    (c.unsent = [] → exec .chrStreamDatagram s = .next s) ∧
    (∀ h r off k rest, c.shape = some h → c.unsent = ⟨r, off, k⟩ :: rest →
      (h.stream = true → s.eth.resolved = true → ∃ t, exec .chrStreamDatagram s = .next t ∧
        t = { s with regs := t.regs, eth := t.eth, chr := t.chr } ∧ t.chr.datagrams = c.datagrams + 1 ∧
        t.chr.unsent = (if k ≤ 1408 then rest else ⟨r, off + 1408, k - 1408⟩ :: rest)) ∧
      (s.eth.resolved = false → ∃ t, exec .chrStreamDatagram s = .next t ∧ t = { s with regs := t.regs, eth := t.eth } ∧
        (t.eth = { s.eth with ports := t.eth.ports })))

/-! ### The time base -/

/-- The servo stands in state `n`: VALID shows LOCKED or HOLDOVER, and HOLDOVER raises TIM_HOLDOVER (R334). -/
def servoIn (n : Nat) (t : State) : Prop :=
  servo t = n ∧ fbit t Fld.TIM_STATUS_VALID = (n == servoLocked || n == servoHold) ∧ raisedAt t 36 0 = (n == servoHold)

/-- An adjustment is committed for its epoch, the first multiple of 16 at least 32 ticks ahead (R328); an earlier one
that waits stands. -/
def adjusts (rate step : Option Int) (set : Option Nat) (s t : State) : Prop :=
  (s.time.adj = none → ∃ c, t.time.adj = some ⟨c, rate, step, set⟩ ∧ c % 16 = 0 ∧ s.time.cnt + 32 ≤ c ∧
    c < s.time.cnt + 48 ∧ fbit t Fld.TIM_STATUS_ADJ_PENDING = true) ∧
  (s.time.adj.isSome = true → t.time.adj = s.time.adj)

/-- Nothing but the time base changed, and what an occurrence may change. -/
def onlyTime (s t : State) : Prop :=
  onlyFault s { t with time := s.time } ∧ t.time = { s.time with
    adj := t.time.adj, good := t.time.good, holdFrom := t.time.holdFrom, twinOver := t.time.twinOver,
    twinWithin := t.time.twinWithin }

/-- Adjustments and their epochs, reference, pulses, servo and twin comparison. (13_time_and_ethernet.md: R326, R327,
R328, R329, R330, R331, R332, R333, R334, R353, 19_modes_and_start_up.md: R465) -/
def Obligations.TimeBaseAdjustsAndServoes : Prop :=
  ∀ (s : State) (o : Origin) (val : Word) (falling : Bool) (measured rate : Int) (silence : Nat),
    let tb := s.time
    (let useSet := val.getLsbD 2
      let useStep := val.getLsbD 1
      let useRate := val.getLsbD 0
      let r := (regGet s Reg.TIM_RATE_NEW).toInt
      let checks := [(s.sys.mode != .boot, Status.illegalInMode), (roleAtLeast .engineer o, .notPermitted),
        (!(isHmp o && fget s Fld.TIM_CTRL_SRC == 1), .notPermitted),
        (!((useSet || useStep) && inRun s && !fbit s Fld.TIM_SERVO_RUN_STEP), .illegalInMode),
        (!(useRate && isHmp o && inRun s && !rateWithin r (fget s Fld.TIM_SERVO_RUN_MAX)), .badParam),
        (!(useSet && useStep), .badParam), (!useSet || decide ((regGet s Reg.TIM_SET_0).toNat < 1000000000), .badParam),
        (tb.adj.isNone, .busy)];
      (∀ st, firstFail checks = some st → ∃ t, exec (.timAdjCommit o val) s = .next t ∧
        refusedWrite [Reg.TIM_ADJ_STAT] st s t ∧ fget t Fld.TIM_ADJ_STAT_STATUS = st.code) ∧
      (firstFail checks = none → ∃ t, exec (.timAdjCommit o val) s = .next t ∧
        adjusts (if useRate = true then some (if inRun s = true then limitRate r (fget s Fld.TIM_SERVO_RUN_MAX) else r) else none)
          (if useStep = true then some (stepReg s) else none)
          (if useSet = true then some (setReg s) else none) s t ∧ fget t Fld.TIM_ADJ_STAT_STATUS = 0 ∧
        countedUp Reg.TIM_ADJ_CNT s t ∧ t = { s with regs := t.regs, time := { tb with adj := t.time.adj } })) ∧
    (tb.adj = none → exec .timEpochStart s = .next s) ∧
    (∀ x, tb.adj = some x → ∃ t, exec .timEpochStart s = .next t ∧ t.time.adj = none ∧ 
      t.time.prev = keepEpochs tb.cnt (tb.epoch :: tb.prev) ∧
      t.time.epoch.ce = x.ce ∧ t.time.epoch.rate = x.rate.getD tb.epoch.rate ∧ t.time.cnt = tb.cnt ∧
      fbit t Fld.TIM_STATUS_ADJ_PENDING = false ∧ regsBut [Reg.TIM_STATUS] s t ∧
      t = { s with regs := t.regs, time := t.time, sys := { s.sys with statPartial := t.sys.statPartial } } ∧
      (x.set = none → x.step = none → t.time.epoch.ofs = tb.epoch.time x.ce ∧ t.sys.statPartial = s.sys.statPartial ∧
        timeAt t x.ce = tb.epoch.time x.ce) ∧
      (∀ v, x.set = some v → t.time.epoch.ofs = v % timeWrap) ∧
      (∀ d, x.set = none → x.step = some d →
        (t.time.epoch.ofs : Int) = ((tb.epoch.time x.ce : Int) + d) % (timeWrap : Int)) ∧
      ((x.set.isSome = true ∨ x.step.isSome = true) → tb.epoch.time x.ce < t.time.epoch.ofs → t.sys.statPartial = true)) ∧
    (let sel := refSelected s = true;
      (∃ t, exec .ref10Loss s = .next t ∧ t.time = { tb with ref10Ok := false } ∧
        (sel → fbit s Fld.TIM_STATUS_REF_LOST = false → fbit t Fld.TIM_STATUS_REF_LOST = true ∧
          fbit t Fld.TIM_STATUS_REF_ACTIVE = false ∧ countedUp Reg.TIM_REF_LOSS_CNT s t ∧ raisedAt t 35 0 = true ∧
          onlyFault s { t with time := tb }) ∧
        (¬sel → t = { s with time := t.time })) ∧
      (∃ t, exec .ref10Restore s = .next t ∧ t.time = { tb with ref10Ok := true } ∧
        (sel → fbit t Fld.TIM_STATUS_REF_LOST = false ∧ fbit t Fld.TIM_STATUS_REF_ACTIVE = true ∧
          raisedAt t 35 0 = false ∧ regsBut [Reg.TIM_STATUS] s t ∧
          t = { s with regs := t.regs, time := t.time, fco := { s.fco with raised := t.fco.raised } }) ∧
        (¬sel → t = { s with time := t.time }))) ∧
    (let sec := (timeAt s tb.cnt + 4 * 65536) / (1000000000 * 65536)
      let still := s.sys.mode = .boot ∨ fbit s Fld.TIM_PPS_EN = false ∨ pulsedSec tb.pulsed sec = true;
      (still → exec .ppsOutPulse s = .next s) ∧
      (¬still → ∃ t, exec .ppsOutPulse s = .next t ∧ pulsedSec t.time.pulsed sec = true ∧
        t = { s with time := { tb with
          pulsed := t.time.pulsed, ppsUntil := tb.cnt + 500 * fget s Fld.TIM_PPS_WIDTH } } ∧
        (0 < fget s Fld.TIM_PPS_WIDTH → ppsOutLevel t = true))) ∧
    (let mine := falling = fbit s Fld.TIM_PPS_IN_POL
      let far := fget s Fld.TIM_CTRL_SRC = 2 ∧ servo s = servoLocked ∧ 1000000 < (nowSplit s).ns ∧ (nowSplit s).ns < 999000000;
      (¬mine → exec (.ppsInEdge falling) s = .next s) ∧
      (mine → far → ∃ t, exec (.ppsInEdge falling) s = .next t ∧ onlyRegs [Reg.TIM_PPSIN_BAD_CNT] s t ∧
        countedUp Reg.TIM_PPSIN_BAD_CNT s t) ∧
      (mine → ¬far → ∃ t, exec (.ppsInEdge falling) s = .next t ∧
        onlyRegs [Reg.TIM_PPSIN_T_0, Reg.TIM_PPSIN_T_1, Reg.TIM_PPSIN_T_2] s t ∧
        regGet t Reg.TIM_PPSIN_T_0 = splitNs (nowSplit s) ∧ regGet t Reg.TIM_PPSIN_T_1 = splitLo (nowSplit s))) ∧
    (let offset := measured - linkAsymmetry s
      let good := if offset.natAbs ≤ 100 then tb.good + 1 else 0
      let steps := fget s Fld.TIM_SERVO_STEP_THR * 1000 < offset.natAbs ∧ (inRun s = false ∨ fbit s Fld.TIM_SERVO_RUN_STEP = true)
      let max := fget s Fld.TIM_SERVO_RUN_MAX
      let corrects := fun (t : State) => if steps then adjusts none (some (-offset * 65536)) none s t
        else adjusts (some (rate32 (limitRate rate (if inRun s = true then max else 1000)))) none none s t
      let shown := fun (t : State) => fget t Fld.TIM_ADJ_STAT_STATUS = if tb.adj.isSome = true then Status.busy.code else 0
      let tracks := fun (r : Int) (t : State) =>
        adjusts (some (rate32 (if inRun s = true then limitRate r max else r))) none none s t ∧ shown t;
      (s.sys.mode = .boot ∨ fget s Fld.TIM_CTRL_SRC = 0 → exec (.servoMeasurement measured rate) s = .next s) ∧
      (s.sys.mode ≠ .boot → fget s Fld.TIM_CTRL_SRC ≠ 0 →
        ∃ t, exec (.servoMeasurement measured rate) s = .next t ∧ onlyTime s t ∧ t.time.good = good ∧
          regGet t Reg.TIM_OFFSET_EST = wordOfInt offset ∧
          (servo s = servoLocked → offset.natAbs ≤ 1000 → servo t = servoLocked ∧ tracks rate t) ∧
          (servo s = servoLocked → 1000 < offset.natAbs → servoIn servoAcq t ∧ corrects t ∧ shown t) ∧
          (servo s = servoAcq → 16 ≤ good → servoIn servoLocked t ∧ tracks rate t) ∧
          (servo s ≠ servoLocked → ¬(servo s = servoAcq ∧ 16 ≤ good) → servoIn servoAcq t ∧ corrects t ∧ shown t)) ∧
      (servo s = servoLocked → 3000000000 ≤ silence → ∃ t, exec (.servoHoldover silence) s = .next t ∧ onlyTime s t ∧ servoIn servoHold t ∧
        t.time.good = 0 ∧ t.time.holdFrom = tb.cnt ∧ tracks (meanRate s) t) ∧
      (servo s = servoAcq → 3000000000 ≤ silence → ∃ t, exec (.servoHoldover silence) s = .next t ∧ onlyTime s t ∧ servoIn servoFree t ∧
        t.time.good = 0 ∧ t.time.adj = tb.adj) ∧
      (silence < 3000000000 ∨ (servo s ≠ servoLocked ∧ servo s ≠ servoAcq) → exec (.servoHoldover silence) s = .next s) ∧
      (servo s = servoHold → ∃ t, exec .servoHoldMaxExpiry s = .next t ∧ onlyTime s t ∧ servoIn servoFree t ∧
        t.time.good = 0 ∧ t.time.adj = tb.adj) ∧
      (servo s ≠ servoHold → exec .servoHoldMaxExpiry s = .next s)) ∧
    (s.sys.comm.pair = false → exec (.twinTimeCompare measured) s = .next s) ∧
    (s.sys.comm.pair = true → ∃ t, exec (.twinTimeCompare measured) s = .next t ∧ onlyTime s t ∧
      regGet t Reg.TIM_TWIN_DIFF = wordOfInt measured ∧
      (20 < measured.natAbs → t.time.twinOver = tb.twinOver + 1 ∧ t.time.twinWithin = 0) ∧
      (measured.natAbs ≤ 20 → t.time.twinOver = 0 ∧ t.time.twinWithin = tb.twinWithin + 1) ∧
      (3 ≤ t.time.twinOver → fbit t Fld.TIM_STATUS_TWIN_ALARM = true ∧ fbit t Fld.BTN_HEALTH_TIME_DIFF = true ∧
        raisedAt t 37 0 = true) ∧
      (t.time.twinOver < 3 → 3 ≤ t.time.twinWithin → fbit t Fld.TIM_STATUS_TWIN_ALARM = false ∧
        fbit t Fld.BTN_HEALTH_TIME_DIFF = false ∧ raisedAt t 37 0 = false) ∧
      (t.time.twinOver < 3 → t.time.twinWithin < 3 → onlyRegs [Reg.TIM_TWIN_DIFF] s { t with time := tb }))

/-! ### Ethernet -/

/-- `f` leaves last on every port of `to_` that is enabled and has a link, behind the frames that waited there, or waits
last of all while a launch of the port is pending (R342); every other port stands. -/
def leaves (to_ : Nat → Bool) (f : EthOut) (s t : State) : Prop :=
  ∀ n, n < 5 →
    ((to_ n && portOn s n && linkUp s n) = false → ethPort t n = ethPort s n) ∧
    ((to_ n && portOn s n && linkUp s n) = true →
      ((ethPort t n).out = some f ∧ (ethPort t n).held = []) ∨
        ((ethPort t n).held.getLast? = some f ∧ (ethPort s n).launches ≠ []))

/-- Both ports of the station pair with PRP on, any other port alone (R344). -/
def pairOr (s : State) (n k : Nat) : Bool := if n < 2 ∧ prpOn s = true then k == 0 || k == 1 else k == n

/-- Nothing but ports, registers, faults, free values and memory: what sending a frame may change. -/
def onlySending (s t : State) : Prop :=
  t.sys = s.sys ∧ t.esc = s.esc ∧ t.time = s.time ∧ t.cells = s.cells ∧ t.cores = s.cores ∧ t.front = s.front ∧
    t.hidden = s.hidden ∧ t.eth = { s.eth with ports := t.eth.ports, pairDone := t.eth.pairDone }

/-- PTP messages, stamps, timed launches, supervision, ARP, ICMP and links. (13_time_and_ethernet.md: R335, R336,
R338, R339, R340, R341, R342, R343, R344, R352, 16_fault_collection.md: R403) -/
def Obligations.EthernetStampsAndLaunches : Prop :=
  ∀ (s : State) (n : Fin 4) (p : Fin 5) (msg : PtpMsg) (phase : Fin 4) (rd : Reader) (o : Origin) (q : Fin 4) (addr : Word)
      (ip src : Word) (data : List Byte),
    let x := ethPort s n
    (let other := p.val = 4 ∨ msg.domain ≠ fget s Fld.ETH_PTP_CFG_DOMAIN
      let ptp := fbit s (Fld.ETH_Pn_CFG_PTP_EN p);
      (other → ∃ t, exec (.ptpMessageReceive p msg phase) s = .next t ∧
        onlyRegs [Reg.ETH_Pn_RX_CNT p, Reg.ETH_Pn_DISC_CNT p] s t ∧ countedUp (Reg.ETH_Pn_RX_CNT p) s t ∧
        countedUp (Reg.ETH_Pn_DISC_CNT p) s t) ∧
      (¬other → ptp = false → ∃ t, exec (.ptpMessageReceive p msg phase) s = .next t ∧
        onlyRegs [Reg.ETH_Pn_RX_CNT p] s t ∧ countedUp (Reg.ETH_Pn_RX_CNT p) s t) ∧
      (¬other → ptp = true → ∃ t, exec (.ptpMessageReceive p msg phase) s = .next t ∧
        regsBut [Reg.ETH_Pn_RX_CNT p, Reg.ETH_Pn_STAT p] s t ∧ fget t (Fld.ETH_Pn_STAT_PSTATE p) = msg.portState % 256 ∧
        t = { s with regs := t.regs, eth := { s.eth with ports := t.eth.ports } } ∧
        ethPort t p = (if msg.kind = .pdelayReq
          then { ethPort s p with pdelayReq := some (msg.seq, rxTenths s p phase) } else ethPort s p))) ∧
    (let master := fget s (Fld.ETH_Pn_STAT_PSTATE n) = ptpMaster
      let one := fbit s (Fld.ETH_Pn_CFG_ONE_STEP n) && fget s (Fld.ETH_Pn_STAT_PSTATE n) == ptpMaster
      let seq := fun i => x.seqs.getD i 0
      let on := fun (i : Nat) => x.seqs.set i ((seq i + 1) % 65536)
      let now := stampTenths s n phase
      let long := fun (k : PtpKind) => ethLineBytes s n (ethFrameBytes (ptpMsg s k 0 one 0 0))
      let able := fun (k : PtpKind) => fbit s (Fld.ETH_Pn_CFG_PTP_EN n) = true ∧ linkUp s n = true ∧ portOn s n = true ∧
        s.sys.mode ≠ .boot ∧ x.freeAt ≤ now ∧ guardOk s n now (long k) = true
      let rests := fun (k : PtpKind) => exec (.ptpMessageSend n k phase) s = .next s
      let gives := fun (k : PtpKind) (f : EthOut) (seqs : List Nat) => ∃ t, exec (.ptpMessageSend n k phase) s = .next t ∧
        (ethPort t n).out = some f ∧ (ethPort t n).seqs = seqs ∧ (ethPort t n).held = x.held ∧
        (ethPort t n).freeAt = now + byteTime n (long k + 20) ∧ (∀ i, i ≠ n.val → ethPort t i = ethPort s i) ∧
        countedUp (Reg.ETH_Pn_TX_CNT n) s t ∧ onlyFault s { t with eth := s.eth, freeCtr := s.freeCtr } ∧
        t.eth = { s.eth with ports := t.eth.ports } ∧
        ((k ≠ .sync ∧ k ≠ .pdelayResp) ∨ one = true → t = { s with regs := t.regs, eth := t.eth } ∧
          regsBut [Reg.ETH_Pn_TX_CNT n] s t);
      (∀ k, ¬able k → rests k) ∧ (¬master → rests .sync ∧ rests .announce ∧ rests .followUp) ∧
      (master → (able .sync → gives .sync (ptpMsg s .sync (seq 0) one (if one = true then now else 0) 0) (on 0)) ∧
        (able .announce → gives .announce (ptpMsg s .announce (seq 1) false 0 0) (on 1)) ∧
        (able .followUp → one = false →
          gives .followUp (ptpMsg s .followUp ((seq 0 + 65535) % 65536) false now 0) x.seqs) ∧
        (one = true → rests .followUp)) ∧
      (able .pdelayReq → gives .pdelayReq (ptpMsg s .pdelayReq (seq 2) false 0 (-(regGet s (Reg.ETH_Pn_ASYM n)).toInt)) (on 2)) ∧
      (x.pdelayReq = none → rests .pdelayResp ∧ rests .pdelayRespFollowUp) ∧ (one = true → rests .pdelayRespFollowUp) ∧
      (∀ i r, x.pdelayReq = some (i, r) →
        (able .pdelayResp → gives .pdelayResp (ptpMsg s .pdelayResp i one (if one = true then 0 else r)
          (if one = true then roundFree (((now : Int) - r) * 65536) 10 else 0)) x.seqs) ∧
        (able .pdelayRespFollowUp → one = false →
          gives .pdelayRespFollowUp (ptpMsg s .pdelayRespFollowUp i false now 0) x.seqs))) ∧
    (prpOn s = false → exec .prpSupervisionSend s = .next s) ∧
    (prpOn s = true → ∃ t, exec .prpSupervisionSend s = .next t ∧ leaves (fun i => i == 0 || i == 1) .supervision s t ∧
      t = { s with regs := t.regs, eth := { s.eth with ports := t.eth.ports } }) ∧
    (x.stamps = [] → ∃ t, exec (.ethTxtsRead rd n) s = .next t ∧ t = { s with latches := t.latches } ∧
      latchGet rd (Reg.ETH_Pn_TXTS_1 n) t = 0 ∧ latchGet rd (Reg.ETH_Pn_TXTS_2 n) t = 0) ∧
    (∀ e rest, x.stamps = e :: rest → ∃ t, exec (.ethTxtsRead rd n) s = .next t ∧
      t = { s with regs := t.regs, latches := t.latches, eth := { s.eth with ports := t.eth.ports } } ∧
      ethPort t n = { x with stamps := rest } ∧ regsBut [Reg.ETH_Pn_TXTS_STAT n] s t ∧
      fget t (Fld.ETH_Pn_TXTS_STAT_DEPTH n) = rest.length % 32 ∧
      latchGet rd (Reg.ETH_Pn_TXTS_1 n) t = splitLo e.t ∧
      latchGet rd (Reg.ETH_Pn_TXTS_2 n) t = BitVec.ofNat 32 (e.id * 65536 + splitHi e.t)) ∧
    (let a := addr.toNat
      let d := posterPhys s o a
      let word := fun i => (memReadWord s (d + 4 * i)).toNat
      let len := word 5 % 2048
      let full := 16 ≤ queueDepth s n q
      let l : Launch :=
        ⟨q, (match o with | .eventCore c => c.val | _ => 7), d, (word 2 + word 3 % 65536 * 2 ^ 32) * 1000000000 + word 1,
          word 0 / 65536, (word 0).testBit 15, posterPhys s o (word 4), len, false⟩
      let yields := fun (st : Status) => ∃ t, exec (.lqPost o n.castSucc q addr) s = .next t ∧
        t = { s with mem := t.mem, regs := t.regs, fco := t.fco } ∧ passesEcc s t ∧ memRead t d = BitVec.ofNat 8 st.code ∧ memBut d 1 s t;
      (isHmp o = true → ∃ t, exec (.lqPost o p q addr) s = .next t ∧ refusedWrite [] .notPermitted s t) ∧
      (isHmp o = false → p.val = 4 → ∃ t, exec (.lqPost o p q addr) s = .next t ∧ refusedWrite [] .badParam s t) ∧
      (isHmp o = false → posterOwns s o a 32 = false → exec (.lqPost o n.castSucc q addr) s = .next s) ∧
      (isHmp o = false → posterOwns s o a 32 = true →
        (full → ∃ t, exec (.lqPost o n.castSucc q addr) s = .next t ∧ memRead t d = BitVec.ofNat 8 Status.refused.code ∧
          countedUp (Reg.ETH_Pn_LQ_REF_CNT n) s t ∧ t.eth = s.eth ∧ onlySending s t) ∧
        (¬full → posterOwns s o (word 4) len = false → yields .notPermitted) ∧
        (¬full → posterOwns s o (word 4) len = true → (a % 32 ≠ 0 ∨ word 4 % 64 ≠ 0 ∨ len < 60 ∨ 1518 < len) →
          yields .badParam) ∧
        (¬full → posterOwns s o (word 4) len = true → a % 32 = 0 → word 4 % 64 = 0 → 60 ≤ len → len ≤ 1518 →
          ∃ t, exec (.lqPost o n.castSucc q addr) s = .next t ∧ memRead t d = BitVec.ofNat 8 Status.pending.code ∧
            memBut d 1 s t ∧
            t = { s with mem := t.mem, regs := t.regs, fco := { s.fco with marks := t.fco.marks }, eth := { s.eth with ports := t.eth.ports } } ∧
            ethPort t n = { x with launches := insertLaunch l x.launches } ∧
            ∀ i, i < 5 → i ≠ n.val → ethPort t i = (if prpOn s = true ∧ n.val < 2 ∧ i = 1 - n.val
              then { ethPort s i with launches := insertLaunch { l with copy := true } (ethPort s i).launches }
              else ethPort s i)))) ∧
    (x.launches = [] → exec (.timedLaunch n phase) s = .next s) ∧
    (∀ l rest, x.launches = l :: rest →
      let now := stampTenths s n phase
      let pol := (fget s (Fld.ETH_Pn_CFG_LATE_POL n)).testBit l.q
      let busy := now < x.freeAt
      let late := 10 * l.t + 80 < now
      let out := pol = true ∧ (late ∨ (busy ∧ 10 * l.t + 80 ≤ now))
      let alone := prpOn s = false ∨ 2 ≤ n.val
      let ends := fun (t : State) (st : Status) => (ethPort t n).launches = rest ∧ onlySending s t ∧
        (∀ y, ringsApart s y → ¬(l.desc ≤ y ∧ y < l.desc + 32) → memRead t y = memRead s y) ∧
        (∀ i, i ≠ n.val → ethPort t i = ethPort s i) ∧
        (alone → memRead t l.desc = BitVec.ofNat 8 st.code);
      (now + 80 < 10 * l.t → exec (.timedLaunch n phase) s = .next s) ∧
      (10 * l.t ≤ now + 80 →
        (linkUp s n = false ∨ portOn s n = false → ∃ t, exec (.timedLaunch n phase) s = .next t ∧ ends t .refused ∧
          countedUp (Reg.ETH_Pn_DROP_CNT n) s t) ∧
        (linkUp s n = true → portOn s n = true → out → ∃ t, exec (.timedLaunch n phase) s = .next t ∧ ends t .refused ∧
          countedUp (Reg.ETH_Pn_DROP_CNT n) s t ∧ countedUp (Reg.ETH_Pn_LATE_CNT n) s t) ∧
        (linkUp s n = true → portOn s n = true → ¬out → busy → exec (.timedLaunch n phase) s = .next s) ∧
        (linkUp s n = true → portOn s n = true → ¬out → ¬busy → ∃ t, exec (.timedLaunch n phase) s = .next t ∧
          ends t (if late then .delayed else .ok) ∧ now < (ethPort t n).freeAt ∧
          (x.held = [] → (ethPort t n).out = some (.launched (Memory.readList s.mem l.frame l.len))) ∧
          (late → countedUp (Reg.ETH_Pn_LATE_CNT n) s t)))) ∧
    (∀ w ∈ [(Instr.arpRequestReceive p ip, EthOut.arpReply ip), (Instr.icmpEchoReceive p ip src data, .icmpReply src data)],
      let mine := ownIp s p = some ip ∧ s.sys.mode ≠ .boot;
      ∃ t, exec w.1 s = .next t ∧ countedUp (Reg.ETH_Pn_RX_CNT p) s t ∧
        t = { s with regs := t.regs, eth := { s.eth with ports := t.eth.ports } } ∧
        (mine → leaves (pairOr s p) w.2 s t) ∧ (¬mine → t = { s with regs := t.regs })) ∧
    (∃ t, exec (.arpReplyReceive p ip) s = .next t ∧ onlyRegs [Reg.ETH_Pn_RX_CNT p] s { t with eth := s.eth } ∧
      countedUp (Reg.ETH_Pn_RX_CNT p) s t ∧ t.eth = { s.eth with resolved := s.eth.resolved ||
        (ip == nextHop s && (if streamPort s = 0 then decide (p.val < 2) else p.val == 4)) }) ∧
    (∃ t, exec (.ethLinkDown p) s = .next t ∧ linkUp t p = false ∧ fget t (Fld.ETH_Pn_STAT_PSTATE p) = 3 ∧
      onlyFault s { t with eth := s.eth } ∧ (portOn s p = true → raisedAt t 58 p = true) ∧
      (portOn s p = false → t = { s with regs := t.regs, eth := t.eth }) ∧
      t.eth = { s.eth with ports := t.eth.ports } ∧ ethPort t p = { ethPort s p with held := [] } ∧
      (∀ i, i ≠ p.val → ethPort t i = ethPort s i) ∧
      (∀ i, i < 5 → i ≠ p.val → fget t (Fld.ETH_Pn_STAT_PSTATE i) =
        if p.val < 2 ∧ i = 1 - p.val ∧ fget s (Fld.ETH_Pn_STAT_PSTATE p) = 9 ∧ fget s (Fld.ETH_Pn_STAT_PSTATE i) = 10
        then 9 else fget s (Fld.ETH_Pn_STAT_PSTATE i))) ∧
    (∃ t, exec (.ethLinkUp p) s = .next t ∧ linkUp t p = true ∧ raisedAt t 58 p = false ∧ regsBut [Reg.ETH_Pn_STAT p] s t ∧
      t = { s with regs := t.regs, fco := { s.fco with raised := t.fco.raised } })

/-! ### Subscriptions -/

/-- What a dataset element decodes to under an entry's TYPE, and whether the entry's conditions of R345 and R346 hold. -/
def gooseTaken (s : State) (e : Nat) (f : GooseFrame) : Option Word × Bool :=
  let d := (f.elems[fget s (Fld.ETH_GSUB_CFG_ELEM e)]?).bind (gooseDecode (fget s (Fld.ETH_GSUB_CFG_TYPE e)))
  let q := match f.elems[fget s (Fld.ETH_GSUB_CFG_QELEM e)]? with | some (.quality g) => g | _ => false
  (d, d.isSome && (!fbit s (Fld.ETH_GSUB_CFG_QEN e) || q) && (!f.test || fbit s (Fld.ETH_GSUB_CFG_ACC_TEST e)) && !f.ndsCom)

/-- GOOSE and sampled-values frames reach the entries and streams that match them. (11_filter_chain.md: R299,
13_time_and_ethernet.md: R344, R345, R346, R348, R349, R350, R351) -/
def Obligations.SubscriptionsTakeTheirFrames : Prop :=
  ∀ (s : State) (p : Fin 5) (f : GooseFrame) (e : Fin 64) (g : Fin 16) (v : SvFrame) (st : Fin 24),
    (∃ t, exec (.gooseReceive p f) s = .next t ∧ countedUp (Reg.ETH_Pn_RX_CNT p) s t ∧ t.sys = s.sys ∧ t.front = s.front ∧
      t.cells = s.cells ∧ t.cores = s.cores ∧
      (let gone := (prpCheck p f.prp s).1 = true ∨ s.sys.mode = .boot
        let old := gsub s e
        let stale := old.any (fun x => outOfOrder x f) = true
        let takes := ¬gone ∧ gsubMatches s p e f = true ∧ ¬stale
        let d := gooseTaken s e f;
        (¬takes → gsub t e = old ∧ regGet t (Reg.ETH_GSUB_STAT e) = regGet s (Reg.ETH_GSUB_STAT e) ∧
          regGet t (Reg.ETH_GSUB_STNUM e) = regGet s (Reg.ETH_GSUB_STNUM e)) ∧
        (takes → gsub t e = some ⟨f.st, f.sq, d.1.getD ((old.map (fun x => x.val)).getD 0), s.time.cnt + msTicks f.tal⟩ ∧
          fbit t (Fld.ETH_GSUB_STAT_VALID e) = d.2 ∧ regGet t (Reg.ETH_GSUB_STNUM e) = f.st))) ∧
    (let due := (gsub s e).any (fun x => decide (x.until_ ≤ s.time.cnt)) = true;
      (¬due → exec (.gooseTalExpiry e) s = .next s) ∧
      (due → ∃ t, exec (.gooseTalExpiry e) s = .next t ∧ fbit t (Fld.ETH_GSUB_STAT_VALID e) = false ∧ gsub t e = gsub s e ∧
        onlyRegs [Reg.ETH_GSUB_STAT e, Reg.ETH_GSUB_VALID_0, Reg.ETH_GSUB_VALID_1] s t ∧
        (regGet t (if e.val < 32 then Reg.ETH_GSUB_VALID_0 else Reg.ETH_GSUB_VALID_1)).getLsbD (e.val % 32) = false)) ∧
    (let on := gpubOn s g = true ∧ s.sys.mode ≠ .boot
      let t0 := fget s (Fld.ETH_GPUB_T0_T0 g)
      let next := if escRunning s = true then min t0 (2 * (gpub s g).interval) else t0
      let ps := fget s (Fld.ETH_GPUB_CFG_PORTS g);
      (¬on → exec (.gooseRepeat g) s = .next s) ∧
      (on → ∃ t, exec (.gooseRepeat g) s = .next t ∧ gpub t g = { gpub s g with interval := next } ∧
        (∀ i, i ≠ g.val → gpub t i = gpub s i) ∧ t = { s with regs := t.regs, eth := t.eth } ∧
        regGet t (Reg.ETH_GPUB_SQNUM g) = regGet s (Reg.ETH_GPUB_SQNUM g) + 1 ∧
        regGet t (Reg.ETH_GPUB_STNUM g) = regGet s (Reg.ETH_GPUB_STNUM g) ∧
        leaves (fun k => ((k == 0 || (k == 1 && prpOn s)) && ps.testBit 2) || (k == 2 && ps.testBit 1) || (k == 3 && ps.testBit 0))
          (.goose g (regGet s (Reg.ETH_GPUB_STNUM g)) (regGet s (Reg.ETH_GPUB_SQNUM g) + 1) (2 * next) (gpub s g).vals) s t)) ∧
    (∃ t, exec (.svFrameReceive p v) s = .next t ∧ countedUp (Reg.ETH_Pn_RX_CNT p) s t ∧ t.sys = s.sys ∧ t.cells = s.cells ∧
      t.front.chans = s.front.chans ∧
      (((p.val ≠ 2 ∧ p.val ≠ 3) ∨ s.sys.mode = .boot) → onlyRegs [Reg.ETH_Pn_RX_CNT p] s t) ∧
      (p.val = 2 ∨ p.val = 3 → s.sys.mode ≠ .boot →
        let rate := svRate s st
        (svMatches s p st v = false ∨ v.smpRate ≠ rate → svSamples t st = svSamples s st) ∧
        (∀ a, svMatches s p st v = true → v.smpRate = rate → v.asdus = [a] →
          let idx := svIndex s rate a.smpCnt
          let have_ := (svSamples s st).any (fun x => x.idx == idx) = true;
          (rate ≤ a.smpCnt → svSamples t st = svSamples s st) ∧
          (a.smpCnt < rate → have_ → svSamples t st = svSamples s st ∧ countedUp (Reg.ETH_SV_DUP st) s t) ∧
          (a.smpCnt < rate → ¬have_ → svSamples t st = svSamples s st ++ [⟨idx, s.time.cnt, a.elems⟩] ∧
            countedUp (Reg.ETH_SV_RX st) s t ∧ fget t (Fld.ETH_SV_STAT_SMPCNT st) = a.smpCnt % 65536 ∧
            fbit t (Fld.ETH_SV_STAT_SYNC st) = a.synch ∧
            (fget s (Fld.ETH_SV_STAT_STATE st) ≠ 2 → fget t (Fld.ETH_SV_STAT_STATE st) = 1))))) ∧
    (let lost := (svChannels s st).filter (fun n => decide (16 ≤ (chan s n).svMiss));
      (lost = [] → exec (.svStreamLost st) s = .next s) ∧
      (lost ≠ [] → ∃ t, exec (.svStreamLost st) s = .next t ∧ fget t (Fld.ETH_SV_STAT_STATE st) = 2 ∧ raisedAt t 39 st = true ∧
        t.sys = s.sys ∧ t.cells = s.cells ∧
        (∀ n ∈ lost, (chan t n).hist = [] ∧ (chan t n).svMiss = 0 ∧
          (chan t n).svNext = some (svFirst s n (timeAt s s.time.cnt))) ∧
        (∀ n, n ∉ lost → chan t n = chan s n)))

/-! ### The redundant pair -/

/-- Nothing but the baton, registers, and what an occurrence may change. -/
def onlyBaton (s t : State) : Prop := onlyFault s t

/-- The role block that is committed (R24). -/
def commits (r : Role) (epoch : Word) (j : Option Word) (cause : Nat) (s t : State) : Prop :=
  t.btn.commit = some ⟨r, epoch, s.time.cnt, j, cause⟩

/-- A STANDBY that may claim the baton, the silence apart (R364). -/
def mayClaim (s : State) : Prop :=
  s.sys.role = .standby ∧ s.sys.mode ≠ .boot ∧ s.sys.mode ≠ .lockout ∧ s.btn.commit = none ∧ ageEvidence s = true ∧
    claimBarred s = false ∧
    (s.sys.comm.unitB = true → s.sys.commAt + msTicks (fget s Fld.BTN_START_HOLD_HOLD) ≤ s.time.cnt)

/-- Silence, lease, heartbeats, fencing and handover commit roles under their conditions alone.
(14_redundant_pair.md: R360, R362, R363, R364, R365, R366, R374, R375, R376, 19_modes_and_start_up.md: R455, R456) -/
def Obligations.BatonIsClaimedFencedAndHandedOver : Prop :=
  ∀ (s : State) (j : Fin 4) (hb : Heartbeat) (o : Origin),
    let b := s.btn
    let health := regGet s Reg.BTN_HEALTH;
    (¬(inPair s = true ∧ silent s = true) → exec .silenceTimeout s = .next s) ∧
    (inPair s = true → silent s = true → ∃ t, exec .silenceTimeout s = .next t ∧ onlyBaton s t ∧
      fbit t Fld.BTN_STATUS_SILENT = true ∧ fbit t Fld.BTN_TWIN_SEEN = false ∧
      (mayClaim s → nextEpoch s ≤ 0xFFFFFFFF → commits .active (BitVec.ofNat 32 (nextEpoch s)) none Chg.claim s t ∧
        regsBut [Reg.BTN_STATUS, Reg.BTN_TWIN] s t) ∧
      (mayClaim s → 0xFFFFFFFF < nextEpoch s → t.btn.commit = none ∧ (regGet t (Reg.FCO_STATUS_0 + 4)).getLsbD 11 = true) ∧
      (¬mayClaim s → onlyRegs [Reg.BTN_STATUS, Reg.BTN_TWIN] s t)) ∧
    (let due := s.sys.role = .active ∧ ∃ e, b.leaseEnd = some e ∧ e ≤ s.time.cnt;
      (¬due → exec .leaseExpiry s = .next s) ∧
      (due → ∃ t, exec .leaseExpiry s = .next t ∧ onlyBaton s t ∧ commits .standby b.mramEpoch none Chg.lease s t ∧
        t.btn.leaseEnd = none ∧ fbit t Fld.BTN_HEALTH_LEASE = true ∧ (regGet t (Reg.FCO_STATUS_0 + 4)).getLsbD 12 = true)) ∧
    (let may := inPair s = true ∧ b.mayBeat = true ∧ escRunning s = true;
      (¬may → exec (.heartbeatSend j) s = .next s) ∧
      (may → ∃ t, exec (.heartbeatSend j) s = .next t ∧ t = { s with btn := t.btn } ∧
        t.btn.hbOut = some (makeHeartbeat s) ∧ t.btn.hbSeq = (b.hbSeq + 1) % 256 ∧
        t.btn.sent.head? = some ((b.hbSeq + 1) % 256, s.time.cnt) ∧ t.btn.commit = b.commit ∧
        t.btn.hoOp = (if b.hoOp = .offer then .offer else .none))) ∧
    (let again := b.twin.map (fun h => h.seq) = some hb.seq
      let fresh := inPair s = true ∧ hb.crcOk = true ∧ ¬again
      let act := hb.role = .active
      let higher := b.mramEpoch.toNat < hb.epoch.toNat
      let known := max b.mramEpoch.toNat b.seenEpoch.toNat
      let m := if hb.mode = .lockout then (if s.sys.mode = .run then .ready else s.sys.mode)
        else if hb.mode = .boot then s.sys.mode else hb.mode
      let images := MgmtMsg.images (imagesOf s).1 (imagesOf s).2.1 (imagesOf s).2.2
      let asked := hb.stSeq = b.stSeq % 65536 ∧ hb.stRes ≠ 0 ∧ b.stTwin = 0 ∧ (b.stRun = true ∨ b.stOwn ≠ 0);
      (inPair s = false → exec (.heartbeatReceive hb) s = .next s) ∧
      (inPair s = true → hb.crcOk = false → ∃ t, exec (.heartbeatReceive hb) s = .next t ∧
        onlyRegs [Reg.MIR_ERR_CNT] s t ∧ countedUp Reg.MIR_ERR_CNT s t) ∧
      (inPair s = true → hb.crcOk = true → again → exec (.heartbeatReceive hb) s = .next s) ∧
      (fresh → ∃ t, exec (.heartbeatReceive hb) s = .next t ∧ onlyBaton s t ∧ t.btn.twin = some hb ∧
        t.btn.twinAt = s.time.cnt ∧ t.btn.e1Now = (b.e1Now || acks hb s) ∧ fbit t Fld.BTN_STATUS_SILENT = false ∧
        (asked → t.btn.stTwin = hb.stRes) ∧ (¬asked → t.btn.stTwin = b.stTwin) ∧
        (b.twin = none ∨ fbit s Fld.BTN_TWIN_SEEN = false → images ∈ t.btn.mgmtOut) ∧
        (b.twin ≠ none → fbit s Fld.BTN_TWIN_SEEN = true → t.btn.mgmtOut = b.mgmtOut) ∧
        (act → hb.hoOp ≠ .offer → s.sys.role = .active → higher → commits .standby hb.epoch none Chg.fenced s t ∧
          t.btn.mramEpoch = hb.epoch ∧ fbit t Fld.BTN_HEALTH_FENCED = true ∧
          (regGet t (Reg.FCO_STATUS_0 + 4)).getLsbD 13 = true) ∧
        (act → s.sys.role = .active → s.sys.comm.unitB = true → hb.epoch = b.mramEpoch →
          commits .standby b.mramEpoch none 0 s t ∧ fbit t Fld.BTN_HEALTH_JOINING = true) ∧
        (s.sys.role = .active → ¬(act ∧ hb.hoOp ≠ .offer ∧ higher) →
          ¬(act ∧ s.sys.comm.unitB = true ∧ hb.epoch = b.mramEpoch) → t.btn.commit = b.commit ∧ t.btn.mramEpoch = b.mramEpoch) ∧
        (act → s.sys.role = .standby →
          (m = s.sys.mode → t.btn.follow = none) ∧
          (m ≠ s.sys.mode → (∀ c, b.follow = some (m, c) → t.btn.follow = b.follow) ∧
            ((∀ c, b.follow ≠ some (m, c)) → t.btn.follow = some (m, s.time.cnt))) ∧
          (hb.hoOp = .offer → health = 0 → b.commit = none → known < hb.epoch.toNat →
            commits .active hb.epoch (some hb.hoCycle) Chg.handover s t ∧ t.btn.hoOp = .accept ∧
            t.btn.hoCycle = hb.hoCycle) ∧
          (hb.hoOp = .offer → health &&& ~~~0x40 ≠ 0 ∨ b.commit ≠ none ∨ hb.epoch.toNat ≤ known →
            t.btn.commit = b.commit ∧ t.btn.hoOp = b.hoOp) ∧
          (hb.hoOp = .offer → health = 0 → b.commit = none → known = 0xFFFFFFFF →
            (regGet t (Reg.FCO_STATUS_0 + 4)).getLsbD 11 = true)) ∧
        (hb.hoOp = .accept → ∀ h, b.ho = some h → h.j = hb.hoCycle → t.btn.ho = some { h with accepted := true }))) ∧
    (let checks := [(roleAtLeast .engineer o, Status.notPermitted), (s.sys.role != .standby, .notHolder),
        (s.sys.mode != .boot && s.sys.mode != .lockout, .illegalInMode), (b.ho.isNone, .busy),
        (inPair s && twinMayTake s, .checkFail)];
      (∀ st, firstFail checks = some st → ∃ t, exec (.btnCmdHandover o) s = .next t ∧
        refusedWrite [Reg.BTN_CMD_STAT] st s t ∧ fget t Fld.BTN_CMD_STAT_STATUS = st.code) ∧
      (firstFail checks = none → ∃ t h, exec (.btnCmdHandover o) s = .next t ∧ t = { s with regs := t.regs, btn := t.btn } ∧
        t.btn.ho = some h ∧ h.epoch = BitVec.ofNat 32 (nextEpoch s) ∧ h.cause = Chg.handover ∧ h.accepted = false ∧
        t.btn.hoOp = .offer ∧ t.btn.hoCycle = h.j ∧ t.btn.commit = b.commit ∧
        (0 < periodTicks s → s.time.cnt + periodTicks s / 2 + 2000 ≤ h.tj) ∧ fbit t Fld.BTN_STATUS_HO_PENDING = true ∧
        fget t Fld.BTN_CMD_STAT_STATUS = Status.pending.code)) ∧
    (b.ho = none → exec .handoverAcceptDeadline s = .next s) ∧
    (∀ h, b.ho = some h → ∃ t, exec .handoverAcceptDeadline s = .next t ∧ t = { s with regs := t.regs, btn := t.btn } ∧
      t.btn.ho = none ∧ fbit t Fld.BTN_STATUS_HO_PENDING = false ∧
      regsBut [Reg.BTN_STATUS, Reg.BTN_CMD_STAT] s t ∧
      (h.accepted = true → commits .standby b.mramEpoch (some h.j) h.cause s t ∧ t.btn.hoOp = .none ∧
        (h.cause = Chg.handover → fget t Fld.BTN_CMD_STAT_STATUS = 0)) ∧
      (h.accepted = false → t.btn.commit = b.commit ∧ t.btn.hoOp = .abort ∧
        (h.cause = Chg.handover → fget t Fld.BTN_CMD_STAT_STATUS = Status.timeout.code))) ∧
    (let checks := [(roleAtLeast .engineer o, Status.notPermitted), (s.sys.mode != .boot, .illegalInMode)];
      (∀ st, firstFail checks = some st → ∃ t, exec (.btnCmdReadyAck o) s = .next t ∧
        refusedWrite [Reg.BTN_CMD_STAT] st s t ∧ fget t Fld.BTN_CMD_STAT_STATUS = st.code) ∧
      (firstFail checks = none → ∃ t, exec (.btnCmdReadyAck o) s = .next t ∧ onlyRegs [Reg.BTN_HEALTH, Reg.BTN_CMD_STAT] s t ∧
        regGet t Reg.BTN_HEALTH = health &&& ~~~0x1C ∧ fget t Fld.BTN_CMD_STAT_STATUS = 0))

/-- Self-tests, mirror lanes and records, relay frames, and the messages of the twin. (03_cell_chains.md: R70, R73,
14_redundant_pair.md: R358, R359, R361, R370, R373, R374, R378, R380, R383, 19_modes_and_start_up.md: R456) -/
def Obligations.PairTestsMirrorsAndJoins : Prop :=
  ∀ (s : State) (o : Origin) (pass : Bool) (l : Fin 2) (part : MirrorPart) (lat : Nat) (ch p : Fin 128) (n m : Nat)
      (a b c : Word) (cells : List PosInfo) (num : Fin 65536),
    let x := s.btn
    let begins := fun (q : Nat) (cmd : Bool) (t : State) => t = { s with btn := { x with
      stSeq := q % 65536, stRun := true, stCmd := cmd, stOwn := 0, stTwin := 0, disRun := 0 } };
    (let newer := x.twin.any (fun h => decide (h.stSeq ≠ x.stSeq ∧ (h.stSeq + 65536 - x.stSeq) % 65536 < 32768));
      (inPair s = false ∨ x.stRun = true → exec .btnSelftestStart s = .next s) ∧
      (inPair s = true → x.stRun = false →
        (∀ h, x.twin = some h → newer = true → ∃ t, exec .btnSelftestStart s = .next t ∧ begins h.stSeq false t) ∧
        (newer = false → fget s Fld.BTN_CFG_DIS_N ≤ x.disRun → ∃ t, exec .btnSelftestStart s = .next t ∧
          begins (x.stSeq + 1) false t) ∧
        (newer = false → x.disRun < fget s Fld.BTN_CFG_DIS_N → exec .btnSelftestStart s = .next s)) ∧
      (let checks := [(roleAtLeast .engineer o, Status.notPermitted), (s.sys.mode != .boot, .illegalInMode), (!x.stRun, .busy)];
        (∀ st, firstFail checks = some st → ∃ t, exec (.btnCmdSelftest o) s = .next t ∧
          refusedWrite [Reg.BTN_CMD_STAT] st s t ∧ fget t Fld.BTN_CMD_STAT_STATUS = st.code) ∧
        (firstFail checks = none → ∃ t, exec (.btnCmdSelftest o) s = .next t ∧
          begins (x.stSeq + 1) true { t with regs := s.regs, btn := { t.btn with mgmtOut := x.mgmtOut } } ∧
          t.btn.mgmtOut = (if inPair s = true then x.mgmtOut ++ [.selftest (Fin.ofNat 65536 (x.stSeq + 1))] else x.mgmtOut) ∧
          regsBut [Reg.BTN_CMD_STAT] s t ∧ fget t Fld.BTN_CMD_STAT_STATUS = 0))) ∧
    (x.stRun = false → exec (.btnSelftestDone pass) s = .next s) ∧
    (x.stRun = true → ∃ t, exec (.btnSelftestDone pass) s = .next t ∧ onlyFault s t ∧ t.btn.stRun = false ∧
      t.btn.stOwn = (if pass = true then 1 else 2) ∧ (pass = false → fbit t Fld.BTN_HEALTH_SELFTEST = true) ∧
      t.btn.stTwin = x.stTwin ∧ t.btn.stSeq = x.stSeq ∧
      (x.stTwin = 0 ∨ x.stCmd = true → onlyRegs [Reg.BTN_HEALTH] s { t with btn := x } ∧
        fbit t Fld.BTN_HEALTH_SELFTEST = !pass) ∧
      (x.stTwin = 0 → t.btn.disRun = x.disRun ∧ t.btn.stCmd = x.stCmd) ∧
      (x.stTwin ≠ 0 → t.btn.disRun = 0 ∧ t.btn.stCmd = false) ∧
      (x.stCmd = false →
        (s.sys.role = .active → pass = false → x.stTwin = 1 → x.ho = none →
          ∃ h, t.btn.ho = some h ∧ h.cause = Chg.selftest ∧ t.btn.hoOp = .offer) ∧
        (s.sys.role = .active → pass = false → x.stTwin = 2 → (regGet t (Reg.FCO_STATUS_0 + 4)).getLsbD 15 = true) ∧
        (pass = true → x.stTwin = 1 → (regGet t (Reg.FCO_STATUS_0 + 4)).getLsbD 14 = true ∧
          (s.sys.role ≠ .active → fbit t Fld.BTN_HEALTH_DISAGREE = true)))) ∧
    (let due := x.stOwn ≠ 0 ∧ x.stTwin = 0 ∧ inPair s = true;
      (¬due → exec .btnSelftestResultTimeout s = .next s) ∧
      (due → ∃ t, exec .btnSelftestResultTimeout s = .next t ∧ onlyFault s t ∧ t.btn.stTwin = 2 ∧ t.btn.disRun = 0 ∧
        t.btn.stCmd = false ∧ t.btn.stOwn = x.stOwn ∧
        (x.stCmd = false → s.sys.role = .active → x.stOwn = 2 → (regGet t (Reg.FCO_STATUS_0 + 4)).getLsbD 15 = true) ∧
        (x.stCmd = true ∨ x.stOwn = 1 → t = { s with btn := t.btn }))) ∧
    (let lanes := fun (up other : Nat) (t : State) => onlyFault s t ∧ fget t (laneField l) = up ∧
        fget t (laneField (1 - l.val)) = other ∧ fbit t Fld.MIR_STATUS_UP = decide (up + other ≠ 0) ∧
        raisedAt t 40 0 = decide (up + other = 1) ∧ raisedAt t 41 0 = decide (up + other = 0) ∧
        (inPair s = true → fbit t Fld.BTN_HEALTH_MIR_DOWN = decide (up + other = 0))
      let other := fget s (laneField (1 - l.val))
      let on := (fget s Fld.MIR_CTRL_LANE_EN).testBit l = true ∧ s.sys.mode ≠ .boot;
      (fbit s (laneField l) = false → exec (.mirrorLaneLoss l) s = .next s) ∧
      (fbit s (laneField l) = true → ∃ t, exec (.mirrorLaneLoss l) s = .next t ∧ lanes 0 other t) ∧
      (¬on → exec (.mirrorLaneRestore l) s = .next s) ∧
      (on → ∃ t, exec (.mirrorLaneRestore l) s = .next t ∧ lanes 1 other t)) ∧
    (let diff := s.sys.role = .standby ∧ ∃ h, x.twin = some h ∧ h.role = .active ∧ h.mode ≠ s.sys.mode
      let heard := x.twin.any (fun h => h.role == .active && decide (s.sys.commAt ≤ x.twinAt)) = true
      let sets := fun (i : Instr) (f : Field) (v : Bool) => ∃ t, exec i s = .next t ∧ onlyRegs [Reg.BTN_HEALTH] s t ∧ fbit t f = v;
      (diff → sets .modeDiffTimeout Fld.BTN_HEALTH_MODE_DIFF true) ∧ (¬diff → exec .modeDiffTimeout s = .next s) ∧
      (x.pbDiffers = true → sets .pbDiffTimeout Fld.BTN_HEALTH_PB_DIFF true) ∧
      (x.pbDiffers = false → exec .pbDiffTimeout s = .next s) ∧
      (inPair s = true → s.sys.mode ≠ .boot → ¬heard → sets .joinTimeout Fld.BTN_HEALTH_JOINING false) ∧
      (inPair s = false ∨ s.sys.mode = .boot ∨ heard → exec .joinTimeout s = .next s) ∧
      (inPair s = true → s.sys.mode ≠ .boot → sets .joinComplete Fld.BTN_HEALTH_JOINING false) ∧
      (inPair s = false ∨ s.sys.mode = .boot → exec .joinComplete s = .next s)) ∧
    (let dead := inPair s = false ∨ lanesUp s = 0
      let ok := match part with | .engine ok _ _ _ => ok | .rest ok _ _ _ _ _ _ => ok | .standby ok _ _ _ _ => ok;
      (dead → exec (.mirrorRecordReceive part lat) s = .next s) ∧
      (¬dead → ∃ t, exec (.mirrorRecordReceive part lat) s = .next t ∧ fget t Fld.MIR_STATUS_LAT = min lat 65535 ∧
        raisedAt t 42 0 = decide (1200 < lat) ∧ t.sys = s.sys ∧ t.cores = s.cores ∧ t.front = s.front ∧
        (ok = false → onlyFault s t ∧ countedUp Reg.MIR_ERR_CNT s t ∧ t.btn.engIn = x.engIn ∧ t.btn.restIn = x.restIn ∧
          t.btn.otherIn = x.otherIn) ∧
        (ok = true → regGet t Reg.MIR_ERR_CNT = regGet s Reg.MIR_ERR_CNT ∧
          (match part with
          | .engine _ _ _ _ => t.btn.engIn = some part ∧ t.btn.engPrev = x.engIn ∧ t.btn.restIn = x.restIn
          | .rest _ _ _ _ _ ids _ => t.btn.restIn = some part ∧ t.btn.engIn = x.engIn ∧
              (s.sys.role = .standby → t.btn.pbDiffers = (ids != blockIdList s))
          | .standby _ _ _ _ _ => t.btn.otherIn = some part ∧ t.btn.engIn = x.engIn ∧ t.btn.restIn = x.restIn)))) ∧
    (s.sys.role ≠ .standby ∨ x.restIn = none → exec (.relayFrameLaunch ch) s = .next s) ∧
    (∀ w cyc ok ep cut ws ids rel, s.sys.role = .standby → chainOf s ch = some w →
      x.restIn = some (.rest ok cyc ep cut ws ids rel) →
      let mine := rel.filter (fun r => r.chain == ch.val)
      let q := w.portE
      let able := mine ≠ [] ∧ cyc + 1 = cycleNo s ∧ (port s q).lit = true ∧ (port s q).withheld = false;
      (¬able → exec (.relayFrameLaunch ch) s = .next s) ∧
      (able → ∃ t h tail, exec (.relayFrameLaunch ch) s = .next t ∧ h.apply = applyTicks s - tRly01 w.n / 20 ∧
        h.lead = fget s Fld.ESC_LEAD_LEAD + tRly01 w.n / 20 ∧
        onlyPort q { port s q with relayTx := frameBytes h ((List.range w.n).map (fun i =>
          match mine.find? (fun r => r.pos == i) with
          | some r => reflag r.word true true
          | none => reflag (slotCommand s q i) false false)) tail } s t)) ∧
    (let dead := inPair s = false ∨ lanesUp s = 0
      let yields := fun (g : MgmtMsg) (P : State → Prop) => ∃ t, exec (.managementChannelReceive g) s = .next t ∧ P t
      let knows := fun (t : State) (k : Nat) => Store.get (fun _ => none) t.btn.twinReached p = some k
      let y := port s p;
      (∀ g, dead → exec (.managementChannelReceive g) s = .next s) ∧
      (¬dead →
        yields (.sweepStart p) (fun t => onlyPort p { y with withheld := true } s t) ∧
        yields (.sweepEnd p cells) (fun t => knows t cells.length ∧ t.sys = s.sys ∧ t.cores = s.cores ∧
          (y.swept = false → y.wantSweep = true → maySweep s = true → joiningTwin s = false → portChain s p ≠ none →
            y.sweep = none → (∀ q, peerPort s p = some q → (port s q).sweep = none) → ∃ k, (port t p).sweep = some k) ∧
          (y.swept = false → y.wantSweep = false → (port t p).twinCount = cells.length ∧ (port t p).twinInfo = cells ∧
            (∀ k ks, cells = k :: ks → (port t p).segLast = some k.phi) ∧ (port t p).withheld = false ∧ (port t p).twinIds = infoIds cells ∧
            ∀ i, i ≠ p.val → port t i = port s i)) ∧
        (y.swept = false → (∀ e, y.heal ≠ some (.echo e)) ∨ portChain s p = none →
          yields (.lastSegment p n) (fun t => onlyPort p { y with segLast := some n } s t)) ∧
        (∀ w e k, portChain s p = some (w, e) → y.heal = some (.echo k) →
          (fget s (Fld.RING_PSTAT_FOLD_POS p) + 1 ≠ w.n → exec (.managementChannelReceive (.lastSegment p n)) s = .next s) ∧
          (fget s (Fld.RING_PSTAT_FOLD_POS p) + 1 = w.n → yields (.lastSegment p n) (fun t =>
            (port t p).heal = none ∨ (port t p).heal = some (.stop (cycleNo s + 8))))) ∧
        yields (.images a b c) (fun t => t.btn = { x with twinImages := some (a, b, c) } ∧
          t = { s with regs := t.regs, btn := t.btn } ∧ regsBut [Reg.BTN_HEALTH] s t ∧
          fbit t Fld.BTN_HEALTH_IMAGE_DIFF = ((a, b, c) != imagesOf s)) ∧
        (s.sys.role = .standby ∨ portChain s p = none → exec (.managementChannelReceive (.reach p n m)) s = .next s) ∧
        (∀ w e, s.sys.role ≠ .standby → portChain s p = some (w, e) → yields (.reach p n m) (fun t =>
          onlyRegs [Reg.MIR_RLY w.num] s t ∧ fget t (Fld.MIR_RLY_REACH w.num) = min 64 n ∧
          fget t (Fld.MIR_RLY_T_RLY w.num) = min 127 m)) ∧
        yields (.reached p n) (fun t => knows t n ∧ t = { s with btn := { x with twinReached := t.btn.twinReached } }) ∧
        (s.sys.role ≠ .standby → exec (.managementChannelReceive (.discovery p cells n)) s = .next s) ∧
        (s.sys.role = .standby → yields (.discovery p cells n) (fun t => (port t p).swept = true ∧
          (port t p).idents = infoIds cells ∧ t.sys = s.sys ∧ t.cores = s.cores)) ∧
        (s.sys.role ≠ .standby ∨ mayHeal s p = false → exec (.managementChannelReceive (.healStart p)) s = .next s) ∧
        (∀ w e, s.sys.role = .standby → mayHeal s p = true → portChain s p = some (w, e) → yields (.healStart p) (fun t =>
          let q := healLeader s p w.n
          portState t q = PState.healing ∧ (port t q).heal = some (.follow (cycleNo s + 8)))) ∧
        (let folds := s.sys.role = .standby ∧ (portState s p = PState.folded ∨ portState s p = PState.healing);
          (¬folds → exec (.managementChannelReceive (.healMeasured p n a)) s = .next s) ∧
          (folds → yields (.healMeasured p n a) (fun t => (port t p).heal = some (.stop a) ∧ (port t p).echo = none ∧
            portState t p = PState.healing))) ∧
        (healOwner s p = none → yields (.healEnd p) (fun t => onlyPort p { y with healReady := false } s t)) ∧
        (∀ q, healOwner s p = some q → yields (.healEnd p) (fun t =>
          ∀ i ∈ healPorts s q, (port t i).heal = none ∧ portState t i ≠ PState.healing)) ∧
        (x.stRun = true → exec (.managementChannelReceive (.selftest num)) s = .next s) ∧
        (x.stRun = false → yields (.selftest num) (fun t => begins num.val true t))))

/-! ### The scheduler, register writes and statistics -/

/-- A trace record of two words stands at the write pointer, and nothing else in memory changed (R402). -/
def traced (s t : State) : Prop :=
  let w := fget s Fld.SCH_TRC_WPTR_WPTR
  let a := Config.dramBase + fget s Fld.SCH_TRC_BASE_BASE_MIB * 2 ^ 20 + 8 * w;
  memBut a 8 s t ∧ fget t Fld.SCH_TRC_WPTR_WPTR = (w + 1) % 65536 ∧
    regsBut [Reg.SCH_TRC_WPTR, Reg.SCH_TRC_STAT, Reg.FCO_INJ_STAT] s t ∧
    t = { s with
      regs := t.regs, mem := t.mem, fco := { s.fco with marks := t.fco.marks },
      sch := { s.sch with trcFull := s.sch.trcFull || w == 65535 } }

/-- The statistics counters that the statement on periods names. -/
def namedCounters : List Nat :=
  [Reg.SYS_UPB_SUPER_CNT, Reg.ESC_CUT_CNT, Reg.RING_DUP_CNT, Reg.FAD_TRIP_CNT 0, Reg.FLT_SYNC_CNT, Reg.CHR_FS_CNT,
   Reg.TIM_ADJ_CNT, Reg.ETH_GOOSE_OOO_CNT, Reg.ETH_SV_RX 0, Reg.SCH_DELAY_CNT, Reg.BTN_CLAIM_CNT, Reg.MIR_ERR_CNT]

/-- Registers that are no statistics counters. -/
def keptRegisters : List Nat :=
  [Reg.SYS_REJECT_COUNT, Reg.RING_FOREIGN_CNT, Reg.RING_ABSENT_CNT, Reg.ESC_CYCLE, Reg.FCO_STATUS_0, Reg.STAT_PERIOD]

/-- Timer events, trace, event watchdog, writes of registers, parameter-block commits and statistics periods.
(01_module_architecture.md: R5, R13, R15, 15_event_plane.md: R386, R387, R392, R401, R402, 16_fault_collection.md:
R403, 19_modes_and_start_up.md: R457, R464, R465, 20_management_and_address_map.md: R469, R488) -/
def Obligations.TimersTraceAndRegisterWrites : Prop :=
  ∀ (s : State) (tm : Fin 16) (c : Fin 4) (next : Bool) (o : Origin) (addr v : Word),
    (fbit s (Fld.SCH_TIM_CFG_EN tm) = false → exec (.schTimerExpiry tm) s = .next s) ∧
    (fbit s (Fld.SCH_TIM_CFG_EN tm) = true → ∃ t, exec (.schTimerExpiry tm) s = .next t ∧ onlyFault s t ∧
      countedUp (Reg.SCH_TIM_CNT tm) s t ∧
      fbit t (Fld.SCH_TIM_CFG_EN tm) = !fbit s (Fld.SCH_TIM_CFG_ONESHOT tm) ∧
      (s.sys.mode ≠ .boot → (usableEntry s (srcClass s 8 false)).isSome = true →
        s.sch.held.any (fun h => h.src == 8 && h.inst == tm.val) = false →
        ∃ e l r, s.sch.ready = l ++ r ∧ t.sch.ready = l ++ e :: r ∧
          (∀ z, r.head? = some z → z.flow = e.flow ∧ z.entry = s.time.cnt ∧ 8 < z.src) ∧
          (∀ z ∈ l, ¬(z.flow = e.flow ∧ z.entry = s.time.cnt ∧ 8 < z.src)) ∧ e.src = 8 ∧ e.inst = tm.val ∧ e.flow = srcFlow s 8 tm ∧
          e.cls = srcClass s 8 false ∧ e.arg0 = BitVec.ofNat 32 tm ∧ e.arg1 = regGet t (Reg.SCH_TIM_CNT tm) ∧
          e.ts = nowSplit s ∧ e.delay = 0)) ∧
    (fbit s Fld.SCH_TRC_CTRL_EN = false → exec .schTraceMark s = .next s) ∧
    (fbit s Fld.SCH_TRC_CTRL_EN = true → fbit s Fld.SCH_TRC_CTRL_STOP = false ∨ s.sch.trcFull = false →
      ∃ t, exec .schTraceMark s = .next t ∧ traced s t ∧
        (let a := Config.dramBase + fget s Fld.SCH_TRC_BASE_BASE_MIB * 2 ^ 20 + 8 * fget s Fld.SCH_TRC_WPTR_WPTR;
          memNat t a 8 = (nowSplit s).sec % 2 ^ 30 * 2 ^ 34 + 15 * 2 ^ 30 + 7 * 2 ^ 25)) ∧
    (fbit s Fld.SCH_TRC_CTRL_EN = true → fbit s Fld.SCH_TRC_CTRL_STOP = true → s.sch.trcFull = true →
      ∃ t, exec .schTraceMark s = .next t ∧ onlyRegs [Reg.SCH_TRC_STAT] s t ∧
        fget t Fld.SCH_TRC_STAT_LOST = min 0xFFFF (fget s Fld.SCH_TRC_STAT_LOST + 1)) ∧
    (let checks := [(roleAtLeast .engineer o, Status.notPermitted), (s.sys.mode != .boot, .illegalInMode)]
      let starts := v.getLsbD 0 = true ∧ fbit s Fld.SCH_TRC_CTRL_EN = false;
      (∀ st, firstFail checks = some st → ∃ t, exec (.schTrcEnable o v) s = .next t ∧ refusedWrite [] st s t) ∧
      (firstFail checks = none → ∃ t, exec (.schTrcEnable o v) s = .next t ∧ regGet t Reg.SCH_TRC_CTRL = v &&& 3 ∧
        (¬starts → onlyRegs [Reg.SCH_TRC_CTRL] s t) ∧
        (starts → fget t Fld.SCH_TRC_WPTR_WPTR = 0 ∧ regGet t Reg.SCH_TRC_STAT = 0 ∧
          t = { s with regs := t.regs, sch := { s.sch with trcFull := false } } ∧
          regsBut [Reg.SCH_TRC_CTRL, Reg.SCH_TRC_WPTR, Reg.SCH_TRC_STAT] s t))) ∧
    (let slot := if next = true then nextSlot s c else curSlot s c;
      (slot = none → exec (.eventWatchdogExpiry c next) s = .next s) ∧
      (slot.isSome = true → ∃ t, exec (.eventWatchdogExpiry c next) s = .next t ∧ occurred 61 c (4 + c.val) s t)) ∧
    (let a := addr.toNat
      let master := match o with | .eventCore i => 4 + i.val | .hmp _ _ => 0x35 | .supervisory => 0x08
      let known := if a % 4 = 0 then regDesc a else none
      let base := [(roleOrCore .operator o, Status.notPermitted), (s.sys.mode != .boot, .illegalInMode)]
      let waits := ∃ t, exec (.registerWrite o addr v) s = .next t ∧ staged a v o s t ∧ t.regs = s.regs
      let shows := [Reg.FAD_CAL_STAT, Reg.FLT_SYNC_STAT, Reg.CHR_STATUS, Reg.WHL_CELL_STAT ((a - 0x40041000) / 0x100)]
      let refused := fun (st : Status) => ∃ t, exec (.registerWrite o addr v) s = .next t ∧ refusedWrite [] st s t;
      (known = none → ∃ t, exec (.registerWrite o addr v) s = .next t ∧ occurred 30 a master s t) ∧
      (∀ d, known = some d →
        (d.rw = 0 → d.w1c = 0 → d.wo = 0 → exec (.registerWrite o addr v) s = .next s) ∧
        (¬(d.rw = 0 ∧ d.w1c = 0 ∧ d.wo = 0) → isTiming a = false →
          (isTrigger a = true → (firstFail base = none → waits) ∧
            (∀ st, firstFail base = some st → ∃ t, exec (.registerWrite o addr v) s = .next t ∧
              refusedWrite shows st s t)) ∧
          (isTrigger a = false → blockOf a ∈ [0x03, 0x06, 0x07, 0x10] →
            (firstFail (plainChecks o a v s) = none → waits) ∧
            (∀ st, firstFail (plainChecks o a v s) = some st → refused st)) ∧
          (blockOf a = 0x12 → a ≠ Reg.STAT_PERIOD →
            (firstFail (plainChecks o a v s) = none → ∃ t, exec (.registerWrite o addr v) s = .next t ∧
              onlyRegs [a] s t ∧ regGet t a = mergeWrite d (regGet s a) v) ∧
            (∀ st, firstFail (plainChecks o a v s) = some st → refused st))))) ∧
    (let id := fieldGet v 31 16
      let b := fieldGet v 14 11
      let len := fieldGet v 10 0
      let checks := [(roleOrCore .operator o, Status.notPermitted), (s.sys.mode != .boot, .illegalInMode),
        (!v.getLsbD 15 || decide (2 ≤ len ∧ len ≤ s.sys.prog.upb.getD b 0), .badParam)]
      let pend := fun (t : State) => Store.get (fun _ => none) t.sys.upb b;
      (∀ st, firstFail checks = some st → ∃ t, exec (.sysUpbCommit o v) s = .next t ∧
        refusedWrite [Reg.SYS_UPB_STAT] st s t) ∧
      (firstFail checks = none → v.getLsbD 15 = true → ∃ t, exec (.sysUpbCommit o v) s = .next t ∧
        pend t = some (id, (List.range (len - 2)).map (fun i => memReadWord s (upbStaging b + 8 + 4 * i)), s.time.cnt) ∧
        t = { s with regs := t.regs, sys := { s.sys with upb := t.sys.upb } } ∧
        ((pend s).isSome = true → countedUp Reg.SYS_UPB_SUPER_CNT s t)) ∧
      (firstFail checks = none → v.getLsbD 15 = false → ∃ t, exec (.sysUpbCommit o v) s = .next t ∧
        onlyRegs [Reg.SYS_UPB_COMMIT] s t)) ∧
    (let sec := (nowSplit s).sec
      let p := match fget s Fld.STAT_PERIOD_PERIOD with | 0 => 1 | 1 => 10 | 2 => 60 | _ => 900
      let due := (s.sys.statPartial = true ∨ sec % p = 0) ∧ ∀ l, s.sys.statSec = some l → l < sec / p * p;
      (¬due → exec .statBoundary s = .next s) ∧
      (due → ∃ t, exec .statBoundary s = .next t ∧
        (∀ a ∈ namedCounters, bankGet t a = regGet s a ∧ regGet t a = 0) ∧ (∀ a ∈ keptRegisters, regGet t a = regGet s a) ∧
        regGet t Reg.STAT_INDEX_0 = BitVec.ofNat 32 (sec / p) ∧ regGet t Reg.STAT_BOUND_T_1 = BitVec.ofNat 32 (sec / p * p) ∧
        regGet t Reg.STAT_BOUND_T_0 = 0 ∧ fbit t Fld.STAT_STATUS_PARTIAL = s.sys.statPartial ∧
        fget t Fld.MIR_BUDGET_PEAK = 0 ∧ t.sys.statPartial = false ∧ t.sys.statSec = some (sec / p * p) ∧
        t = { s with regs := t.regs, bank := t.bank, sys := { s.sys with
          statPartial := false, statSec := t.sys.statSec, statPeriod := t.sys.statPeriod } })) ∧
    (let checks := [(roleOrCore .operator o, Status.notPermitted), (s.sys.mode != .boot, .illegalInMode)];
      (∀ st, firstFail checks = some st → ∃ t, exec (.statPeriodWrite o v) s = .next t ∧ refusedWrite [] st s t) ∧
      (firstFail checks = none → ∃ t, exec (.statPeriodWrite o v) s = .next t ∧
        fget t Fld.STAT_PERIOD_PERIOD = fieldGet v 1 0 ∧ regsBut [Reg.STAT_PERIOD] s t ∧
        t = { s with regs := t.regs, sys := { s.sys with statPartial := true } }))

/-! ### The whole machine -/

/-- A step is exec of the command at the front of the queue on the rest of the queue; without a command the counter
ticks. (95_what_each_step_holds.md, 13_time_and_ethernet.md: R326) -/
def Obligations.StepRunsTheFrontCommand : Prop :=
  (∀ (c : Instr) (rest : List Instr) (s : State), s.pending = c :: rest → step s = exec c { s with pending := rest }) ∧
  (∀ s : State, s.pending = [] → ∃ t, step s = .next t ∧
    t = { s with time := { s.time with cnt := t.time.cnt }, saf := { s.saf with osc := t.saf.osc } } ∧
    t.saf.osc = s.saf.osc + 1 ∧ t.time.cnt < 2 ^ 64 ∧ (s.time.cnt + 1 < 2 ^ 64 → t.time.cnt = s.time.cnt + 1))

/-- Registers whose reset value the register tables state, with that value. -/
def resetValues : List (Nat × Nat) :=
  [(Reg.ESC_PERIOD, 0x1388), (Reg.CHR_SEQ_WIN, 0x3E8), (Reg.STAT_PERIOD, 1), (Reg.SCH_CTRL, 0x1001), (Reg.SCH_CAP, 0x280),
   (Reg.HKA_TIMER, 0x3E8), (Reg.HKA_ESCDIV, 0x64), (Reg.FAD_WIN_HI 0, 0x1FFFF), (Reg.FAD_WIN_LO 0, 0xFFFE0000),
   (Reg.BTN_START_HOLD, 0x7D0), (Reg.MIR_CTRL, 3), (Reg.TIM_SERVO, 0x64000A), (Reg.TIM_HOLD, 0x258),
   (Reg.FCO_EVT_WDT, 0x64), (Reg.ETH_GPUB_T0 3, 0x3E8), (Reg.SCH_TIM_PER 2, 0x3E8), (Reg.SYS_REJECT_COUNT, 0)]

/-- After reset the module is in BOOT with its outputs off, its registers at their reset values, and its storage in
canonical form. (01_module_architecture.md: R9, 17_safety_functions.md: R413, 19_modes_and_start_up.md: R459, R463) -/
def Obligations.ResetIsAsTheTablesSay : Prop :=
  let s := State.reset;
  Canonical s ∧ s.pending = [] ∧ s.staged = [] ∧ s.sys.mode = .boot ∧ s.sys.role = .standby ∧ s.sch.ready = [] ∧
    s.sch.held = [] ∧ s.fco.log = [] ∧ regGet s Reg.FCO_STATUS_0 = 0 ∧ outputsOff s ∧ s.saf.latch = false ∧
    (∀ e ∈ resetValues, (regGet s e.1).toNat = e.2) ∧ ∀ a, memRead s a = 0

/-- Every command answers a next state, leaves the queue alone and keeps memory, buffers and registers in canonical
form. (01_module_architecture.md: R3, R17, 20_management_and_address_map.md: R469, R470) -/
def Obligations.EveryStepKeepsTheCanonicalForm : Prop :=
  (∀ (c : Instr) (s : State), ∃ t, exec c s = .next t ∧ Keeps s t) ∧
  (∀ s : State, Canonical s → ∃ t, step s = .next t ∧ Canonical t ∧ t.pending = s.pending.tail)

/-- Decoding the word of a Feano cycle instruction gives back the instruction with every operand.
(08_feano_instruction_set.md: R211, R213, R214) -/
def Obligations.InstructionWordsDecodeToTheirInstruction : Prop :=
  (∀ (i : Instr) (c : Fin 8) (w : Word), Fci.encode i = some (c, w) → Fci.decode c w = some i) ∧
  (∀ (i j : Instr) (c : Fin 8) (w : Word), Fci.encode i = some (c, w) → Fci.encode j = some (c, w) → i = j)
end

