-- ==== Sys2Proof/Laws/Store.lean ====
section
/-! SUPPORT. What the operations on stores and memories do: a read after a write, and the canonical form they keep. -/

namespace Sys2Proof.Machine

variable {α : Type}

/-! ### Reads after writes -/

theorem Store.get_erase_self (d : Nat → α) (m : Store α) (k : Nat) : Store.get d (Store.erase m k) k = d k := by
  induction m with
  | nil => rfl
  | cons e m ih =>
    obtain ⟨j, v⟩ := e
    by_cases h : j = k
    · simpa [Store.erase, List.filter_cons, h] using ih
    · simp only [Store.erase, List.filter_cons, ne_eq, h, not_false_eq_true, decide_true, if_true, Store.get, if_false]
      exact ih

theorem Store.get_erase_other (d : Nat → α) (m : Store α) {k x : Nat} (hx : x ≠ k) :
    Store.get d (Store.erase m k) x = Store.get d m x := by
  induction m with
  | nil => rfl
  | cons e m ih =>
    obtain ⟨j, v⟩ := e
    by_cases h : j = k
    · have hj : j ≠ x := fun e => hx (e ▸ h)
      simpa [Store.erase, List.filter_cons, h, Store.get, Ne.symm hx] using ih
    · simp only [Store.erase, List.filter_cons, ne_eq, h, not_false_eq_true, decide_true, if_true, Store.get]
      split
      · rfl
      · exact ih

theorem Store.get_insert_other (d : Nat → α) (m : Store α) {k x : Nat} (v : α) (hx : x ≠ k) :
    Store.get d (Store.insert m k v) x = Store.get d m x := by
  induction m with
  | nil => simp [Store.insert, Store.get, Ne.symm hx]
  | cons e m ih =>
    obtain ⟨j, w⟩ := e
    simp only [Store.insert]
    split
    · simp [Store.get, Ne.symm hx]
    · simp only [Store.get, ih]

theorem Store.get_insert_self (d : Nat → α) (m : Store α) {k : Nat} (v : α) (h : ∀ e ∈ m, e.1 ≠ k) :
    Store.get d (Store.insert m k v) k = v := by
  induction m with
  | nil => simp [Store.insert, Store.get]
  | cons e m ih =>
    obtain ⟨j, w⟩ := e
    simp only [Store.insert]
    split
    · simp [Store.get]
    · have hj : j ≠ k := h (j, w) (by simp)
      simp only [Store.get, hj, if_false]
      exact ih (fun e he => h e (by simp [he]))

theorem Store.not_mem_erase (m : Store α) (k : Nat) : ∀ e ∈ Store.erase m k, e.1 ≠ k := by
  intro e he
  simpa using (List.mem_filter.mp he).2

/-- A read after a write. -/
theorem Store.get_set [DecidableEq α] (d : Nat → α) (m : Store α) (k : Nat) (v : α) (x : Nat) :
    Store.get d (Store.set d m k v) x = if x = k then v else Store.get d m x := by
  unfold Store.set
  by_cases hx : x = k
  · subst hx
    by_cases hv : v = d x
    · simp [hv, Store.get_erase_self]
    · simp [hv, Store.get_insert_self d _ v (Store.not_mem_erase m x)]
  · by_cases hv : v = d k
    · simp [hv, hx, Store.get_erase_other d m hx]
    · simp [hv, hx, Store.get_insert_other d _ v hx, Store.get_erase_other d m hx]

@[simp] theorem Store.get_set_self [DecidableEq α] (d : Nat → α) (m : Store α) (k : Nat) (v : α) :
    Store.get d (Store.set d m k v) k = v := by simp [Store.get_set]

theorem Store.get_set_other [DecidableEq α] (d : Nat → α) (m : Store α) {k x : Nat} (v : α) (h : x ≠ k) :
    Store.get d (Store.set d m k v) x = Store.get d m x := by simp [Store.get_set, h]

/-! ### The canonical form -/

theorem Store.above_iff (b : Nat) (m : Store α) : Store.above b m = true ↔ ∀ e ∈ m, b < e.1 := by
  simp [Store.above]

theorem Store.wf_cons [DecidableEq α] (d : Nat → α) (e : Nat × α) (m : Store α) :
    Store.wf d (e :: m) = true ↔ e.2 ≠ d e.1 ∧ (∀ x ∈ m, e.1 < x.1) ∧ Store.wf d m = true := by
  obtain ⟨j, v⟩ := e
  simp [Store.wf, Store.above_iff, and_assoc]

/-- A canonical store stays so when entries are left out. -/
theorem Store.wf_filter [DecidableEq α] (d : Nat → α) (p : Nat × α → Bool) (m : Store α) (h : Store.wf d m = true) :
    Store.wf d (m.filter p) = true := by
  induction m with
  | nil => rfl
  | cons e m ih =>
    rw [Store.wf_cons] at h
    rw [List.filter_cons]
    split
    · rw [Store.wf_cons]
      exact ⟨h.1, fun x hx => h.2.1 x (List.mem_filter.mp hx).1, ih h.2.2⟩
    · exact ih h.2.2

theorem Store.mem_insert (m : Store α) (k : Nat) (v : α) (x : Nat × α) (hx : x ∈ Store.insert m k v) :
    x = (k, v) ∨ x ∈ m := by
  induction m with
  | nil => simpa [Store.insert] using hx
  | cons e m ih =>
    obtain ⟨j, w⟩ := e
    simp only [Store.insert] at hx
    split at hx
    · simpa using hx
    · rcases List.mem_cons.mp hx with h | h
      · simp [h]
      · rcases ih h with h | h <;> simp [h]

theorem Store.wf_insert [DecidableEq α] (d : Nat → α) (m : Store α) (k : Nat) (v : α) (hv : v ≠ d k)
    (hk : ∀ e ∈ m, e.1 ≠ k) (h : Store.wf d m = true) : Store.wf d (Store.insert m k v) = true := by
  induction m with
  | nil => simp [Store.insert, Store.wf, Store.above, hv]
  | cons e m ih =>
    obtain ⟨j, w⟩ := e
    rw [Store.wf_cons] at h
    simp only [Store.insert]
    split
    · rename_i hlt
      rw [Store.wf_cons, Store.wf_cons]
      refine ⟨hv, ?_, h⟩
      intro x hx
      rcases List.mem_cons.mp hx with rfl | hx
      · exact hlt
      · exact Nat.lt_trans hlt (h.2.1 x hx)
    · rename_i hge
      rw [Store.wf_cons]
      refine ⟨h.1, ?_, ih (fun e he => hk e (by simp [he])) h.2.2⟩
      intro x hx
      rcases Store.mem_insert m k v x hx with rfl | hx
      · exact Nat.lt_of_le_of_ne (Nat.le_of_not_lt hge) (hk (j, w) (by simp))
      · exact h.2.1 x hx

/-- A write keeps the canonical form. -/
theorem Store.wf_set [DecidableEq α] (d : Nat → α) (m : Store α) (k : Nat) (v : α) (h : Store.wf d m = true) :
    Store.wf d (Store.set d m k v) = true := by
  unfold Store.set
  have he : Store.wf d (Store.erase m k) = true := Store.wf_filter d _ m h
  split
  · exact he
  · rename_i hv
    exact Store.wf_insert d _ k v hv (Store.not_mem_erase m k) he

theorem Store.wf_append [DecidableEq α] (d : Nat → α) (l m : Store α) (hl : Store.wf d l = true)
    (hm : Store.wf d m = true) (h : ∀ x ∈ l, ∀ y ∈ m, x.1 < y.1) : Store.wf d (l ++ m) = true := by
  induction l with
  | nil => exact hm
  | cons e l ih =>
    rw [Store.wf_cons] at hl
    rw [List.cons_append, Store.wf_cons]
    refine ⟨hl.1, ?_, ih hl.2.2 (fun x hx => h x (by simp [hx]))⟩
    intro x hx
    rcases List.mem_append.mp hx with hx | hx
    · exact hl.2.1 x hx
    · exact h e (by simp) x hx

/-! ### Memory -/

theorem Memory.read_write (m : Memory) (a : Nat) (b : Byte) (x : Nat) :
    Memory.read (Memory.write m a b) x = if x = a then b else Memory.read m x := Store.get_set _ _ _ _ _

theorem Memory.wf_write (m : Memory) (a : Nat) (b : Byte) (h : Memory.wf m = true) :
    Memory.wf (Memory.write m a b) = true := Store.wf_set _ _ _ _ h

theorem Memory.wf_writeList (m : Memory) (a : Nat) (bs : List Byte) (h : Memory.wf m = true) :
    Memory.wf (Memory.writeList m a bs) = true := by
  induction bs generalizing m a with
  | nil => exact h
  | cons b bs ih => exact ih _ _ (Memory.wf_write m a b h)

/-- A byte after a list of bytes is stored from `a` upward. -/
theorem Memory.read_writeList (m : Memory) (a : Nat) (bs : List Byte) (x : Nat) :
    Memory.read (Memory.writeList m a bs) x =
      if h : a ≤ x ∧ x - a < bs.length then bs[x - a]'h.2 else Memory.read m x := by
  induction bs generalizing m a with
  | nil => simp [Memory.writeList]
  | cons b bs ih =>
    simp only [Memory.writeList, ih, Memory.read_write]
    by_cases h1 : x = a
    · subst h1
      rw [dif_neg (by omega), if_pos rfl, dif_pos (by simp)]
      simp
    · by_cases h2 : a ≤ x
      · have h3 : a + 1 ≤ x := by omega
        have h4 : x - a = (x - (a + 1)) + 1 := by omega
        by_cases h5 : x - (a + 1) < bs.length
        · simp [h3, h2, h5, h4]
        · simp [h3, h2, h5, h4, h1]
      · have h3 : ¬ a + 1 ≤ x := by omega
        simp [h2, h3, h1]

theorem Memory.read_writeList_other (m : Memory) (a : Nat) (bs : List Byte) (x : Nat)
    (h : ¬(a ≤ x ∧ x < a + bs.length)) : Memory.read (Memory.writeList m a bs) x = Memory.read m x := by
  rw [Memory.read_writeList, dif_neg]
  omega

theorem Memory.wf_copyRange (a n : Nat) (h m : Memory) (hh : Memory.wf h = true) (hm : Memory.wf m = true) :
    Memory.wf (Memory.copyRange a n h m) = true := by
  unfold Memory.copyRange
  refine Store.wf_append _ _ _ (Store.wf_append _ _ _ (Store.wf_filter _ _ _ hm) (Store.wf_filter _ _ _ hh) ?_)
    (Store.wf_filter _ _ _ hm) ?_
  · intro x hx y hy
    have h1 := (List.mem_filter.mp hx).2
    have h2 := (List.mem_filter.mp hy).2
    simp only [decide_eq_true_eq] at h1 h2
    omega
  · intro x hx y hy
    have h2 := (List.mem_filter.mp hy).2
    simp only [decide_eq_true_eq] at h2
    rcases List.mem_append.mp hx with hx | hx
    · have h1 := (List.mem_filter.mp hx).2
      simp only [decide_eq_true_eq] at h1
      omega
    · have h1 := (List.mem_filter.mp hx).2
      simp only [decide_eq_true_eq] at h1
      omega

theorem Store.get_filter (d : Nat → α) (p : Nat → Bool) (m : Store α) (x : Nat) :
    Store.get d (m.filter (fun e => p e.1)) x = if p x then Store.get d m x else d x := by
  induction m with
  | nil => simp [Store.get]
  | cons e m ih =>
    obtain ⟨j, v⟩ := e
    rw [List.filter_cons]
    cases hp : p j with
    | true =>
      by_cases hj : j = x
      · subst hj
        simp [hp, Store.get]
      · simp [Store.get, hj, ih]
    | false =>
      by_cases hj : j = x
      · subst hj
        simpa [hp] using ih
      · simpa [Store.get, hj] using ih

theorem Store.get_append (d : Nat → α) (l m : Store α) (x : Nat) :
    Store.get d (l ++ m) x = if (l.any (fun e => e.1 == x)) then Store.get d l x else Store.get d m x := by
  induction l with
  | nil => simp
  | cons e l ih =>
    obtain ⟨j, v⟩ := e
    by_cases hj : j = x
    · simp [Store.get, hj]
    · rw [List.cons_append, Store.get, if_neg hj, ih, Store.get, if_neg hj]
      have : (j == x) = false := by simp [hj]
      simp only [List.any_cons, this, Bool.false_or]

theorem Store.get_unlisted (d : Nat → α) (l : Store α) (x : Nat) (h : (l.any (fun e => e.1 == x)) = false) :
    Store.get d l x = d x := by
  induction l with
  | nil => rfl
  | cons e l ih =>
    obtain ⟨j, v⟩ := e
    simp only [List.any_cons, Bool.or_eq_false_iff, beq_eq_false_iff_ne, ne_eq] at h
    simp [Store.get, h.1, ih h.2]

theorem Store.any_filter_out (p : Nat → Bool) (m : Store α) (x : Nat) (h : p x = false) :
    ((m.filter (fun e => p e.1)).any (fun e => e.1 == x)) = false := by
  rw [List.any_eq_false]
  intro e he hx
  have h1 := (List.mem_filter.mp he).2
  simp only [beq_iff_eq] at hx
  rw [hx, h] at h1
  exact Bool.noConfusion h1

/-- A byte after the range from `a` of length `n` is copied from `h`. -/
theorem Memory.read_copyRange (a n : Nat) (h m : Memory) (x : Nat) :
    Memory.read (Memory.copyRange a n h m) x =
      if a ≤ x ∧ x < a + n then Memory.read h x else Memory.read m x := by
  unfold Memory.copyRange Memory.read
  have e1 := Store.get_filter Memory.unlisted (fun y => decide (y < a)) m x
  have e2 := Store.get_filter Memory.unlisted (fun y => decide (a ≤ y ∧ y < a + n)) h x
  have e3 := Store.get_filter Memory.unlisted (fun y => decide (a + n ≤ y)) m x
  rw [List.append_assoc, Store.get_append, Store.get_append, e1, e2, e3]
  by_cases h1 : x < a
  · have n2 : ¬(a ≤ x ∧ x < a + n) := by omega
    have n3 : ¬(a + n ≤ x) := by omega
    have o2 := Store.any_filter_out (fun y => decide (a ≤ y ∧ y < a + n)) h x (by simpa using n2)
    simp only [h1, decide_true, if_true, n2, if_false, n3, o2, decide_false]
    split
    · rfl
    · rename_i hl
      have hl' := Bool.eq_false_iff.mpr hl
      have := Store.get_unlisted Memory.unlisted _ x hl'
      rw [e1] at this
      simpa [h1] using this.symm
  · have o1 := Store.any_filter_out (fun y => decide (y < a)) m x (by simpa using h1)
    simp only [o1]
    by_cases h2 : x < a + n
    · have y2 : a ≤ x ∧ x < a + n := by omega
      have n3 : ¬(a + n ≤ x) := by omega
      simp only [y2, and_self, decide_true, if_true, n3, decide_false]
      split
      · rename_i hc; exact absurd hc (by simp)
      · split
        · rfl
        · rename_i hl
          have hl' := Bool.eq_false_iff.mpr hl
          have := Store.get_unlisted Memory.unlisted _ x hl'
          rw [e2] at this
          simpa [y2] using this.symm
    · have n2 : ¬(a ≤ x ∧ x < a + n) := by omega
      have y3 : a + n ≤ x := by omega
      have o2 := Store.any_filter_out (fun y => decide (a ≤ y ∧ y < a + n)) h x (by simpa using n2)
      simp [n2, y3]

end Sys2Proof.Machine
end

