-- ==== Sys2Proof/Laws/State.lean ====
section
/-! SUPPORT. What each update of the state leaves alone, field by field, and what it writes: the lemmas that later proofs
use in place of unfolding an update. -/

namespace Sys2Proof.Machine

/-! ### What an update leaves alone -/

@[simp] theorem regSet_pending (a : Nat) (v : Word) (s : State) : (regSet a v s).pending = s.pending := (rfl)
@[simp] theorem regSet_freeCtr (a : Nat) (v : Word) (s : State) : (regSet a v s).freeCtr = s.freeCtr := (rfl)
@[simp] theorem regSet_pub (a : Nat) (v : Word) (s : State) : (regSet a v s).pub = s.pub := (rfl)
@[simp] theorem regSet_latches (a : Nat) (v : Word) (s : State) : (regSet a v s).latches = s.latches := (rfl)
@[simp] theorem regSet_bank (a : Nat) (v : Word) (s : State) : (regSet a v s).bank = s.bank := (rfl)
@[simp] theorem regSet_staged (a : Nat) (v : Word) (s : State) : (regSet a v s).staged = s.staged := (rfl)
@[simp] theorem regSet_mem (a : Nat) (v : Word) (s : State) : (regSet a v s).mem = s.mem := (rfl)
@[simp] theorem regSet_hidden (a : Nat) (v : Word) (s : State) : (regSet a v s).hidden = s.hidden := (rfl)
@[simp] theorem regSet_sys (a : Nat) (v : Word) (s : State) : (regSet a v s).sys = s.sys := (rfl)
@[simp] theorem regSet_time (a : Nat) (v : Word) (s : State) : (regSet a v s).time = s.time := (rfl)
@[simp] theorem regSet_esc (a : Nat) (v : Word) (s : State) : (regSet a v s).esc = s.esc := (rfl)
@[simp] theorem regSet_sch (a : Nat) (v : Word) (s : State) : (regSet a v s).sch = s.sch := (rfl)
@[simp] theorem regSet_fco (a : Nat) (v : Word) (s : State) : (regSet a v s).fco = s.fco := (rfl)
@[simp] theorem regSet_saf (a : Nat) (v : Word) (s : State) : (regSet a v s).saf = s.saf := (rfl)
@[simp] theorem regSet_btn (a : Nat) (v : Word) (s : State) : (regSet a v s).btn = s.btn := (rfl)
@[simp] theorem regSet_cores (a : Nat) (v : Word) (s : State) : (regSet a v s).cores = s.cores := (rfl)
@[simp] theorem regSet_eng (a : Nat) (v : Word) (s : State) : (regSet a v s).eng = s.eng := (rfl)
@[simp] theorem regSet_recent (a : Nat) (v : Word) (s : State) : (regSet a v s).recent = s.recent := (rfl)
@[simp] theorem regSet_cells (a : Nat) (v : Word) (s : State) : (regSet a v s).cells = s.cells := (rfl)
@[simp] theorem regSet_wheels (a : Nat) (v : Word) (s : State) : (regSet a v s).wheels = s.wheels := (rfl)
@[simp] theorem regSet_ports (a : Nat) (v : Word) (s : State) : (regSet a v s).ports = s.ports := (rfl)
@[simp] theorem regSet_svcSeq (a : Nat) (v : Word) (s : State) : (regSet a v s).svcSeq = s.svcSeq := (rfl)
@[simp] theorem regSet_loops (a : Nat) (v : Word) (s : State) : (regSet a v s).loops = s.loops := (rfl)
@[simp] theorem regSet_measLast (a : Nat) (v : Word) (s : State) : (regSet a v s).measLast = s.measLast := (rfl)
@[simp] theorem regSet_front (a : Nat) (v : Word) (s : State) : (regSet a v s).front = s.front := (rfl)
@[simp] theorem regSet_chr (a : Nat) (v : Word) (s : State) : (regSet a v s).chr = s.chr := (rfl)
@[simp] theorem regSet_eth (a : Nat) (v : Word) (s : State) : (regSet a v s).eth = s.eth := (rfl)
@[simp] theorem regSet_fio (a : Nat) (v : Word) (s : State) : (regSet a v s).fio = s.fio := (rfl)
@[simp] theorem regSet_userOut (a : Nat) (v : Word) (s : State) : (regSet a v s).userOut = s.userOut := (rfl)

@[simp] theorem fset_pending (f : Field) (v : Nat) (s : State) : (fset f v s).pending = s.pending := (rfl)
@[simp] theorem fset_freeCtr (f : Field) (v : Nat) (s : State) : (fset f v s).freeCtr = s.freeCtr := (rfl)
@[simp] theorem fset_pub (f : Field) (v : Nat) (s : State) : (fset f v s).pub = s.pub := (rfl)
@[simp] theorem fset_latches (f : Field) (v : Nat) (s : State) : (fset f v s).latches = s.latches := (rfl)
@[simp] theorem fset_bank (f : Field) (v : Nat) (s : State) : (fset f v s).bank = s.bank := (rfl)
@[simp] theorem fset_staged (f : Field) (v : Nat) (s : State) : (fset f v s).staged = s.staged := (rfl)
@[simp] theorem fset_mem (f : Field) (v : Nat) (s : State) : (fset f v s).mem = s.mem := (rfl)
@[simp] theorem fset_hidden (f : Field) (v : Nat) (s : State) : (fset f v s).hidden = s.hidden := (rfl)
@[simp] theorem fset_sys (f : Field) (v : Nat) (s : State) : (fset f v s).sys = s.sys := (rfl)
@[simp] theorem fset_time (f : Field) (v : Nat) (s : State) : (fset f v s).time = s.time := (rfl)
@[simp] theorem fset_esc (f : Field) (v : Nat) (s : State) : (fset f v s).esc = s.esc := (rfl)
@[simp] theorem fset_sch (f : Field) (v : Nat) (s : State) : (fset f v s).sch = s.sch := (rfl)
@[simp] theorem fset_fco (f : Field) (v : Nat) (s : State) : (fset f v s).fco = s.fco := (rfl)
@[simp] theorem fset_saf (f : Field) (v : Nat) (s : State) : (fset f v s).saf = s.saf := (rfl)
@[simp] theorem fset_btn (f : Field) (v : Nat) (s : State) : (fset f v s).btn = s.btn := (rfl)
@[simp] theorem fset_cores (f : Field) (v : Nat) (s : State) : (fset f v s).cores = s.cores := (rfl)
@[simp] theorem fset_eng (f : Field) (v : Nat) (s : State) : (fset f v s).eng = s.eng := (rfl)
@[simp] theorem fset_recent (f : Field) (v : Nat) (s : State) : (fset f v s).recent = s.recent := (rfl)
@[simp] theorem fset_cells (f : Field) (v : Nat) (s : State) : (fset f v s).cells = s.cells := (rfl)
@[simp] theorem fset_wheels (f : Field) (v : Nat) (s : State) : (fset f v s).wheels = s.wheels := (rfl)
@[simp] theorem fset_ports (f : Field) (v : Nat) (s : State) : (fset f v s).ports = s.ports := (rfl)
@[simp] theorem fset_svcSeq (f : Field) (v : Nat) (s : State) : (fset f v s).svcSeq = s.svcSeq := (rfl)
@[simp] theorem fset_loops (f : Field) (v : Nat) (s : State) : (fset f v s).loops = s.loops := (rfl)
@[simp] theorem fset_measLast (f : Field) (v : Nat) (s : State) : (fset f v s).measLast = s.measLast := (rfl)
@[simp] theorem fset_front (f : Field) (v : Nat) (s : State) : (fset f v s).front = s.front := (rfl)
@[simp] theorem fset_chr (f : Field) (v : Nat) (s : State) : (fset f v s).chr = s.chr := (rfl)
@[simp] theorem fset_eth (f : Field) (v : Nat) (s : State) : (fset f v s).eth = s.eth := (rfl)
@[simp] theorem fset_fio (f : Field) (v : Nat) (s : State) : (fset f v s).fio = s.fio := (rfl)
@[simp] theorem fset_userOut (f : Field) (v : Nat) (s : State) : (fset f v s).userOut = s.userOut := (rfl)

@[simp] theorem bumpBy_pending (n a : Nat) (s : State) : (bumpBy n a s).pending = s.pending := (rfl)
@[simp] theorem bumpBy_freeCtr (n a : Nat) (s : State) : (bumpBy n a s).freeCtr = s.freeCtr := (rfl)
@[simp] theorem bumpBy_pub (n a : Nat) (s : State) : (bumpBy n a s).pub = s.pub := (rfl)
@[simp] theorem bumpBy_latches (n a : Nat) (s : State) : (bumpBy n a s).latches = s.latches := (rfl)
@[simp] theorem bumpBy_bank (n a : Nat) (s : State) : (bumpBy n a s).bank = s.bank := (rfl)
@[simp] theorem bumpBy_staged (n a : Nat) (s : State) : (bumpBy n a s).staged = s.staged := (rfl)
@[simp] theorem bumpBy_mem (n a : Nat) (s : State) : (bumpBy n a s).mem = s.mem := (rfl)
@[simp] theorem bumpBy_hidden (n a : Nat) (s : State) : (bumpBy n a s).hidden = s.hidden := (rfl)
@[simp] theorem bumpBy_sys (n a : Nat) (s : State) : (bumpBy n a s).sys = s.sys := (rfl)
@[simp] theorem bumpBy_time (n a : Nat) (s : State) : (bumpBy n a s).time = s.time := (rfl)
@[simp] theorem bumpBy_esc (n a : Nat) (s : State) : (bumpBy n a s).esc = s.esc := (rfl)
@[simp] theorem bumpBy_sch (n a : Nat) (s : State) : (bumpBy n a s).sch = s.sch := (rfl)
@[simp] theorem bumpBy_fco (n a : Nat) (s : State) : (bumpBy n a s).fco = s.fco := (rfl)
@[simp] theorem bumpBy_saf (n a : Nat) (s : State) : (bumpBy n a s).saf = s.saf := (rfl)
@[simp] theorem bumpBy_btn (n a : Nat) (s : State) : (bumpBy n a s).btn = s.btn := (rfl)
@[simp] theorem bumpBy_cores (n a : Nat) (s : State) : (bumpBy n a s).cores = s.cores := (rfl)
@[simp] theorem bumpBy_eng (n a : Nat) (s : State) : (bumpBy n a s).eng = s.eng := (rfl)
@[simp] theorem bumpBy_recent (n a : Nat) (s : State) : (bumpBy n a s).recent = s.recent := (rfl)
@[simp] theorem bumpBy_cells (n a : Nat) (s : State) : (bumpBy n a s).cells = s.cells := (rfl)
@[simp] theorem bumpBy_wheels (n a : Nat) (s : State) : (bumpBy n a s).wheels = s.wheels := (rfl)
@[simp] theorem bumpBy_ports (n a : Nat) (s : State) : (bumpBy n a s).ports = s.ports := (rfl)
@[simp] theorem bumpBy_svcSeq (n a : Nat) (s : State) : (bumpBy n a s).svcSeq = s.svcSeq := (rfl)
@[simp] theorem bumpBy_loops (n a : Nat) (s : State) : (bumpBy n a s).loops = s.loops := (rfl)
@[simp] theorem bumpBy_measLast (n a : Nat) (s : State) : (bumpBy n a s).measLast = s.measLast := (rfl)
@[simp] theorem bumpBy_front (n a : Nat) (s : State) : (bumpBy n a s).front = s.front := (rfl)
@[simp] theorem bumpBy_chr (n a : Nat) (s : State) : (bumpBy n a s).chr = s.chr := (rfl)
@[simp] theorem bumpBy_eth (n a : Nat) (s : State) : (bumpBy n a s).eth = s.eth := (rfl)
@[simp] theorem bumpBy_fio (n a : Nat) (s : State) : (bumpBy n a s).fio = s.fio := (rfl)
@[simp] theorem bumpBy_userOut (n a : Nat) (s : State) : (bumpBy n a s).userOut = s.userOut := (rfl)

@[simp] theorem bump_pending (a : Nat) (s : State) : (bump a s).pending = s.pending := (rfl)
@[simp] theorem bump_freeCtr (a : Nat) (s : State) : (bump a s).freeCtr = s.freeCtr := (rfl)
@[simp] theorem bump_pub (a : Nat) (s : State) : (bump a s).pub = s.pub := (rfl)
@[simp] theorem bump_latches (a : Nat) (s : State) : (bump a s).latches = s.latches := (rfl)
@[simp] theorem bump_bank (a : Nat) (s : State) : (bump a s).bank = s.bank := (rfl)
@[simp] theorem bump_staged (a : Nat) (s : State) : (bump a s).staged = s.staged := (rfl)
@[simp] theorem bump_mem (a : Nat) (s : State) : (bump a s).mem = s.mem := (rfl)
@[simp] theorem bump_hidden (a : Nat) (s : State) : (bump a s).hidden = s.hidden := (rfl)
@[simp] theorem bump_sys (a : Nat) (s : State) : (bump a s).sys = s.sys := (rfl)
@[simp] theorem bump_time (a : Nat) (s : State) : (bump a s).time = s.time := (rfl)
@[simp] theorem bump_esc (a : Nat) (s : State) : (bump a s).esc = s.esc := (rfl)
@[simp] theorem bump_sch (a : Nat) (s : State) : (bump a s).sch = s.sch := (rfl)
@[simp] theorem bump_fco (a : Nat) (s : State) : (bump a s).fco = s.fco := (rfl)
@[simp] theorem bump_saf (a : Nat) (s : State) : (bump a s).saf = s.saf := (rfl)
@[simp] theorem bump_btn (a : Nat) (s : State) : (bump a s).btn = s.btn := (rfl)
@[simp] theorem bump_cores (a : Nat) (s : State) : (bump a s).cores = s.cores := (rfl)
@[simp] theorem bump_eng (a : Nat) (s : State) : (bump a s).eng = s.eng := (rfl)
@[simp] theorem bump_recent (a : Nat) (s : State) : (bump a s).recent = s.recent := (rfl)
@[simp] theorem bump_cells (a : Nat) (s : State) : (bump a s).cells = s.cells := (rfl)
@[simp] theorem bump_wheels (a : Nat) (s : State) : (bump a s).wheels = s.wheels := (rfl)
@[simp] theorem bump_ports (a : Nat) (s : State) : (bump a s).ports = s.ports := (rfl)
@[simp] theorem bump_svcSeq (a : Nat) (s : State) : (bump a s).svcSeq = s.svcSeq := (rfl)
@[simp] theorem bump_loops (a : Nat) (s : State) : (bump a s).loops = s.loops := (rfl)
@[simp] theorem bump_measLast (a : Nat) (s : State) : (bump a s).measLast = s.measLast := (rfl)
@[simp] theorem bump_front (a : Nat) (s : State) : (bump a s).front = s.front := (rfl)
@[simp] theorem bump_chr (a : Nat) (s : State) : (bump a s).chr = s.chr := (rfl)
@[simp] theorem bump_eth (a : Nat) (s : State) : (bump a s).eth = s.eth := (rfl)
@[simp] theorem bump_fio (a : Nat) (s : State) : (bump a s).fio = s.fio := (rfl)
@[simp] theorem bump_userOut (a : Nat) (s : State) : (bump a s).userOut = s.userOut := (rfl)

@[simp] theorem setSplitRegs_pending (a : Nat) (t : Split) (s : State) : (setSplitRegs a t s).pending = s.pending :=
  (rfl)
@[simp] theorem setSplitRegs_freeCtr (a : Nat) (t : Split) (s : State) : (setSplitRegs a t s).freeCtr = s.freeCtr :=
  (rfl)
@[simp] theorem setSplitRegs_pub (a : Nat) (t : Split) (s : State) : (setSplitRegs a t s).pub = s.pub := (rfl)
@[simp] theorem setSplitRegs_latches (a : Nat) (t : Split) (s : State) : (setSplitRegs a t s).latches = s.latches :=
  (rfl)
@[simp] theorem setSplitRegs_bank (a : Nat) (t : Split) (s : State) : (setSplitRegs a t s).bank = s.bank := (rfl)
@[simp] theorem setSplitRegs_staged (a : Nat) (t : Split) (s : State) : (setSplitRegs a t s).staged = s.staged :=
  (rfl)
@[simp] theorem setSplitRegs_mem (a : Nat) (t : Split) (s : State) : (setSplitRegs a t s).mem = s.mem := (rfl)
@[simp] theorem setSplitRegs_hidden (a : Nat) (t : Split) (s : State) : (setSplitRegs a t s).hidden = s.hidden :=
  (rfl)
@[simp] theorem setSplitRegs_sys (a : Nat) (t : Split) (s : State) : (setSplitRegs a t s).sys = s.sys := (rfl)
@[simp] theorem setSplitRegs_time (a : Nat) (t : Split) (s : State) : (setSplitRegs a t s).time = s.time := (rfl)
@[simp] theorem setSplitRegs_esc (a : Nat) (t : Split) (s : State) : (setSplitRegs a t s).esc = s.esc := (rfl)
@[simp] theorem setSplitRegs_sch (a : Nat) (t : Split) (s : State) : (setSplitRegs a t s).sch = s.sch := (rfl)
@[simp] theorem setSplitRegs_fco (a : Nat) (t : Split) (s : State) : (setSplitRegs a t s).fco = s.fco := (rfl)
@[simp] theorem setSplitRegs_saf (a : Nat) (t : Split) (s : State) : (setSplitRegs a t s).saf = s.saf := (rfl)
@[simp] theorem setSplitRegs_btn (a : Nat) (t : Split) (s : State) : (setSplitRegs a t s).btn = s.btn := (rfl)
@[simp] theorem setSplitRegs_cores (a : Nat) (t : Split) (s : State) : (setSplitRegs a t s).cores = s.cores := (rfl)
@[simp] theorem setSplitRegs_eng (a : Nat) (t : Split) (s : State) : (setSplitRegs a t s).eng = s.eng := (rfl)
@[simp] theorem setSplitRegs_recent (a : Nat) (t : Split) (s : State) : (setSplitRegs a t s).recent = s.recent :=
  (rfl)
@[simp] theorem setSplitRegs_cells (a : Nat) (t : Split) (s : State) : (setSplitRegs a t s).cells = s.cells := (rfl)
@[simp] theorem setSplitRegs_wheels (a : Nat) (t : Split) (s : State) : (setSplitRegs a t s).wheels = s.wheels :=
  (rfl)
@[simp] theorem setSplitRegs_ports (a : Nat) (t : Split) (s : State) : (setSplitRegs a t s).ports = s.ports := (rfl)
@[simp] theorem setSplitRegs_svcSeq (a : Nat) (t : Split) (s : State) : (setSplitRegs a t s).svcSeq = s.svcSeq :=
  (rfl)
@[simp] theorem setSplitRegs_loops (a : Nat) (t : Split) (s : State) : (setSplitRegs a t s).loops = s.loops := (rfl)
@[simp] theorem setSplitRegs_measLast (a : Nat) (t : Split) (s : State) : (setSplitRegs a t s).measLast = s.measLast :=
  (rfl)
@[simp] theorem setSplitRegs_front (a : Nat) (t : Split) (s : State) : (setSplitRegs a t s).front = s.front := (rfl)
@[simp] theorem setSplitRegs_chr (a : Nat) (t : Split) (s : State) : (setSplitRegs a t s).chr = s.chr := (rfl)
@[simp] theorem setSplitRegs_eth (a : Nat) (t : Split) (s : State) : (setSplitRegs a t s).eth = s.eth := (rfl)
@[simp] theorem setSplitRegs_fio (a : Nat) (t : Split) (s : State) : (setSplitRegs a t s).fio = s.fio := (rfl)
@[simp] theorem setSplitRegs_userOut (a : Nat) (t : Split) (s : State) : (setSplitRegs a t s).userOut = s.userOut :=
  (rfl)

@[simp] theorem memWriteBytes_pending (a : Nat) (bs : List Byte) (s : State) : (memWriteBytes a bs s).pending = s.pending :=
  (rfl)
@[simp] theorem memWriteBytes_freeCtr (a : Nat) (bs : List Byte) (s : State) : (memWriteBytes a bs s).freeCtr = s.freeCtr :=
  (rfl)
@[simp] theorem memWriteBytes_regs (a : Nat) (bs : List Byte) (s : State) : (memWriteBytes a bs s).regs = s.regs :=
  (rfl)
@[simp] theorem memWriteBytes_pub (a : Nat) (bs : List Byte) (s : State) : (memWriteBytes a bs s).pub = s.pub := (rfl)
@[simp] theorem memWriteBytes_latches (a : Nat) (bs : List Byte) (s : State) : (memWriteBytes a bs s).latches = s.latches :=
  (rfl)
@[simp] theorem memWriteBytes_bank (a : Nat) (bs : List Byte) (s : State) : (memWriteBytes a bs s).bank = s.bank :=
  (rfl)
@[simp] theorem memWriteBytes_staged (a : Nat) (bs : List Byte) (s : State) : (memWriteBytes a bs s).staged = s.staged :=
  (rfl)
@[simp] theorem memWriteBytes_hidden (a : Nat) (bs : List Byte) (s : State) : (memWriteBytes a bs s).hidden = s.hidden :=
  (rfl)
@[simp] theorem memWriteBytes_sys (a : Nat) (bs : List Byte) (s : State) : (memWriteBytes a bs s).sys = s.sys := (rfl)
@[simp] theorem memWriteBytes_time (a : Nat) (bs : List Byte) (s : State) : (memWriteBytes a bs s).time = s.time :=
  (rfl)
@[simp] theorem memWriteBytes_esc (a : Nat) (bs : List Byte) (s : State) : (memWriteBytes a bs s).esc = s.esc := (rfl)
@[simp] theorem memWriteBytes_sch (a : Nat) (bs : List Byte) (s : State) : (memWriteBytes a bs s).sch = s.sch := (rfl)
@[simp] theorem memWriteBytes_fco (a : Nat) (bs : List Byte) (s : State) : (memWriteBytes a bs s).fco = s.fco := (rfl)
@[simp] theorem memWriteBytes_saf (a : Nat) (bs : List Byte) (s : State) : (memWriteBytes a bs s).saf = s.saf := (rfl)
@[simp] theorem memWriteBytes_btn (a : Nat) (bs : List Byte) (s : State) : (memWriteBytes a bs s).btn = s.btn := (rfl)
@[simp] theorem memWriteBytes_cores (a : Nat) (bs : List Byte) (s : State) : (memWriteBytes a bs s).cores = s.cores :=
  (rfl)
@[simp] theorem memWriteBytes_eng (a : Nat) (bs : List Byte) (s : State) : (memWriteBytes a bs s).eng = s.eng := (rfl)
@[simp] theorem memWriteBytes_recent (a : Nat) (bs : List Byte) (s : State) : (memWriteBytes a bs s).recent = s.recent :=
  (rfl)
@[simp] theorem memWriteBytes_cells (a : Nat) (bs : List Byte) (s : State) : (memWriteBytes a bs s).cells = s.cells :=
  (rfl)
@[simp] theorem memWriteBytes_wheels (a : Nat) (bs : List Byte) (s : State) : (memWriteBytes a bs s).wheels = s.wheels :=
  (rfl)
@[simp] theorem memWriteBytes_ports (a : Nat) (bs : List Byte) (s : State) : (memWriteBytes a bs s).ports = s.ports :=
  (rfl)
@[simp] theorem memWriteBytes_svcSeq (a : Nat) (bs : List Byte) (s : State) : (memWriteBytes a bs s).svcSeq = s.svcSeq :=
  (rfl)
@[simp] theorem memWriteBytes_loops (a : Nat) (bs : List Byte) (s : State) : (memWriteBytes a bs s).loops = s.loops :=
  (rfl)
@[simp] theorem memWriteBytes_measLast (a : Nat) (bs : List Byte) (s : State) : (memWriteBytes a bs s).measLast = s.measLast :=
  (rfl)
@[simp] theorem memWriteBytes_front (a : Nat) (bs : List Byte) (s : State) : (memWriteBytes a bs s).front = s.front :=
  (rfl)
@[simp] theorem memWriteBytes_chr (a : Nat) (bs : List Byte) (s : State) : (memWriteBytes a bs s).chr = s.chr := (rfl)
@[simp] theorem memWriteBytes_eth (a : Nat) (bs : List Byte) (s : State) : (memWriteBytes a bs s).eth = s.eth := (rfl)
@[simp] theorem memWriteBytes_fio (a : Nat) (bs : List Byte) (s : State) : (memWriteBytes a bs s).fio = s.fio := (rfl)
@[simp] theorem memWriteBytes_userOut (a : Nat) (bs : List Byte) (s : State) : (memWriteBytes a bs s).userOut = s.userOut := (rfl)

@[simp] theorem memWriteWord_pending (a : Nat) (w : Word) (s : State) : (memWriteWord a w s).pending = s.pending :=
  (rfl)
@[simp] theorem memWriteWord_freeCtr (a : Nat) (w : Word) (s : State) : (memWriteWord a w s).freeCtr = s.freeCtr :=
  (rfl)
@[simp] theorem memWriteWord_regs (a : Nat) (w : Word) (s : State) : (memWriteWord a w s).regs = s.regs := (rfl)
@[simp] theorem memWriteWord_pub (a : Nat) (w : Word) (s : State) : (memWriteWord a w s).pub = s.pub := (rfl)
@[simp] theorem memWriteWord_latches (a : Nat) (w : Word) (s : State) : (memWriteWord a w s).latches = s.latches :=
  (rfl)
@[simp] theorem memWriteWord_bank (a : Nat) (w : Word) (s : State) : (memWriteWord a w s).bank = s.bank := (rfl)
@[simp] theorem memWriteWord_staged (a : Nat) (w : Word) (s : State) : (memWriteWord a w s).staged = s.staged := (rfl)
@[simp] theorem memWriteWord_hidden (a : Nat) (w : Word) (s : State) : (memWriteWord a w s).hidden = s.hidden := (rfl)
@[simp] theorem memWriteWord_sys (a : Nat) (w : Word) (s : State) : (memWriteWord a w s).sys = s.sys := (rfl)
@[simp] theorem memWriteWord_time (a : Nat) (w : Word) (s : State) : (memWriteWord a w s).time = s.time := (rfl)
@[simp] theorem memWriteWord_esc (a : Nat) (w : Word) (s : State) : (memWriteWord a w s).esc = s.esc := (rfl)
@[simp] theorem memWriteWord_sch (a : Nat) (w : Word) (s : State) : (memWriteWord a w s).sch = s.sch := (rfl)
@[simp] theorem memWriteWord_fco (a : Nat) (w : Word) (s : State) : (memWriteWord a w s).fco = s.fco := (rfl)
@[simp] theorem memWriteWord_saf (a : Nat) (w : Word) (s : State) : (memWriteWord a w s).saf = s.saf := (rfl)
@[simp] theorem memWriteWord_btn (a : Nat) (w : Word) (s : State) : (memWriteWord a w s).btn = s.btn := (rfl)
@[simp] theorem memWriteWord_cores (a : Nat) (w : Word) (s : State) : (memWriteWord a w s).cores = s.cores := (rfl)
@[simp] theorem memWriteWord_eng (a : Nat) (w : Word) (s : State) : (memWriteWord a w s).eng = s.eng := (rfl)
@[simp] theorem memWriteWord_recent (a : Nat) (w : Word) (s : State) : (memWriteWord a w s).recent = s.recent := (rfl)
@[simp] theorem memWriteWord_cells (a : Nat) (w : Word) (s : State) : (memWriteWord a w s).cells = s.cells := (rfl)
@[simp] theorem memWriteWord_wheels (a : Nat) (w : Word) (s : State) : (memWriteWord a w s).wheels = s.wheels := (rfl)
@[simp] theorem memWriteWord_ports (a : Nat) (w : Word) (s : State) : (memWriteWord a w s).ports = s.ports := (rfl)
@[simp] theorem memWriteWord_svcSeq (a : Nat) (w : Word) (s : State) : (memWriteWord a w s).svcSeq = s.svcSeq := (rfl)
@[simp] theorem memWriteWord_loops (a : Nat) (w : Word) (s : State) : (memWriteWord a w s).loops = s.loops := (rfl)
@[simp] theorem memWriteWord_measLast (a : Nat) (w : Word) (s : State) : (memWriteWord a w s).measLast = s.measLast :=
  (rfl)
@[simp] theorem memWriteWord_front (a : Nat) (w : Word) (s : State) : (memWriteWord a w s).front = s.front := (rfl)
@[simp] theorem memWriteWord_chr (a : Nat) (w : Word) (s : State) : (memWriteWord a w s).chr = s.chr := (rfl)
@[simp] theorem memWriteWord_eth (a : Nat) (w : Word) (s : State) : (memWriteWord a w s).eth = s.eth := (rfl)
@[simp] theorem memWriteWord_fio (a : Nat) (w : Word) (s : State) : (memWriteWord a w s).fio = s.fio := (rfl)
@[simp] theorem memWriteWord_userOut (a : Nat) (w : Word) (s : State) : (memWriteWord a w s).userOut = s.userOut :=
  (rfl)

@[simp] theorem hideBytes_pending (a : Nat) (bs : List Byte) (s : State) : (hideBytes a bs s).pending = s.pending :=
  (rfl)
@[simp] theorem hideBytes_freeCtr (a : Nat) (bs : List Byte) (s : State) : (hideBytes a bs s).freeCtr = s.freeCtr :=
  (rfl)
@[simp] theorem hideBytes_regs (a : Nat) (bs : List Byte) (s : State) : (hideBytes a bs s).regs = s.regs := (rfl)
@[simp] theorem hideBytes_pub (a : Nat) (bs : List Byte) (s : State) : (hideBytes a bs s).pub = s.pub := (rfl)
@[simp] theorem hideBytes_latches (a : Nat) (bs : List Byte) (s : State) : (hideBytes a bs s).latches = s.latches :=
  (rfl)
@[simp] theorem hideBytes_bank (a : Nat) (bs : List Byte) (s : State) : (hideBytes a bs s).bank = s.bank := (rfl)
@[simp] theorem hideBytes_staged (a : Nat) (bs : List Byte) (s : State) : (hideBytes a bs s).staged = s.staged :=
  (rfl)
@[simp] theorem hideBytes_mem (a : Nat) (bs : List Byte) (s : State) : (hideBytes a bs s).mem = s.mem := (rfl)
@[simp] theorem hideBytes_sys (a : Nat) (bs : List Byte) (s : State) : (hideBytes a bs s).sys = s.sys := (rfl)
@[simp] theorem hideBytes_time (a : Nat) (bs : List Byte) (s : State) : (hideBytes a bs s).time = s.time := (rfl)
@[simp] theorem hideBytes_esc (a : Nat) (bs : List Byte) (s : State) : (hideBytes a bs s).esc = s.esc := (rfl)
@[simp] theorem hideBytes_sch (a : Nat) (bs : List Byte) (s : State) : (hideBytes a bs s).sch = s.sch := (rfl)
@[simp] theorem hideBytes_fco (a : Nat) (bs : List Byte) (s : State) : (hideBytes a bs s).fco = s.fco := (rfl)
@[simp] theorem hideBytes_saf (a : Nat) (bs : List Byte) (s : State) : (hideBytes a bs s).saf = s.saf := (rfl)
@[simp] theorem hideBytes_btn (a : Nat) (bs : List Byte) (s : State) : (hideBytes a bs s).btn = s.btn := (rfl)
@[simp] theorem hideBytes_cores (a : Nat) (bs : List Byte) (s : State) : (hideBytes a bs s).cores = s.cores := (rfl)
@[simp] theorem hideBytes_eng (a : Nat) (bs : List Byte) (s : State) : (hideBytes a bs s).eng = s.eng := (rfl)
@[simp] theorem hideBytes_recent (a : Nat) (bs : List Byte) (s : State) : (hideBytes a bs s).recent = s.recent :=
  (rfl)
@[simp] theorem hideBytes_cells (a : Nat) (bs : List Byte) (s : State) : (hideBytes a bs s).cells = s.cells := (rfl)
@[simp] theorem hideBytes_wheels (a : Nat) (bs : List Byte) (s : State) : (hideBytes a bs s).wheels = s.wheels :=
  (rfl)
@[simp] theorem hideBytes_ports (a : Nat) (bs : List Byte) (s : State) : (hideBytes a bs s).ports = s.ports := (rfl)
@[simp] theorem hideBytes_svcSeq (a : Nat) (bs : List Byte) (s : State) : (hideBytes a bs s).svcSeq = s.svcSeq :=
  (rfl)
@[simp] theorem hideBytes_loops (a : Nat) (bs : List Byte) (s : State) : (hideBytes a bs s).loops = s.loops := (rfl)
@[simp] theorem hideBytes_measLast (a : Nat) (bs : List Byte) (s : State) : (hideBytes a bs s).measLast = s.measLast :=
  (rfl)
@[simp] theorem hideBytes_front (a : Nat) (bs : List Byte) (s : State) : (hideBytes a bs s).front = s.front := (rfl)
@[simp] theorem hideBytes_chr (a : Nat) (bs : List Byte) (s : State) : (hideBytes a bs s).chr = s.chr := (rfl)
@[simp] theorem hideBytes_eth (a : Nat) (bs : List Byte) (s : State) : (hideBytes a bs s).eth = s.eth := (rfl)
@[simp] theorem hideBytes_fio (a : Nat) (bs : List Byte) (s : State) : (hideBytes a bs s).fio = s.fio := (rfl)
@[simp] theorem hideBytes_userOut (a : Nat) (bs : List Byte) (s : State) : (hideBytes a bs s).userOut = s.userOut :=
  (rfl)

@[simp] theorem hideWords_pending (a : Nat) (ws : List Word) (s : State) : (hideWords a ws s).pending = s.pending :=
  (rfl)
@[simp] theorem hideWords_freeCtr (a : Nat) (ws : List Word) (s : State) : (hideWords a ws s).freeCtr = s.freeCtr :=
  (rfl)
@[simp] theorem hideWords_regs (a : Nat) (ws : List Word) (s : State) : (hideWords a ws s).regs = s.regs := (rfl)
@[simp] theorem hideWords_pub (a : Nat) (ws : List Word) (s : State) : (hideWords a ws s).pub = s.pub := (rfl)
@[simp] theorem hideWords_latches (a : Nat) (ws : List Word) (s : State) : (hideWords a ws s).latches = s.latches :=
  (rfl)
@[simp] theorem hideWords_bank (a : Nat) (ws : List Word) (s : State) : (hideWords a ws s).bank = s.bank := (rfl)
@[simp] theorem hideWords_staged (a : Nat) (ws : List Word) (s : State) : (hideWords a ws s).staged = s.staged :=
  (rfl)
@[simp] theorem hideWords_mem (a : Nat) (ws : List Word) (s : State) : (hideWords a ws s).mem = s.mem := (rfl)
@[simp] theorem hideWords_sys (a : Nat) (ws : List Word) (s : State) : (hideWords a ws s).sys = s.sys := (rfl)
@[simp] theorem hideWords_time (a : Nat) (ws : List Word) (s : State) : (hideWords a ws s).time = s.time := (rfl)
@[simp] theorem hideWords_esc (a : Nat) (ws : List Word) (s : State) : (hideWords a ws s).esc = s.esc := (rfl)
@[simp] theorem hideWords_sch (a : Nat) (ws : List Word) (s : State) : (hideWords a ws s).sch = s.sch := (rfl)
@[simp] theorem hideWords_fco (a : Nat) (ws : List Word) (s : State) : (hideWords a ws s).fco = s.fco := (rfl)
@[simp] theorem hideWords_saf (a : Nat) (ws : List Word) (s : State) : (hideWords a ws s).saf = s.saf := (rfl)
@[simp] theorem hideWords_btn (a : Nat) (ws : List Word) (s : State) : (hideWords a ws s).btn = s.btn := (rfl)
@[simp] theorem hideWords_cores (a : Nat) (ws : List Word) (s : State) : (hideWords a ws s).cores = s.cores := (rfl)
@[simp] theorem hideWords_eng (a : Nat) (ws : List Word) (s : State) : (hideWords a ws s).eng = s.eng := (rfl)
@[simp] theorem hideWords_recent (a : Nat) (ws : List Word) (s : State) : (hideWords a ws s).recent = s.recent :=
  (rfl)
@[simp] theorem hideWords_cells (a : Nat) (ws : List Word) (s : State) : (hideWords a ws s).cells = s.cells := (rfl)
@[simp] theorem hideWords_wheels (a : Nat) (ws : List Word) (s : State) : (hideWords a ws s).wheels = s.wheels :=
  (rfl)
@[simp] theorem hideWords_ports (a : Nat) (ws : List Word) (s : State) : (hideWords a ws s).ports = s.ports := (rfl)
@[simp] theorem hideWords_svcSeq (a : Nat) (ws : List Word) (s : State) : (hideWords a ws s).svcSeq = s.svcSeq :=
  (rfl)
@[simp] theorem hideWords_loops (a : Nat) (ws : List Word) (s : State) : (hideWords a ws s).loops = s.loops := (rfl)
@[simp] theorem hideWords_measLast (a : Nat) (ws : List Word) (s : State) : (hideWords a ws s).measLast = s.measLast :=
  (rfl)
@[simp] theorem hideWords_front (a : Nat) (ws : List Word) (s : State) : (hideWords a ws s).front = s.front := (rfl)
@[simp] theorem hideWords_chr (a : Nat) (ws : List Word) (s : State) : (hideWords a ws s).chr = s.chr := (rfl)
@[simp] theorem hideWords_eth (a : Nat) (ws : List Word) (s : State) : (hideWords a ws s).eth = s.eth := (rfl)
@[simp] theorem hideWords_fio (a : Nat) (ws : List Word) (s : State) : (hideWords a ws s).fio = s.fio := (rfl)
@[simp] theorem hideWords_userOut (a : Nat) (ws : List Word) (s : State) : (hideWords a ws s).userOut = s.userOut :=
  (rfl)

@[simp] theorem publish_pending (a n : Nat) (s : State) : (publish a n s).pending = s.pending := (rfl)
@[simp] theorem publish_freeCtr (a n : Nat) (s : State) : (publish a n s).freeCtr = s.freeCtr := (rfl)
@[simp] theorem publish_regs (a n : Nat) (s : State) : (publish a n s).regs = s.regs := (rfl)
@[simp] theorem publish_pub (a n : Nat) (s : State) : (publish a n s).pub = s.pub := (rfl)
@[simp] theorem publish_latches (a n : Nat) (s : State) : (publish a n s).latches = s.latches := (rfl)
@[simp] theorem publish_bank (a n : Nat) (s : State) : (publish a n s).bank = s.bank := (rfl)
@[simp] theorem publish_staged (a n : Nat) (s : State) : (publish a n s).staged = s.staged := (rfl)
@[simp] theorem publish_hidden (a n : Nat) (s : State) : (publish a n s).hidden = s.hidden := (rfl)
@[simp] theorem publish_sys (a n : Nat) (s : State) : (publish a n s).sys = s.sys := (rfl)
@[simp] theorem publish_time (a n : Nat) (s : State) : (publish a n s).time = s.time := (rfl)
@[simp] theorem publish_esc (a n : Nat) (s : State) : (publish a n s).esc = s.esc := (rfl)
@[simp] theorem publish_sch (a n : Nat) (s : State) : (publish a n s).sch = s.sch := (rfl)
@[simp] theorem publish_fco (a n : Nat) (s : State) : (publish a n s).fco = s.fco := (rfl)
@[simp] theorem publish_saf (a n : Nat) (s : State) : (publish a n s).saf = s.saf := (rfl)
@[simp] theorem publish_btn (a n : Nat) (s : State) : (publish a n s).btn = s.btn := (rfl)
@[simp] theorem publish_cores (a n : Nat) (s : State) : (publish a n s).cores = s.cores := (rfl)
@[simp] theorem publish_eng (a n : Nat) (s : State) : (publish a n s).eng = s.eng := (rfl)
@[simp] theorem publish_recent (a n : Nat) (s : State) : (publish a n s).recent = s.recent := (rfl)
@[simp] theorem publish_cells (a n : Nat) (s : State) : (publish a n s).cells = s.cells := (rfl)
@[simp] theorem publish_wheels (a n : Nat) (s : State) : (publish a n s).wheels = s.wheels := (rfl)
@[simp] theorem publish_ports (a n : Nat) (s : State) : (publish a n s).ports = s.ports := (rfl)
@[simp] theorem publish_svcSeq (a n : Nat) (s : State) : (publish a n s).svcSeq = s.svcSeq := (rfl)
@[simp] theorem publish_loops (a n : Nat) (s : State) : (publish a n s).loops = s.loops := (rfl)
@[simp] theorem publish_measLast (a n : Nat) (s : State) : (publish a n s).measLast = s.measLast := (rfl)
@[simp] theorem publish_front (a n : Nat) (s : State) : (publish a n s).front = s.front := (rfl)
@[simp] theorem publish_chr (a n : Nat) (s : State) : (publish a n s).chr = s.chr := (rfl)
@[simp] theorem publish_eth (a n : Nat) (s : State) : (publish a n s).eth = s.eth := (rfl)
@[simp] theorem publish_fio (a n : Nat) (s : State) : (publish a n s).fio = s.fio := (rfl)
@[simp] theorem publish_userOut (a n : Nat) (s : State) : (publish a n s).userOut = s.userOut := (rfl)

@[simp] theorem assertFaultOut_pending (s : State) : (assertFaultOut s).pending = s.pending := by
  simp only [assertFaultOut, fset_pending]
@[simp] theorem assertFaultOut_freeCtr (s : State) : (assertFaultOut s).freeCtr = s.freeCtr := by
  simp only [assertFaultOut, fset_freeCtr]
@[simp] theorem assertFaultOut_pub (s : State) : (assertFaultOut s).pub = s.pub := by
  simp only [assertFaultOut, fset_pub]
@[simp] theorem assertFaultOut_latches (s : State) : (assertFaultOut s).latches = s.latches := by
  simp only [assertFaultOut, fset_latches]
@[simp] theorem assertFaultOut_bank (s : State) : (assertFaultOut s).bank = s.bank := by
  simp only [assertFaultOut, fset_bank]
@[simp] theorem assertFaultOut_staged (s : State) : (assertFaultOut s).staged = s.staged := by
  simp only [assertFaultOut, fset_staged]
@[simp] theorem assertFaultOut_mem (s : State) : (assertFaultOut s).mem = s.mem := by
  simp only [assertFaultOut, fset_mem]
@[simp] theorem assertFaultOut_hidden (s : State) : (assertFaultOut s).hidden = s.hidden := by
  simp only [assertFaultOut, fset_hidden]
@[simp] theorem assertFaultOut_sys (s : State) : (assertFaultOut s).sys = s.sys := by
  simp only [assertFaultOut, fset_sys]
@[simp] theorem assertFaultOut_time (s : State) : (assertFaultOut s).time = s.time := by
  simp only [assertFaultOut, fset_time]
@[simp] theorem assertFaultOut_esc (s : State) : (assertFaultOut s).esc = s.esc := by
  simp only [assertFaultOut, fset_esc]
@[simp] theorem assertFaultOut_sch (s : State) : (assertFaultOut s).sch = s.sch := by
  simp only [assertFaultOut, fset_sch]
@[simp] theorem assertFaultOut_fco (s : State) : (assertFaultOut s).fco = s.fco := by
  simp only [assertFaultOut, fset_fco]
@[simp] theorem assertFaultOut_saf (s : State) : (assertFaultOut s).saf = s.saf := by
  simp only [assertFaultOut, fset_saf]
@[simp] theorem assertFaultOut_btn (s : State) : (assertFaultOut s).btn = s.btn := by
  simp only [assertFaultOut, fset_btn]
@[simp] theorem assertFaultOut_cores (s : State) : (assertFaultOut s).cores = s.cores := by
  simp only [assertFaultOut, fset_cores]
@[simp] theorem assertFaultOut_eng (s : State) : (assertFaultOut s).eng = s.eng := by
  simp only [assertFaultOut, fset_eng]
@[simp] theorem assertFaultOut_recent (s : State) : (assertFaultOut s).recent = s.recent := by
  simp only [assertFaultOut, fset_recent]
@[simp] theorem assertFaultOut_cells (s : State) : (assertFaultOut s).cells = s.cells := by
  simp only [assertFaultOut, fset_cells]
@[simp] theorem assertFaultOut_wheels (s : State) : (assertFaultOut s).wheels = s.wheels := by
  simp only [assertFaultOut, fset_wheels]
@[simp] theorem assertFaultOut_ports (s : State) : (assertFaultOut s).ports = s.ports := by
  simp only [assertFaultOut, fset_ports]
@[simp] theorem assertFaultOut_svcSeq (s : State) : (assertFaultOut s).svcSeq = s.svcSeq := by
  simp only [assertFaultOut, fset_svcSeq]
@[simp] theorem assertFaultOut_loops (s : State) : (assertFaultOut s).loops = s.loops := by
  simp only [assertFaultOut, fset_loops]
@[simp] theorem assertFaultOut_measLast (s : State) : (assertFaultOut s).measLast = s.measLast := by
  simp only [assertFaultOut, fset_measLast]
@[simp] theorem assertFaultOut_front (s : State) : (assertFaultOut s).front = s.front := by
  simp only [assertFaultOut, fset_front]
@[simp] theorem assertFaultOut_chr (s : State) : (assertFaultOut s).chr = s.chr := by
  simp only [assertFaultOut, fset_chr]
@[simp] theorem assertFaultOut_eth (s : State) : (assertFaultOut s).eth = s.eth := by
  simp only [assertFaultOut, fset_eth]
@[simp] theorem assertFaultOut_fio (s : State) : (assertFaultOut s).fio = s.fio := by
  simp only [assertFaultOut, fset_fio]
@[simp] theorem assertFaultOut_userOut (s : State) : (assertFaultOut s).userOut = s.userOut := by
  simp only [assertFaultOut, fset_userOut]

@[simp] theorem safetyCause_pending (code : Nat) (s : State) : (safetyCause code s).pending = s.pending := (rfl)
@[simp] theorem safetyCause_freeCtr (code : Nat) (s : State) : (safetyCause code s).freeCtr = s.freeCtr := (rfl)
@[simp] theorem safetyCause_regs (code : Nat) (s : State) : (safetyCause code s).regs = s.regs := (rfl)
@[simp] theorem safetyCause_pub (code : Nat) (s : State) : (safetyCause code s).pub = s.pub := (rfl)
@[simp] theorem safetyCause_latches (code : Nat) (s : State) : (safetyCause code s).latches = s.latches := (rfl)
@[simp] theorem safetyCause_bank (code : Nat) (s : State) : (safetyCause code s).bank = s.bank := (rfl)
@[simp] theorem safetyCause_staged (code : Nat) (s : State) : (safetyCause code s).staged = s.staged := (rfl)
@[simp] theorem safetyCause_mem (code : Nat) (s : State) : (safetyCause code s).mem = s.mem := (rfl)
@[simp] theorem safetyCause_hidden (code : Nat) (s : State) : (safetyCause code s).hidden = s.hidden := (rfl)
@[simp] theorem safetyCause_sys (code : Nat) (s : State) : (safetyCause code s).sys = s.sys := (rfl)
@[simp] theorem safetyCause_time (code : Nat) (s : State) : (safetyCause code s).time = s.time := (rfl)
@[simp] theorem safetyCause_esc (code : Nat) (s : State) : (safetyCause code s).esc = s.esc := (rfl)
@[simp] theorem safetyCause_sch (code : Nat) (s : State) : (safetyCause code s).sch = s.sch := (rfl)
@[simp] theorem safetyCause_fco (code : Nat) (s : State) : (safetyCause code s).fco = s.fco := (rfl)
@[simp] theorem safetyCause_btn (code : Nat) (s : State) : (safetyCause code s).btn = s.btn := (rfl)
@[simp] theorem safetyCause_cores (code : Nat) (s : State) : (safetyCause code s).cores = s.cores := (rfl)
@[simp] theorem safetyCause_eng (code : Nat) (s : State) : (safetyCause code s).eng = s.eng := (rfl)
@[simp] theorem safetyCause_recent (code : Nat) (s : State) : (safetyCause code s).recent = s.recent := (rfl)
@[simp] theorem safetyCause_cells (code : Nat) (s : State) : (safetyCause code s).cells = s.cells := (rfl)
@[simp] theorem safetyCause_wheels (code : Nat) (s : State) : (safetyCause code s).wheels = s.wheels := (rfl)
@[simp] theorem safetyCause_ports (code : Nat) (s : State) : (safetyCause code s).ports = s.ports := (rfl)
@[simp] theorem safetyCause_svcSeq (code : Nat) (s : State) : (safetyCause code s).svcSeq = s.svcSeq := (rfl)
@[simp] theorem safetyCause_loops (code : Nat) (s : State) : (safetyCause code s).loops = s.loops := (rfl)
@[simp] theorem safetyCause_measLast (code : Nat) (s : State) : (safetyCause code s).measLast = s.measLast := (rfl)
@[simp] theorem safetyCause_front (code : Nat) (s : State) : (safetyCause code s).front = s.front := (rfl)
@[simp] theorem safetyCause_chr (code : Nat) (s : State) : (safetyCause code s).chr = s.chr := (rfl)
@[simp] theorem safetyCause_eth (code : Nat) (s : State) : (safetyCause code s).eth = s.eth := (rfl)
@[simp] theorem safetyCause_fio (code : Nat) (s : State) : (safetyCause code s).fio = s.fio := (rfl)
@[simp] theorem safetyCause_userOut (code : Nat) (s : State) : (safetyCause code s).userOut = s.userOut := (rfl)

@[simp] theorem setRaised_pending (src inst : Nat) (b : Bool) (s : State) : (setRaised src inst b s).pending = s.pending :=
  (rfl)
@[simp] theorem setRaised_freeCtr (src inst : Nat) (b : Bool) (s : State) : (setRaised src inst b s).freeCtr = s.freeCtr :=
  (rfl)
@[simp] theorem setRaised_regs (src inst : Nat) (b : Bool) (s : State) : (setRaised src inst b s).regs = s.regs :=
  (rfl)
@[simp] theorem setRaised_pub (src inst : Nat) (b : Bool) (s : State) : (setRaised src inst b s).pub = s.pub := (rfl)
@[simp] theorem setRaised_latches (src inst : Nat) (b : Bool) (s : State) : (setRaised src inst b s).latches = s.latches :=
  (rfl)
@[simp] theorem setRaised_bank (src inst : Nat) (b : Bool) (s : State) : (setRaised src inst b s).bank = s.bank :=
  (rfl)
@[simp] theorem setRaised_staged (src inst : Nat) (b : Bool) (s : State) : (setRaised src inst b s).staged = s.staged :=
  (rfl)
@[simp] theorem setRaised_mem (src inst : Nat) (b : Bool) (s : State) : (setRaised src inst b s).mem = s.mem := (rfl)
@[simp] theorem setRaised_hidden (src inst : Nat) (b : Bool) (s : State) : (setRaised src inst b s).hidden = s.hidden :=
  (rfl)
@[simp] theorem setRaised_sys (src inst : Nat) (b : Bool) (s : State) : (setRaised src inst b s).sys = s.sys := (rfl)
@[simp] theorem setRaised_time (src inst : Nat) (b : Bool) (s : State) : (setRaised src inst b s).time = s.time :=
  (rfl)
@[simp] theorem setRaised_esc (src inst : Nat) (b : Bool) (s : State) : (setRaised src inst b s).esc = s.esc := (rfl)
@[simp] theorem setRaised_sch (src inst : Nat) (b : Bool) (s : State) : (setRaised src inst b s).sch = s.sch := (rfl)
@[simp] theorem setRaised_saf (src inst : Nat) (b : Bool) (s : State) : (setRaised src inst b s).saf = s.saf := (rfl)
@[simp] theorem setRaised_btn (src inst : Nat) (b : Bool) (s : State) : (setRaised src inst b s).btn = s.btn := (rfl)
@[simp] theorem setRaised_cores (src inst : Nat) (b : Bool) (s : State) : (setRaised src inst b s).cores = s.cores :=
  (rfl)
@[simp] theorem setRaised_eng (src inst : Nat) (b : Bool) (s : State) : (setRaised src inst b s).eng = s.eng := (rfl)
@[simp] theorem setRaised_recent (src inst : Nat) (b : Bool) (s : State) : (setRaised src inst b s).recent = s.recent :=
  (rfl)
@[simp] theorem setRaised_cells (src inst : Nat) (b : Bool) (s : State) : (setRaised src inst b s).cells = s.cells :=
  (rfl)
@[simp] theorem setRaised_wheels (src inst : Nat) (b : Bool) (s : State) : (setRaised src inst b s).wheels = s.wheels :=
  (rfl)
@[simp] theorem setRaised_ports (src inst : Nat) (b : Bool) (s : State) : (setRaised src inst b s).ports = s.ports :=
  (rfl)
@[simp] theorem setRaised_svcSeq (src inst : Nat) (b : Bool) (s : State) : (setRaised src inst b s).svcSeq = s.svcSeq :=
  (rfl)
@[simp] theorem setRaised_loops (src inst : Nat) (b : Bool) (s : State) : (setRaised src inst b s).loops = s.loops :=
  (rfl)
@[simp] theorem setRaised_measLast (src inst : Nat) (b : Bool) (s : State) : (setRaised src inst b s).measLast = s.measLast :=
  (rfl)
@[simp] theorem setRaised_front (src inst : Nat) (b : Bool) (s : State) : (setRaised src inst b s).front = s.front :=
  (rfl)
@[simp] theorem setRaised_chr (src inst : Nat) (b : Bool) (s : State) : (setRaised src inst b s).chr = s.chr := (rfl)
@[simp] theorem setRaised_eth (src inst : Nat) (b : Bool) (s : State) : (setRaised src inst b s).eth = s.eth := (rfl)
@[simp] theorem setRaised_fio (src inst : Nat) (b : Bool) (s : State) : (setRaised src inst b s).fio = s.fio := (rfl)
@[simp] theorem setRaised_userOut (src inst : Nat) (b : Bool) (s : State) : (setRaised src inst b s).userOut = s.userOut :=
  (rfl)

@[simp] theorem clearCond_pending (src inst : Nat) (s : State) : (clearCond src inst s).pending = s.pending := (rfl)
@[simp] theorem clearCond_freeCtr (src inst : Nat) (s : State) : (clearCond src inst s).freeCtr = s.freeCtr := (rfl)
@[simp] theorem clearCond_regs (src inst : Nat) (s : State) : (clearCond src inst s).regs = s.regs := (rfl)
@[simp] theorem clearCond_pub (src inst : Nat) (s : State) : (clearCond src inst s).pub = s.pub := (rfl)
@[simp] theorem clearCond_latches (src inst : Nat) (s : State) : (clearCond src inst s).latches = s.latches := (rfl)
@[simp] theorem clearCond_bank (src inst : Nat) (s : State) : (clearCond src inst s).bank = s.bank := (rfl)
@[simp] theorem clearCond_staged (src inst : Nat) (s : State) : (clearCond src inst s).staged = s.staged := (rfl)
@[simp] theorem clearCond_mem (src inst : Nat) (s : State) : (clearCond src inst s).mem = s.mem := (rfl)
@[simp] theorem clearCond_hidden (src inst : Nat) (s : State) : (clearCond src inst s).hidden = s.hidden := (rfl)
@[simp] theorem clearCond_sys (src inst : Nat) (s : State) : (clearCond src inst s).sys = s.sys := (rfl)
@[simp] theorem clearCond_time (src inst : Nat) (s : State) : (clearCond src inst s).time = s.time := (rfl)
@[simp] theorem clearCond_esc (src inst : Nat) (s : State) : (clearCond src inst s).esc = s.esc := (rfl)
@[simp] theorem clearCond_sch (src inst : Nat) (s : State) : (clearCond src inst s).sch = s.sch := (rfl)
@[simp] theorem clearCond_saf (src inst : Nat) (s : State) : (clearCond src inst s).saf = s.saf := (rfl)
@[simp] theorem clearCond_btn (src inst : Nat) (s : State) : (clearCond src inst s).btn = s.btn := (rfl)
@[simp] theorem clearCond_cores (src inst : Nat) (s : State) : (clearCond src inst s).cores = s.cores := (rfl)
@[simp] theorem clearCond_eng (src inst : Nat) (s : State) : (clearCond src inst s).eng = s.eng := (rfl)
@[simp] theorem clearCond_recent (src inst : Nat) (s : State) : (clearCond src inst s).recent = s.recent := (rfl)
@[simp] theorem clearCond_cells (src inst : Nat) (s : State) : (clearCond src inst s).cells = s.cells := (rfl)
@[simp] theorem clearCond_wheels (src inst : Nat) (s : State) : (clearCond src inst s).wheels = s.wheels := (rfl)
@[simp] theorem clearCond_ports (src inst : Nat) (s : State) : (clearCond src inst s).ports = s.ports := (rfl)
@[simp] theorem clearCond_svcSeq (src inst : Nat) (s : State) : (clearCond src inst s).svcSeq = s.svcSeq := (rfl)
@[simp] theorem clearCond_loops (src inst : Nat) (s : State) : (clearCond src inst s).loops = s.loops := (rfl)
@[simp] theorem clearCond_measLast (src inst : Nat) (s : State) : (clearCond src inst s).measLast = s.measLast :=
  (rfl)
@[simp] theorem clearCond_front (src inst : Nat) (s : State) : (clearCond src inst s).front = s.front := (rfl)
@[simp] theorem clearCond_chr (src inst : Nat) (s : State) : (clearCond src inst s).chr = s.chr := (rfl)
@[simp] theorem clearCond_eth (src inst : Nat) (s : State) : (clearCond src inst s).eth = s.eth := (rfl)
@[simp] theorem clearCond_fio (src inst : Nat) (s : State) : (clearCond src inst s).fio = s.fio := (rfl)
@[simp] theorem clearCond_userOut (src inst : Nat) (s : State) : (clearCond src inst s).userOut = s.userOut := (rfl)

@[simp] theorem stageWrite_pending (o : Origin) (a : Nat) (v : Word) (s : State) : (stageWrite o a v s).pending = s.pending := by
  unfold stageWrite supersede; split <;> [rfl; split <;> rfl]
@[simp] theorem stageWrite_freeCtr (o : Origin) (a : Nat) (v : Word) (s : State) : (stageWrite o a v s).freeCtr = s.freeCtr := by
  unfold stageWrite supersede; split <;> [rfl; split <;> rfl]
@[simp] theorem stageWrite_regs (o : Origin) (a : Nat) (v : Word) (s : State) : (stageWrite o a v s).regs = s.regs := by
  unfold stageWrite supersede; split <;> [rfl; split <;> rfl]
@[simp] theorem stageWrite_pub (o : Origin) (a : Nat) (v : Word) (s : State) : (stageWrite o a v s).pub = s.pub := by
  unfold stageWrite supersede; split <;> [rfl; split <;> rfl]
@[simp] theorem stageWrite_latches (o : Origin) (a : Nat) (v : Word) (s : State) : (stageWrite o a v s).latches = s.latches := by
  unfold stageWrite supersede; split <;> [rfl; split <;> rfl]
@[simp] theorem stageWrite_bank (o : Origin) (a : Nat) (v : Word) (s : State) : (stageWrite o a v s).bank = s.bank := by
  unfold stageWrite supersede; split <;> [rfl; split <;> rfl]
@[simp] theorem stageWrite_mem (o : Origin) (a : Nat) (v : Word) (s : State) : (stageWrite o a v s).mem = s.mem := by
  unfold stageWrite supersede; split <;> [rfl; split <;> rfl]
@[simp] theorem stageWrite_hidden (o : Origin) (a : Nat) (v : Word) (s : State) : (stageWrite o a v s).hidden = s.hidden :=
  by
  unfold stageWrite supersede; split <;> [rfl; split <;> rfl]
@[simp] theorem stageWrite_time (o : Origin) (a : Nat) (v : Word) (s : State) : (stageWrite o a v s).time = s.time := by
  unfold stageWrite supersede; split <;> [rfl; split <;> rfl]
@[simp] theorem stageWrite_esc (o : Origin) (a : Nat) (v : Word) (s : State) : (stageWrite o a v s).esc = s.esc := by
  unfold stageWrite supersede; split <;> [rfl; split <;> rfl]
@[simp] theorem stageWrite_sch (o : Origin) (a : Nat) (v : Word) (s : State) : (stageWrite o a v s).sch = s.sch := by
  unfold stageWrite supersede; split <;> [rfl; split <;> rfl]
@[simp] theorem stageWrite_fco (o : Origin) (a : Nat) (v : Word) (s : State) : (stageWrite o a v s).fco = s.fco := by
  unfold stageWrite supersede; split <;> [rfl; split <;> rfl]
@[simp] theorem stageWrite_saf (o : Origin) (a : Nat) (v : Word) (s : State) : (stageWrite o a v s).saf = s.saf := by
  unfold stageWrite supersede; split <;> [rfl; split <;> rfl]
@[simp] theorem stageWrite_btn (o : Origin) (a : Nat) (v : Word) (s : State) : (stageWrite o a v s).btn = s.btn := by
  unfold stageWrite supersede; split <;> [rfl; split <;> rfl]
@[simp] theorem stageWrite_cores (o : Origin) (a : Nat) (v : Word) (s : State) : (stageWrite o a v s).cores = s.cores :=
  by
  unfold stageWrite supersede; split <;> [rfl; split <;> rfl]
@[simp] theorem stageWrite_eng (o : Origin) (a : Nat) (v : Word) (s : State) : (stageWrite o a v s).eng = s.eng := by
  unfold stageWrite supersede; split <;> [rfl; split <;> rfl]
@[simp] theorem stageWrite_recent (o : Origin) (a : Nat) (v : Word) (s : State) : (stageWrite o a v s).recent = s.recent :=
  by
  unfold stageWrite supersede; split <;> [rfl; split <;> rfl]
@[simp] theorem stageWrite_cells (o : Origin) (a : Nat) (v : Word) (s : State) : (stageWrite o a v s).cells = s.cells :=
  by
  unfold stageWrite supersede; split <;> [rfl; split <;> rfl]
@[simp] theorem stageWrite_wheels (o : Origin) (a : Nat) (v : Word) (s : State) : (stageWrite o a v s).wheels = s.wheels :=
  by
  unfold stageWrite supersede; split <;> [rfl; split <;> rfl]
@[simp] theorem stageWrite_ports (o : Origin) (a : Nat) (v : Word) (s : State) : (stageWrite o a v s).ports = s.ports :=
  by
  unfold stageWrite supersede; split <;> [rfl; split <;> rfl]
@[simp] theorem stageWrite_svcSeq (o : Origin) (a : Nat) (v : Word) (s : State) : (stageWrite o a v s).svcSeq = s.svcSeq :=
  by
  unfold stageWrite supersede; split <;> [rfl; split <;> rfl]
@[simp] theorem stageWrite_loops (o : Origin) (a : Nat) (v : Word) (s : State) : (stageWrite o a v s).loops = s.loops :=
  by
  unfold stageWrite supersede; split <;> [rfl; split <;> rfl]
@[simp] theorem stageWrite_measLast (o : Origin) (a : Nat) (v : Word) (s : State) : (stageWrite o a v s).measLast = s.measLast := by
  unfold stageWrite supersede; split <;> [rfl; split <;> rfl]
@[simp] theorem stageWrite_front (o : Origin) (a : Nat) (v : Word) (s : State) : (stageWrite o a v s).front = s.front :=
  by
  unfold stageWrite supersede; split <;> [rfl; split <;> rfl]
@[simp] theorem stageWrite_chr (o : Origin) (a : Nat) (v : Word) (s : State) : (stageWrite o a v s).chr = s.chr := by
  unfold stageWrite supersede; split <;> [rfl; split <;> rfl]
@[simp] theorem stageWrite_eth (o : Origin) (a : Nat) (v : Word) (s : State) : (stageWrite o a v s).eth = s.eth := by
  unfold stageWrite supersede; split <;> [rfl; split <;> rfl]
@[simp] theorem stageWrite_fio (o : Origin) (a : Nat) (v : Word) (s : State) : (stageWrite o a v s).fio = s.fio := by
  unfold stageWrite supersede; split <;> [rfl; split <;> rfl]
@[simp] theorem stageWrite_userOut (o : Origin) (a : Nat) (v : Word) (s : State) : (stageWrite o a v s).userOut = s.userOut := by
  unfold stageWrite supersede; split <;> [rfl; split <;> rfl]

@[simp] theorem setNext_pending (c : Nat) (e : Option Event) (s : State) : (setNext c e s).pending = s.pending :=
  (rfl)
@[simp] theorem setNext_freeCtr (c : Nat) (e : Option Event) (s : State) : (setNext c e s).freeCtr = s.freeCtr :=
  (rfl)
@[simp] theorem setNext_regs (c : Nat) (e : Option Event) (s : State) : (setNext c e s).regs = s.regs := (rfl)
@[simp] theorem setNext_pub (c : Nat) (e : Option Event) (s : State) : (setNext c e s).pub = s.pub := (rfl)
@[simp] theorem setNext_latches (c : Nat) (e : Option Event) (s : State) : (setNext c e s).latches = s.latches :=
  (rfl)
@[simp] theorem setNext_bank (c : Nat) (e : Option Event) (s : State) : (setNext c e s).bank = s.bank := (rfl)
@[simp] theorem setNext_staged (c : Nat) (e : Option Event) (s : State) : (setNext c e s).staged = s.staged := (rfl)
@[simp] theorem setNext_mem (c : Nat) (e : Option Event) (s : State) : (setNext c e s).mem = s.mem := (rfl)
@[simp] theorem setNext_hidden (c : Nat) (e : Option Event) (s : State) : (setNext c e s).hidden = s.hidden := (rfl)
@[simp] theorem setNext_sys (c : Nat) (e : Option Event) (s : State) : (setNext c e s).sys = s.sys := (rfl)
@[simp] theorem setNext_time (c : Nat) (e : Option Event) (s : State) : (setNext c e s).time = s.time := (rfl)
@[simp] theorem setNext_esc (c : Nat) (e : Option Event) (s : State) : (setNext c e s).esc = s.esc := (rfl)
@[simp] theorem setNext_fco (c : Nat) (e : Option Event) (s : State) : (setNext c e s).fco = s.fco := (rfl)
@[simp] theorem setNext_saf (c : Nat) (e : Option Event) (s : State) : (setNext c e s).saf = s.saf := (rfl)
@[simp] theorem setNext_btn (c : Nat) (e : Option Event) (s : State) : (setNext c e s).btn = s.btn := (rfl)
@[simp] theorem setNext_cores (c : Nat) (e : Option Event) (s : State) : (setNext c e s).cores = s.cores := (rfl)
@[simp] theorem setNext_eng (c : Nat) (e : Option Event) (s : State) : (setNext c e s).eng = s.eng := (rfl)
@[simp] theorem setNext_recent (c : Nat) (e : Option Event) (s : State) : (setNext c e s).recent = s.recent := (rfl)
@[simp] theorem setNext_cells (c : Nat) (e : Option Event) (s : State) : (setNext c e s).cells = s.cells := (rfl)
@[simp] theorem setNext_wheels (c : Nat) (e : Option Event) (s : State) : (setNext c e s).wheels = s.wheels := (rfl)
@[simp] theorem setNext_ports (c : Nat) (e : Option Event) (s : State) : (setNext c e s).ports = s.ports := (rfl)
@[simp] theorem setNext_svcSeq (c : Nat) (e : Option Event) (s : State) : (setNext c e s).svcSeq = s.svcSeq := (rfl)
@[simp] theorem setNext_loops (c : Nat) (e : Option Event) (s : State) : (setNext c e s).loops = s.loops := (rfl)
@[simp] theorem setNext_measLast (c : Nat) (e : Option Event) (s : State) : (setNext c e s).measLast = s.measLast :=
  (rfl)
@[simp] theorem setNext_front (c : Nat) (e : Option Event) (s : State) : (setNext c e s).front = s.front := (rfl)
@[simp] theorem setNext_chr (c : Nat) (e : Option Event) (s : State) : (setNext c e s).chr = s.chr := (rfl)
@[simp] theorem setNext_eth (c : Nat) (e : Option Event) (s : State) : (setNext c e s).eth = s.eth := (rfl)
@[simp] theorem setNext_fio (c : Nat) (e : Option Event) (s : State) : (setNext c e s).fio = s.fio := (rfl)
@[simp] theorem setNext_userOut (c : Nat) (e : Option Event) (s : State) : (setNext c e s).userOut = s.userOut := (rfl)

@[simp] theorem setCur_pending (c : Nat) (e : Option Event) (s : State) : (setCur c e s).pending = s.pending := (rfl)
@[simp] theorem setCur_freeCtr (c : Nat) (e : Option Event) (s : State) : (setCur c e s).freeCtr = s.freeCtr := (rfl)
@[simp] theorem setCur_regs (c : Nat) (e : Option Event) (s : State) : (setCur c e s).regs = s.regs := (rfl)
@[simp] theorem setCur_pub (c : Nat) (e : Option Event) (s : State) : (setCur c e s).pub = s.pub := (rfl)
@[simp] theorem setCur_latches (c : Nat) (e : Option Event) (s : State) : (setCur c e s).latches = s.latches := (rfl)
@[simp] theorem setCur_bank (c : Nat) (e : Option Event) (s : State) : (setCur c e s).bank = s.bank := (rfl)
@[simp] theorem setCur_staged (c : Nat) (e : Option Event) (s : State) : (setCur c e s).staged = s.staged := (rfl)
@[simp] theorem setCur_mem (c : Nat) (e : Option Event) (s : State) : (setCur c e s).mem = s.mem := (rfl)
@[simp] theorem setCur_hidden (c : Nat) (e : Option Event) (s : State) : (setCur c e s).hidden = s.hidden := (rfl)
@[simp] theorem setCur_sys (c : Nat) (e : Option Event) (s : State) : (setCur c e s).sys = s.sys := (rfl)
@[simp] theorem setCur_time (c : Nat) (e : Option Event) (s : State) : (setCur c e s).time = s.time := (rfl)
@[simp] theorem setCur_esc (c : Nat) (e : Option Event) (s : State) : (setCur c e s).esc = s.esc := (rfl)
@[simp] theorem setCur_fco (c : Nat) (e : Option Event) (s : State) : (setCur c e s).fco = s.fco := (rfl)
@[simp] theorem setCur_saf (c : Nat) (e : Option Event) (s : State) : (setCur c e s).saf = s.saf := (rfl)
@[simp] theorem setCur_btn (c : Nat) (e : Option Event) (s : State) : (setCur c e s).btn = s.btn := (rfl)
@[simp] theorem setCur_cores (c : Nat) (e : Option Event) (s : State) : (setCur c e s).cores = s.cores := (rfl)
@[simp] theorem setCur_eng (c : Nat) (e : Option Event) (s : State) : (setCur c e s).eng = s.eng := (rfl)
@[simp] theorem setCur_recent (c : Nat) (e : Option Event) (s : State) : (setCur c e s).recent = s.recent := (rfl)
@[simp] theorem setCur_cells (c : Nat) (e : Option Event) (s : State) : (setCur c e s).cells = s.cells := (rfl)
@[simp] theorem setCur_wheels (c : Nat) (e : Option Event) (s : State) : (setCur c e s).wheels = s.wheels := (rfl)
@[simp] theorem setCur_ports (c : Nat) (e : Option Event) (s : State) : (setCur c e s).ports = s.ports := (rfl)
@[simp] theorem setCur_svcSeq (c : Nat) (e : Option Event) (s : State) : (setCur c e s).svcSeq = s.svcSeq := (rfl)
@[simp] theorem setCur_loops (c : Nat) (e : Option Event) (s : State) : (setCur c e s).loops = s.loops := (rfl)
@[simp] theorem setCur_measLast (c : Nat) (e : Option Event) (s : State) : (setCur c e s).measLast = s.measLast :=
  (rfl)
@[simp] theorem setCur_front (c : Nat) (e : Option Event) (s : State) : (setCur c e s).front = s.front := (rfl)
@[simp] theorem setCur_chr (c : Nat) (e : Option Event) (s : State) : (setCur c e s).chr = s.chr := (rfl)
@[simp] theorem setCur_eth (c : Nat) (e : Option Event) (s : State) : (setCur c e s).eth = s.eth := (rfl)
@[simp] theorem setCur_fio (c : Nat) (e : Option Event) (s : State) : (setCur c e s).fio = s.fio := (rfl)
@[simp] theorem setCur_userOut (c : Nat) (e : Option Event) (s : State) : (setCur c e s).userOut = s.userOut := (rfl)

@[simp] theorem setCore_pending (c : Nat) (k : Core) (s : State) : (setCore c k s).pending = s.pending := (rfl)
@[simp] theorem setCore_freeCtr (c : Nat) (k : Core) (s : State) : (setCore c k s).freeCtr = s.freeCtr := (rfl)
@[simp] theorem setCore_regs (c : Nat) (k : Core) (s : State) : (setCore c k s).regs = s.regs := (rfl)
@[simp] theorem setCore_pub (c : Nat) (k : Core) (s : State) : (setCore c k s).pub = s.pub := (rfl)
@[simp] theorem setCore_latches (c : Nat) (k : Core) (s : State) : (setCore c k s).latches = s.latches := (rfl)
@[simp] theorem setCore_bank (c : Nat) (k : Core) (s : State) : (setCore c k s).bank = s.bank := (rfl)
@[simp] theorem setCore_staged (c : Nat) (k : Core) (s : State) : (setCore c k s).staged = s.staged := (rfl)
@[simp] theorem setCore_mem (c : Nat) (k : Core) (s : State) : (setCore c k s).mem = s.mem := (rfl)
@[simp] theorem setCore_hidden (c : Nat) (k : Core) (s : State) : (setCore c k s).hidden = s.hidden := (rfl)
@[simp] theorem setCore_sys (c : Nat) (k : Core) (s : State) : (setCore c k s).sys = s.sys := (rfl)
@[simp] theorem setCore_time (c : Nat) (k : Core) (s : State) : (setCore c k s).time = s.time := (rfl)
@[simp] theorem setCore_esc (c : Nat) (k : Core) (s : State) : (setCore c k s).esc = s.esc := (rfl)
@[simp] theorem setCore_sch (c : Nat) (k : Core) (s : State) : (setCore c k s).sch = s.sch := (rfl)
@[simp] theorem setCore_fco (c : Nat) (k : Core) (s : State) : (setCore c k s).fco = s.fco := (rfl)
@[simp] theorem setCore_saf (c : Nat) (k : Core) (s : State) : (setCore c k s).saf = s.saf := (rfl)
@[simp] theorem setCore_btn (c : Nat) (k : Core) (s : State) : (setCore c k s).btn = s.btn := (rfl)
@[simp] theorem setCore_eng (c : Nat) (k : Core) (s : State) : (setCore c k s).eng = s.eng := (rfl)
@[simp] theorem setCore_recent (c : Nat) (k : Core) (s : State) : (setCore c k s).recent = s.recent := (rfl)
@[simp] theorem setCore_cells (c : Nat) (k : Core) (s : State) : (setCore c k s).cells = s.cells := (rfl)
@[simp] theorem setCore_wheels (c : Nat) (k : Core) (s : State) : (setCore c k s).wheels = s.wheels := (rfl)
@[simp] theorem setCore_ports (c : Nat) (k : Core) (s : State) : (setCore c k s).ports = s.ports := (rfl)
@[simp] theorem setCore_svcSeq (c : Nat) (k : Core) (s : State) : (setCore c k s).svcSeq = s.svcSeq := (rfl)
@[simp] theorem setCore_loops (c : Nat) (k : Core) (s : State) : (setCore c k s).loops = s.loops := (rfl)
@[simp] theorem setCore_measLast (c : Nat) (k : Core) (s : State) : (setCore c k s).measLast = s.measLast := (rfl)
@[simp] theorem setCore_front (c : Nat) (k : Core) (s : State) : (setCore c k s).front = s.front := (rfl)
@[simp] theorem setCore_chr (c : Nat) (k : Core) (s : State) : (setCore c k s).chr = s.chr := (rfl)
@[simp] theorem setCore_eth (c : Nat) (k : Core) (s : State) : (setCore c k s).eth = s.eth := (rfl)
@[simp] theorem setCore_fio (c : Nat) (k : Core) (s : State) : (setCore c k s).fio = s.fio := (rfl)
@[simp] theorem setCore_userOut (c : Nat) (k : Core) (s : State) : (setCore c k s).userOut = s.userOut := (rfl)

@[simp] theorem setEngQueue_pending (k : Nat) (l : List EngOp) (s : State) : (setEngQueue k l s).pending = s.pending :=
  (rfl)
@[simp] theorem setEngQueue_freeCtr (k : Nat) (l : List EngOp) (s : State) : (setEngQueue k l s).freeCtr = s.freeCtr :=
  (rfl)
@[simp] theorem setEngQueue_regs (k : Nat) (l : List EngOp) (s : State) : (setEngQueue k l s).regs = s.regs := (rfl)
@[simp] theorem setEngQueue_pub (k : Nat) (l : List EngOp) (s : State) : (setEngQueue k l s).pub = s.pub := (rfl)
@[simp] theorem setEngQueue_latches (k : Nat) (l : List EngOp) (s : State) : (setEngQueue k l s).latches = s.latches :=
  (rfl)
@[simp] theorem setEngQueue_bank (k : Nat) (l : List EngOp) (s : State) : (setEngQueue k l s).bank = s.bank := (rfl)
@[simp] theorem setEngQueue_staged (k : Nat) (l : List EngOp) (s : State) : (setEngQueue k l s).staged = s.staged :=
  (rfl)
@[simp] theorem setEngQueue_mem (k : Nat) (l : List EngOp) (s : State) : (setEngQueue k l s).mem = s.mem := (rfl)
@[simp] theorem setEngQueue_hidden (k : Nat) (l : List EngOp) (s : State) : (setEngQueue k l s).hidden = s.hidden :=
  (rfl)
@[simp] theorem setEngQueue_sys (k : Nat) (l : List EngOp) (s : State) : (setEngQueue k l s).sys = s.sys := (rfl)
@[simp] theorem setEngQueue_time (k : Nat) (l : List EngOp) (s : State) : (setEngQueue k l s).time = s.time := (rfl)
@[simp] theorem setEngQueue_esc (k : Nat) (l : List EngOp) (s : State) : (setEngQueue k l s).esc = s.esc := (rfl)
@[simp] theorem setEngQueue_sch (k : Nat) (l : List EngOp) (s : State) : (setEngQueue k l s).sch = s.sch := (rfl)
@[simp] theorem setEngQueue_fco (k : Nat) (l : List EngOp) (s : State) : (setEngQueue k l s).fco = s.fco := (rfl)
@[simp] theorem setEngQueue_saf (k : Nat) (l : List EngOp) (s : State) : (setEngQueue k l s).saf = s.saf := (rfl)
@[simp] theorem setEngQueue_btn (k : Nat) (l : List EngOp) (s : State) : (setEngQueue k l s).btn = s.btn := (rfl)
@[simp] theorem setEngQueue_cores (k : Nat) (l : List EngOp) (s : State) : (setEngQueue k l s).cores = s.cores :=
  (rfl)
@[simp] theorem setEngQueue_recent (k : Nat) (l : List EngOp) (s : State) : (setEngQueue k l s).recent = s.recent :=
  (rfl)
@[simp] theorem setEngQueue_cells (k : Nat) (l : List EngOp) (s : State) : (setEngQueue k l s).cells = s.cells :=
  (rfl)
@[simp] theorem setEngQueue_wheels (k : Nat) (l : List EngOp) (s : State) : (setEngQueue k l s).wheels = s.wheels :=
  (rfl)
@[simp] theorem setEngQueue_ports (k : Nat) (l : List EngOp) (s : State) : (setEngQueue k l s).ports = s.ports :=
  (rfl)
@[simp] theorem setEngQueue_svcSeq (k : Nat) (l : List EngOp) (s : State) : (setEngQueue k l s).svcSeq = s.svcSeq :=
  (rfl)
@[simp] theorem setEngQueue_loops (k : Nat) (l : List EngOp) (s : State) : (setEngQueue k l s).loops = s.loops :=
  (rfl)
@[simp] theorem setEngQueue_measLast (k : Nat) (l : List EngOp) (s : State) : (setEngQueue k l s).measLast = s.measLast :=
  (rfl)
@[simp] theorem setEngQueue_front (k : Nat) (l : List EngOp) (s : State) : (setEngQueue k l s).front = s.front :=
  (rfl)
@[simp] theorem setEngQueue_chr (k : Nat) (l : List EngOp) (s : State) : (setEngQueue k l s).chr = s.chr := (rfl)
@[simp] theorem setEngQueue_eth (k : Nat) (l : List EngOp) (s : State) : (setEngQueue k l s).eth = s.eth := (rfl)
@[simp] theorem setEngQueue_fio (k : Nat) (l : List EngOp) (s : State) : (setEngQueue k l s).fio = s.fio := (rfl)
@[simp] theorem setEngQueue_userOut (k : Nat) (l : List EngOp) (s : State) : (setEngQueue k l s).userOut = s.userOut :=
  (rfl)

@[simp] theorem noteStore_pending (c now a : Nat) (bs : List Byte) (vis : Nat) (s : State) : (noteStore c now a bs vis s).pending = s.pending :=
  (rfl)
@[simp] theorem noteStore_freeCtr (c now a : Nat) (bs : List Byte) (vis : Nat) (s : State) : (noteStore c now a bs vis s).freeCtr = s.freeCtr :=
  (rfl)
@[simp] theorem noteStore_regs (c now a : Nat) (bs : List Byte) (vis : Nat) (s : State) : (noteStore c now a bs vis s).regs = s.regs := (rfl)
@[simp] theorem noteStore_pub (c now a : Nat) (bs : List Byte) (vis : Nat) (s : State) : (noteStore c now a bs vis s).pub = s.pub := (rfl)
@[simp] theorem noteStore_latches (c now a : Nat) (bs : List Byte) (vis : Nat) (s : State) : (noteStore c now a bs vis s).latches = s.latches :=
  (rfl)
@[simp] theorem noteStore_bank (c now a : Nat) (bs : List Byte) (vis : Nat) (s : State) : (noteStore c now a bs vis s).bank = s.bank := (rfl)
@[simp] theorem noteStore_staged (c now a : Nat) (bs : List Byte) (vis : Nat) (s : State) : (noteStore c now a bs vis s).staged = s.staged :=
  (rfl)
@[simp] theorem noteStore_mem (c now a : Nat) (bs : List Byte) (vis : Nat) (s : State) : (noteStore c now a bs vis s).mem = s.mem := (rfl)
@[simp] theorem noteStore_hidden (c now a : Nat) (bs : List Byte) (vis : Nat) (s : State) : (noteStore c now a bs vis s).hidden = s.hidden :=
  (rfl)
@[simp] theorem noteStore_sys (c now a : Nat) (bs : List Byte) (vis : Nat) (s : State) : (noteStore c now a bs vis s).sys = s.sys := (rfl)
@[simp] theorem noteStore_time (c now a : Nat) (bs : List Byte) (vis : Nat) (s : State) : (noteStore c now a bs vis s).time = s.time := (rfl)
@[simp] theorem noteStore_esc (c now a : Nat) (bs : List Byte) (vis : Nat) (s : State) : (noteStore c now a bs vis s).esc = s.esc := (rfl)
@[simp] theorem noteStore_sch (c now a : Nat) (bs : List Byte) (vis : Nat) (s : State) : (noteStore c now a bs vis s).sch = s.sch := (rfl)
@[simp] theorem noteStore_fco (c now a : Nat) (bs : List Byte) (vis : Nat) (s : State) : (noteStore c now a bs vis s).fco = s.fco := (rfl)
@[simp] theorem noteStore_saf (c now a : Nat) (bs : List Byte) (vis : Nat) (s : State) : (noteStore c now a bs vis s).saf = s.saf := (rfl)
@[simp] theorem noteStore_btn (c now a : Nat) (bs : List Byte) (vis : Nat) (s : State) : (noteStore c now a bs vis s).btn = s.btn := (rfl)
@[simp] theorem noteStore_cores (c now a : Nat) (bs : List Byte) (vis : Nat) (s : State) : (noteStore c now a bs vis s).cores = s.cores := (rfl)
@[simp] theorem noteStore_eng (c now a : Nat) (bs : List Byte) (vis : Nat) (s : State) : (noteStore c now a bs vis s).eng = s.eng := (rfl)
@[simp] theorem noteStore_cells (c now a : Nat) (bs : List Byte) (vis : Nat) (s : State) : (noteStore c now a bs vis s).cells = s.cells := (rfl)
@[simp] theorem noteStore_wheels (c now a : Nat) (bs : List Byte) (vis : Nat) (s : State) : (noteStore c now a bs vis s).wheels = s.wheels :=
  (rfl)
@[simp] theorem noteStore_ports (c now a : Nat) (bs : List Byte) (vis : Nat) (s : State) : (noteStore c now a bs vis s).ports = s.ports := (rfl)
@[simp] theorem noteStore_svcSeq (c now a : Nat) (bs : List Byte) (vis : Nat) (s : State) : (noteStore c now a bs vis s).svcSeq = s.svcSeq :=
  (rfl)
@[simp] theorem noteStore_loops (c now a : Nat) (bs : List Byte) (vis : Nat) (s : State) : (noteStore c now a bs vis s).loops = s.loops := (rfl)
@[simp] theorem noteStore_measLast (c now a : Nat) (bs : List Byte) (vis : Nat) (s : State) : (noteStore c now a bs vis s).measLast = s.measLast :=
  (rfl)
@[simp] theorem noteStore_front (c now a : Nat) (bs : List Byte) (vis : Nat) (s : State) : (noteStore c now a bs vis s).front = s.front := (rfl)
@[simp] theorem noteStore_chr (c now a : Nat) (bs : List Byte) (vis : Nat) (s : State) : (noteStore c now a bs vis s).chr = s.chr := (rfl)
@[simp] theorem noteStore_eth (c now a : Nat) (bs : List Byte) (vis : Nat) (s : State) : (noteStore c now a bs vis s).eth = s.eth := (rfl)
@[simp] theorem noteStore_fio (c now a : Nat) (bs : List Byte) (vis : Nat) (s : State) : (noteStore c now a bs vis s).fio = s.fio := (rfl)
@[simp] theorem noteStore_userOut (c now a : Nat) (bs : List Byte) (vis : Nat) (s : State) : (noteStore c now a bs vis s).userOut = s.userOut := (rfl)

@[simp] theorem setLoop_pending (e : Nat) (x : Loop) (s : State) : (setLoop e x s).pending = s.pending := (rfl)
@[simp] theorem setLoop_freeCtr (e : Nat) (x : Loop) (s : State) : (setLoop e x s).freeCtr = s.freeCtr := (rfl)
@[simp] theorem setLoop_regs (e : Nat) (x : Loop) (s : State) : (setLoop e x s).regs = s.regs := (rfl)
@[simp] theorem setLoop_pub (e : Nat) (x : Loop) (s : State) : (setLoop e x s).pub = s.pub := (rfl)
@[simp] theorem setLoop_latches (e : Nat) (x : Loop) (s : State) : (setLoop e x s).latches = s.latches := (rfl)
@[simp] theorem setLoop_bank (e : Nat) (x : Loop) (s : State) : (setLoop e x s).bank = s.bank := (rfl)
@[simp] theorem setLoop_staged (e : Nat) (x : Loop) (s : State) : (setLoop e x s).staged = s.staged := (rfl)
@[simp] theorem setLoop_mem (e : Nat) (x : Loop) (s : State) : (setLoop e x s).mem = s.mem := (rfl)
@[simp] theorem setLoop_hidden (e : Nat) (x : Loop) (s : State) : (setLoop e x s).hidden = s.hidden := (rfl)
@[simp] theorem setLoop_sys (e : Nat) (x : Loop) (s : State) : (setLoop e x s).sys = s.sys := (rfl)
@[simp] theorem setLoop_time (e : Nat) (x : Loop) (s : State) : (setLoop e x s).time = s.time := (rfl)
@[simp] theorem setLoop_esc (e : Nat) (x : Loop) (s : State) : (setLoop e x s).esc = s.esc := (rfl)
@[simp] theorem setLoop_sch (e : Nat) (x : Loop) (s : State) : (setLoop e x s).sch = s.sch := (rfl)
@[simp] theorem setLoop_fco (e : Nat) (x : Loop) (s : State) : (setLoop e x s).fco = s.fco := (rfl)
@[simp] theorem setLoop_saf (e : Nat) (x : Loop) (s : State) : (setLoop e x s).saf = s.saf := (rfl)
@[simp] theorem setLoop_btn (e : Nat) (x : Loop) (s : State) : (setLoop e x s).btn = s.btn := (rfl)
@[simp] theorem setLoop_cores (e : Nat) (x : Loop) (s : State) : (setLoop e x s).cores = s.cores := (rfl)
@[simp] theorem setLoop_eng (e : Nat) (x : Loop) (s : State) : (setLoop e x s).eng = s.eng := (rfl)
@[simp] theorem setLoop_recent (e : Nat) (x : Loop) (s : State) : (setLoop e x s).recent = s.recent := (rfl)
@[simp] theorem setLoop_cells (e : Nat) (x : Loop) (s : State) : (setLoop e x s).cells = s.cells := (rfl)
@[simp] theorem setLoop_wheels (e : Nat) (x : Loop) (s : State) : (setLoop e x s).wheels = s.wheels := (rfl)
@[simp] theorem setLoop_ports (e : Nat) (x : Loop) (s : State) : (setLoop e x s).ports = s.ports := (rfl)
@[simp] theorem setLoop_svcSeq (e : Nat) (x : Loop) (s : State) : (setLoop e x s).svcSeq = s.svcSeq := (rfl)
@[simp] theorem setLoop_measLast (e : Nat) (x : Loop) (s : State) : (setLoop e x s).measLast = s.measLast := (rfl)
@[simp] theorem setLoop_front (e : Nat) (x : Loop) (s : State) : (setLoop e x s).front = s.front := (rfl)
@[simp] theorem setLoop_chr (e : Nat) (x : Loop) (s : State) : (setLoop e x s).chr = s.chr := (rfl)
@[simp] theorem setLoop_eth (e : Nat) (x : Loop) (s : State) : (setLoop e x s).eth = s.eth := (rfl)
@[simp] theorem setLoop_fio (e : Nat) (x : Loop) (s : State) : (setLoop e x s).fio = s.fio := (rfl)
@[simp] theorem setLoop_userOut (e : Nat) (x : Loop) (s : State) : (setLoop e x s).userOut = s.userOut := (rfl)

@[simp] theorem setPort_pending (p : Nat) (x : Port) (s : State) : (setPort p x s).pending = s.pending := (rfl)
@[simp] theorem setPort_freeCtr (p : Nat) (x : Port) (s : State) : (setPort p x s).freeCtr = s.freeCtr := (rfl)
@[simp] theorem setPort_regs (p : Nat) (x : Port) (s : State) : (setPort p x s).regs = s.regs := (rfl)
@[simp] theorem setPort_pub (p : Nat) (x : Port) (s : State) : (setPort p x s).pub = s.pub := (rfl)
@[simp] theorem setPort_latches (p : Nat) (x : Port) (s : State) : (setPort p x s).latches = s.latches := (rfl)
@[simp] theorem setPort_bank (p : Nat) (x : Port) (s : State) : (setPort p x s).bank = s.bank := (rfl)
@[simp] theorem setPort_staged (p : Nat) (x : Port) (s : State) : (setPort p x s).staged = s.staged := (rfl)
@[simp] theorem setPort_mem (p : Nat) (x : Port) (s : State) : (setPort p x s).mem = s.mem := (rfl)
@[simp] theorem setPort_hidden (p : Nat) (x : Port) (s : State) : (setPort p x s).hidden = s.hidden := (rfl)
@[simp] theorem setPort_sys (p : Nat) (x : Port) (s : State) : (setPort p x s).sys = s.sys := (rfl)
@[simp] theorem setPort_time (p : Nat) (x : Port) (s : State) : (setPort p x s).time = s.time := (rfl)
@[simp] theorem setPort_esc (p : Nat) (x : Port) (s : State) : (setPort p x s).esc = s.esc := (rfl)
@[simp] theorem setPort_sch (p : Nat) (x : Port) (s : State) : (setPort p x s).sch = s.sch := (rfl)
@[simp] theorem setPort_fco (p : Nat) (x : Port) (s : State) : (setPort p x s).fco = s.fco := (rfl)
@[simp] theorem setPort_saf (p : Nat) (x : Port) (s : State) : (setPort p x s).saf = s.saf := (rfl)
@[simp] theorem setPort_btn (p : Nat) (x : Port) (s : State) : (setPort p x s).btn = s.btn := (rfl)
@[simp] theorem setPort_cores (p : Nat) (x : Port) (s : State) : (setPort p x s).cores = s.cores := (rfl)
@[simp] theorem setPort_eng (p : Nat) (x : Port) (s : State) : (setPort p x s).eng = s.eng := (rfl)
@[simp] theorem setPort_recent (p : Nat) (x : Port) (s : State) : (setPort p x s).recent = s.recent := (rfl)
@[simp] theorem setPort_cells (p : Nat) (x : Port) (s : State) : (setPort p x s).cells = s.cells := (rfl)
@[simp] theorem setPort_wheels (p : Nat) (x : Port) (s : State) : (setPort p x s).wheels = s.wheels := (rfl)
@[simp] theorem setPort_svcSeq (p : Nat) (x : Port) (s : State) : (setPort p x s).svcSeq = s.svcSeq := (rfl)
@[simp] theorem setPort_loops (p : Nat) (x : Port) (s : State) : (setPort p x s).loops = s.loops := (rfl)
@[simp] theorem setPort_measLast (p : Nat) (x : Port) (s : State) : (setPort p x s).measLast = s.measLast := (rfl)
@[simp] theorem setPort_front (p : Nat) (x : Port) (s : State) : (setPort p x s).front = s.front := (rfl)
@[simp] theorem setPort_chr (p : Nat) (x : Port) (s : State) : (setPort p x s).chr = s.chr := (rfl)
@[simp] theorem setPort_eth (p : Nat) (x : Port) (s : State) : (setPort p x s).eth = s.eth := (rfl)
@[simp] theorem setPort_fio (p : Nat) (x : Port) (s : State) : (setPort p x s).fio = s.fio := (rfl)
@[simp] theorem setPort_userOut (p : Nat) (x : Port) (s : State) : (setPort p x s).userOut = s.userOut := (rfl)

@[simp] theorem setCell_pending (i : Nat) (x : Cell) (s : State) : (setCell i x s).pending = s.pending := (rfl)
@[simp] theorem setCell_freeCtr (i : Nat) (x : Cell) (s : State) : (setCell i x s).freeCtr = s.freeCtr := (rfl)
@[simp] theorem setCell_regs (i : Nat) (x : Cell) (s : State) : (setCell i x s).regs = s.regs := (rfl)
@[simp] theorem setCell_pub (i : Nat) (x : Cell) (s : State) : (setCell i x s).pub = s.pub := (rfl)
@[simp] theorem setCell_latches (i : Nat) (x : Cell) (s : State) : (setCell i x s).latches = s.latches := (rfl)
@[simp] theorem setCell_bank (i : Nat) (x : Cell) (s : State) : (setCell i x s).bank = s.bank := (rfl)
@[simp] theorem setCell_staged (i : Nat) (x : Cell) (s : State) : (setCell i x s).staged = s.staged := (rfl)
@[simp] theorem setCell_mem (i : Nat) (x : Cell) (s : State) : (setCell i x s).mem = s.mem := (rfl)
@[simp] theorem setCell_hidden (i : Nat) (x : Cell) (s : State) : (setCell i x s).hidden = s.hidden := (rfl)
@[simp] theorem setCell_sys (i : Nat) (x : Cell) (s : State) : (setCell i x s).sys = s.sys := (rfl)
@[simp] theorem setCell_time (i : Nat) (x : Cell) (s : State) : (setCell i x s).time = s.time := (rfl)
@[simp] theorem setCell_esc (i : Nat) (x : Cell) (s : State) : (setCell i x s).esc = s.esc := (rfl)
@[simp] theorem setCell_sch (i : Nat) (x : Cell) (s : State) : (setCell i x s).sch = s.sch := (rfl)
@[simp] theorem setCell_fco (i : Nat) (x : Cell) (s : State) : (setCell i x s).fco = s.fco := (rfl)
@[simp] theorem setCell_saf (i : Nat) (x : Cell) (s : State) : (setCell i x s).saf = s.saf := (rfl)
@[simp] theorem setCell_btn (i : Nat) (x : Cell) (s : State) : (setCell i x s).btn = s.btn := (rfl)
@[simp] theorem setCell_cores (i : Nat) (x : Cell) (s : State) : (setCell i x s).cores = s.cores := (rfl)
@[simp] theorem setCell_eng (i : Nat) (x : Cell) (s : State) : (setCell i x s).eng = s.eng := (rfl)
@[simp] theorem setCell_recent (i : Nat) (x : Cell) (s : State) : (setCell i x s).recent = s.recent := (rfl)
@[simp] theorem setCell_wheels (i : Nat) (x : Cell) (s : State) : (setCell i x s).wheels = s.wheels := (rfl)
@[simp] theorem setCell_ports (i : Nat) (x : Cell) (s : State) : (setCell i x s).ports = s.ports := (rfl)
@[simp] theorem setCell_svcSeq (i : Nat) (x : Cell) (s : State) : (setCell i x s).svcSeq = s.svcSeq := (rfl)
@[simp] theorem setCell_loops (i : Nat) (x : Cell) (s : State) : (setCell i x s).loops = s.loops := (rfl)
@[simp] theorem setCell_measLast (i : Nat) (x : Cell) (s : State) : (setCell i x s).measLast = s.measLast := (rfl)
@[simp] theorem setCell_front (i : Nat) (x : Cell) (s : State) : (setCell i x s).front = s.front := (rfl)
@[simp] theorem setCell_chr (i : Nat) (x : Cell) (s : State) : (setCell i x s).chr = s.chr := (rfl)
@[simp] theorem setCell_eth (i : Nat) (x : Cell) (s : State) : (setCell i x s).eth = s.eth := (rfl)
@[simp] theorem setCell_fio (i : Nat) (x : Cell) (s : State) : (setCell i x s).fio = s.fio := (rfl)
@[simp] theorem setCell_userOut (i : Nat) (x : Cell) (s : State) : (setCell i x s).userOut = s.userOut := (rfl)

@[simp] theorem setWheel_pending (w : Nat) (x : Wheel) (s : State) : (setWheel w x s).pending = s.pending := (rfl)
@[simp] theorem setWheel_freeCtr (w : Nat) (x : Wheel) (s : State) : (setWheel w x s).freeCtr = s.freeCtr := (rfl)
@[simp] theorem setWheel_regs (w : Nat) (x : Wheel) (s : State) : (setWheel w x s).regs = s.regs := (rfl)
@[simp] theorem setWheel_pub (w : Nat) (x : Wheel) (s : State) : (setWheel w x s).pub = s.pub := (rfl)
@[simp] theorem setWheel_latches (w : Nat) (x : Wheel) (s : State) : (setWheel w x s).latches = s.latches := (rfl)
@[simp] theorem setWheel_bank (w : Nat) (x : Wheel) (s : State) : (setWheel w x s).bank = s.bank := (rfl)
@[simp] theorem setWheel_staged (w : Nat) (x : Wheel) (s : State) : (setWheel w x s).staged = s.staged := (rfl)
@[simp] theorem setWheel_mem (w : Nat) (x : Wheel) (s : State) : (setWheel w x s).mem = s.mem := (rfl)
@[simp] theorem setWheel_hidden (w : Nat) (x : Wheel) (s : State) : (setWheel w x s).hidden = s.hidden := (rfl)
@[simp] theorem setWheel_sys (w : Nat) (x : Wheel) (s : State) : (setWheel w x s).sys = s.sys := (rfl)
@[simp] theorem setWheel_time (w : Nat) (x : Wheel) (s : State) : (setWheel w x s).time = s.time := (rfl)
@[simp] theorem setWheel_esc (w : Nat) (x : Wheel) (s : State) : (setWheel w x s).esc = s.esc := (rfl)
@[simp] theorem setWheel_sch (w : Nat) (x : Wheel) (s : State) : (setWheel w x s).sch = s.sch := (rfl)
@[simp] theorem setWheel_fco (w : Nat) (x : Wheel) (s : State) : (setWheel w x s).fco = s.fco := (rfl)
@[simp] theorem setWheel_saf (w : Nat) (x : Wheel) (s : State) : (setWheel w x s).saf = s.saf := (rfl)
@[simp] theorem setWheel_btn (w : Nat) (x : Wheel) (s : State) : (setWheel w x s).btn = s.btn := (rfl)
@[simp] theorem setWheel_cores (w : Nat) (x : Wheel) (s : State) : (setWheel w x s).cores = s.cores := (rfl)
@[simp] theorem setWheel_eng (w : Nat) (x : Wheel) (s : State) : (setWheel w x s).eng = s.eng := (rfl)
@[simp] theorem setWheel_recent (w : Nat) (x : Wheel) (s : State) : (setWheel w x s).recent = s.recent := (rfl)
@[simp] theorem setWheel_cells (w : Nat) (x : Wheel) (s : State) : (setWheel w x s).cells = s.cells := (rfl)
@[simp] theorem setWheel_ports (w : Nat) (x : Wheel) (s : State) : (setWheel w x s).ports = s.ports := (rfl)
@[simp] theorem setWheel_svcSeq (w : Nat) (x : Wheel) (s : State) : (setWheel w x s).svcSeq = s.svcSeq := (rfl)
@[simp] theorem setWheel_loops (w : Nat) (x : Wheel) (s : State) : (setWheel w x s).loops = s.loops := (rfl)
@[simp] theorem setWheel_measLast (w : Nat) (x : Wheel) (s : State) : (setWheel w x s).measLast = s.measLast := (rfl)
@[simp] theorem setWheel_front (w : Nat) (x : Wheel) (s : State) : (setWheel w x s).front = s.front := (rfl)
@[simp] theorem setWheel_chr (w : Nat) (x : Wheel) (s : State) : (setWheel w x s).chr = s.chr := (rfl)
@[simp] theorem setWheel_eth (w : Nat) (x : Wheel) (s : State) : (setWheel w x s).eth = s.eth := (rfl)
@[simp] theorem setWheel_fio (w : Nat) (x : Wheel) (s : State) : (setWheel w x s).fio = s.fio := (rfl)
@[simp] theorem setWheel_userOut (w : Nat) (x : Wheel) (s : State) : (setWheel w x s).userOut = s.userOut := (rfl)

@[simp] theorem setChan_pending (n : Nat) (c : Chan) (s : State) : (setChan n c s).pending = s.pending := (rfl)
@[simp] theorem setChan_freeCtr (n : Nat) (c : Chan) (s : State) : (setChan n c s).freeCtr = s.freeCtr := (rfl)
@[simp] theorem setChan_regs (n : Nat) (c : Chan) (s : State) : (setChan n c s).regs = s.regs := (rfl)
@[simp] theorem setChan_pub (n : Nat) (c : Chan) (s : State) : (setChan n c s).pub = s.pub := (rfl)
@[simp] theorem setChan_latches (n : Nat) (c : Chan) (s : State) : (setChan n c s).latches = s.latches := (rfl)
@[simp] theorem setChan_bank (n : Nat) (c : Chan) (s : State) : (setChan n c s).bank = s.bank := (rfl)
@[simp] theorem setChan_staged (n : Nat) (c : Chan) (s : State) : (setChan n c s).staged = s.staged := (rfl)
@[simp] theorem setChan_mem (n : Nat) (c : Chan) (s : State) : (setChan n c s).mem = s.mem := (rfl)
@[simp] theorem setChan_hidden (n : Nat) (c : Chan) (s : State) : (setChan n c s).hidden = s.hidden := (rfl)
@[simp] theorem setChan_sys (n : Nat) (c : Chan) (s : State) : (setChan n c s).sys = s.sys := (rfl)
@[simp] theorem setChan_time (n : Nat) (c : Chan) (s : State) : (setChan n c s).time = s.time := (rfl)
@[simp] theorem setChan_esc (n : Nat) (c : Chan) (s : State) : (setChan n c s).esc = s.esc := (rfl)
@[simp] theorem setChan_sch (n : Nat) (c : Chan) (s : State) : (setChan n c s).sch = s.sch := (rfl)
@[simp] theorem setChan_fco (n : Nat) (c : Chan) (s : State) : (setChan n c s).fco = s.fco := (rfl)
@[simp] theorem setChan_saf (n : Nat) (c : Chan) (s : State) : (setChan n c s).saf = s.saf := (rfl)
@[simp] theorem setChan_btn (n : Nat) (c : Chan) (s : State) : (setChan n c s).btn = s.btn := (rfl)
@[simp] theorem setChan_cores (n : Nat) (c : Chan) (s : State) : (setChan n c s).cores = s.cores := (rfl)
@[simp] theorem setChan_eng (n : Nat) (c : Chan) (s : State) : (setChan n c s).eng = s.eng := (rfl)
@[simp] theorem setChan_recent (n : Nat) (c : Chan) (s : State) : (setChan n c s).recent = s.recent := (rfl)
@[simp] theorem setChan_cells (n : Nat) (c : Chan) (s : State) : (setChan n c s).cells = s.cells := (rfl)
@[simp] theorem setChan_wheels (n : Nat) (c : Chan) (s : State) : (setChan n c s).wheels = s.wheels := (rfl)
@[simp] theorem setChan_ports (n : Nat) (c : Chan) (s : State) : (setChan n c s).ports = s.ports := (rfl)
@[simp] theorem setChan_svcSeq (n : Nat) (c : Chan) (s : State) : (setChan n c s).svcSeq = s.svcSeq := (rfl)
@[simp] theorem setChan_loops (n : Nat) (c : Chan) (s : State) : (setChan n c s).loops = s.loops := (rfl)
@[simp] theorem setChan_measLast (n : Nat) (c : Chan) (s : State) : (setChan n c s).measLast = s.measLast := (rfl)
@[simp] theorem setChan_chr (n : Nat) (c : Chan) (s : State) : (setChan n c s).chr = s.chr := (rfl)
@[simp] theorem setChan_eth (n : Nat) (c : Chan) (s : State) : (setChan n c s).eth = s.eth := (rfl)
@[simp] theorem setChan_fio (n : Nat) (c : Chan) (s : State) : (setChan n c s).fio = s.fio := (rfl)
@[simp] theorem setChan_userOut (n : Nat) (c : Chan) (s : State) : (setChan n c s).userOut = s.userOut := (rfl)

@[simp] theorem setHka_pending (h : Hka) (s : State) : (setHka h s).pending = s.pending := (rfl)
@[simp] theorem setHka_freeCtr (h : Hka) (s : State) : (setHka h s).freeCtr = s.freeCtr := (rfl)
@[simp] theorem setHka_regs (h : Hka) (s : State) : (setHka h s).regs = s.regs := (rfl)
@[simp] theorem setHka_pub (h : Hka) (s : State) : (setHka h s).pub = s.pub := (rfl)
@[simp] theorem setHka_latches (h : Hka) (s : State) : (setHka h s).latches = s.latches := (rfl)
@[simp] theorem setHka_bank (h : Hka) (s : State) : (setHka h s).bank = s.bank := (rfl)
@[simp] theorem setHka_staged (h : Hka) (s : State) : (setHka h s).staged = s.staged := (rfl)
@[simp] theorem setHka_mem (h : Hka) (s : State) : (setHka h s).mem = s.mem := (rfl)
@[simp] theorem setHka_hidden (h : Hka) (s : State) : (setHka h s).hidden = s.hidden := (rfl)
@[simp] theorem setHka_sys (h : Hka) (s : State) : (setHka h s).sys = s.sys := (rfl)
@[simp] theorem setHka_time (h : Hka) (s : State) : (setHka h s).time = s.time := (rfl)
@[simp] theorem setHka_esc (h : Hka) (s : State) : (setHka h s).esc = s.esc := (rfl)
@[simp] theorem setHka_sch (h : Hka) (s : State) : (setHka h s).sch = s.sch := (rfl)
@[simp] theorem setHka_fco (h : Hka) (s : State) : (setHka h s).fco = s.fco := (rfl)
@[simp] theorem setHka_saf (h : Hka) (s : State) : (setHka h s).saf = s.saf := (rfl)
@[simp] theorem setHka_btn (h : Hka) (s : State) : (setHka h s).btn = s.btn := (rfl)
@[simp] theorem setHka_cores (h : Hka) (s : State) : (setHka h s).cores = s.cores := (rfl)
@[simp] theorem setHka_eng (h : Hka) (s : State) : (setHka h s).eng = s.eng := (rfl)
@[simp] theorem setHka_recent (h : Hka) (s : State) : (setHka h s).recent = s.recent := (rfl)
@[simp] theorem setHka_cells (h : Hka) (s : State) : (setHka h s).cells = s.cells := (rfl)
@[simp] theorem setHka_wheels (h : Hka) (s : State) : (setHka h s).wheels = s.wheels := (rfl)
@[simp] theorem setHka_ports (h : Hka) (s : State) : (setHka h s).ports = s.ports := (rfl)
@[simp] theorem setHka_svcSeq (h : Hka) (s : State) : (setHka h s).svcSeq = s.svcSeq := (rfl)
@[simp] theorem setHka_loops (h : Hka) (s : State) : (setHka h s).loops = s.loops := (rfl)
@[simp] theorem setHka_measLast (h : Hka) (s : State) : (setHka h s).measLast = s.measLast := (rfl)
@[simp] theorem setHka_chr (h : Hka) (s : State) : (setHka h s).chr = s.chr := (rfl)
@[simp] theorem setHka_eth (h : Hka) (s : State) : (setHka h s).eth = s.eth := (rfl)
@[simp] theorem setHka_fio (h : Hka) (s : State) : (setHka h s).fio = s.fio := (rfl)
@[simp] theorem setHka_userOut (h : Hka) (s : State) : (setHka h s).userOut = s.userOut := (rfl)

@[simp] theorem setChr_pending (c : Chr) (s : State) : (setChr c s).pending = s.pending := (rfl)
@[simp] theorem setChr_freeCtr (c : Chr) (s : State) : (setChr c s).freeCtr = s.freeCtr := (rfl)
@[simp] theorem setChr_regs (c : Chr) (s : State) : (setChr c s).regs = s.regs := (rfl)
@[simp] theorem setChr_pub (c : Chr) (s : State) : (setChr c s).pub = s.pub := (rfl)
@[simp] theorem setChr_latches (c : Chr) (s : State) : (setChr c s).latches = s.latches := (rfl)
@[simp] theorem setChr_bank (c : Chr) (s : State) : (setChr c s).bank = s.bank := (rfl)
@[simp] theorem setChr_staged (c : Chr) (s : State) : (setChr c s).staged = s.staged := (rfl)
@[simp] theorem setChr_mem (c : Chr) (s : State) : (setChr c s).mem = s.mem := (rfl)
@[simp] theorem setChr_hidden (c : Chr) (s : State) : (setChr c s).hidden = s.hidden := (rfl)
@[simp] theorem setChr_sys (c : Chr) (s : State) : (setChr c s).sys = s.sys := (rfl)
@[simp] theorem setChr_time (c : Chr) (s : State) : (setChr c s).time = s.time := (rfl)
@[simp] theorem setChr_esc (c : Chr) (s : State) : (setChr c s).esc = s.esc := (rfl)
@[simp] theorem setChr_sch (c : Chr) (s : State) : (setChr c s).sch = s.sch := (rfl)
@[simp] theorem setChr_fco (c : Chr) (s : State) : (setChr c s).fco = s.fco := (rfl)
@[simp] theorem setChr_saf (c : Chr) (s : State) : (setChr c s).saf = s.saf := (rfl)
@[simp] theorem setChr_btn (c : Chr) (s : State) : (setChr c s).btn = s.btn := (rfl)
@[simp] theorem setChr_cores (c : Chr) (s : State) : (setChr c s).cores = s.cores := (rfl)
@[simp] theorem setChr_eng (c : Chr) (s : State) : (setChr c s).eng = s.eng := (rfl)
@[simp] theorem setChr_recent (c : Chr) (s : State) : (setChr c s).recent = s.recent := (rfl)
@[simp] theorem setChr_cells (c : Chr) (s : State) : (setChr c s).cells = s.cells := (rfl)
@[simp] theorem setChr_wheels (c : Chr) (s : State) : (setChr c s).wheels = s.wheels := (rfl)
@[simp] theorem setChr_ports (c : Chr) (s : State) : (setChr c s).ports = s.ports := (rfl)
@[simp] theorem setChr_svcSeq (c : Chr) (s : State) : (setChr c s).svcSeq = s.svcSeq := (rfl)
@[simp] theorem setChr_loops (c : Chr) (s : State) : (setChr c s).loops = s.loops := (rfl)
@[simp] theorem setChr_measLast (c : Chr) (s : State) : (setChr c s).measLast = s.measLast := (rfl)
@[simp] theorem setChr_front (c : Chr) (s : State) : (setChr c s).front = s.front := (rfl)
@[simp] theorem setChr_eth (c : Chr) (s : State) : (setChr c s).eth = s.eth := (rfl)
@[simp] theorem setChr_fio (c : Chr) (s : State) : (setChr c s).fio = s.fio := (rfl)
@[simp] theorem setChr_userOut (c : Chr) (s : State) : (setChr c s).userOut = s.userOut := (rfl)

@[simp] theorem setEthPort_pending (n : Nat) (p : EthPort) (s : State) : (setEthPort n p s).pending = s.pending :=
  (rfl)
@[simp] theorem setEthPort_freeCtr (n : Nat) (p : EthPort) (s : State) : (setEthPort n p s).freeCtr = s.freeCtr :=
  (rfl)
@[simp] theorem setEthPort_regs (n : Nat) (p : EthPort) (s : State) : (setEthPort n p s).regs = s.regs := (rfl)
@[simp] theorem setEthPort_pub (n : Nat) (p : EthPort) (s : State) : (setEthPort n p s).pub = s.pub := (rfl)
@[simp] theorem setEthPort_latches (n : Nat) (p : EthPort) (s : State) : (setEthPort n p s).latches = s.latches :=
  (rfl)
@[simp] theorem setEthPort_bank (n : Nat) (p : EthPort) (s : State) : (setEthPort n p s).bank = s.bank := (rfl)
@[simp] theorem setEthPort_staged (n : Nat) (p : EthPort) (s : State) : (setEthPort n p s).staged = s.staged := (rfl)
@[simp] theorem setEthPort_mem (n : Nat) (p : EthPort) (s : State) : (setEthPort n p s).mem = s.mem := (rfl)
@[simp] theorem setEthPort_hidden (n : Nat) (p : EthPort) (s : State) : (setEthPort n p s).hidden = s.hidden := (rfl)
@[simp] theorem setEthPort_sys (n : Nat) (p : EthPort) (s : State) : (setEthPort n p s).sys = s.sys := (rfl)
@[simp] theorem setEthPort_time (n : Nat) (p : EthPort) (s : State) : (setEthPort n p s).time = s.time := (rfl)
@[simp] theorem setEthPort_esc (n : Nat) (p : EthPort) (s : State) : (setEthPort n p s).esc = s.esc := (rfl)
@[simp] theorem setEthPort_sch (n : Nat) (p : EthPort) (s : State) : (setEthPort n p s).sch = s.sch := (rfl)
@[simp] theorem setEthPort_fco (n : Nat) (p : EthPort) (s : State) : (setEthPort n p s).fco = s.fco := (rfl)
@[simp] theorem setEthPort_saf (n : Nat) (p : EthPort) (s : State) : (setEthPort n p s).saf = s.saf := (rfl)
@[simp] theorem setEthPort_btn (n : Nat) (p : EthPort) (s : State) : (setEthPort n p s).btn = s.btn := (rfl)
@[simp] theorem setEthPort_cores (n : Nat) (p : EthPort) (s : State) : (setEthPort n p s).cores = s.cores := (rfl)
@[simp] theorem setEthPort_eng (n : Nat) (p : EthPort) (s : State) : (setEthPort n p s).eng = s.eng := (rfl)
@[simp] theorem setEthPort_recent (n : Nat) (p : EthPort) (s : State) : (setEthPort n p s).recent = s.recent := (rfl)
@[simp] theorem setEthPort_cells (n : Nat) (p : EthPort) (s : State) : (setEthPort n p s).cells = s.cells := (rfl)
@[simp] theorem setEthPort_wheels (n : Nat) (p : EthPort) (s : State) : (setEthPort n p s).wheels = s.wheels := (rfl)
@[simp] theorem setEthPort_ports (n : Nat) (p : EthPort) (s : State) : (setEthPort n p s).ports = s.ports := (rfl)
@[simp] theorem setEthPort_svcSeq (n : Nat) (p : EthPort) (s : State) : (setEthPort n p s).svcSeq = s.svcSeq := (rfl)
@[simp] theorem setEthPort_loops (n : Nat) (p : EthPort) (s : State) : (setEthPort n p s).loops = s.loops := (rfl)
@[simp] theorem setEthPort_measLast (n : Nat) (p : EthPort) (s : State) : (setEthPort n p s).measLast = s.measLast :=
  (rfl)
@[simp] theorem setEthPort_front (n : Nat) (p : EthPort) (s : State) : (setEthPort n p s).front = s.front := (rfl)
@[simp] theorem setEthPort_chr (n : Nat) (p : EthPort) (s : State) : (setEthPort n p s).chr = s.chr := (rfl)
@[simp] theorem setEthPort_fio (n : Nat) (p : EthPort) (s : State) : (setEthPort n p s).fio = s.fio := (rfl)
@[simp] theorem setEthPort_userOut (n : Nat) (p : EthPort) (s : State) : (setEthPort n p s).userOut = s.userOut := (rfl)

@[simp] theorem setField_pending (f : FieldDie) (s : State) : (setField f s).pending = s.pending := (rfl)
@[simp] theorem setField_freeCtr (f : FieldDie) (s : State) : (setField f s).freeCtr = s.freeCtr := (rfl)
@[simp] theorem setField_regs (f : FieldDie) (s : State) : (setField f s).regs = s.regs := (rfl)
@[simp] theorem setField_pub (f : FieldDie) (s : State) : (setField f s).pub = s.pub := (rfl)
@[simp] theorem setField_latches (f : FieldDie) (s : State) : (setField f s).latches = s.latches := (rfl)
@[simp] theorem setField_bank (f : FieldDie) (s : State) : (setField f s).bank = s.bank := (rfl)
@[simp] theorem setField_staged (f : FieldDie) (s : State) : (setField f s).staged = s.staged := (rfl)
@[simp] theorem setField_mem (f : FieldDie) (s : State) : (setField f s).mem = s.mem := (rfl)
@[simp] theorem setField_hidden (f : FieldDie) (s : State) : (setField f s).hidden = s.hidden := (rfl)
@[simp] theorem setField_sys (f : FieldDie) (s : State) : (setField f s).sys = s.sys := (rfl)
@[simp] theorem setField_time (f : FieldDie) (s : State) : (setField f s).time = s.time := (rfl)
@[simp] theorem setField_esc (f : FieldDie) (s : State) : (setField f s).esc = s.esc := (rfl)
@[simp] theorem setField_sch (f : FieldDie) (s : State) : (setField f s).sch = s.sch := (rfl)
@[simp] theorem setField_fco (f : FieldDie) (s : State) : (setField f s).fco = s.fco := (rfl)
@[simp] theorem setField_saf (f : FieldDie) (s : State) : (setField f s).saf = s.saf := (rfl)
@[simp] theorem setField_btn (f : FieldDie) (s : State) : (setField f s).btn = s.btn := (rfl)
@[simp] theorem setField_cores (f : FieldDie) (s : State) : (setField f s).cores = s.cores := (rfl)
@[simp] theorem setField_eng (f : FieldDie) (s : State) : (setField f s).eng = s.eng := (rfl)
@[simp] theorem setField_recent (f : FieldDie) (s : State) : (setField f s).recent = s.recent := (rfl)
@[simp] theorem setField_cells (f : FieldDie) (s : State) : (setField f s).cells = s.cells := (rfl)
@[simp] theorem setField_wheels (f : FieldDie) (s : State) : (setField f s).wheels = s.wheels := (rfl)
@[simp] theorem setField_ports (f : FieldDie) (s : State) : (setField f s).ports = s.ports := (rfl)
@[simp] theorem setField_svcSeq (f : FieldDie) (s : State) : (setField f s).svcSeq = s.svcSeq := (rfl)
@[simp] theorem setField_loops (f : FieldDie) (s : State) : (setField f s).loops = s.loops := (rfl)
@[simp] theorem setField_measLast (f : FieldDie) (s : State) : (setField f s).measLast = s.measLast := (rfl)
@[simp] theorem setField_front (f : FieldDie) (s : State) : (setField f s).front = s.front := (rfl)
@[simp] theorem setField_chr (f : FieldDie) (s : State) : (setField f s).chr = s.chr := (rfl)
@[simp] theorem setField_eth (f : FieldDie) (s : State) : (setField f s).eth = s.eth := (rfl)

@[simp] theorem setOut_pending (q : Nat) (o : OutState) (s : State) : (setOut q o s).pending = s.pending := (rfl)
@[simp] theorem setOut_freeCtr (q : Nat) (o : OutState) (s : State) : (setOut q o s).freeCtr = s.freeCtr := (rfl)
@[simp] theorem setOut_regs (q : Nat) (o : OutState) (s : State) : (setOut q o s).regs = s.regs := (rfl)
@[simp] theorem setOut_pub (q : Nat) (o : OutState) (s : State) : (setOut q o s).pub = s.pub := (rfl)
@[simp] theorem setOut_latches (q : Nat) (o : OutState) (s : State) : (setOut q o s).latches = s.latches := (rfl)
@[simp] theorem setOut_bank (q : Nat) (o : OutState) (s : State) : (setOut q o s).bank = s.bank := (rfl)
@[simp] theorem setOut_staged (q : Nat) (o : OutState) (s : State) : (setOut q o s).staged = s.staged := (rfl)
@[simp] theorem setOut_mem (q : Nat) (o : OutState) (s : State) : (setOut q o s).mem = s.mem := (rfl)
@[simp] theorem setOut_hidden (q : Nat) (o : OutState) (s : State) : (setOut q o s).hidden = s.hidden := (rfl)
@[simp] theorem setOut_sys (q : Nat) (o : OutState) (s : State) : (setOut q o s).sys = s.sys := (rfl)
@[simp] theorem setOut_time (q : Nat) (o : OutState) (s : State) : (setOut q o s).time = s.time := (rfl)
@[simp] theorem setOut_esc (q : Nat) (o : OutState) (s : State) : (setOut q o s).esc = s.esc := (rfl)
@[simp] theorem setOut_sch (q : Nat) (o : OutState) (s : State) : (setOut q o s).sch = s.sch := (rfl)
@[simp] theorem setOut_fco (q : Nat) (o : OutState) (s : State) : (setOut q o s).fco = s.fco := (rfl)
@[simp] theorem setOut_btn (q : Nat) (o : OutState) (s : State) : (setOut q o s).btn = s.btn := (rfl)
@[simp] theorem setOut_cores (q : Nat) (o : OutState) (s : State) : (setOut q o s).cores = s.cores := (rfl)
@[simp] theorem setOut_eng (q : Nat) (o : OutState) (s : State) : (setOut q o s).eng = s.eng := (rfl)
@[simp] theorem setOut_recent (q : Nat) (o : OutState) (s : State) : (setOut q o s).recent = s.recent := (rfl)
@[simp] theorem setOut_cells (q : Nat) (o : OutState) (s : State) : (setOut q o s).cells = s.cells := (rfl)
@[simp] theorem setOut_wheels (q : Nat) (o : OutState) (s : State) : (setOut q o s).wheels = s.wheels := (rfl)
@[simp] theorem setOut_ports (q : Nat) (o : OutState) (s : State) : (setOut q o s).ports = s.ports := (rfl)
@[simp] theorem setOut_svcSeq (q : Nat) (o : OutState) (s : State) : (setOut q o s).svcSeq = s.svcSeq := (rfl)
@[simp] theorem setOut_loops (q : Nat) (o : OutState) (s : State) : (setOut q o s).loops = s.loops := (rfl)
@[simp] theorem setOut_measLast (q : Nat) (o : OutState) (s : State) : (setOut q o s).measLast = s.measLast := (rfl)
@[simp] theorem setOut_front (q : Nat) (o : OutState) (s : State) : (setOut q o s).front = s.front := (rfl)
@[simp] theorem setOut_chr (q : Nat) (o : OutState) (s : State) : (setOut q o s).chr = s.chr := (rfl)
@[simp] theorem setOut_eth (q : Nat) (o : OutState) (s : State) : (setOut q o s).eth = s.eth := (rfl)
@[simp] theorem setOut_fio (q : Nat) (o : OutState) (s : State) : (setOut q o s).fio = s.fio := (rfl)
@[simp] theorem setOut_userOut (q : Nat) (o : OutState) (s : State) : (setOut q o s).userOut = s.userOut := (rfl)

@[simp] theorem setPresent_pending (code : Nat) (b : Bool) (s : State) : (setPresent code b s).pending = s.pending :=
  (rfl)
@[simp] theorem setPresent_freeCtr (code : Nat) (b : Bool) (s : State) : (setPresent code b s).freeCtr = s.freeCtr :=
  (rfl)
@[simp] theorem setPresent_regs (code : Nat) (b : Bool) (s : State) : (setPresent code b s).regs = s.regs := (rfl)
@[simp] theorem setPresent_pub (code : Nat) (b : Bool) (s : State) : (setPresent code b s).pub = s.pub := (rfl)
@[simp] theorem setPresent_latches (code : Nat) (b : Bool) (s : State) : (setPresent code b s).latches = s.latches :=
  (rfl)
@[simp] theorem setPresent_bank (code : Nat) (b : Bool) (s : State) : (setPresent code b s).bank = s.bank := (rfl)
@[simp] theorem setPresent_staged (code : Nat) (b : Bool) (s : State) : (setPresent code b s).staged = s.staged :=
  (rfl)
@[simp] theorem setPresent_mem (code : Nat) (b : Bool) (s : State) : (setPresent code b s).mem = s.mem := (rfl)
@[simp] theorem setPresent_hidden (code : Nat) (b : Bool) (s : State) : (setPresent code b s).hidden = s.hidden :=
  (rfl)
@[simp] theorem setPresent_sys (code : Nat) (b : Bool) (s : State) : (setPresent code b s).sys = s.sys := (rfl)
@[simp] theorem setPresent_time (code : Nat) (b : Bool) (s : State) : (setPresent code b s).time = s.time := (rfl)
@[simp] theorem setPresent_esc (code : Nat) (b : Bool) (s : State) : (setPresent code b s).esc = s.esc := (rfl)
@[simp] theorem setPresent_sch (code : Nat) (b : Bool) (s : State) : (setPresent code b s).sch = s.sch := (rfl)
@[simp] theorem setPresent_fco (code : Nat) (b : Bool) (s : State) : (setPresent code b s).fco = s.fco := (rfl)
@[simp] theorem setPresent_btn (code : Nat) (b : Bool) (s : State) : (setPresent code b s).btn = s.btn := (rfl)
@[simp] theorem setPresent_cores (code : Nat) (b : Bool) (s : State) : (setPresent code b s).cores = s.cores := (rfl)
@[simp] theorem setPresent_eng (code : Nat) (b : Bool) (s : State) : (setPresent code b s).eng = s.eng := (rfl)
@[simp] theorem setPresent_recent (code : Nat) (b : Bool) (s : State) : (setPresent code b s).recent = s.recent :=
  (rfl)
@[simp] theorem setPresent_cells (code : Nat) (b : Bool) (s : State) : (setPresent code b s).cells = s.cells := (rfl)
@[simp] theorem setPresent_wheels (code : Nat) (b : Bool) (s : State) : (setPresent code b s).wheels = s.wheels :=
  (rfl)
@[simp] theorem setPresent_ports (code : Nat) (b : Bool) (s : State) : (setPresent code b s).ports = s.ports := (rfl)
@[simp] theorem setPresent_svcSeq (code : Nat) (b : Bool) (s : State) : (setPresent code b s).svcSeq = s.svcSeq :=
  (rfl)
@[simp] theorem setPresent_loops (code : Nat) (b : Bool) (s : State) : (setPresent code b s).loops = s.loops := (rfl)
@[simp] theorem setPresent_measLast (code : Nat) (b : Bool) (s : State) : (setPresent code b s).measLast = s.measLast :=
  (rfl)
@[simp] theorem setPresent_front (code : Nat) (b : Bool) (s : State) : (setPresent code b s).front = s.front := (rfl)
@[simp] theorem setPresent_chr (code : Nat) (b : Bool) (s : State) : (setPresent code b s).chr = s.chr := (rfl)
@[simp] theorem setPresent_eth (code : Nat) (b : Bool) (s : State) : (setPresent code b s).eth = s.eth := (rfl)
@[simp] theorem setPresent_fio (code : Nat) (b : Bool) (s : State) : (setPresent code b s).fio = s.fio := (rfl)
@[simp] theorem setPresent_userOut (code : Nat) (b : Bool) (s : State) : (setPresent code b s).userOut = s.userOut :=
  (rfl)

@[simp] theorem setMode_pending (m : Mode) (s : State) : (setMode m s).pending = s.pending := (rfl)
@[simp] theorem setMode_freeCtr (m : Mode) (s : State) : (setMode m s).freeCtr = s.freeCtr := (rfl)
@[simp] theorem setMode_regs (m : Mode) (s : State) : (setMode m s).regs = s.regs := (rfl)
@[simp] theorem setMode_pub (m : Mode) (s : State) : (setMode m s).pub = s.pub := (rfl)
@[simp] theorem setMode_latches (m : Mode) (s : State) : (setMode m s).latches = s.latches := (rfl)
@[simp] theorem setMode_bank (m : Mode) (s : State) : (setMode m s).bank = s.bank := (rfl)
@[simp] theorem setMode_staged (m : Mode) (s : State) : (setMode m s).staged = s.staged := (rfl)
@[simp] theorem setMode_mem (m : Mode) (s : State) : (setMode m s).mem = s.mem := (rfl)
@[simp] theorem setMode_hidden (m : Mode) (s : State) : (setMode m s).hidden = s.hidden := (rfl)
@[simp] theorem setMode_time (m : Mode) (s : State) : (setMode m s).time = s.time := (rfl)
@[simp] theorem setMode_esc (m : Mode) (s : State) : (setMode m s).esc = s.esc := (rfl)
@[simp] theorem setMode_sch (m : Mode) (s : State) : (setMode m s).sch = s.sch := (rfl)
@[simp] theorem setMode_fco (m : Mode) (s : State) : (setMode m s).fco = s.fco := (rfl)
@[simp] theorem setMode_saf (m : Mode) (s : State) : (setMode m s).saf = s.saf := (rfl)
@[simp] theorem setMode_btn (m : Mode) (s : State) : (setMode m s).btn = s.btn := (rfl)
@[simp] theorem setMode_cores (m : Mode) (s : State) : (setMode m s).cores = s.cores := (rfl)
@[simp] theorem setMode_eng (m : Mode) (s : State) : (setMode m s).eng = s.eng := (rfl)
@[simp] theorem setMode_recent (m : Mode) (s : State) : (setMode m s).recent = s.recent := (rfl)
@[simp] theorem setMode_cells (m : Mode) (s : State) : (setMode m s).cells = s.cells := (rfl)
@[simp] theorem setMode_wheels (m : Mode) (s : State) : (setMode m s).wheels = s.wheels := (rfl)
@[simp] theorem setMode_ports (m : Mode) (s : State) : (setMode m s).ports = s.ports := (rfl)
@[simp] theorem setMode_svcSeq (m : Mode) (s : State) : (setMode m s).svcSeq = s.svcSeq := (rfl)
@[simp] theorem setMode_loops (m : Mode) (s : State) : (setMode m s).loops = s.loops := (rfl)
@[simp] theorem setMode_measLast (m : Mode) (s : State) : (setMode m s).measLast = s.measLast := (rfl)
@[simp] theorem setMode_front (m : Mode) (s : State) : (setMode m s).front = s.front := (rfl)
@[simp] theorem setMode_chr (m : Mode) (s : State) : (setMode m s).chr = s.chr := (rfl)
@[simp] theorem setMode_eth (m : Mode) (s : State) : (setMode m s).eth = s.eth := (rfl)
@[simp] theorem setMode_fio (m : Mode) (s : State) : (setMode m s).fio = s.fio := (rfl)
@[simp] theorem setMode_userOut (m : Mode) (s : State) : (setMode m s).userOut = s.userOut := (rfl)

@[simp] theorem setMailbox_pending (m : Nat) (x : Option Mailbox) (s : State) : (setMailbox m x s).pending = s.pending :=
  (rfl)
@[simp] theorem setMailbox_freeCtr (m : Nat) (x : Option Mailbox) (s : State) : (setMailbox m x s).freeCtr = s.freeCtr :=
  (rfl)
@[simp] theorem setMailbox_regs (m : Nat) (x : Option Mailbox) (s : State) : (setMailbox m x s).regs = s.regs := (rfl)
@[simp] theorem setMailbox_pub (m : Nat) (x : Option Mailbox) (s : State) : (setMailbox m x s).pub = s.pub := (rfl)
@[simp] theorem setMailbox_latches (m : Nat) (x : Option Mailbox) (s : State) : (setMailbox m x s).latches = s.latches :=
  (rfl)
@[simp] theorem setMailbox_bank (m : Nat) (x : Option Mailbox) (s : State) : (setMailbox m x s).bank = s.bank := (rfl)
@[simp] theorem setMailbox_staged (m : Nat) (x : Option Mailbox) (s : State) : (setMailbox m x s).staged = s.staged :=
  (rfl)
@[simp] theorem setMailbox_mem (m : Nat) (x : Option Mailbox) (s : State) : (setMailbox m x s).mem = s.mem := (rfl)
@[simp] theorem setMailbox_hidden (m : Nat) (x : Option Mailbox) (s : State) : (setMailbox m x s).hidden = s.hidden :=
  (rfl)
@[simp] theorem setMailbox_time (m : Nat) (x : Option Mailbox) (s : State) : (setMailbox m x s).time = s.time := (rfl)
@[simp] theorem setMailbox_esc (m : Nat) (x : Option Mailbox) (s : State) : (setMailbox m x s).esc = s.esc := (rfl)
@[simp] theorem setMailbox_sch (m : Nat) (x : Option Mailbox) (s : State) : (setMailbox m x s).sch = s.sch := (rfl)
@[simp] theorem setMailbox_fco (m : Nat) (x : Option Mailbox) (s : State) : (setMailbox m x s).fco = s.fco := (rfl)
@[simp] theorem setMailbox_saf (m : Nat) (x : Option Mailbox) (s : State) : (setMailbox m x s).saf = s.saf := (rfl)
@[simp] theorem setMailbox_btn (m : Nat) (x : Option Mailbox) (s : State) : (setMailbox m x s).btn = s.btn := (rfl)
@[simp] theorem setMailbox_cores (m : Nat) (x : Option Mailbox) (s : State) : (setMailbox m x s).cores = s.cores :=
  (rfl)
@[simp] theorem setMailbox_eng (m : Nat) (x : Option Mailbox) (s : State) : (setMailbox m x s).eng = s.eng := (rfl)
@[simp] theorem setMailbox_recent (m : Nat) (x : Option Mailbox) (s : State) : (setMailbox m x s).recent = s.recent :=
  (rfl)
@[simp] theorem setMailbox_cells (m : Nat) (x : Option Mailbox) (s : State) : (setMailbox m x s).cells = s.cells :=
  (rfl)
@[simp] theorem setMailbox_wheels (m : Nat) (x : Option Mailbox) (s : State) : (setMailbox m x s).wheels = s.wheels :=
  (rfl)
@[simp] theorem setMailbox_ports (m : Nat) (x : Option Mailbox) (s : State) : (setMailbox m x s).ports = s.ports :=
  (rfl)
@[simp] theorem setMailbox_svcSeq (m : Nat) (x : Option Mailbox) (s : State) : (setMailbox m x s).svcSeq = s.svcSeq :=
  (rfl)
@[simp] theorem setMailbox_loops (m : Nat) (x : Option Mailbox) (s : State) : (setMailbox m x s).loops = s.loops :=
  (rfl)
@[simp] theorem setMailbox_measLast (m : Nat) (x : Option Mailbox) (s : State) : (setMailbox m x s).measLast = s.measLast :=
  (rfl)
@[simp] theorem setMailbox_front (m : Nat) (x : Option Mailbox) (s : State) : (setMailbox m x s).front = s.front :=
  (rfl)
@[simp] theorem setMailbox_chr (m : Nat) (x : Option Mailbox) (s : State) : (setMailbox m x s).chr = s.chr := (rfl)
@[simp] theorem setMailbox_eth (m : Nat) (x : Option Mailbox) (s : State) : (setMailbox m x s).eth = s.eth := (rfl)
@[simp] theorem setMailbox_fio (m : Nat) (x : Option Mailbox) (s : State) : (setMailbox m x s).fio = s.fio := (rfl)
@[simp] theorem setMailbox_userOut (m : Nat) (x : Option Mailbox) (s : State) : (setMailbox m x s).userOut = s.userOut :=
  (rfl)

@[simp] theorem setEsc_pending (e : Esc) (s : State) : (setEsc e s).pending = s.pending := (rfl)
@[simp] theorem setEsc_freeCtr (e : Esc) (s : State) : (setEsc e s).freeCtr = s.freeCtr := (rfl)
@[simp] theorem setEsc_regs (e : Esc) (s : State) : (setEsc e s).regs = s.regs := (rfl)
@[simp] theorem setEsc_pub (e : Esc) (s : State) : (setEsc e s).pub = s.pub := (rfl)
@[simp] theorem setEsc_latches (e : Esc) (s : State) : (setEsc e s).latches = s.latches := (rfl)
@[simp] theorem setEsc_bank (e : Esc) (s : State) : (setEsc e s).bank = s.bank := (rfl)
@[simp] theorem setEsc_staged (e : Esc) (s : State) : (setEsc e s).staged = s.staged := (rfl)
@[simp] theorem setEsc_mem (e : Esc) (s : State) : (setEsc e s).mem = s.mem := (rfl)
@[simp] theorem setEsc_hidden (e : Esc) (s : State) : (setEsc e s).hidden = s.hidden := (rfl)
@[simp] theorem setEsc_sys (e : Esc) (s : State) : (setEsc e s).sys = s.sys := (rfl)
@[simp] theorem setEsc_time (e : Esc) (s : State) : (setEsc e s).time = s.time := (rfl)
@[simp] theorem setEsc_sch (e : Esc) (s : State) : (setEsc e s).sch = s.sch := (rfl)
@[simp] theorem setEsc_fco (e : Esc) (s : State) : (setEsc e s).fco = s.fco := (rfl)
@[simp] theorem setEsc_saf (e : Esc) (s : State) : (setEsc e s).saf = s.saf := (rfl)
@[simp] theorem setEsc_btn (e : Esc) (s : State) : (setEsc e s).btn = s.btn := (rfl)
@[simp] theorem setEsc_cores (e : Esc) (s : State) : (setEsc e s).cores = s.cores := (rfl)
@[simp] theorem setEsc_eng (e : Esc) (s : State) : (setEsc e s).eng = s.eng := (rfl)
@[simp] theorem setEsc_recent (e : Esc) (s : State) : (setEsc e s).recent = s.recent := (rfl)
@[simp] theorem setEsc_cells (e : Esc) (s : State) : (setEsc e s).cells = s.cells := (rfl)
@[simp] theorem setEsc_wheels (e : Esc) (s : State) : (setEsc e s).wheels = s.wheels := (rfl)
@[simp] theorem setEsc_ports (e : Esc) (s : State) : (setEsc e s).ports = s.ports := (rfl)
@[simp] theorem setEsc_svcSeq (e : Esc) (s : State) : (setEsc e s).svcSeq = s.svcSeq := (rfl)
@[simp] theorem setEsc_loops (e : Esc) (s : State) : (setEsc e s).loops = s.loops := (rfl)
@[simp] theorem setEsc_measLast (e : Esc) (s : State) : (setEsc e s).measLast = s.measLast := (rfl)
@[simp] theorem setEsc_front (e : Esc) (s : State) : (setEsc e s).front = s.front := (rfl)
@[simp] theorem setEsc_chr (e : Esc) (s : State) : (setEsc e s).chr = s.chr := (rfl)
@[simp] theorem setEsc_eth (e : Esc) (s : State) : (setEsc e s).eth = s.eth := (rfl)
@[simp] theorem setEsc_fio (e : Esc) (s : State) : (setEsc e s).fio = s.fio := (rfl)
@[simp] theorem setEsc_userOut (e : Esc) (s : State) : (setEsc e s).userOut = s.userOut := (rfl)

/-! ### What an update writes -/

@[simp] theorem memWriteBytes_mem (a : Nat) (bs : List Byte) (s : State) :
    (memWriteBytes a bs s).mem = Memory.writeList s.mem a bs := (rfl)

@[simp] theorem hideBytes_hidden (a : Nat) (bs : List Byte) (s : State) :
    (hideBytes a bs s).hidden = Memory.writeList s.hidden a bs := (rfl)

@[simp] theorem publish_mem (a n : Nat) (s : State) : (publish a n s).mem = Memory.copyRange a n s.hidden s.mem :=
  (rfl)

/-- A register after a write of one. -/
theorem regGet_regSet (a : Nat) (v : Word) (s : State) (x : Nat) :
    regGet (regSet a v s) x = if x = a then v else regGet s x := Store.get_set _ _ _ _ _

@[simp] theorem regGet_regSet_self (a : Nat) (v : Word) (s : State) : regGet (regSet a v s) a = v := by
  simp [regGet_regSet]

theorem regGet_regSet_other {a x : Nat} (v : Word) (s : State) (h : x ≠ a) : regGet (regSet a v s) x = regGet s x := by
  simp [regGet_regSet, h]

theorem core_setCore (c : Nat) (k : Core) (s : State) (x : Nat) :
    core (setCore c k s) x = if x = c then k else core s x := Store.get_set _ _ _ _ _

@[simp] theorem core_setCore_self (c : Nat) (k : Core) (s : State) : core (setCore c k s) c = k := by
  simp [core_setCore]

theorem core_setCore_other {c x : Nat} (k : Core) (s : State) (h : x ≠ c) : core (setCore c k s) x = core s x := by
  simp [core_setCore, h]

theorem cell_setCell (i : Nat) (x : Cell) (s : State) (j : Nat) : cell (setCell i x s) j = if j = i then x else cell s j :=
  Store.get_set _ _ _ _ _

theorem wheel_setWheel (w : Nat) (x : Wheel) (s : State) (j : Nat) :
    wheel (setWheel w x s) j = if j = w then x else wheel s j := Store.get_set _ _ _ _ _

theorem port_setPort (p : Nat) (x : Port) (s : State) (j : Nat) : port (setPort p x s) j = if j = p then x else port s j :=
  Store.get_set _ _ _ _ _

theorem loop_setLoop (e : Nat) (x : Loop) (s : State) (j : Nat) : loop (setLoop e x s) j = if j = e then x else loop s j :=
  Store.get_set _ _ _ _ _

theorem chan_setChan (n : Nat) (x : Chan) (s : State) (j : Nat) : chan (setChan n x s) j = if j = n then x else chan s j :=
  Store.get_set _ _ _ _ _

theorem ethPort_setEthPort (n : Nat) (x : EthPort) (s : State) (j : Nat) :
    ethPort (setEthPort n x s) j = if j = n then x else ethPort s j := Store.get_set _ _ _ _ _

theorem nextSlot_setNext (c : Nat) (e : Option Event) (s : State) (j : Nat) :
    nextSlot (setNext c e s) j = if j = c then e else nextSlot s j := Store.get_set _ _ _ _ _

theorem curSlot_setCur (c : Nat) (e : Option Event) (s : State) (j : Nat) :
    curSlot (setCur c e s) j = if j = c then e else curSlot s j := Store.get_set _ _ _ _ _

theorem engQueue_setEngQueue (k : Nat) (l : List EngOp) (s : State) (j : Nat) :
    engQueue (setEngQueue k l s) j = if j = k then l else engQueue s j := Store.get_set _ _ _ _ _

/-- A byte of memory after a write of bytes. -/
theorem memRead_memWriteBytes_other (a : Nat) (bs : List Byte) (s : State) (x : Nat) (h : ¬(a ≤ x ∧ x < a + bs.length)) :
    memRead (memWriteBytes a bs s) x = memRead s x := Memory.read_writeList_other _ _ _ _ h

/-! ### Scalar, vector and predicate registers of a core -/

theorem Core.getS_setS (k : Core) (d : Nat) (w : Word) (i : Nat) :
    (k.setS d w).getS i = if i = d ∧ d ≠ 0 then w else k.getS i := by
  unfold Core.setS
  by_cases hd : d = 0
  · simp [hd]
  · by_cases hi : i = d
    · subst hi
      simp [Core.getS, hd]
    · by_cases h0 : i = 0
      · subst h0
        simp [Core.getS, Ne.symm hd]
      · simp [Core.getS, hd, h0, hi, Store.get_set]

theorem Core.getV_setV (k : Core) (d l : Nat) (w : Word) (i j : Nat) (hl : l < 16) (hj : j < 16) :
    (k.setV d l w).getV i j = if i = d ∧ j = l then w else k.getV i j := by
  simp only [Core.getV, Core.setV, Store.get_set]
  by_cases h : i = d ∧ j = l
  · simp [h]
  · have : ¬ 16 * i + j = 16 * d + l := by omega
    simp [h, this]

theorem Core.getP_setP (k : Core) (d : Nat) (w : BitVec 16) (i : Nat) (hd : d ≠ 0) :
    (k.setP d w).getP i = if i = d then w else k.getP i := by
  by_cases h0 : i = 0
  · subst h0
    simp [Core.getP, Ne.symm hd]
  · simp [Core.getP, Core.setP, h0, Store.get_set]

/-! ### Writes through the ECC checkers (R411) -/

/-- A mark changes the fault collector's marks and FCO_INJ_STAT alone. -/
theorem eccMark_frame (key : Nat) (s : State) :
    eccMark key s = { s with
      regs := (eccMark key s).regs, fco := { s.fco with marks := (eccMark key s).fco.marks } } := by
  unfold eccMark fset regSet
  dsimp only

/-- A write through a checker changes marks and FCO_INJ_STAT alone. -/
theorem eccPass_frame (a n : Nat) (s : State) :
    eccPass a n s = { s with
      regs := (eccPass a n s).regs, fco := { s.fco with marks := (eccPass a n s).fco.marks } } := by
  unfold eccPass eccUnmark
  dsimp only
  split
  · dsimp only
  · split
    · conv_lhs => rw [eccMark_frame]
    · dsimp only

/-- With no checker armed no register changes. -/
theorem eccPass_regs (a n : Nat) (s : State) (h : injState s ≠ 1) : (eccPass a n s).regs = s.regs := by
  rw [eccPass, if_pos h]
  rfl

@[simp] theorem eccPass_mem (a n : Nat) (s : State) : (eccPass a n s).mem = s.mem := by rw [eccPass_frame]

/-- What a write through a checker leaves: its bytes, marks, and FCO_INJ_STAT. -/
theorem putBytes_frame (a : Nat) (bs : List Byte) (s : State) :
    putBytes a bs s = { s with
      mem := Memory.writeList s.mem a bs, regs := (putBytes a bs s).regs,
      fco := { s.fco with marks := (putBytes a bs s).fco.marks } } := by
  conv_lhs => rw [putBytes, memWriteBytes, eccPass_frame]
  rfl

/-- The bytes of a write through a checker. -/
theorem memRead_putBytes_other (a : Nat) (bs : List Byte) (s : State) (x : Nat) (h : ¬(a ≤ x ∧ x < a + bs.length)) :
    memRead (putBytes a bs s) x = memRead s x := by
  rw [putBytes_frame]
  exact Memory.read_writeList_other s.mem a bs x h
/-! ### Fields of registers -/

theorem fieldGet_lt (w : Word) (hi lo : Nat) : fieldGet w hi lo < 2 ^ (hi - lo + 1) := Nat.mod_lt _ (Nat.two_pow_pos _)

end Sys2Proof.Machine
end

