-- ==== Sys2Proof/Laws/Fci.lean ====
section
/-! SUPPORT. What issuing an instruction on a core comes to (R216 to R219, R237): the one lemma for `fci`, and its use for
the instructions that only compute on registers. -/

namespace Sys2Proof.Machine

/-- A core that can issue: the effect of the instruction, or the exception its encoding or its effect raises. -/
theorem fci_issue {s : State} {c : Nat} {u : Use} (act : Nat → State → Eff) (h : canIssue s c u) :
    fci c u act s =
      if u.legal then
        match act ((core s c).issueClock u) (afterIssue s c u) with
        | .ok s' => s'
        | .exc cause ea acc s' => exception c cause (core s c).pc ea acc s'
      else exception c Exc.illegal (core s c).pc 0 Acc.none s := by
  obtain ⟨hr, hc, hp, hm⟩ := h
  unfold fci
  have h1 : ¬((core s c).run ≠ .running ∨ ¬isEventCore c = true ∧ budgetLoad s ≤ (core s c).issueClock u) := by
    rintro (h | ⟨h, h'⟩)
    · exact h hr
    · rcases hc with hc | hc
      · exact h hc
      · omega
  simp only [h1, if_false, hp, Bool.not_true, Bool.false_eq_true]
  have h2 : eccLoad (spmKey c (core s c).pc.toNat) (spmSource c) (core s c).pc.toNat c Acc.fetch s = (false, s) := by
    unfold eccLoad
    simp [hm]
  rw [h2]
  cases hl : u.legal
  · simp
  · simp only [Bool.not_true, Bool.false_eq_true, if_false, if_true, afterIssue] <;>
    cases act ((core s c).issueClock u) (setCore c ((core s c).issue u ((core s c).issueClock u)) s) <;> rfl

theorem core_afterIssue (s : State) (c : Nat) (u : Use) :
    core (afterIssue s c u) c = (core s c).issue u ((core s c).issueClock u) := core_setCore_self _ _ _

theorem setCore_setCore (c : Nat) (k k' : Core) (s : State) (x : Nat) :
    core (setCore c k (setCore c k' s)) x = core (setCore c k s) x := by
  simp only [core_setCore]
  split <;> rfl

/-- An instruction that only computes on its core's registers. -/
theorem fciReg_next {s : State} {c : Nat} {u : Use} (f : Core → Core) (h : canIssue s c u) (hl : u.legal = true) :
    onlyCore c s (fciReg c u f s) ∧ core (fciReg c u f s) c = f ((core s c).issue u ((core s c).issueClock u)) := by
  unfold fciReg
  rw [fci_issue _ h, if_pos hl]
  simp only [core_afterIssue]
  refine ⟨⟨rfl, fun x hx => ?_⟩, core_setCore_self _ _ _⟩
  rw [afterIssue, core_setCore_other _ _ hx, core_setCore_other _ _ hx]

/-- An illegal encoding raises ILLEGAL. -/
theorem fci_illegal {s : State} {c : Nat} {u : Use} (act : Nat → State → Eff) (h : canIssue s c u) (hl : u.legal = false) :
    fci c u act s = exception c Exc.illegal (core s c).pc 0 Acc.none s := by
  rw [fci_issue act h, if_neg (by simp [hl])]

theorem Core.clocked_issue (k : Core) (u : Use) : clocked k (k.issue u (k.issueClock u)) u := by
  refine ⟨rfl, rfl, fun r => ?_⟩
  unfold Core.issue
  cases hd : u.dst with
  | none => simp
  | some d =>
    by_cases h0 : d = 0
    · subst h0
      by_cases hr : r = 0
      · simp [hr]
      · simp [Ne.symm hr]
    · simp only [h0, if_false, Store.get_set, Option.some.injEq]
      by_cases hr : r = d
      · subst hr
        simp [h0]
      · simp [hr, Ne.symm hr]

@[simp] theorem Core.getS_issue (k : Core) (u : Use) (t i : Nat) : (k.issue u t).getS i = k.getS i := rfl
@[simp] theorem Core.getV_issue (k : Core) (u : Use) (t i j : Nat) : (k.issue u t).getV i j = k.getV i j := rfl
@[simp] theorem Core.getP_issue (k : Core) (u : Use) (t i : Nat) : (k.issue u t).getP i = k.getP i := rfl

end Sys2Proof.Machine
end

