-- ==== Sys2Proof/Tests/Slice0.lean ====
section
/-! SUPPORT. Tests of the model: ill-formed terms, instruction words and worked examples of the manual, single steps on
small states, and for each statement a state and operands that meet its hypotheses. -/

namespace Sys2Proof.Machine.Tests

set_option Elab.async false

/-- What a command leaves, seen through `f`. -/
def after {α : Type} (i : Instr) (s : State) (f : State → α) : Option α :=
  match exec i s with
  | .next t => some (f t)
  | .fault _ => none
  | .refused _ => none

/-- A core at address 0x100 of its code with a few registers set. -/
def k0 : Core :=
  { Core.reset with
    run := .running, pc := 0x100,
    s := [(1, 0xFFFFFFFF), (2, 1), (3, 0x80000000), (4, 0x20000), (5, 0x10000), (6, 0x20002), (7, 0x20040), (8, 0x1000),
          (9, 4), (10, 0x40400000), (11, 0x3F800000), (12, 0x80001000), (13, 0x8000), (14, 0x10010000), (15, 0x102)],
    v := [(16, 5), (17, 0xFFFFFFFF), (32, 7), (48, 0x3F800000), (63, 0x40000000)],
    p := [(1, 0x8001), (2, 0x0003)] }

/-- Reset with core `c` issuing. -/
def at_ (c : Nat) (k : Core) : State := setCore c k State.reset

/-- Reset with cycle core 0, and with event core 4, issuing. -/
def s0 : State := at_ 0 k0
def s4 : State := at_ 4 k0

def zeros (n : Nat) : List Byte := List.replicate n 0
def rq : Req := ⟨1, 5, true, .ethM, 0⟩

/-! ### Ill-formed terms, one for each check of WellFormed, and the terms at the bounds -/

theorem test_ill_boot : (Instr.bootComplete ⟨true, true, 0, [[], [], [], []]⟩).wellFormed = false := by decide
theorem test_well_boot : (Instr.bootComplete ⟨true, true, 0, [[], [], [], [], []]⟩).wellFormed = true := by decide
theorem test_ill_frames : (Instr.probeReturn 0 [] 0).wellFormed = false ∧ (Instr.echoReceive 0 [] 0).wellFormed = false ∧
    (Instr.svcResponseReceive 0 (zeros 63)).wellFormed = false ∧
    (Instr.svcResponseReceive 0 (zeros 64)).wellFormed = true := by decide
theorem test_ill_long_frame (x : LinkChar) (l : List LinkChar) : (l.length = 2092 → (Instr.chainFrameReceive 0 (x :: l) 0 0).wellFormed = false) ∧
    (l.length = 2091 → (Instr.chainFrameReceive 0 (x :: l) 0 0).wellFormed = true) := by
  constructor <;> intro h <;> simp [Instr.wellFormed, chainFrameOk, h]
theorem test_ill_chains : (Instr.chainHeal rq 65536).wellFormed = false ∧
    (Instr.cellAccept rq 65536 0).wellFormed = false ∧ (Instr.cellAccept rq 0 65536).wellFormed = false ∧
    (Instr.cellAccept rq 65535 65535).wellFormed = true := by decide
theorem test_ill_samples : (Instr.fgcalEnd (List.replicate 23 0) (List.replicate 24 0)).wellFormed = false ∧
    (Instr.fgcalEnd (List.replicate 24 0) (List.replicate 25 0)).wellFormed = false ∧
    (Instr.rawSample (List.replicate 23 0) 0).wellFormed = false ∧
    (Instr.rawSample (List.replicate 24 0) 0).wellFormed = true := by decide
theorem test_ill_ptp : (Instr.ptpMessageReceive 0 ⟨.sync, 256, 0, 1⟩ 0).wellFormed = false ∧
    (Instr.ptpMessageReceive 0 ⟨.sync, 0, 65536, 1⟩ 0).wellFormed = false ∧
    (Instr.ptpMessageReceive 0 ⟨.sync, 0, 0, 0⟩ 0).wellFormed = false ∧
    (Instr.ptpMessageReceive 0 ⟨.sync, 0, 0, 11⟩ 0).wellFormed = false := by decide
def goose (tal src seq : Nat) : GooseFrame :=
  ⟨0, 0, 0, 0, 1, 0, tal, false, false, [], ⟨src, some (seq, false), false⟩⟩
theorem test_ill_goose : (Instr.gooseReceive 0 (goose (2 ^ 32) 0 0)).wellFormed = false ∧
    (Instr.gooseReceive 0 (goose 0 (2 ^ 48) 0)).wellFormed = false ∧
    (Instr.gooseReceive 0 (goose 0 0 65536)).wellFormed = false ∧
    (Instr.gooseReceive 0 (goose 0 0 65535)).wellFormed = true := by decide
def sv (rate : Nat) (l : List SvAsdu) : SvFrame := ⟨0, 0, 0, 0, rate, l⟩
theorem test_ill_sv : (Instr.svFrameReceive 0 (sv 65536 [⟨0, true, []⟩])).wellFormed = false ∧ (Instr.svFrameReceive 0 (sv 4000 [])).wellFormed = false ∧
    (Instr.svFrameReceive 0 (sv 4000 (List.replicate 9 ⟨0, true, []⟩))).wellFormed = false ∧ (Instr.svFrameReceive 0 (sv 4000 [⟨65536, true, []⟩])).wellFormed = false ∧
    (Instr.svFrameReceive 0 (sv 4000 [⟨0, true, List.replicate 17 (0, true)⟩])).wellFormed = false ∧
    (Instr.svFrameReceive 0 (sv 4000 [⟨0, true, [(2 ^ 31, true)]⟩])).wellFormed = false ∧ (Instr.svFrameReceive 0 (sv 4000 [⟨0, true, [(-1, true)]⟩])).wellFormed = true := by
  decide
theorem test_ill_icmp (l : List Byte) : (l.length = 1473 → (Instr.icmpEchoReceive 0 0 0 l).wellFormed = false) ∧
    (l.length = 1472 → (Instr.icmpEchoReceive 0 0 0 l).wellFormed = true) := by
  constructor <;> intro h <;> simp [Instr.wellFormed, h]
def beat (seq ack stSeq stRes : Nat) : Heartbeat :=
  ⟨seq, ack, .active, false, true, .run, true, .none, 5, 0, 0, 0, stSeq, stRes, true⟩
theorem test_ill_heartbeat : (Instr.heartbeatReceive (beat 256 0 0 0)).wellFormed = false ∧
    (Instr.heartbeatReceive (beat 0 256 0 0)).wellFormed = false ∧
    (Instr.heartbeatReceive (beat 0 0 65536 0)).wellFormed = false ∧
    (Instr.heartbeatReceive (beat 0 0 0 256)).wellFormed = false ∧
    (Instr.heartbeatReceive (beat 255 255 65535 255)).wellFormed = true := by decide
def engRec : EngineRec := ⟨0, 0, false, List.replicate 16 0, List.replicate 8 0, List.replicate 8 0, List.replicate 8 0,
  List.replicate 8 0⟩
def whRec : WheelRec := ⟨0, 0, false, none, 0, 0, false, [], []⟩
theorem test_ill_mirror : (Instr.mirrorRecordReceive (.engine true 0 0 []) 0).wellFormed = false ∧
    (Instr.mirrorRecordReceive (.engine true 0 0 (List.replicate 8 { engRec with x := [] })) 0).wellFormed = false ∧
    (Instr.mirrorRecordReceive (.engine true 0 0 (List.replicate 8 engRec)) 0).wellFormed = true ∧
    (Instr.mirrorRecordReceive (.rest true 0 0 false [] [] []) 0).wellFormed = false ∧
    (Instr.mirrorRecordReceive (.rest true 0 0 false
      (List.replicate 12 { whRec with deltas := List.replicate 25 0 }) [] []) 0).wellFormed = false ∧
    (Instr.mirrorRecordReceive (.rest true 0 0 false (List.replicate 12 whRec) [] []) 0).wellFormed = true := by decide
theorem test_ill_reports (l : List RelayWord) (h : l.length = 513) :
    (Instr.mirrorRecordReceive (.standby true 0 0 0 l) 0).wellFormed = false := by
  simp [Instr.wellFormed, MirrorPart.wf, h]
theorem test_ill_optics : (Instr.opticsAlarm 64).wellFormed = false ∧ (Instr.opticsAlarm 63).wellFormed = true := by decide
theorem test_ill_safe_block : (Instr.safePbLoad rq true .haldacon { SafetyBlock.delivery with pairs := [] } []).wellFormed = false ∧
    (Instr.safePbLoad rq true .haldacon { SafetyBlock.delivery with permit := [] } []).wellFormed = false ∧
    (Instr.safePbLoad rq true .haldacon { SafetyBlock.delivery with win := [] } []).wellFormed = false ∧
    (Instr.safePbLoad rq true .haldacon SafetyBlock.delivery []).wellFormed = true := by decide
theorem test_ill_field : (Instr.fieldFrameToLogic [] 0 0 0 0 0).wellFormed = false ∧
    (Instr.fieldFrameToField [] 0).wellFormed = false := by decide
theorem test_ill_hmp : (Instr.regRead rq false 0 65536).wellFormed = false ∧
    (Instr.memRead rq 0 (2 ^ 32)).wellFormed = false ∧ (Instr.recordRead rq (2 ^ 32) 0 0 0).wellFormed = false ∧
    (Instr.recordRead rq 0 (2 ^ 32) 0 0).wellFormed = false ∧ (Instr.recordRead rq 0 0 (2 ^ 32) 0).wellFormed = false ∧
    (Instr.recordRead rq 0 0 0 (2 ^ 32)).wellFormed = false ∧ (Instr.imageBegin rq (2 ^ 32) 0).wellFormed = false ∧
    (Instr.imageData rq (2 ^ 32) []).wellFormed = false ∧ (Instr.mbWrite rq (2 ^ 32) []).wellFormed = false := by decide
theorem test_ill_lengths : ∀ l : List Byte, ∀ v : List Word, l.length = 65536 → v.length = 65536 →
    (Instr.memWrite rq 0 l).wellFormed = false ∧ (Instr.imageData rq 0 l).wellFormed = false ∧
    (Instr.mbWrite rq 0 l).wellFormed = false ∧ (Instr.regWrite rq 0 v).wellFormed = false := by
  intro l v hl hv
  simp [Instr.wellFormed, hl, hv]
theorem test_ill_image : (Instr.imageEnd rq .haldacon true true (.program { ProgramImage.delivery with upb := List.replicate 17 0 })).wellFormed = false ∧
    (Instr.imageEnd rq .haldacon true true (.program { ProgramImage.delivery with cert := ⟨0, 0, 0, 0, 0, [], 0⟩ })).wellFormed = false ∧
    (Instr.imageEnd rq .haldacon true true (.commission { CommImage.delivery with params := List.replicate 6 0 })).wellFormed = false ∧
    (Instr.imageEnd rq .haldacon true true (.commission { CommImage.delivery with goose := List.replicate 17 [] })).wellFormed = false ∧
    (Instr.imageEnd rq .haldacon true true (.firmware 3)).wellFormed = true := by decide
theorem test_ill_key : (Instr.keyEnrol rq (.role .engineer) 0 (zeros 31)).wellFormed = false ∧
    (Instr.keyEnrol rq .program 4 (zeros 64)).wellFormed = false ∧ (Instr.keyEnrol rq .program 3 (zeros 64)).wellFormed = true := by
  decide
theorem test_ill_management : (Instr.managementChannelReceive (.reached 0 65)).wellFormed = false ∧
    (Instr.managementChannelReceive (.reach 0 65 0)).wellFormed = false ∧
    (Instr.managementChannelReceive (.sweepEnd 0 (List.replicate 65 ⟨0, 0, none⟩))).wellFormed = false ∧
    (Instr.managementChannelReceive (.discovery 0 (List.replicate 65 ⟨0, 0, none⟩) 0)).wellFormed = false ∧
    (Instr.managementChannelReceive (.reached 0 64)).wellFormed = true := by decide


/-! ### Instruction words written out from the encodings of chapter 8 (major, fields, function) -/

theorem test_word_integer : Fci.decode 0 0b00000000011000010001000000000001 = some (.sub 0 3 1 2) := by decide
theorem test_word_immediate : Fci.decode 0 0b00000100011000011111111111111111 = some (.addi 0 3 1 0xFFFF) := by decide
theorem test_word_float : Fci.decode 0 0b01000000011000010001000000000010 = some (.fmul 0 3 1 2) := by decide
/-- The fragment timed clock by clock of chapter 8. -/
theorem test_word_fragment : Fci.decode 1 0x604A0040 = some (.ldw 1 2 10 0x40) ∧
    Fci.decode 1 0xC02B0100 = some (.vld 1 1 11 0x100) ∧ Fci.decode 1 0xAC611002 = some (.vfmacS 1 3 1 2 0) ∧
    Fci.decode 1 0xA8621000 = some (.vfmac 1 3 2 2 0) ∧ Fci.decode 1 0xB4A30001 = some (.vfredadd 1 5 3 0 0) ∧
    Fci.decode 1 0x84A00004 = some (.bne 1 5 0 4) := by decide
theorem test_word_special : Fci.decode 0 0b11100000011000000000000000000011 = some (.mfs 0 3 0 3) := by decide
theorem test_word_predicate : Fci.decode 0 0b11101000001000100001100000000000 = some (.pand 0 1 2 3) := by decide
/-- ENG.GO 1,0,0, ENG.WAIT 0x11,0,0 and CEND of chapter 9. -/
theorem test_word_engine : Fci.decode 2 0xF8200000 = some (.engGo 2 1 0 0) ∧
    Fci.decode 2 0xFA200000 = some (.engWait 2 1 0 0) ∧ Fci.decode 2 0xEC000001 = some (.cend 2 0 0 0) := by decide
theorem test_word_event : Fci.decode 4 0b11111100011000000000000000000000 = some (.evtTake 4 3 0 0) := by decide
theorem test_word_jump : Fci.decode 0 0b10010100000000000000000000000101 = some (.jal 0 5) := by decide
theorem test_word_reserved : Fci.decode 0 0xFFFFFFFF = none ∧ Fci.decode 0 0x00000013 = none := by decide

/-! ### Feano cycle instructions -/

theorem test_add_wraps : after (.add 0 3 1 2) s0 (fun t => ((core t 0).getS 3, (core t 0).pc)) = some (0, 0x104) := by decide
theorem test_adds_saturates : after (.adds 0 5 3 1) s0 (fun t => (core t 0).getS 5) = some 0x80000000 := by decide
theorem test_sra_sign : after (.sra 0 5 3 2) s0 (fun t => (core t 0).getS 5) = some 0xC0000000 := by decide
theorem test_mulh_signed : after (.mulh 0 5 1 3) s0 (fun t => (core t 0).getS 5) = some 0 := by decide
theorem test_mulhu_unsigned : after (.mulhu 0 5 1 3) s0 (fun t => (core t 0).getS 5) = some 0x7FFFFFFF := by decide
theorem test_div_overflow : after (.div 0 5 3 1) s0 (fun t => (core t 0).getS 5) = some 0x80000000 := by decide
theorem test_rem_zero : after (.rem 0 5 3 0) s0 (fun t => (core t 0).getS 5) = some 0x80000000 := by decide
theorem test_sltiu_zero_extends : after (.sltiu 0 5 5 0xFFFF) s0 (fun t => (core t 0).getS 5) = some 0 := by decide
theorem test_fadd : after (.fadd 0 5 10 11) s0 (fun t => ((core t 0).getS 5, (core t 0).fpsr)) = some (0x40800000, 0) := by decide
theorem test_fdiv_rounds : after (.fdiv 0 5 11 10) s0 (fun t => ((core t 0).getS 5, (core t 0).fpsr)) =
    some (0x3EAAAAAB, 1) := by decide
theorem test_store_load_byte : after (.stb 0 1 4 3) s0 (fun t => (memRead t (localBase 0 + 0x20003), memRead t (localBase 0 + 0x20002))) =
    some (0xFF, 0) := by decide
theorem test_misaligned_word : after (.ldw 0 5 6 0) s0 (fun t => ((core t 0).ecause, (core t 0).eaddr, (core t 0).run)) =
    some (2, 0x20002, .stopped) := by decide
theorem test_branch_back : after (.bne 0 1 2 0xFFFF) s0 (fun t => ((core t 0).pc, (core t 0).next)) = some (0xFC, 2) := by decide
theorem test_vector_lanes : after (.vadd 0 4 1 2 1) s0 (fun t => ((core t 0).getV 4 0, (core t 0).getV 4 1)) = some (12, 0) := by decide
theorem test_reduce_inactive : after (.vfredadd 0 5 3 0 0) s0 (fun t => (core t 0).getS 5) = some 0x40400000 := by decide

/-! ### States and operands that meet the hypotheses of the statements on instructions -/

theorem witness_IntegerInstructionsComputeTheirOperation :
    (∀ p ∈ integerForms, canIssue s0 (0 : Fin 8) ⟨[31, 0], some 31, p.2.1, p.2.2.1, true⟩) ∧
    canIssue s0 (0 : Fin 8) ⟨[1], some 0, 1, 1, true⟩ ∧ canIssue s4 (4 : Fin 8) ⟨[1, 2], some 3, 34, 34, true⟩ := by
  unfold canIssue; decide
theorem witness_ImmediateInstructionsExtendTheirImmediate :
    (∀ p ∈ immediateForms, p.2.2.1 0 127 = true ∧ canIssue s0 (0 : Fin 8) ⟨[0], some 31, 1, p.2.1, true⟩) := by
  unfold canIssue; decide
theorem witness_FloatInstructionsWriteResultAndFlags :
    (∀ p ∈ floatForms, canIssue s0 (0 : Fin 8) ⟨[10, 11], some 31, p.2.1, p.2.2.1, true⟩) ∧
    (∀ p ∈ floatUnary, canIssue s0 (0 : Fin 8) ⟨[10], some 31, p.2.1, p.2.2.1, true⟩) ∧
    canIssue s0 (0 : Fin 8) ⟨[5, 10, 11], some 5, 1, 4, true⟩ := by unfold canIssue; decide
theorem witness_DivisionSpecialCasesOfR220 :
    canIssue s0 (0 : Fin 8) ⟨[3, 0], some 5, 34, 34, true⟩ ∧ k0.getS 0 = 0 ∧
    canIssue s0 (0 : Fin 8) ⟨[3, 1], some 5, 34, 34, true⟩ ∧ k0.getS 3 = 0x80000000 ∧ k0.getS 1 = 0xFFFFFFFF := by
  unfold canIssue; decide
theorem witness_ZeroRegistersAndTheirDestinations :
    (∀ p ∈ integerForms, canIssue s0 (0 : Fin 8) ⟨[1, 2], some 0, p.2.1, p.2.2.1, true⟩) ∧
    (∀ p ∈ floatForms, canIssue s0 (0 : Fin 8) ⟨[1, 2], some 0, p.2.1, p.2.2.1, true⟩) ∧
    canIssue s0 (0 : Fin 8) ⟨[48 + 1, 48 + 2], some 48, 1, 1, false⟩ ∧
    canIssue s0 (0 : Fin 8) ⟨[48 + 1], some 48, 1, 1, false⟩ ∧ canIssue s0 (0 : Fin 8) ⟨[1], some 48, 1, 1, false⟩ ∧
    canIssue s0 (0 : Fin 8) ⟨[48 + 0, 32 + 1, 32 + 2], some 48, 1, 2, false⟩ := by unfold canIssue; decide
/-- Targets: 0xFC, 0x1FFFC and 0 are code of core 0, 0x20000 and 0x102 are not. -/
theorem witness_BranchesAndJumpsGoToTheirTarget :
    canIssue s0 (0 : Fin 8) ⟨[1, 2], none, 1, 0, true⟩ ∧
    (∀ p ∈ branchForms, (p.2 (k0.getS 1) (k0.getS 2) = true ∨ p.2 (k0.getS 2) (k0.getS 2) = true) ∧
      (p.2 (k0.getS 1) (k0.getS 2) = false ∨ p.2 (k0.getS 2) (k0.getS 2) = false)) ∧
    codeAddr (0 : Fin 8) (k0.pc + BitVec.ofInt 32 (0xFFFF : Half).toInt * 4) = true ∧
    canIssue s0 (0 : Fin 8) ⟨[], none, 2, 0, true⟩ ∧ codeAddr (0 : Fin 8) (k0.pc + BitVec.ofInt 32 (0x7FBF : BitVec 26).toInt * 4) = true ∧
    canIssue s0 (0 : Fin 8) ⟨[], some 31, 2, 1, true⟩ ∧ canIssue s0 (0 : Fin 8) ⟨[8], none, 2, 0, true⟩ ∧
    codeAddr (0 : Fin 8) (k0.getS 8) = true ∧ canIssue s0 (0 : Fin 8) ⟨[8], some 8, 2, 1, true⟩ ∧
    canIssue s0 (0 : Fin 8) ⟨[2], some 2, 1, 1, true⟩ ∧ k0.getS 2 = 1 ∧
    canIssue s0 (0 : Fin 8) ⟨[0], some 0, 1, 1, true⟩ ∧ k0.getS 0 ≠ 1 := by unfold canIssue; decide
theorem witness_BadBranchTargetsRaisePc :
    codeAddr (0 : Fin 8) (k0.pc + BitVec.ofInt 32 (0x7FFF : Half).toInt * 4) = false ∧
    codeAddr (0 : Fin 8) (k0.pc + BitVec.ofInt 32 (0x7FC0 : BitVec 26).toInt * 4) = false ∧
    codeAddr (0 : Fin 8) (k0.getS 15) = false ∧ codeAddr (0 : Fin 8) (k0.getS 4) = false ∧
    canIssue s0 (0 : Fin 8) ⟨[15], none, 2, 0, true⟩ ∧ canIssue s0 (0 : Fin 8) ⟨[4], some 1, 2, 1, true⟩ ∧
    canIssue s0 (0 : Fin 8) ⟨[1], some 1, 1, 1, true⟩ ∧ k0.getS 1 ≠ 1 := by unfold canIssue; decide
theorem witness_VectorInstructionsActOnTheirActiveLanes :
    (∀ p ∈ laneForms, canIssue s0 (0 : Fin 8) ⟨(32 + 15) :: (48 + 7) :: [32 + 1, 32 + 15], some (32 + 15), 1, p.2.1, true⟩) ∧
    (∀ p ∈ laneUnary, canIssue s0 (0 : Fin 8) ⟨(32 + 15) :: (48 + 0) :: [32 + 1], some (32 + 15), 1, p.2.1, true⟩) ∧
    (∀ p ∈ laneScalar, canIssue s0 (0 : Fin 8) ⟨(32 + 15) :: (48 + 1) :: [32 + 1, 31], some (32 + 15), 1, p.2.1, true⟩) ∧
    canIssue s0 (0 : Fin 8) ⟨(32 + 15) :: (48 + 1) :: [32 + 1, 32 + 2], some (32 + 15), 1, 4, true⟩ ∧
    canIssue s0 (0 : Fin 8) ⟨(32 + 15) :: (48 + 1) :: [1], some (32 + 15), 1, 2, true⟩ ∧
    canIssue s0 (0 : Fin 8) ⟨[1], some (32 + 15), 1, 2, true⟩ ∧ canIssue s0 (0 : Fin 8) ⟨[32 + 15], some 31, 1, 2, true⟩ := by
  unfold canIssue; decide
theorem witness_PredicatesComparisonsAndReductions :
    canIssue s0 (0 : Fin 8) ⟨[48 + 7, 32 + 15, 32 + 15], some (48 + 7), 1, 2, true⟩ ∧
    (∀ l ∈ [5, 16, 8], canIssue s0 (0 : Fin 8) ⟨[48 + 7, 32 + 15], some 31, 1, l, true⟩) ∧
    canIssue s0 (0 : Fin 8) ⟨[48 + 7, 48 + 0], some (48 + 1), 1, 1, true⟩ ∧
    canIssue s0 (0 : Fin 8) ⟨[48 + 7], some (48 + 7), 1, 1, true⟩ ∧ canIssue s0 (0 : Fin 8) ⟨[31], some (48 + 7), 1, 1, true⟩ ∧
    canIssue s0 (0 : Fin 8) ⟨[48 + 7], some 31, 1, 1, true⟩ := by unfold canIssue; decide
/-- Core 4 reaches every region: its own memory, the slots, shared control memory, windows, registers and DRAM. -/
theorem witness_LoadsReadTheirBytes :
    loadRegion s0 0 0x20000 4 = some .priv ∧ loadRegion s0 0 0x3FFFF 1 = some .priv ∧
    loadRegion s4 4 0x8000 4 = some .priv ∧ loadRegion s4 4 0x10010000 2 = some .scm ∧
    loadRegion s4 4 0x40020004 4 = some .regs ∧ loadRegion s4 4 0x80000000 1 = some .dram ∧
    Store.get (fun _ => 0) s0.fco.marks (spmKey 0 0x20000) = 0 ∧
    canIssue s0 (0 : Fin 8) ⟨[4], some 31, 1, 2, true⟩ ∧ canIssue s4 (4 : Fin 8) ⟨[4, 5], some 31, 4, 12, true⟩ ∧
    (loadWord 4 (absNs 0 s4) .scm 0x10010000 Acc.load s4).1 = false ∧
    (loadWord 4 (absNs 0 s4) .regs 0x40020004 Acc.load s4).1 = false ∧
    (loadWord 4 (absNs 0 s4) .dram 0x80000000 Acc.load s4).1 = false := by unfold canIssue; decide

theorem witness_StoresWriteTheirBytesOnly :
    storeRegion s0 0 0x20000 4 = some .priv ∧ storeRegion s0 0 0x3FFFF 1 = some .priv ∧
    storeRegion s0 0 0x10100000 4 = some .scm ∧ scmWithin [(0x24000, 0x28000)] 0x10100000 1 = false ∧
    storeRegion s0 0 0x10024004 4 = some .scm ∧ scmWithin [(0x24000, 0x28000)] 0x10024004 1 = true ∧
    storeRegion s0 0 0x10024000 4 = none ∧ storeRegion s4 4 0x40010000 4 = some .regs ∧
    storeRegion s4 4 0x80000000 4 = some .dram ∧ cacheLine s4 4 (windowPhys s4 0 0x80000000 / 64) = none ∧
    Store.get (fun _ => 0) s4.fco.marks (windowPhys s4 0 0x80000000 / 4) = 0 ∧
    (lineNow s4 4 (windowPhys s4 0 0x80000000 / 64)).length = 64 ∧ storeRegion s4 4 0x40010002 2 = some .regs ∧
    canIssue s0 (0 : Fin 8) ⟨[31, 4], none, 1, 0, true⟩ ∧ canIssue s4 (4 : Fin 8) ⟨[1, 4, 5], none, 4, 0, true⟩ := by
  unfold canIssue; decide
theorem witness_MisalignedAndForbiddenAccessesTrap :
    canIssue s0 (0 : Fin 8) ⟨[6], some 31, byRegion (loadRegion s0 0 0x20002 4) 1 4, byRegion (loadRegion s0 0 0x20002 4) 2 12, true⟩ ∧
    (∀ p ∈ loadForms, loadRegion s0 (0 : Fin 8) 0x80001000 p.2.1 = none ∧
      canIssue s0 (0 : Fin 8) ⟨[12], some 31, byRegion none 1 4, byRegion none 2 12, true⟩) ∧
    (∀ p ∈ storeForms, storeRegion s0 (0 : Fin 8) 0x80001000 p.2 = none ∧
      canIssue s0 (0 : Fin 8) ⟨[31, 12], none, byRegion none 1 4, 0, true⟩) ∧
    canIssue s0 (0 : Fin 8) ⟨[1, 6], none, byRegion (storeRegion s0 0 0x20002 4) 1 4, 0, true⟩ := by unfold canIssue; decide
/-- A strided base, and a stride of 4. -/
theorem witness_VectorLoadsAndStoresMoveSixteenWords :
    loadRegion s0 0 0x20040 64 = some .priv ∧ storeRegion s0 0 0x20040 64 = some .priv ∧
    loadRegion s0 0 0x3FFC0 64 = some .priv ∧ storeRegion s0 0 0x10100000 64 = some .scm ∧
    canIssue s0 (0 : Fin 8) ⟨[7], some (32 + 15), 1, 3, true⟩ ∧ canIssue s0 (0 : Fin 8) ⟨[7, 32 + 15], none, 8, 0, true⟩ ∧
    canIssue s0 (0 : Fin 8) ⟨[7, 32 + 15], none, 1, 0, true⟩ ∧ loadRegion s4 4 0x40020000 64 = some .regs ∧
    storeRegion s4 4 0x40020000 64 = some .regs ∧ canIssue s4 (4 : Fin 8) ⟨[7], some (32 + 15), 8, 16, true⟩ ∧
    canIssue s4 (4 : Fin 8) ⟨[7, 32 + 15], none, 8, 0, true⟩ ∧
    (∀ j, j < 16 → Store.get (fun _ => 0) s0.fco.marks (spmKey 0 (0x20040 + 4 * j)) = 0) ∧
    (loadWords 0 (absNs 0 s0) .priv 0x20040 16 s0).1 = false ∧
    strideFar (fun x => loadRegion s0 0 x 4) (k0.getS 7) (k0.getS 9) = false ∧
    strideFar (fun x => loadRegion s0 0 x 4) 0x10100000 (k0.getS 9) = true ∧
    canIssue s0 (0 : Fin 8) ⟨[7, 9], some (32 + 15), 16, 17, true⟩ ∧ canIssue s0 (0 : Fin 8) ⟨[7, 9, 32 + 15], none, 16, 0, true⟩ ∧
    (∀ j, j < 16 → (k0.getS 7 + BitVec.ofNat 32 j * k0.getS 9).toNat % 4 = 0 ∧
      loadRegion s0 0 (k0.getS 7 + BitVec.ofNat 32 j * k0.getS 9).toNat 4 = some .priv) := by
  unfold canIssue; decide
theorem witness_SpecialRegistersReadAndWrite :
    (∀ n ∈ [0, 1, 2, 3, 4, 5, 6, 8, 9, 10, 11, 16, 17, 18, 19, 20, 32, 64],
      canIssue s0 (0 : Fin 8) ⟨[64 + n], some 31, 1, if 3 ≤ n ∧ n ≤ 6 then 6 else 2, true⟩) ∧
    specialExists 7 = false ∧ specialExists 12 = false ∧ specialExists 65535 = false ∧
    canIssue s0 (0 : Fin 8) ⟨[64 + 7], some 31, 1, 2, false⟩ ∧
    (∀ n ∈ [8, 9, 11], canIssue s0 (0 : Fin 8) ⟨[31], some (64 + n), 1, 2, true⟩) ∧
    canIssue s0 (0 : Fin 8) ⟨[31], some (64 + 10), 1, 2, false⟩ := by unfold canIssue; decide

/-- Barrier 0 has cores 0 and 1 as members, barrier 7 core 1 alone; core 1 waits at barrier 0. -/
def sBar : State :=
  setCore 1 { k0 with run := .bar 0 } { s0 with sys := { s0.sys with prog := { s0.sys.prog with barmask := 0x20000003 } } }
theorem witness_BarriersWaitsAndCycleEnd :
    canIssue sBar (0 : Fin 8) ⟨[], none, 3, 0, true⟩ ∧ barMember sBar 7 0 = false ∧ barMember sBar 0 0 = true ∧
    (∀ o : Fin 4, o.val ≠ 0 → barMember sBar 0 o = true → (core sBar o).run = .bar 0) ∧
    barMember { s0 with sys := sBar.sys } 0 1 = true ∧ (core { s0 with sys := sBar.sys } 1).run = .idle ∧
    canIssue s0 (0 : Fin 8) ⟨[], none, 1, 0, true⟩ ∧ canIssue s0 (0 : Fin 8) ⟨[8], none, 1, 0, true⟩ ∧
    (core (at_ 0 { k0 with run := .twait 100 }) 0).run = .twait 100 := by unfold canIssue; decide
theorem test_barrier_releases : after (.bar 0 0 0 0) sBar (fun t => ((core t 0).next, (core t 1).next, (core t 1).run)) =
    some (3, 3, .running) := by decide

/-- A descriptor at 0x1010_0000 of shared control memory: DEST 0, and its STATUS byte. -/
def kE : Core := { k0 with engDbase := 0x10100000 }
theorem witness_EngineInstructionsPostAndWait :
    engLegal 0 0 7 = true ∧ engLegal 0 1 11 = true ∧ engLegal 4 5 0 = true ∧ engLegal 0 5 0 = false ∧
    canIssue (at_ 0 kE) (0 : Fin 8) ⟨[64 + 0x00B], none, 6, 0, true⟩ ∧
    canIssue (at_ 0 kE) (0 : Fin 8) ⟨[64 + 0x00B, 64 + 0x009], none, 2, 0, true⟩ ∧
    descOk (at_ 0 kE) 0 0x10100000 = true ∧ descOk s0 0 0 = false ∧ loadRegion s0 0 0x10100000 16 = some .scm ∧
    (statusSeen 0 0 0x10100000 1 (at_ 0 kE)).1 = false ∧ (statusSeen 0 0 0x10100000 1 (at_ 0 kE)).2.1 ≠ 0xFF ∧
    (statusSeen 0 0 0x10100000 1 (memWriteWord 0x1010000C 0xFFFFFFFF (at_ 0 kE))).2.1 = 0xFF ∧
    (engQueue s0 (engKey 0 0 0)).length < 4 ∧
    4 ≤ (engQueue (setEngQueue (engKey 0 0 0) (List.replicate 4 ⟨1, 0x10200000, 0, false⟩) s0) (engKey 0 0 0)).length ∧ s0.esc.refDone = false ∧
    (core (at_ 0 { kE with run := .engWait 0x10100000 }) 0).run = .engWait 0x10100000 := by unfold canIssue; decide
theorem test_engine_go : after (.engGo 0 1 3 0) (at_ 0 kE) (fun t => ((core t 0).engStatus, engQueue t (engKey 1 3 0))) =
    some (0, [⟨0, 0x10100000, 0, false⟩]) := by decide

/-- A queue with one operation of core `c` whose descriptor at 0x1010_0000 or 0x1020_0000 holds `ws`. -/
def opAt (c key desc : Nat) (started : Bool) (ws : List Word) (s : State) : State :=
  setEngQueue key [⟨c, desc, 0, started⟩] (memWriteBytes desc (wordsBytes ws) s)
def sDma : State := opAt 0 (dmaKey 0) 0x10100000 false [0x010002FF, 0x20000, 0x20100] (memWriteWord (localBase 0 + 0x20000) 0xA5 s0)
theorem witness_CoreEnginesCompleteTheirOperations :
    engQueue sDma (dmaKey 0) = [⟨0, 0x10100000, 0, false⟩] ∧ dmaCheck sDma 0 1 2 0x20000 0x20100 = none ∧
    dmaCheck sDma 0 1 0 0x20000 0x20100 = some .badParam ∧ dmaCheck sDma 0 1 2 0x20000 0x10024000 = some .notPermitted ∧
    engQueue (opAt 0 (dmaKey 0) 0x10100000 true [] s0) (dmaKey 0) = [⟨0, 0x10100000, 0, true⟩] ∧
    (let e := engWords ⟨0, 0x10100000, 0, false⟩ 4 (opAt 0 (timeKey 0) 0x10100000 false [0x020000FF, 5, 0, 0] s0);
      fieldGet (e.1.getD 0 0) 31 24 = 2 ∧ timeAt e.2 e.2.time.cnt / 65536 < alarmTime e.1) ∧
    (let e := engWords ⟨0, 0x10100000, 0, false⟩ 4 (opAt 0 (timeKey 0) 0x10100000 false [0x020000FF, 0, 0, 0] s0);
      alarmTime e.1 ≤ timeAt e.2 e.2.time.cnt / 65536) ∧
    (let e := engWords ⟨0, 0x10100000, 0, false⟩ 4 (opAt 0 (timeKey 0) 0x10100000 false [0x010000FF, 0, 0, 0] s0);
      fieldGet (e.1.getD 0 0) 31 24 = 1) := by decide
theorem test_dma_copy : after (.dmaCopy 0) sDma (fun t => memRead t (localBase 0 + 0x20100)) = some 0xA5 := by decide
theorem test_alarm_past : after (.timeAlarm 0) (opAt 0 (timeKey 0) 0x10100000 false [0x020000FF, 0, 0, 0] s0)
    (fun t => memRead t 0x10100000) = some 8 := by decide

/-- Chain 0 of a SOLO module: ports 0 and 1, ten cells. -/
def ch0 : ChainMap := ⟨0, 0, 1, 10, 20⟩
def withChain (s : State) : State := { s with sys := { s.sys with comm := { s.sys.comm with chains := [ch0] } } }
def sMbx (w0 w1 ptr w3 : Word) : State := opAt 4 mailboxKey 0x10200000 false [w0, w1, ptr, w3] (withChain s4)
theorem witness_MailboxEngineAnswersAndAsks :
    engQueue (sMbx 0x010000FF 0 0 0) mailboxKey = [⟨4, 0x10200000, 0, false⟩] ∧
    mailboxCheck (sMbx 0 0 0 0) 4 0x80000000 56 56 128 (portChain (sMbx 0 0 0 0) 1).isSome = none ∧
    mailboxCheck (sMbx 0 0 0 0) 4 0x80000000 57 56 128 true = some .badParam ∧
    mailboxCheck (sMbx 0 0 0 0) 4 0x80000000 0 56 128 (portChain (sMbx 0 0 0 0) 2).isSome = some .badParam ∧
    mailboxCheck (sMbx 0 0 0 0) 4 0x8000 0 56 128 true = some .notPermitted ∧
    mailboxCheck (sMbx 0 0 0 0) 4 0x80000000 1024 1024 1024 true = none ∧
    (let e := engWords ⟨4, 0x10200000, 0, false⟩ 4 (sMbx 0x010000FF 1 0x80000000 0x380000);
      fieldGet (e.1.getD 0 0) 31 24 = 1 ∧ fieldGet (e.1.getD 3 0) 31 16 = 56 ∧ (e.1.getD 2 0).toNat = 0x80000000) ∧
    (let e := engWords ⟨4, 0x10200000, 0, false⟩ 4 (setMailbox 7 (some ⟨1, 5, 4, 0⟩) (sMbx 0x020000FF 7 0x80000000 0));
      fieldGet (e.1.getD 0 0) 31 24 = 2 ∧ mailbox e.2 (fieldGet (e.1.getD 1 0) 2 0) = some ⟨1, 5, 4, 0⟩) ∧
    mailbox (sMbx 0x020000FF 0 0 0) 0 = none := by decide
theorem test_mailbox_reply_none : after .mailboxMbReply (sMbx 0x020000FF 7 0x80000000 0) (fun t => memRead t 0x10200000) =
    some 14 := by decide

def ev (cls flow : Nat) : Event := mkEvent State.reset 9 0 flow cls 1 2 3
/-- An event in a slot of event core 0 (core 4), and one in the ready store. -/
def sEv : State := { setNext 0 (some (ev 1 5)) s4 with sch := { (setNext 0 (some (ev 1 5)) s4).sch with ready := [ev 2 4] } }
theorem witness_EventInstructionsTakeDoneAndPost :
    canIssue sEv (4 : Fin 8) ⟨[], some 31, 1, 1, true⟩ ∧ curSlot sEv 0 = none ∧ nextSlot sEv 0 = some (ev 1 5) ∧
    nextSlot s4 0 = none ∧ (curSlot (setCur 0 (some (ev 1 5)) s4) 0).isSome = true ∧
    canIssue (setCur 0 (some (ev 1 5)) s4) (4 : Fin 8) ⟨[2], none, 1, 1, true⟩ ∧ fieldGet (k0.getS 0) 7 0 = 0 ∧
    fieldGet (k0.getS 2) 7 0 ≠ 0 ∧ canIssue s4 (4 : Fin 8) ⟨[8], some 31, 1, 1, true⟩ ∧ (k0.getS 8).toNat % 32 = 0 ∧
    (k0.getS 8).toNat + 32 ≤ 0xFFC0 ∧ (loadWords 4 (absNs 0 s4) .priv 0x1000 8 s4).1 = false ∧
    (loadWords 4 (absNs 0 s4) .priv 0xFFA0 8 s4).1 = false ∧
    canIssue s4 (4 : Fin 8) ⟨[1, 2], none, 1, 1, true⟩ ∧ (core sEv 4).run = .running ∧
    choose sEv (readyList sEv 0) = some (ev 2 4) ∧
    firstHeld { s4 with sch := { s4.sch with held := [ev 0 1] } } = some (ev 0 1) ∧
    usableEntry s4 0 = some true ∧ usableEntry s4 1 = some false := by unfold canIssue; decide
theorem test_take : after (.evtTake 4 3 0 0) sEv (fun t => (core t 4).getS 3) = some 0x10005 := by decide
theorem test_done_fails : after (.evtDone 4 0 2 0) (setCur 0 (some (ev 1 5)) s4) (fun t => (curSlot t 0, regGet t Reg.SCH_FAIL_CNT)) =
    some (none, 1) := by decide

def sCache : State := at_ 4 { k0 with cache := Store.set (fun _ => none) [] (Config.dramBase / 64 + 64) (some ⟨true, zeros 64⟩), writes := [(7, zeros 64)] }
theorem witness_CacheInstructionsActOnOneLine :
    inDramWindow (k0.getS 12).toNat 1 = true ∧ canIssue sCache (4 : Fin 8) ⟨[12], none, 1, 1, true⟩ ∧
    cacheLine sCache 4 (windowPhys sCache 0 (k0.getS 12).toNat / 64) = some ⟨true, zeros 64⟩ ∧
    canIssue sCache (4 : Fin 8) ⟨[], none, 1, 1, true⟩ ∧ (core sCache 4).writes = [(7, zeros 64)] ∧ injState sCache ≠ 1 := by
  unfold canIssue; decide
theorem test_flush_cleans : after (.dcflush 4 0 12 0) sCache (fun t =>
    (cacheLine t 4 (Config.dramBase / 64 + 64), (core t 4).writes.length)) = some (some ⟨false, zeros 64⟩, 2) := by decide

/-! ### Management plane -/

def ses : Session := ⟨1, .safetyEngineer, .ethM, 0x0A000001, 4, some ⟨1, 4, .ok, [], false⟩⟩
/-- Mode `m`, role `q`, and an open session 1 that has accepted SEQ 4. -/
def hm (m : Mode) (q : Role) (s : State) : State := { s with sys := { s.sys with mode := m, role := q, sessions := [ses] } }
def sC : State := hm .commission .solo State.reset
theorem witness_SessionsAdmitOnlyAuthenticRequests :
    hmpCommand rq (.hmpClose rq) ∧ hmpCommand rq (.mbWrite rq 7 []) ∧ hmpCommand rq (.regRead rq false 0 1) ∧
    State.reset.sys.powered = true ∧ findSession State.reset 1 = none ∧ findSession sC 1 = some ses ∧
    rq.tagOk = true ∧ (3 : Word).toNat < ses.lastSeq.toNat ∧ ses.resp = some ⟨1, 4, .ok, [], false⟩ ∧
    ¬ rq.src ∈ State.reset.sys.blockedSrc ∧ sC.sys.sessions.length < 8 ∧ findSession sC 2 = none := by
  refine ⟨by simp [hmpCommand], by simp [hmpCommand], by simp [hmpCommand], ?_⟩
  decide
theorem witness_admitted :
    admitted rq ⟨0x0002, .viewer, false, false, allModes⟩ ses sC ∧ admitted rq ⟨0x0010, .viewer, false, false, allModes⟩ ses sC ∧
    admitted rq ⟨0x0012, .viewer, false, false, notBoot⟩ ses sC ∧ admitted rq ⟨0x0020, .viewer, false, false, allModes⟩ ses sC ∧
    admitted rq ⟨0x0013, .operator, false, false, notBoot⟩ ses sC ∧ admitted rq ⟨0x0011, .operator, false, false, notBoot⟩ ses sC ∧
    admitted rq ⟨0x0060, .operator, false, false, notBoot⟩ ses sC ∧
    admitted rq ⟨0x0034, .safetyEngineer, true, false, [.commission]⟩ ses sC ∧
    admitted rq ⟨0x0030, .engineer, false, false, allModes⟩ ses sC ∧ admitted rq ⟨0x0031, .engineer, false, false, allModes⟩ ses sC ∧
    admitted rq ⟨0x0032, .engineer, false, false, allModes⟩ ses sC ∧
    admitted rq ⟨0x0033, .engineer, false, false, [.boot, .commission, .lockout]⟩ ses sC ∧
    admitted rq ⟨0x0033, .engineer, false, false, [.commission]⟩ ses sC ∧
    admitted rq ⟨0x0043, .engineer, false, false, allModes⟩ ses sC ∧ admitted rq ⟨0x0040, .viewer, false, false, allModes⟩ ses sC := by
  refine ⟨?_, ?_, ?_, ?_, ?_, ?_, ?_, ?_, ?_, ?_, ?_, ?_, ?_, ?_, ?_⟩ <;> (unfold admitted; decide)
/-- The first and the last register range, a staging word, a record, TIM_NOW (two higher halves) and a bank selection. -/
theorem witness_ReadsAnswerWhatTheyRead :
    sC.sys.mode ≠ .boot ∧ inBlocks 0x40000000 256 = true ∧ inBlocks 0x4012FFFC 1 = true ∧
    hmpReadRefusal sC 0x10060000 4 = none ∧ scmWithin [(0x60000, 0x70000), (0x200000, 0x210000)] 0x10060000 4 = true ∧
    scmWithin [(0x60000, 0x70000), (0x200000, 0x210000)] 0x1020FFFC 4 = true ∧
    Store.get (fun _ => 0) sC.fco.marks (0x10060000 / 4) = 0 ∧ (∃ bs, recordBytes sC 1 0 = .ok bs) ∧
    (regDesc Reg.TIM_NOW_0).map (fun d => (d.rs, d.rc, d.up)) = some (2, false, 0) ∧
    bankSelected sC 0 = none := by
  refine ⟨by decide, by decide, by decide, by decide, by decide, by decide, by decide, ⟨_, rfl⟩, by decide, by decide⟩
theorem witness_HmpWritesAndMailboxes :
    hmpWriteRefusal 0x10060000 1024 = none ∧ inBlocks Reg.ESC_CTRL 1 = true ∧ adoptedLater Reg.ESC_CTRL = true ∧
    adoptedLater Reg.SYS_EVT_RGN = false ∧ mailbox sC 7 = none ∧
    (arrive (mkEvent sC 5 7 0 2 7 1 0) sC).2 ≠ .refused ∧
    mailbox (setMailbox 7 (some ⟨1, 5, 4, 0⟩) sC) 7 = some ⟨1, 5, 4, 0⟩ ∧ (zeros 32).length = 32 ∧ (zeros 64).length = 64 := by
  decide
def tr0 : Transfer := ⟨1, .program, 64, [], []⟩
/-- A commissioning key is enrolled. -/
def sKey : State :=
  { sC with sys := { sC.sys with imageKeys := [(keyBase .commission, List.replicate 64 7), (keyBase .safety, List.replicate 64 7)] } }
def signed : ImageSig := .key (List.replicate 64 7)
def sTr : State := { sC with sys := { sC.sys with transfer := some tr0 } }
theorem witness_ImageTransferAndActivation :
    sC.sys.transfer = none ∧ sTr.sys.transfer = some tr0 ∧ tr0.session = ses.num ∧ 32 + (zeros 32).length ≤ tr0.len ∧
    admitted rq ⟨0x0031, .engineer, false, false, allModes⟩ ses sTr ∧ admitted rq ⟨0x0032, .engineer, false, false, allModes⟩ ses sTr ∧
    sC.sys.firmware.inactive.loadable = false ∧
    imageChecks sKey { tr0 with kind := .commission, got := [(0, 64)] } signed true true (.commission CommImage.delivery) = .ok ∧
    imageChecks sC { tr0 with kind := .firmware, got := [(0, 64)] } .haldacon true true (.firmware 3) = .ok ∧
    imageChecks sC { tr0 with kind := .firmware, got := [(0, 64)] } signed true true (.firmware 3) = .notPermitted ∧
    imageChecks sC tr0 .haldacon true true (.program ProgramImage.delivery) ≠ .ok := by unfold admitted; decide
theorem witness_ResetAndPowerKeepWhatTheyMust :
    admitted rq ⟨0x0043, .engineer, false, false, allModes⟩ ses (hm .run .solo State.reset) ∧
    admitted rq ⟨0x0043, .engineer, false, false, allModes⟩ ses (hm .run .standby State.reset) := by unfold admitted; decide
theorem witness_BootEndsInItsModeOrItsFailure :
    State.reset.sys.mode = .boot ∧ State.reset.sys.powered = true ∧ State.reset.sys.firmware.active.loadable = true ∧
    State.reset.sys.program.active.loadable = true ∧ State.reset.sys.commission.active.loadable = true ∧
    State.reset.sys.program.active.content = .program ProgramImage.delivery ∧
    State.reset.sys.commission.active.content = .commission CommImage.delivery ∧ commLegal CommImage.delivery = true ∧
    sC.sys.mode ≠ .boot :=
  ⟨rfl, rfl, rfl, rfl, rfl, rfl, rfl, by decide, by decide⟩
/-- R411: the first word that any master writes through the armed checker is marked, and the next write of it ends the mark. -/
theorem test_ecc_any_master :
    let s := fset Fld.FCO_INJ_STAT_STATE 1 { State.reset with fco := { State.reset.fco with arm := 0x10000300 } }
    let t := putBytes (Config.scmBase + 0x60002) [1, 2, 3] s
    t.fco.marks = [((Config.scmBase + 0x60000) / 4, 2)] ∧ injState t = 2 ∧
      (putBytes (Config.scmBase + 0x60000) [9] t).fco.marks = [] ∧
      (putBytes (Config.scmBase + 0x60004) [9] t).fco.marks = t.fco.marks := by decide
/-- R513: an image with a value outside its register's stated range is refused; REFPT is read against the image's PERIOD. -/
theorem test_image_ranges :
    commLegal { CommImage.delivery with regs := [(Reg.ESC_PERIOD, 10000), (Reg.ESC_REFPT, 9500)] } = true ∧
    commLegal { CommImage.delivery with regs := [(Reg.ESC_REFPT, 4501)] } = false ∧
    commLegal { CommImage.delivery with regs := [(Reg.ETH_SV_CFG 0, 0x18000000)] } = false ∧
    commLegal { CommImage.delivery with regs := [(Reg.FAD_CH_CFG 1, 3)] } = false := by decide
/-- In READY, COMMISSION may be asked for by an engineer, and RUN may not be asked for in CHARGE. -/
theorem witness_ModeRequestsWaitForTheirBoundary :
    firstFail (modeChecks (.hmp .engineer 1) .commission (hm .ready .solo State.reset)) = none ∧
    firstFail (modeChecks (.hmp .engineer 1) .run (hm .charge .solo State.reset)) = some .illegalInMode ∧
    firstFail (modeChecks (.hmp ses.role ses.num) .charge sC) = none ∧
    firstFail (modeChecks (.hmp ses.role ses.num) .ready (hm .run .solo State.reset)) = none ∧
    firstFail (modeChecks (.hmp ses.role ses.num) .run (hm .ready .solo State.reset)) = none ∧
    (let s := { hm .charge .solo State.reset with time := { TimeBase.reset with cnt := 10000000 } };
      held20ms { s with sys := { s.sys with readyAt := some 0 } } (some 0) = true ∧ s.sys.waiting = none) ∧
    held20ms State.reset none = false := by decide

/-! ### Fault collection -/

theorem witness_OccurrencesAreLatchedAndLogged :
    raisedSrc State.reset 0 = false ∧ raisedSrc (setRaised 0 0 true State.reset) 0 = true ∧
    raisedSrc State.reset 1 = false := by decide
theorem witness_FaultCommandsWriteTheirRegisters :
    firstFail [(roleAtLeast .engineer (.hmp .viewer 1), Status.notPermitted)] = some .notPermitted ∧
    firstFail [(roleAtLeast .engineer (.hmp .engineer 1), Status.notPermitted)] = none ∧
    fget State.reset Fld.FCO_INJ_STAT_STATE ≠ 1 ∧ fget (fset Fld.FCO_INJ_STAT_STATE 1 sC) Fld.FCO_INJ_STAT_STATE = 1 ∧
    raisedSrc (setRaised 62 0 true sC) 62 = true ∧ raisedSrc sC 62 = false ∧
    classWordLegal 0 (regGet sC (Reg.FCO_CLASS 0)) = true ∧ classWordLegal 0 0xFFFFFFFF = false ∧
    (fieldGet (0x80000100 : Word) 7 0 < checkerInstances (fieldGet (0x80000100 : Word) 15 8)) ∧
    fbit (fset Fld.FCO_FOUT_PULSE 1 sC) Fld.FCO_FOUT_PULSE = true ∧ fbit sC Fld.FCO_FOUT_PULSE = false := by decide
theorem test_capture : after .pllLossOfLock State.reset (fun t => (regGet t Reg.FCO_STATUS_0, t.fco.log.map (fun e => e.source))) =
    some (8, [3]) := by decide

/-! ### Safety die -/

/-- Self-tests passed; pair 0 an EMERGENCY pair that is healthy, pair 7 DEAD and antivalent; output 0 TRIP and on, output 3 PERMIT. -/
def blk : SafetyBlock :=
  { SafetyBlock.delivery with
    pairs := [⟨.emergency, .equivalent, 3000, 100000⟩] ++ List.replicate 5 ⟨.none, .equivalent, 3000, 100000⟩ ++
      [⟨.earthed, .equivalent, 3000, 100000⟩] ++
      [⟨.dead, .antivalent, 3000, 100000⟩],
    permit := [false, false, false, true] }
def saf0 : Saf :=
  { Saf.reset with
    selfTest := .passed, block := blk,
    pairs := [{ PairState.reset with chA := true, chB := true, healthy := true }] ++ List.replicate 5 PairState.reset ++
      [{ PairState.reset with chA := true, chB := true, healthy := true }, { PairState.reset with chA := true, healthy := true }],
    outs := [{ OutState.reset with on := true, swH := true, swL := true }] ++ List.replicate 3 OutState.reset }
def sSaf : State := { hm .run .solo State.reset with saf := saf0 }
theorem witness_SafetyFirmwareLatchesItsCauses :
    sSaf.saf.selfTest = .passed ∧ sSaf.sys.powered = true ∧ sSaf.saf.latch = false ∧ State.reset.saf.selfTest = .running ∧
    State.reset.saf.selfTest ≠ .passed ∧ (pairPar sSaf 0).func = .emergency ∧ (pairState sSaf 0).healthy = true ∧
    { sSaf with saf := { saf0 with latch := true } }.saf.latch = true := by decide
/-- Channel A of the EMERGENCY pair opens and stays open for 3 ms: cause 1. -/
theorem test_emergency :
    after (.safetyFirmwareStep 0xFE 0xFF true true)
      { sSaf with saf := { saf0 with osc := 1500000, pairs := [{ PairState.reset with chB := true, healthy := true, changeAt := some 0 }] ++ saf0.pairs.drop 1 } }
      (fun t => (t.saf.latch, t.saf.all, (outState t 0).on, t.sys.mode)) = some (true, 1, false, .lockout) := by decide
theorem witness_SafetyBlockSwitchesTheTripOutputsOff :
    demandStands { sSaf with saf := { saf0 with demand1 := true } } = true ∧ demandStands sSaf = false ∧
    sSaf.saf.pending = 0 ∧ isPermit sSaf 0 = false ∧ isPermit sSaf 3 = true ∧
    { saf0 with latch := true, commaAt := some 0 }.commaAt.isSome = true ∧ inRun sSaf = true ∧
    sSaf.saf.block.sf3En = true ∧ inRun State.reset = false := by decide
theorem witness_SafetyInputsShowTheirFaults :
    (pairPar sSaf 0).func ≠ .none ∧ (pairPar sSaf 1).func = .none ∧ (pairPar sSaf 7).func ≠ .none ∧ pairFault sSaf = false ∧
    channelsAgree .equivalent true false = false ∧ channelsAgree .antivalent true true = false ∧
    channelsAgree .equivalent true true = true ∧ pairFault { sSaf with saf := { saf0 with pairs := [{ PairState.reset with disc := true }] } } = true := by
  decide
theorem test_cross_fault : after (.testPulse 0 0 1) sSaf (fun t => ((pairState t 0).cross, t.saf.pending, (outState t 0).on)) =
    some (true, 0x20, false) := by decide
theorem witness_SafetyOutputsAreTestedAndFail :
    (outState sSaf 0).test = none ∧ (outState { sSaf with saf := { saf0 with outs := [{ OutState.reset with test := some true }] } } 0).test = some true ∧
    (let s := { sSaf with saf := { saf0 with outs := saf0.outs.take 3 ++ [{ OutState.reset with proofAt := some 0 }] } };
      isPermit s 3 = true ∧ detectedFault s = false ∧ (outState s 3).fault = false ∧
      permitDue { s with saf := { s.saf with osc := 500000000 * s.saf.block.permitDelayS } } (outState s 3) = true) ∧
    isPermit sSaf 0 = false := by decide
theorem test_overcurrent : after (.outputOvercurrent 0) sSaf (fun t => (outState t 0, t.saf.pending)) =
    some ({ OutState.reset with fault := true }, 0x40) := by decide
def sLock : State := { hm .lockout .solo State.reset with saf := { saf0 with latch := true, all := 1, first := 1 } }
theorem witness_LockoutReleaseNeedsBothActs :
    admitted rq ⟨0x0050, .safetyEngineer, true, false, [.lockout]⟩ ses sLock ∧ sLock.saf.latch = true ∧
    causePresent sLock = false ∧ causePresent { sLock with saf := { sLock.saf with present := 0x80 } } = true ∧
    (let s := { sLock with saf := { sLock.saf with relArmed := true, relAt := 7, osc := 7 + msTicks 500 } };
      s.saf.relArmed = true ∧ s.saf.keyStuck = false ∧ s.saf.pending = 0 ∧ s.saf.relAt + msTicks 500 ≤ s.saf.osc) := by unfold admitted; decide
def sArmed : State := { sLock with saf := { sLock.saf with relArmed := true, osc := 10000000000 } }
theorem test_release_bounds :
    after (.lockoutResetFallingEdge 500) sArmed (fun t => t.saf.latch) = some false ∧
    after (.lockoutResetFallingEdge 5001) sArmed (fun t => t.saf.latch) = some true := by decide
theorem witness_SafetyBlockLoadIsCheckedAndLogged :
    admitted rq ⟨0x0051, .viewer, false, false, allModes⟩ ses sKey ∧ admitted rq ⟨0x0052, .safetyEngineer, true, false, notBoot⟩ ses sC ∧
    firstFail [(ses.role == .safetyEngineer && rq.port == .ethM, Status.notPermitted), (true && keyEnrolled sKey .safety signed, .authFail),
        (sKey.sys.mode == .commission || sKey.sys.mode == .lockout, .illegalInMode), (safetyBlockOk blk, .badParam),
        (decide (sKey.saf.log.length < 512), .logFull)] = none ∧
    safetyBlockOk { blk with testIntS := 0 } = false := by unfold admitted; decide

/-! ### Field die -/

def fd : FieldDie := FieldDie.reset
def withField (f : FieldDie) (s : State) : State := { s with fio := { s.fio with field := f } }
theorem witness_FieldDieAndItsFrames :
    (regGet (regSet Reg.FIO_DI_WB 0x80000000 State.reset) Reg.FIO_DI_WB).getLsbD 31 = true ∧ fd.wb.getLsbD 31 = false ∧
    (regGet State.reset Reg.FIO_DI_WB).getLsbD 31 = false ∧ { fd with cmd := 0x8000 }.cmd.getLsbD 15 = true ∧
    fd.cmd.getLsbD 0 = false ∧ { fd with supOff := true }.supOk = false ∧ fd.supOff = false ∧
    { fd with up := true, configured := true }.up = true ∧ fd.up = false ∧ sC.sys.mode ≠ .boot ∧
    crc16 (zeros 2) ≠ 0 ∧ armed sC 6 0 = false ∧ Store.get (fun _ => false) sC.fco.raised (Fco.key 49 1) = false ∧
    Store.get (fun _ => false) (setRaised 49 1 true sC).fco.raised (Fco.key 49 1) = true ∧
    firstFail [(roleOrCore .operator (.eventCore 3), Status.notPermitted), (sC.sys.mode != .boot, .illegalInMode),
      (fbit sC Fld.FIO_STATUS_SUP_OK, .checkFail)] = some .checkFail ∧
    firstFail [(roleOrCore .operator (.hmp .operator 1), Status.notPermitted), (sC.sys.mode != .boot, .illegalInMode),
      (fbit (fset Fld.FIO_STATUS_SUP_OK 1 sC) Fld.FIO_STATUS_SUP_OK, .checkFail)] = none := by decide
/-- The check values of R97, R98 and chapter 18 over the octets 1 to 9 in ASCII. -/
def nine : List Byte := [0x31, 0x32, 0x33, 0x34, 0x35, 0x36, 0x37, 0x38, 0x39]
theorem test_crc8 : crc8 nine = 0xDF := by decide +kernel
theorem test_crc16 : crc16 nine = 0x29B1 := by decide +kernel
theorem test_crc32 : crc32 nine = 0xCBF43926 := by decide +kernel

/-! ### The cycle -/

/-- The escapement runs in COMMISSION: cycle index 3 of second 5. -/
def sRun : State :=
  let s := fset Fld.ESC_STATUS_RUNNING 1 sC
  { s with esc := { s.esc with sec := 5, j := 3, tk := 1000000, wlen := periodTicks s } }
/-- The same in RUN. -/
def sRunM : State := hm .run .solo sRun
def cutOf (n : Nat) (s : State) : State := fset Fld.ESC_STATUS_CUT_RUN n s
def fired (src inst : Nat) (s : State) : Bool := Store.get (fun _ => false) s.fco.raised (Fco.key src inst)
theorem witness_CyclesStartReleaseAndStop :
    nothingWaits sC ∧ nothingWaits sRun ∧ escRunning sC = false ∧ sC.sys.mode = .commission ∧ escRunning sRun = true ∧
    (sRun.esc.realign = none ∨ inRun sRun = true) ∧ sRun.esc.j + 1 < cyclesPerSecond sRun ∧ sRun.esc.phase = 0 ∧
    escRunning (hm .lockout .solo sRun) = true ∧ (hm .lockout .solo sRun).sys.mode = .lockout ∧
    (hm .run .solo sC).sys.mode ≠ .commission := by
  refine ⟨⟨by decide, fun _ => rfl, by decide, by decide, fun _ => ⟨rfl, rfl⟩, by decide, by decide, by decide, by decide,
    by decide, fun _ => rfl⟩, ⟨by decide, fun _ => rfl, by decide, by decide, fun _ => ⟨rfl, rfl⟩, by decide, by decide, by decide, by decide,
    by decide, fun _ => rfl⟩, ?_⟩
  decide
theorem witness_InstantsOfTheCycleDoTheirWork :
    sRun.esc.refDone = false ∧ sRun.esc.cutDone = false ∧
    (let s := fset (Fld.WHL_CFG_EN 11) 1 sRunM;
      wheelOn s 11 = true ∧ inRun s = true ∧ fbit s (Fld.WHL_STATUS_NO_REF 11) = false ∧ engQueue s (engKey 1 11 0) = []) ∧
    coreUnended sRun = true ∧
    coreUnended { sRun with cores := [0, 1, 2, 3].map (fun c => (c, { Core.reset with run := .ended })) } = false ∧
    fget (cutOf 2 sRun) Fld.ESC_STATUS_CUT_RUN < 3 ∧ fired 13 0 (cutOf 3 sRun) = false ∧
    3 ≤ fget (cutOf 3 sRun) Fld.ESC_STATUS_CUT_RUN ∧ fired 13 0 (setRaised 13 0 true (cutOf 3 sRun)) = true ∧
    sRun.esc.pubDue = none ∧ { sRun.esc with pubDue := some 7 }.pubDue = some 7 := by decide
theorem test_reference_point_counts_stale :
    after .referencePoint (fset (Fld.WHL_CFG_EN 11) 1 sRunM) (fun t => ((wheel t 11).staleRun, (wheel t 10).staleRun)) =
      some (1, 0) := by decide
def terms0 : Terms := ⟨4000, 250, 100, 500, 100, []⟩
/-- The message digests that FIPS 180-4 gives for the empty message and for "abc". -/
theorem test_sha256 : sha256 [] = 0xe3b0c44298fc1c149afbf4c8996fb92427ae41e4649b934ca495991b7852b855 ∧
    sha256 [0x61, 0x62, 0x63] = 0xba7816bf8f01cfea414140de5dae2223b00361a396177a9cb410ff61f20015ad := by decide +kernel
/-- A program with a certificate of its own sections for `terms0`. -/
def sCert : State :=
  { sC with sys := { sC.sys with prog := { sC.sys.prog with
      cert := ⟨ProgramImage.secHash sC.sys.prog, 4000, 500, 0, 0, [], 0⟩ } } }
theorem budget_passes : budgetFirstFail sCert terms0 = 0 := by decide +kernel
theorem witness_TheBudgetCheckDecidesByItsConditions :
    isTiming Reg.ESC_APPLY = false ∧
    (∀ p ∈ [(Reg.ESC_PERIOD, 2500), (Reg.ESC_LEAD, 100), (Reg.ESC_REFPT, 500), (Reg.ESC_REPAIR, 2500)],
      timingLegal sC p.1 (timingValue p.1 (BitVec.ofNat 32 p.2)) = true) ∧
    (∀ p ∈ [(Reg.ESC_PERIOD, 2499), (Reg.ESC_LEAD, 99), (Reg.ESC_REFPT, 499), (Reg.ESC_REPAIR, 2501)],
      timingLegal sC p.1 (timingValue p.1 (BitVec.ofNat 32 p.2)) = false) ∧
    firstFail [(roleOrCore .operator (.eventCore 3), Status.notPermitted), (sC.sys.mode == .commission, .illegalInMode)] = none ∧
    firstFail [(roleOrCore .operator (.hmp .viewer 1), Status.notPermitted), (sC.sys.mode == .commission, .illegalInMode)] =
      some .notPermitted ∧
    sC.esc.checking = none ∧ { sC.esc with checking := some terms0 }.checking = some terms0 ∧
    budgetFirstFail sC { terms0 with period := 2499 } = 1 ∧
    budgetFirstFail sCert terms0 = 0 ∧
    (∀ w, w < 12 → mapReason sC w = 0) ∧ { sC.esc with accepted := some terms0 }.accepted = some terms0 ∧ escRunning sC = false ∧ (nextIndex { sRun with esc := { sRun.esc with j := cyclesPerSecond sRun - 1 } }).2.1 = 0 ∧
    sRun.sys.mode = .commission ∧ sRunM.sys.mode ≠ .commission ∧ (nextIndex sRun).2.1 ≠ 0 ∧
    (terms0.period = periodTicks sRun → inPair sRun = false) := by
  refine ⟨?_, ?_, ?_, ?_, ?_, ?_, ?_, ?_, budget_passes, ?_⟩ <;> decide

/-! ### Wheels -/

def plan0 : Plan :=
  ⟨[], [], [], [], [], false, false, Frac.zero, [], none, none, Frac.zero, false, 0, 0, none, false, false, false, false⟩
/-- Wheel 0 in use with `x`, after the reference point. -/
def withWheel (x : Wheel) : State :=
  setWheel 0 x { fset (Fld.WHL_CFG_EN 0) 1 sRun with esc := { sRun.esc with refDone := true } }
def wh : Wheel := { wheel State.reset 0 with block := false }
theorem witness_PlanningGoesThroughItsStages :
    (withWheel wh).esc.refDone = true ∧ (withWheel wh).esc.cutDone = false ∧ wh.sorting = false ∧
    { wh with sorting := true }.sorting = true ∧
    (let s := withWheel { wh with spec := some plan0 };
      (s.esc.refDone && !s.esc.cutDone && wheelOn s 0 && !(wheel s 0).conf && ((wheel s 0).spec.isSome || (wheel s 0).block) &&
        !holdsFabric s 0) = true) ∧
    (let s := withWheel { wh with block := true };
      (s.esc.refDone && !s.esc.cutDone && wheelOn s 0 && !(wheel s 0).conf && ((wheel s 0).spec.isSome || (wheel s 0).block) &&
        !holdsFabric s 0) = true) ∧
    { wh with conf := true }.conf = true ∧ { wh with conf := true }.checks = none ∧
    { wh with checks := some 0, spec := some plan0 }.checks = some 0 ∧ { wh with checks := some 15 }.checks = some (14 + 1) ∧
    wh.final = none ∧ wh.gaveUp = false ∧ wh.fall = none ∧ wh.conf = false ∧
    holdsFabric (withWheel { wh with spec := some plan0 }) 0 = false := by decide
theorem test_round_start : after (.speculativeRoundStart 0) (fset (Fld.WHL_ROTA_USED 0) 1 (withWheel wh)) (fun t => (wheel t 0).sorting) =
    some true ∧ after (.speculativeRoundStart 1) (fset (Fld.WHL_ROTA_USED 0) 1 (withWheel wh)) (fun t => (wheel t 0).sorting) =
    some false := by decide
/-- Slots 100 to 103 belong to wheel 11. -/
def sSlots : State := fset (Fld.WHL_CFG_EN 11) 1 (fset (Fld.WHL_SLOTS_FIRST 11) 100 (fset (Fld.WHL_SLOTS_COUNT 11) 4 sC))
def cell0 : Cell := cell State.reset 0
theorem witness_WheelSourcesFollowTheirCounts :
    (let s := setWheel 11 { wh with staleRun := fget sC Fld.ESC_STALE_MAX_STALE_MAX + 1 } sC;
      fget s Fld.ESC_STALE_MAX_STALE_MAX < (wheel s 11).staleRun ∧ fired 16 11 s = false ∧ fired 16 11 (setRaised 16 11 true s) = true) ∧
    (wheel sC 11).staleRun ≤ fget sC Fld.ESC_STALE_MAX_STALE_MAX ∧ (wheel sC 11).fbRun < 16 ∧
    (let s := setWheel 11 { wh with fbRun := 16 } sC; 16 ≤ (wheel s 11).fbRun ∧ fired 26 11 s = false) ∧
    (let s := setWheel 11 { wh with lowRun := 4, lowOk := 3, minRun := 0, minOk := 4 } (fset (Fld.WHL_THR_THR_HOLD 11) 4 sC);
      let h := fget s (Fld.WHL_THR_THR_HOLD 11);
      h ≤ (wheel s 11).lowRun ∧ (wheel s 11).minRun < h ∧ h ≤ (wheel s 11).minOk ∧ (wheel s 11).lowOk < h) ∧
    (let s := setCell 103 { cell0 with byp := some 10 } sSlots; (cell s 103).byp = some 10 ∧ wheelOf s 103 = some 11) ∧
    wheelOf sSlots 104 = none ∧ (9 : Nat) < 10 := by decide
theorem test_bypass_times_out : after (.bypassConfirmTimeout 103) (setCell 103 { cell0 with byp := some 10 } sSlots)
    (fun t => ((cell t 103).byp, (cell t 103).faulted, regGet t (Reg.WHL_BYPFAIL_CNT 11))) = some (none, true, 1) := by decide
theorem witness_CellCommandsWithdrawReturnAndBypass :
    inRange sSlots 11 100 = true ∧ inRange sSlots 11 103 = true ∧ inRange sSlots 11 104 = false ∧
    roleOrCore .operator (.eventCore 3) = true ∧ roleOrCore .operator (.hmp .viewer 1) = false ∧
    roleAtLeast .engineer (.hmp .engineer 1) = true ∧ inRun (hm .run .solo sSlots) = true ∧ inRun sSlots = false ∧
    cell0.bypassed = false ∧ rptFault cell0.rpt = false ∧ rptFresh cell0.rpt = false ∧ rptBypassed cell0.rpt = false ∧
    cell0.byp = none ∧ sSlots.sys.role ≠ .standby ∧ (5 : Word).getLsbD 0 = true ∧ fbit sC Fld.WHL_TRC_CTRL_EN = false ∧
    fbit (fset Fld.WHL_TRC_CTRL_EN 1 sC) Fld.WHL_TRC_CTRL_EN = true := by decide
theorem test_withdraw : after (.whlWithdraw (.eventCore 3) 11 103) sSlots (fun t => ((cell t 103).withdrawn, (cell t 102).withdrawn)) =
    some (true, false) := by decide
/-- R38, R159, R160: the sort of round 0 ends at T_k + 2.9 µs at the default reference point, and a pass lasts 80 ns. -/
theorem test_planning_instants :
    after (.speculativePlanReady 0) (fset Fld.ESC_REFPT_REFPT 1000 (withWheel { wh with sorting := true }))
      (fun t => (wheel t 0).specAt) = some 2900 ∧
    after (.confirmationEnd 0) (withWheel { wh with conf := true, confAt := 2455 }) (fun t => sinceTk t) = some 4990 := by decide
/-- R165: a report after the pass began leaves the cell's last report as it was until the next cycle. -/
theorem test_late_report :
    (let s := deliver 100 0x80 5 0 0 false false (setWheel 11 { wh with conf := true } sSlots);
      (cell s 100).rpt = 0 ∧ (cell s 100).late = some 0x80 ∧ (cell s 100).lastRpt = 0x80 ∧
      (cell (clearCycle s) 100).rpt = 0x80 ∧ (cell (clearCycle s) 100).here = false) := by decide

/-! ### Cell chains -/

/-- A frame of type `k` as a cell returns it: its header, and FCRC of no slot. -/
def frameOf (k : Nat) (range : Word) : List Byte := (headerFor State.reset false k 0 range).bytes ++ [0, 0, 0, 0]
def chars (l : List Byte) : List LinkChar := l.map .data
/-- Chain 0 mapped, port 0 being `x` and lit. -/
def withPort (x : Port) (s : State) : State := setPort 0 { x with lit := true } (withChain s)
def pt : Port := Port.reset
def swp (fl : Bool) (l : List Probe) : Sweep := ⟨l, fl, none, [], [], fl⟩
theorem witness_DiscoverySweepsProbeTheirEnd :
    firstFail [(roleOrCore .operator (.eventCore 3), Status.notPermitted), ((hm .ready .solo State.reset).sys.mode == .ready, .illegalInMode)] = none ∧
    firstFail [(roleOrCore .operator (.eventCore 3), Status.notPermitted), (sC.sys.mode == .ready, .illegalInMode)] = some .illegalInMode ∧
    (regGet (regSet (Reg.RING_DISC_MASK 3) 0x80000000 sC) (Reg.RING_DISC_MASK (127 / 32))).getLsbD (127 % 32) = true ∧
    (regGet sC (Reg.RING_DISC_MASK 0)).getLsbD 0 = false ∧
    (port (withPort pt sC) 0).broken = false ∧ allMatched (withPort pt sC) 0 = false ∧ (port (withPort pt sC) 0).lit = true ∧
    { pt with broken := true }.broken = true ∧ sC.sys.mode ≠ .run ∧ portChain sC 0 = none ∧
    portChain (withPort pt sC) 0 = some (ch0, false) ∧ portChain (withPort pt sC) 1 = some (ch0, true) ∧
    (swp false []).flying = false ∧ (swp false []).ids = none ∧ (swp false (List.replicate 63 ⟨0, 0, 0⟩)).probes.length < 64 ∧
    64 ≤ (swp false (List.replicate 64 ⟨0, 0, 0⟩)).probes.length ∧ (swp true [⟨0, 0, 0⟩]).probes ≠ [] ∧
    readHeader [] = none ∧ (readHeader (frameOf 2 7)).map (fun h => h.type) = some 2 ∧
    (readHeader (frameOf 1 7)).map (fun h => h.type) = some 1 ∧ hcrcOk (zeros 44) = false ∧
    linkBytes (chars (frameOf 2 7)) = frameOf 2 7 ∧ hcrcOk (frameOf 2 7) = true ∧ fcrcOk (frameOf 2 7) 0 = true ∧
    fcrcOk (linkBytes (chars ((frameOf 2 7).take 42) ++ [.violation])) 0 = false ∧
    portLit (withPort pt sC) 0 = true ∧ portLit sC 0 = false ∧ armed (withPort pt sC) 5 0 = false ∧
    { pt with countOut := true }.countOut = true ∧ maySweep (hm .run .solo sC) = false := by decide +kernel
theorem witness_endFree : endFree (withPort pt sC) 0 ∧ endFree (withPort pt (hm .ready .solo State.reset)) 0 := by
  refine ⟨⟨by decide, by decide, by decide, by decide, by decide, ?_⟩,
    ⟨by decide, by decide, by decide, by decide, by decide, ?_⟩⟩ <;>
    (intro q h; obtain rfl : 1 = q := Option.some.inj h; decide)
theorem test_probe_launch : after (.probeLaunch 0) (withPort { pt with sweep := some (swp false []) } sC)
    (fun t => ((port t 0).sweep, (port t 0).tx.length)) = some (some (swp true []), 44) := by decide +kernel
/-- A frame of one slot; the slot's report says 2,800.0 V in position 3 from the east end. -/
def capReport : DWord := withCrc8 (28000 * 2 ^ 48)
theorem witness_ChainEndsTakeFramesAndLoss :
    portChain sC 127 = none ∧ portChain (withPort pt sC) 0 = some (ch0, false) ∧ pt.lit = false ∧
    (port (withPort pt sC) 0).lit = true ∧ armed sC 5 0 = false ∧ fcrcOk (frameOf 1 0) 0 = true ∧ fcrcOk (frameOf 1 0) 10 = false ∧
    hcrcOk (frameOf 1 0) = true ∧ hcrcOk (zeros 44) = false ∧ (readHeader (frameOf 1 0)).map (fun h => (h.type, h.cycle)) = some (1, 0) ∧
    cycleNo sC = 0 ∧ sC.esc.cutDone = false ∧ crc8Ok capReport = true ∧
    slotOf (frameOf 1 0 ++ wordsBytes [0, 0, 0, 0]) 0 ≠ none ∧
    (let s := withChain { sC with sys := { sC.sys with comm := { sC.sys.comm with cells := [⟨0, 9, 4095, identOf (zeros 16)⟩] } } };
      (mapAt s ch0.num (posFrom ch0.n 0 true)).map (fun m => m.slot) = some 4095) ∧
    (let s := fset (Fld.RING_PSTAT_STATE 0) 2 (hm .ready .solo sC); s.sys.mode = .ready ∧ 2 ≤ portState s 0 ∧ portState s 0 ≤ 4) ∧
    (let s := fset (Fld.RING_PSTAT_STATE 0) 4 (hm .run .solo sC); s.sys.mode = .run ∧ 2 ≤ portState s 0 ∧ portState s 0 ≤ 4) ∧
    portState (fset (Fld.RING_PSTAT_STATE 0) 3 sC) 0 = PState.inService ∧ { pt with sweep := some (swp true []) }.sweep.isSome = true ∧
    pt.commaAt = none ∧ { pt with commaAt := some 0 }.commaAt.isSome = true := by decide +kernel
theorem test_loss_folds : after (.portLossOfSignal 0) (withPort pt (fset (Fld.RING_PSTAT_STATE 0) 3 (hm .run .solo sC)))
    (fun t => (portState t 0, fget t (Fld.RING_PSTAT_FOLD_POS 0), regGet t (Reg.RING_PLOS_CNT 0))) =
    some (PState.folded, 0xFF, 1) := by decide +kernel

/-- A service segment: a final response of position 3 to request 1, operation 6, answering OK. -/
def segOk : List Byte := Segment.bytes ⟨2, 3, 1, 6, [0]⟩
def svcReq : SvcReq := ⟨0, 3, 6, [], .params, 0, 1, some 0, 0, 0, false⟩
def ident0 : List Byte := zeros 16
/-- Port 0 folded at the port and healing, stop at cycle 8, in COMMISSION of a SOLO module. -/
def healing (h : HealStep) : State :=
  fset (Fld.RING_PSTAT_FOLD_POS 0) 0xFF (fset (Fld.RING_PSTAT_STATE 0) 5 (withPort { pt with heal := some h } sC))
def folded : State := fset Fld.RING_CTRL_AUTO_HEAL 1 (fset (Fld.RING_PSTAT_STATE 0) 4 (withPort pt sC))
theorem witness_HealingAndServiceRequestsEnd :
    mayHeal folded 0 = true ∧ fbit folded Fld.RING_CTRL_AUTO_HEAL = true ∧ portChain folded 0 ≠ none ∧
    mayHeal sC 0 = false ∧ portChain folded 2 = none ∧
    portChain (healing (.stop 8)) 0 = some (ch0, false) ∧ (port (healing (.stop 8)) 0).heal = some (.stop 8) ∧
    (cycleNo (healing (.stop 1))).toNat < (1 : Word).toNat ∧ (0 : Word).toNat ≤ (cycleNo (healing (.stop 0))).toNat ∧
    (port (healing (.echo 8)) 0).heal = some (.echo 8) ∧ fget (healing (.echo 8)) (Fld.RING_PSTAT_FOLD_POS 0) = 0xFF ∧
    (port (healing (.echo 8)) 0).echo = none ∧ fget (fset (Fld.RING_PSTAT_FOLD_POS 0) 9 sC) (Fld.RING_PSTAT_FOLD_POS 0) ≠ 0xFF ∧
    (readHeader (frameOf 3 8)).map (fun h => (h.type, h.range.toNat % 65536)) = some (3, 8) ∧ hcrcOk (frameOf 3 8) = true ∧
    (segmentOf (List.replicate 44 0 ++ segOk) 0 0).map (fun v => (v.kind, v.pos, v.seq, v.op)) = some (2, 3, 1, 6) ∧
    segmentOf (List.replicate 44 0 ++ zeros 64) 0 0 = none ∧
    [svcReq].find? (fun q => q.pos == 3 && q.seq == 1 && q.op == 6 && q.first.isSome) = some svcReq ∧
    [svcReq].find? (fun q => q.pos == 3 && q.first.isSome && !q.due) = some svcReq ∧ statusOf 0 ≠ .busy ∧
    fget sC Fld.RING_SVC_CTRL_TMO ≤ ((BitVec.ofNat 32 (fget sC Fld.RING_SVC_CTRL_TMO)) - svcReq.last).toNat ∧
    svcReq.tries < fget sC Fld.RING_SVC_CTRL_RETRY ∧
    fget sC Fld.RING_SVC_CTRL_RETRY ≤ { svcReq with tries := fget sC Fld.RING_SVC_CTRL_RETRY }.tries := by decide +kernel
/-- Position 9 of chain 0 is mapped, and port 0 shows it FOREIGN with the identity it read. -/
def sForeign : State :=
  let s := withPort { pt with idents := Store.set (fun _ => []) [] 9 ident0, swept := true } sC
  let s := { s with sys := { s.sys with comm := { s.sys.comm with cells := [⟨0, 9, 4095, identOf (zeros 16)⟩] } } }
  fset (Fld.RING_CELL_OUTCOME 0 9) Outcome.foreign (fset (Fld.RING_PSTAT_REACHED 0) 10 s)
theorem witness_heals_and_accepts :
    admitted rq ⟨0x0042, .engineer, false, true, [.commission, .charge, .ready, .run]⟩ ses folded ∧
    admitted rq ⟨0x0041, .engineer, false, true, [.commission, .charge, .ready]⟩ ses sForeign ∧
    chainOf sForeign 0 = some ch0 ∧ chainOf sForeign 1 = none ∧ mapAt sForeign 0 8 = none ∧
    (mapAt sForeign 0 9).map (fun m => outcomeOf sForeign m) = some Outcome.foreign ∧
    agreedIdent (viewsOf sForeign ch0 9) = some ident0 ∧
    (port folded 0).healReady = false ∧ (port (setPort 0 { port folded 0 with healReady := true } folded) 0).healReady = true ∧
    mayHeal (setPort 0 { port folded 0 with healReady := true } folded) 0 = true ∧ portChain folded 127 = none ∧
    echoCycle (some (.follow 8)) = some 8 ∧ echoCycle (some (.stop 8)) = none ∧
    healPorts (healing (.stop 0)) 0 = [0] ∧ facing folded 0 10 = false ∧
    facing (fset (Fld.RING_PSTAT_FOLD_POS 1) 9 (fset (Fld.RING_PSTAT_STATE 1) 4 (fset (Fld.RING_PSTAT_FOLD_POS 0) 0xFF folded))) 0 10 = true ∧
    fcrcOk (frameOf 3 8) 0 = true ∧ portLit folded 0 = true ∧ armed folded 5 0 = false ∧
    { svcReq with owner := .heal }.owner ≠ .params := by unfold admitted; decide +kernel
theorem test_cell_accept : after (.cellAccept rq 0 9) sForeign (fun t => (t.sys.accepts.length, t.sys.cmdLog.length)) = some (1, 1) := by
  decide +kernel

/-! ### Loop engines -/

/-- An operation of engine 7: OP `code`, ARG `arg`, its operands at offset `ptr` of shared control memory. -/
def sLoop (code arg ptr : Nat) (s : State) : State :=
  opAt 0 (engKey 0 7 0) 0x10100000 false [BitVec.ofNat 32 (code * 2 ^ 24 + arg * 256 + 255), BitVec.ofNat 32 ptr] s
def opL : EngOp := ⟨0, 0x10100000, 0, false⟩
def d0 (code arg ptr : Nat) : List Word × State := engWords opL 2 (sLoop code arg ptr sC)
theorem witness_LoopOperationsCompleteByTheirRules :
    firstNew sC (engKey 0 7 0) = none ∧ firstNew (sLoop 1 0 0 sC) (engKey 0 7 0) = some opL ∧ descInScm opL ∧
    (∀ p ∈ [(0, 0), (1, 255), (1, 256), (2, 2), (2, 3), (3, 10), (4, 7), (5, 3), (5, 4), (6, 0)],
      fieldGet ((d0 p.1 p.2 0).1.getD 0 0) 31 24 = p.1 ∧ fieldGet ((d0 p.1 p.2 0).1.getD 0 0) 23 8 = p.2) ∧
    ((d0 1 0 0x3FFFA0).1.getD 1 0).toNat = 0x3FFFA0 ∧ ptrOk 0x3FFFA0 96 = true ∧ ptrOk 0x3FFFC0 96 = false ∧ ptrOk 16 32 = false ∧
    (hm .lockout .solo sC).sys.mode = .lockout ∧ loopMode sC 7 = LoopMode.manual ∧ sC.sys.mode ≠ .boot ∧
    (loop sC 7).ranNow = false ∧ { Loop.reset with ranNow := true }.ranNow = true ∧
    loopRegion 10 = some (0x13C0, 16) ∧ loopRegion 11 = none ∧ loopRegion 8 = some (0x11C0, 256) ∧
    (let h := { Loop.reset with held := [(23, 300)] };
      h.held.any (fun h => decide (cfgHoldMax (winGet sC 7) < h.2)) = true) ∧
    firstFail [(roleOrCore .operator (.eventCore 0), Status.notPermitted), (sC.sys.role != .standby, .notHolder),
      (fieldGet (0x80000002 : Word) 1 0 != 3, .badParam)] = none ∧
    firstFail [(roleOrCore .operator (.eventCore 0), Status.notPermitted), (sC.sys.role != .standby, .notHolder),
      (fieldGet (0x80000003 : Word) 1 0 != 3, .badParam)] = some .badParam ∧
    (0x8000 : Word).getLsbD 15 = true ∧ (0x80000002 : Word).getLsbD 31 = true := by unfold descInScm; decide +kernel
/-- Engine 7 with n_y = n_u = DIV = HOLD_MAX = 1; a target of all zeros is legal, a CFG of all zeros is not. -/
def sCfg : State := winSet 7 0x13C0 0x01101100 sC
theorem witness_loop_words :
    (let rd := operandWords opL 0x1000 8 (engWords opL 2 (sLoop 4 7 0x1000 sCfg)).2;
      ((floatWords 8 rd.1).all F32.finite && loopLegal (withRegion (winGet rd.2 7) (0x11C0 + 32 * 7) rd.1)) = true) ∧
    (let rd := operandWords opL 0x1000 4 (d0 3 10 0x1000).2;
      ((floatWords 10 rd.1).all F32.finite && loopLegal (withRegion (winGet rd.2 7) 0x13C0 rd.1)) = false) ∧
    (let m := LoopMode.auto;
      ((List.range 16).any (fun k => fieldGet (winGet (d0 1 0 0).2 7 (0x12C0 + 16 * k)) 31 28 == 1) || m != LoopMode.auto) = false) := by
  decide +kernel
theorem test_set_mode : after (.loopSetMode 7) (sLoop 2 1 0 sC) (fun t => (loopMode t 7, memRead t 0x10100000)) = some (1, 0) := by
  decide +kernel
theorem test_set_mode_lockout : after (.loopSetMode 7) (sLoop 2 1 0 (hm .lockout .solo sC))
    (fun t => (loopMode t 7, memRead t 0x10100000)) = some (0, BitVec.ofNat 8 Status.illegalInMode.code) := by decide +kernel

/-! ### Measurement inputs -/

def ch : Chan := Chan.reset
/-- Channel 23 enabled, its comparator too, with QUAL 3 and BLK_EN. -/
def sWin (c : Chan) : State :=
  setChan 23 c (fset (Fld.FAD_CH_CFG_EN 23) 1 (fset (Fld.FAD_WIN_CFG_EN 23) 1 (fset (Fld.FAD_WIN_CFG_QUAL 23) 3
    (fset (Fld.FAD_WIN_CFG_BLK_EN 23) 1 sC))))
def withSync (n : Nat) : State := { sC with front := { sC.front with syncAt := some n } }
theorem witness_FastChannelsFollowTheirConditions :
    fbit sC Fld.FAD_STATUS_FGCAL = false ∧ fbit (fset Fld.FAD_STATUS_FGCAL 1 sC) Fld.FAD_STATUS_FGCAL = true ∧
    (let s := fset (Fld.FAD_CH_CFG_EN 22) 1 (fset (Fld.FAD_CH_CFG_IL 22) 1 sC);
      (evenIl s (2 * 11) && fbit s (Fld.FAD_CH_CFG_EN (2 * 11))) = true) ∧
    evenIl sC 0 = false ∧
    (let s := sWin { ch with runOut := 4 };
      (fbit s (Fld.FAD_WIN_CFG_EN 23) && live s 23 && !tripped s 23 && !calibrating s 23 &&
        decide (fget s (Fld.FAD_WIN_CFG_QUAL 23) + 1 ≤ (chan s 23).runOut)) = true) ∧
    (let s := sWin { ch with runOut := 3 };
      decide (fget s (Fld.FAD_WIN_CFG_QUAL 23) + 1 ≤ (chan s 23).runOut) = false) ∧
    (let s := fset Fld.FAD_WIN_STAT_TRIP (2 ^ 23) (sWin { ch with runIn := 4 });
      (tripped s 23 && decide (fget s (Fld.FAD_WIN_CFG_QUAL 23) + 1 ≤ (chan s 23).runIn)) = true) ∧
    (let s := fset Fld.FLT_CTRL_SYNC_EN 1 sC;
      (fbit s Fld.FLT_CTRL_SYNC_EN && false == fbit s Fld.FLT_CTRL_SYNC_POL) = true ∧
      (inRun s && !fbit s Fld.FLT_CTRL_SYNC_RUN) = false ∧
      (inRun (hm .run .solo s) && !fbit (hm .run .solo s) Fld.FLT_CTRL_SYNC_RUN) = true) ∧
    sC.front.syncAt = none ∧ (withSync 50).front.syncAt = some 50 ∧ live (sWin ch) 23 = true ∧ live sC 23 = false ∧
    fltTarget 0x40080000 = none ∧ fltTarget 0x400800FC = none ∧ fltTarget 0x40080100 = some (0, 0) ∧
    fltTarget 0x400806D0 = some (23, 0x10) ∧ fltTarget 0x400806D4 = none ∧ fltTarget 0x40081BFC = some (23, 0x40) ∧ fltTarget 0x40081C00 = none ∧
    fltParamOk sC 0 0x04 1000 = true ∧ fltParamOk sC 0 0x04 1001 = false ∧ freezeOnly sC 0 0x00 0 = false ∧
    sC.time.cnt % 25 = 0 ∧ { sC.time with cnt := 24 }.cnt % 25 ≠ 0 ∧ winOn (sWin ch) 23 = true ∧
    calibrating (sWin ch) 23 = false ∧ samplesNow (sWin ch) 23 = true ∧ (0 : BitVec 24).getLsbD 23 = false := by decide +kernel
theorem test_window_trips : after (.windowComparatorTrip 23) (sWin { ch with runOut := 4 })
    (fun t => (tripped t 23, t.saf.demand4, t.saf.pending, regGet t (Reg.FAD_TRIP_CNT 23))) = some (true, 0x800000, 4, 1) := by
  decide +kernel
def hk (h : Hka) (trig : Nat) (mask : Nat) : State :=
  fset Fld.HKA_CTRL_TRIG trig (fset Fld.HKA_MASK_MASK mask { sC with front := { sC.front with hka := h } })
def hka0 : Hka := Hka.reset
theorem witness_HousekeepingScansInjectsAndCalibrates :
    firstFail [(roleOrCore .operator (.eventCore 0), Status.notPermitted), (sC.sys.mode != .boot, .illegalInMode)] = none ∧
    firstFail [(roleOrCore .operator (.eventCore 0), Status.notPermitted), (State.reset.sys.mode != .boot, .illegalInMode)] =
      some .illegalInMode ∧
    (∀ n, n < 3 → fget (hk hka0 n 0) Fld.HKA_CTRL_TRIG = n) ∧ hkaMask (hk hka0 0 0) = [] ∧
    hkaMask (hk hka0 0 0x80000001) = [0, 31] ∧ hka0.scanning = false ∧ hka0.cal = .none ∧
    (hk hka0 1 1).time.cnt = 0 ∧ { hka0 with cal := .running 0 }.cal = .running 0 ∧
    (0b0111 : Nat).testBit 3 = false ∧ (∀ j, j < 3 → (0b0111 : Nat).testBit j = true) ∧ (∀ j, j < 4 → (15 : Nat).testBit j = true) ∧
    escRunning sRun = true ∧ (cycleNo sRun).toNat % max 1 (fget sRun Fld.HKA_ESCDIV_DIV) = 0 ∧
    [(⟨3, 31, 0, false⟩ : InjReq)].any (fun r => decide (r.at_ + 500 ≤ 500)) = true ∧
    [(⟨3, 31, 0, false⟩ : InjReq)].any (fun r => decide (r.at_ + 500 ≤ 499)) = false ∧
    calRunning (hk { hka0 with cal := .running 0 } 0 0) = true ∧ calRunning sC = false ∧
    (hkaResShown sC 3).getLsbD 31 = false ∧
    (hkaResShown { sC with pub := Store.set regReset sC.pub (Reg.HKA_INJ_RES 3) 0x80000000 } 3).getLsbD 31 = true := by
  decide +kernel
theorem test_injected_result : after (.hkaInjConversion 0x1234) (hk { hka0 with inj := [⟨3, 5, 0, true⟩], slots := 8 } 0 0)
    (fun t => regGet t (Reg.HKA_INJ_RES 3)) = some 0xC0051234 := by decide +kernel

/-! ### The chronograph -/

/-- The chronograph in state `n` with segment 1 named and in use, 16 MiB at 32 MiB, and content `h`. -/
def sChr (n : Nat) (c : Chr) : State :=
  let s := fset (Fld.CHR_SEG_SIZE_MIB 1) 16 (fset (Fld.CHR_SEG_BASE_MIB 1) 32 (fset Fld.CHR_STATUS_SEG 1 { sC with chr := c }))
  fset Fld.CHR_TEN_TEN 0xFFF (setChrState n s)
def chr0 : Chr := Chr.reset
def shape0 : ChrShape := ⟨4, 2, 8768, 1, 0, 0, 0, 4000, List.replicate 12 0, List.replicate 16 0, 0, false⟩
def trig0 : ChrTrig := ⟨5, 6, ⟨0, 0⟩, 8, 0, 0, 0, 0, 0, ⟨0, 0⟩⟩
/-- An operation in the chronograph's queue. -/
def sChrOp (code arg n : Nat) : State :=
  opAt 0 (engKey 4 0 0) 0x10100000 false [BitVec.ofNat 32 (code * 2 ^ 24 + arg * 256 + 255)] (sChr n { chr0 with shape := some shape0 })
theorem witness_ChronographCommandsFollowItsStates :
    (let s := sChr 0 chr0;
      firstFail [(roleOrCore .operator (.eventCore 0), Status.notPermitted), (s.sys.mode != .boot, .illegalInMode)] = none ∧
      firstFail [(roleOrCore .operator (.hmp .viewer 1), Status.notPermitted), (s.sys.mode != .boot, .illegalInMode)] =
        some .notPermitted ∧ armRefusal s ≠ none) ∧
    (ctrlConfig 4 (sChr 1 chr0)).isNone = true ∧ ctrlConfig 0 (sChr 1 chr0) = some (sChr 1 chr0) ∧
    (∀ n, n < 5 → chrState (sChr n chr0) = n) ∧ (sChr 2 { chr0 with shape := some shape0, trig := some trig0 }).chr.trig = some trig0 ∧
    fbit (sChr 1 chr0) Fld.CHR_SEQ_A_EN = false ∧ (fget (sChr 1 chr0) Fld.CHR_TEN_TEN).testBit 7 = true ∧
    (segState (sChr 0 chr0) 1 == SegState.writing) = false ∧
    (segState (setSegState 15 SegState.writing (sChr 0 chr0)) 15 == SegState.writing) = true ∧
    firstNew (sChr 0 chr0) (engKey 4 0 0) = none ∧ firstNew (sChrOp 1 0 0) (engKey 4 0 0) = some opL ∧ descInScm opL ∧
    (∀ c, c < 7 → fieldGet (engWord opL 0 (sChrOp c 0 0)).1 31 24 = c) ∧
    fieldGet (engWord opL 0 (sChrOp 5 15 0)).1 11 8 = 15 ∧
    ([(⟨0, 1, 0, 0⟩ : Marker)].filter (fun m => m.ser == chr0.ser)).length < 4 ∧
    4 ≤ ((List.replicate 4 (⟨0, 1, 0, 0⟩ : Marker)).filter (fun m => m.ser == chr0.ser)).length := by
  unfold descInScm; decide +kernel
/-- A content of one raw channel and a segment that holds its record. -/
def sArm : State := fset Fld.CHR_RAW_RAW 1 (fset Fld.CHR_SEGSEL_SEG_MASK 2 (sChr 0 chr0))
theorem witness_arming : armRefusal sArm = none ∧ armSegment sArm = some 1 ∧ ctrlConfig 0 sArm = some sArm ∧
    armSegment (setChrState 4 sArm) = some 1 := by decide +kernel
theorem test_arm : after (.chrArm (.reg (.eventCore 0) 0)) sArm (fun t => (chrState t, segInUse t, segState t 1)) =
    some (ChrState.armed, 1, SegState.writing) := by decide +kernel
theorem test_mark : after .chrMark (sChrOp 4 9 1) (fun t => (t.chr.marks, memRead t 0x10100000)) = some ([⟨0, 9, 0, 0⟩], 0) := by
  decide +kernel
theorem test_trigger_idle : after (.chrTrigger .op) (sChrOp 3 0 0) (fun t => memRead t 0x10100000) =
    some (BitVec.ofNat 8 Status.refused.code) := by decide +kernel
def blkRec : BlkRec := ⟨3, 4, 0, 4000, 0, 0, false, some ⟨[], [], []⟩⟩
theorem witness_ChronographRecordsItsBlocks :
    (∀ p ∈ [(0, false), (1, true), (2, false), (2, true), (3, true)],
      let s := fset Fld.CHR_TRIGIO_IN_EDGE p.1 (sChr 1 chr0);
      (fget s Fld.CHR_TRIGIO_IN_EDGE = 0 ∧ p.2 = false) ∨ (fget s Fld.CHR_TRIGIO_IN_EDGE = 1 ∧ p.2 = true) ∨
        2 ≤ fget s Fld.CHR_TRIGIO_IN_EDGE) ∧
    chr0.seqAt = none ∧ { chr0 with seqAt := some 0 }.seqAt.isSome = true ∧
    chr0.blks.find? (fun b => b.body.isSome) = none ∧ [blkRec].find? (fun b => b.body.isSome) = some blkRec ∧
    shape0.stream = false ∧ chr0.first ≤ blkRec.ser ∧ shape0.pre ≠ 0 ∧ { shape0 with pre := 0 }.pre = 0 ∧
    { trig0 with ser := 3 }.ser ≤ blkRec.ser ∧ chr0.due = none ∧ { chr0 with due := some Close.maskStop }.due = some Close.maskStop ∧
    Close.maskStop ≠ 0 ∧ Close.maskStop ≠ Close.ovf ∧ chrState (sChr 3 chr0) = ChrState.holdoff ∧
    fbit (sChr 3 chr0) Fld.CHR_CTRL_HOLD_MODE = false ∧ chrState (sChr 4 chr0) = ChrState.rearm ∧
    armSegment (sChr 4 chr0) = none ∧ chrParamOk (sChr 0 chr0) 0x060 0x40000017 = true ∧
    chrParamOk (sChr 0 chr0) 0x060 0x40000018 = false ∧ segState (sChr 0 chr0) ((0xFC - 0x0C0) / 4) = SegState.free ∧
    chr0.unsent = [] ∧ { chr0 with unsent := [⟨0, 0, 1408⟩] }.unsent = ⟨0, 0, 1408⟩ :: [] ∧
    chr0.stopSer = none ∧ { chr0 with stopSer := some 3 }.stopSer.isSome = true ∧ { shape0 with stream := true }.stream = true ∧
    sC.eth.resolved = false := by decide +kernel
theorem test_holdoff_ends : after .chrHoldoffEnd (sChr 3 chr0) (fun t => chrState t) = some ChrState.idle := by decide +kernel

/-- The worked content of chapter 12: AIN0 to AIN5 raw and filtered, the digital word, the 560 cells of wheel 1, two derived channels. -/
def tarrow : ChrShape :=
  ⟨100, 400, 8768, 0x3F, 0x3F, 0x02010002, 0, 5000, [0, 560, 0, 0, 0, 0, 0, 0, 0, 0, 0, 0], List.replicate 16 0, 0, false⟩
theorem test_tarrow_hill : tarrow.stride' = 8768 ∧ tarrow.size = 4392960 ∧ cellMax 3200 = 3003 ∧ cellMax 3125 = 2901 := by
  decide +kernel

/-! ### The time base -/

def withTime (tb : TimeBase) (s : State) : State := { s with time := tb }
def tb0 : TimeBase := TimeBase.reset
def adj0 : Adjustment := ⟨48, some 0, none, none⟩
def adjCk (o : Origin) (val : Word) (s : State) : Option Status :=
  let r := (regGet s Reg.TIM_RATE_NEW).toInt
  firstFail [(s.sys.mode != .boot, Status.illegalInMode), (roleAtLeast .engineer o, .notPermitted),
    (!(isHmp o && fget s Fld.TIM_CTRL_SRC == 1), .notPermitted),
    (!((val.getLsbD 2 || val.getLsbD 1) && inRun s && !fbit s Fld.TIM_SERVO_RUN_STEP), .illegalInMode),
    (!(val.getLsbD 0 && isHmp o && inRun s && !rateWithin r (fget s Fld.TIM_SERVO_RUN_MAX)), .badParam),
    (!(val.getLsbD 2 && val.getLsbD 1), .badParam),
    (!val.getLsbD 2 || decide ((regGet s Reg.TIM_SET_0).toNat < 1000000000), .badParam), (s.time.adj.isNone, .busy)]
theorem witness_TimeBaseAdjustsAndServoes :
    adjCk (.hmp .engineer 1) 0x80000001 sC = none ∧ adjCk (.hmp .engineer 1) 0x80000002 sC = none ∧
    adjCk (.hmp .engineer 1) 0x80000004 (regSet Reg.TIM_SET_0 999999999 sC) = none ∧
    adjCk (.hmp .engineer 1) 0x80000004 (regSet Reg.TIM_SET_0 1000000000 sC) = some .badParam ∧
    adjCk (.hmp .engineer 1) 0x80000006 sC = some .badParam ∧ adjCk (.hmp .operator 1) 1 sC = some .notPermitted ∧
    adjCk (.hmp .engineer 1) 2 (hm .run .solo sC) = some .illegalInMode ∧
    adjCk (.hmp .engineer 1) 1 (withTime { tb0 with adj := some adj0 } sC) = some .busy ∧
    tb0.adj = none ∧ adj0.set = none ∧ adj0.step = none ∧ refSelected sC = false ∧
    refSelected (fset Fld.TIM_CTRL_REF_SEL 1 sC) = true ∧ fbit sC Fld.TIM_STATUS_REF_LOST = false ∧
    fbit (fset Fld.TIM_PPS_EN 1 sC) Fld.TIM_PPS_EN = true ∧ pulsedSec [] 0 = false ∧ pulsedSec [(0, 3)] 3 = true ∧
    fbit sC Fld.TIM_PPS_IN_POL = false ∧
    (let s := withTime { tb0 with cnt := 1000000 } (fset Fld.TIM_CTRL_SRC 2 (fset Fld.TIM_STATUS_SERVO 2 sC));
      fget s Fld.TIM_CTRL_SRC = 2 ∧ servo s = servoLocked ∧ 1000000 < (nowSplit s).ns ∧ (nowSplit s).ns < 999000000) ∧
    (∀ n, n < 4 → servo (fset Fld.TIM_STATUS_SERVO n sC) = n) ∧ 16 ≤ (if (100 : Int).natAbs ≤ 100 then 15 + 1 else 0) ∧
    ¬16 ≤ (if (101 : Int).natAbs ≤ 100 then 15 + 1 else 0) ∧ 1000 < (1001 : Int).natAbs ∧ (-1000 : Int).natAbs ≤ 1000 ∧
    20 < (-21 : Int).natAbs ∧ (20 : Int).natAbs ≤ 20 ∧ sC.sys.comm.pair = false ∧ linkAsymmetry sC = 0 ∧
    adjCk .supervisory 1 (hm .run .solo sC) = none ∧ adjCk .supervisory 2 (hm .run .solo sC) = some .illegalInMode := by decide +kernel
theorem test_servo_locks : after (.servoMeasurement 100 0) (withTime { tb0 with good := 15 } (fset Fld.TIM_CTRL_SRC 2 (fset Fld.TIM_STATUS_SERVO 1 sC)))
    (fun t => (servo t, fbit t Fld.TIM_STATUS_VALID)) = some (servoLocked, true) := by decide +kernel
theorem test_epoch_is_aligned : after (.timAdjCommit (.hmp .engineer 1) 0x80000001) (withTime { tb0 with cnt := 1 } sC)
    (fun t => t.time.adj.map (fun a => a.ce)) = some (some 48) := by decide +kernel

/-! ### Ethernet -/

def ep : EthPort := EthPort.reset
/-- Port `n` as `x`, enabled, with a link, PTP and the master role. -/
def sEth (n : Nat) (x : EthPort) : State :=
  setEthPort n x (fset (Fld.ETH_Pn_CFG_EN n) 1 (fset (Fld.ETH_Pn_STAT_LINK n) 1 (fset (Fld.ETH_Pn_CFG_PTP_EN n) 1
    (fset (Fld.ETH_Pn_STAT_PSTATE n) ptpMaster sC))))
def launch0 : Launch := ⟨3, 7, 0x90000000, 8, 1, true, 0x90000040, 60, false⟩
/-- A launch descriptor at offset 0 of the DRAM for the supervisory processor: LEN `len`, its frame at offset 64. -/
def sLq (len : Nat) : State := memWriteBytes Config.dramBase (wordsBytes [0x10000, 0, 0, 0, 64, BitVec.ofNat 32 len]) sC
theorem witness_EthernetStampsAndLaunches :
    (4 : Fin 5).val = 4 ∧ fget sC Fld.ETH_PTP_CFG_DOMAIN ≠ 255 ∧ fbit (sEth 3 ep) (Fld.ETH_Pn_CFG_PTP_EN 3) = true ∧
    linkUp (sEth 3 ep) 3 = true ∧ portOn (sEth 3 ep) 3 = true ∧ (sEth 3 ep).sys.mode ≠ .boot ∧
    fget (sEth 3 ep) (Fld.ETH_Pn_STAT_PSTATE 3) = ptpMaster ∧ linkUp sC 0 = false ∧
    fbit (fset (Fld.ETH_Pn_CFG_ONE_STEP 3) 1 sC) (Fld.ETH_Pn_CFG_ONE_STEP 3) = true ∧
    ep.pdelayReq = none ∧ { ep with pdelayReq := some (7, 8) }.pdelayReq = some (7, 8) ∧ prpOn (fset Fld.ETH_CFG_PRP 1 sC) = true ∧
    prpOn (fset Fld.ETH_CFG_PRP 0 sC) = false ∧ ep.stamps = [] ∧ isHmp (.hmp .engineer 1) = true ∧ isHmp .supervisory = false ∧
    posterOwns sC .supervisory 0 32 = true ∧ posterOwns sC (.eventCore 0) 0 32 = false ∧
    ¬16 ≤ queueDepth (sEth 3 { ep with launches := List.replicate 15 launch0 }) 3 3 ∧
    16 ≤ queueDepth (sEth 3 { ep with launches := List.replicate 16 launch0 }) 3 3 ∧
    (∀ n ∈ [60, 1518], (memReadWord (sLq n) (Config.dramBase + 20)).toNat % 2048 = n) ∧
    (memReadWord (sLq 60) (Config.dramBase + 16)).toNat % 64 = 0 ∧ (0 : Nat) % 32 = 0 ∧
    ep.launches = [] ∧ 10 * launch0.t ≤ stampTenths sC 3 0 + 80 ∧ stampTenths sC 3 0 + 80 < 10 * { launch0 with t := 9 }.t ∧
    (let s := fset (Fld.ETH_Pn_CFG_LATE_POL 3) 8 (withTime { tb0 with cnt := 9 } sC);
      (fget s (Fld.ETH_Pn_CFG_LATE_POL 3)).testBit launch0.q = true ∧ 10 * launch0.t + 80 < stampTenths s 3 0) ∧
    ownIp sC 4 = some (regGet sC Reg.ETH_IP_M) ∧ ownIp sC 2 = none ∧
    linkUp (sEth 3 { ep with launches := [launch0], freeAt := 1 }) 3 = true ∧ (0 : Nat) < 1 ∧
    (∀ k ∈ [PtpKind.sync, .announce, .followUp, .pdelayReq, .pdelayResp, .pdelayRespFollowUp],
      (ethPort (sEth 3 ep) 3).freeAt ≤ stampTenths (sEth 3 ep) 3 1 ∧
      guardOk (sEth 3 ep) 3 5 (ethLineBytes (sEth 3 ep) 3 (ethFrameBytes (ptpMsg (sEth 3 ep) k 0 false 0 0))) = true) ∧
    guardOk (sEth 3 { ep with launches := [launch0] }) 3 5 90 = false ∧
    fget (fset (Fld.ETH_Pn_STAT_PSTATE 1) 10 (fset (Fld.ETH_Pn_STAT_PSTATE 0) 9 sC)) (Fld.ETH_Pn_STAT_PSTATE 1) = 10 := by
  decide +kernel
theorem test_one_step_sync : after (.ptpMessageSend 3 .sync 1) (fset (Fld.ETH_Pn_CFG_ONE_STEP 3) 1 (sEth 3 ep))
    (fun t => (ethPort t 3).out) = some (some (.ptp ⟨.sync, 0, true, 0, 248, 0x80, 0x80, none, ⟨0, 0⟩, 32768⟩)) := by decide +kernel
theorem test_launch_refused_late : after (.timedLaunch 3 0) (withTime { tb0 with cnt := 9 } (fset (Fld.ETH_Pn_CFG_LATE_POL 3) 8
    (sEth 3 { ep with launches := [launch0] }))) (fun t => ((ethPort t 3).launches.length, regGet t (Reg.ETH_Pn_DROP_CNT 3))) =
    some (0, 1) := by decide +kernel

/-! ### Subscriptions -/

/-- Entry 63 takes GOOSE frames of every port. -/
def sSub : State := fset (Fld.ETH_GSUB_CFG_EN 63) 1 (fset (Fld.ETH_GSUB_CFG_PORTS 63) 7 sC)
def gf : GooseFrame := { goose 100 0 0 with confRev := 0 }
def sStream : State := fset (Fld.ETH_SV_CFG_EN 23) 1 (fset (Fld.ETH_SV_CFG_PORTS 23) 3 sC)
theorem witness_SubscriptionsTakeTheirFrames :
    (prpCheck 3 gf.prp sSub).1 = false ∧ sSub.sys.mode ≠ .boot ∧ gsubMatches sSub 3 63 gf = true ∧
    (gsub sSub 63).isNone = true ∧ outOfOrder ⟨2, 0, 0, 0⟩ { gf with st := 1 } = true ∧
    outOfOrder ⟨0xFFFFFFFF, 0, 0, 0⟩ { gf with st := 0 } = false ∧
    (some (⟨0, 0, 0, 0⟩ : GSub)).any (fun x => decide (x.until_ ≤ sSub.time.cnt)) = true ∧
    gpubOn (fset (Fld.ETH_GPUB_CFG_EN 15) 1 sC) 15 = true ∧ gpubOn sC 15 = false ∧
    svMatches sStream 3 23 (sv (svRate sStream 23) [⟨0, true, []⟩]) = true ∧ svMatches sC 3 23 (sv 4800 [⟨0, true, []⟩]) = false ∧
    svRate sStream 23 ≤ 4800 ∧ 4799 < svRate sStream 23 ∧
    (svChannels (setChan 23 { ch with svMiss := 16 } (fset (Fld.FLT_CH_CFG_SRC 23) 1 (fset (Fld.FLT_SV_STREAM 23) 5 sC))) 5).filter
      (fun n => decide (16 ≤ (chan (setChan 23 { ch with svMiss := 16 } sC) n).svMiss)) = [23] ∧ svChannels sC 5 = [] := by
  decide +kernel
theorem test_sv_enters : after (.svFrameReceive 3 (sv 4800 [⟨0, true, []⟩])) sStream (fun t =>
    ((svSamples t 23).length, fget t (Fld.ETH_SV_STAT_STATE 23))) = some (1, 1) := by decide +kernel

/-! ### The redundant pair -/

/-- A unit of a pair, with baton `b`, role `q` and the twin silent since reset, 10 s after reset. -/
def sPair (q : Role) (unitB : Bool) (b : Baton) : State :=
  let s := hm .run q State.reset
  let s := regSet Reg.BTN_HEALTH 0 s
  { s with time := { TimeBase.reset with cnt := 5000000000 }, btn := b,
           sys := { s.sys with comm := { s.sys.comm with pair := true, unitB := unitB } } }
def bt : Baton := Baton.reset
def hb0 : Heartbeat := beat 3 0 0 0
def hoChecks (o : Origin) (s : State) : Option Status :=
  firstFail [(roleAtLeast .engineer o, Status.notPermitted), (s.sys.role != .standby, .notHolder),
    (s.sys.mode != .boot && s.sys.mode != .lockout, .illegalInMode), (s.btn.ho.isNone, .busy),
    (inPair s && twinMayTake s, .checkFail)]
def ho0 (a : Bool) : Handover := ⟨7, 6000000000, 1, Chg.handover, true, a⟩
theorem witness_BatonIsClaimedFencedAndHandedOver :
    silent (sPair .standby false bt) = true ∧ mayClaim (sPair .standby false bt) ∧ mayClaim (sPair .standby true bt) ∧
    nextEpoch (sPair .standby false bt) ≤ 0xFFFFFFFF ∧
    0xFFFFFFFF < nextEpoch (sPair .standby false { bt with mramEpoch := 0xFFFFFFFF }) ∧ ¬mayClaim (sPair .active false bt) ∧
    (let s := sPair .active false { bt with leaseEnd := some 5000000000 };
      s.sys.role = .active ∧ s.btn.leaseEnd = some 5000000000 ∧ 5000000000 ≤ s.time.cnt) ∧
    (let s := fset Fld.ESC_STATUS_RUNNING 1 (sPair .active false { bt with mayBeat := true });
      inPair s = true ∧ s.btn.mayBeat = true ∧ escRunning s = true) ∧
    inPair (sPair .active false bt) = true ∧ hb0.crcOk = true ∧ bt.twin.map (fun h => h.seq) ≠ some hb0.seq ∧
    hb0.role = .active ∧ hb0.hoOp ≠ .offer ∧ bt.mramEpoch.toNat < hb0.epoch.toNat ∧
    ({ bt with mramEpoch := 5 } : Baton).mramEpoch = hb0.epoch ∧ (sPair .active true bt).sys.comm.unitB = true ∧
    { hb0 with hoOp := .offer }.hoOp = .offer ∧ regGet (sPair .standby false bt) Reg.BTN_HEALTH = 0 ∧
    { hb0 with mode := .lockout }.mode = .lockout ∧ (sPair .standby false bt).sys.mode = .run ∧ hb0.mode = .run ∧
    { hb0 with hoOp := .accept }.hoOp = .accept ∧
    hoChecks (.hmp .engineer 1) (sPair .active false { bt with twin := some { hb0 with health := 0 }, twinAt := 5000000000 }) = none ∧
    hoChecks (.hmp .engineer 1) (sPair .active false bt) = some .checkFail ∧
    hoChecks (.hmp .engineer 1) (sPair .standby false bt) = some .notHolder ∧ bt.ho = none ∧
    { bt with ho := some (ho0 true) }.ho = some (ho0 true) ∧ (ho0 true).accepted = true ∧ (ho0 false).accepted = false ∧
    (ho0 true).cause = Chg.handover ∧ 0 < periodTicks (sPair .active false bt) := by unfold mayClaim; decide +kernel
theorem test_lease : after .leaseExpiry (sPair .active false { bt with leaseEnd := some 5000000000 })
    (fun t => (t.btn.commit.map (fun c => c.role), t.btn.leaseEnd, t.sys.role)) = some (some .standby, none, .active) := by
  decide +kernel
theorem test_claim : after .silenceTimeout (sPair .standby false { bt with mramEpoch := 4 })
    (fun t => t.btn.commit.map (fun c => (c.role, c.epoch))) = some (some (.active, 5)) := by decide +kernel
/-- What a heartbeat meets: a wrong CRC, one heard again, a new one; an OFFER above the known epochs and at the last. -/
theorem witness_heartbeats :
    { hb0 with crcOk := false }.crcOk = false ∧ ({ bt with twin := some hb0 } : Baton).twin.map (fun h => h.seq) = some hb0.seq ∧
    bt.twin = none ∧ fbit (fset Fld.BTN_TWIN_SEEN 1 sC) Fld.BTN_TWIN_SEEN = true ∧
    (let b := { bt with stOwn := 1, stSeq := 7 }; let h := beat 3 0 7 2; h.stSeq = b.stSeq % 65536 ∧ h.stRes ≠ 0 ∧ b.stTwin = 0 ∧ b.stOwn ≠ 0) ∧
    { bt with follow := some (.lockout, 3) }.follow = some (.lockout, 3) ∧ bt.commit = none ∧
    max bt.mramEpoch.toNat bt.seenEpoch.toNat < hb0.epoch.toNat ∧
    max bt.mramEpoch.toNat { bt with seenEpoch := 0xFFFFFFFF }.seenEpoch.toNat = 0xFFFFFFFF ∧
    { ho0 false with cause := Chg.selftest }.cause ≠ Chg.handover ∧
    hoChecks (.hmp .engineer 1) (sPair .active false { bt with ho := some (ho0 true) }) = some .busy := by decide +kernel
def rw0 : RelayWord := ⟨0, 9, blockWord true⟩
/-- A STANDBY unit of chain 0 with the holder's record of the cycle before, and a lit port. -/
def sRelay : State :=
  withPort pt (sPair .standby true { bt with restIn := some (.rest true 0xFFFFFFFF 0 false [] [] [rw0]) })
theorem witness_PairTestsMirrorsAndJoins :
    bt.stRun = false ∧ { bt with stRun := true }.stRun = true ∧
    (some (beat 0 0 32767 0)).any (fun h => decide (h.stSeq ≠ 0 ∧ (h.stSeq + 65536 - 0) % 65536 < 32768)) = true ∧
    (some (beat 0 0 32768 0)).any (fun h => decide (h.stSeq ≠ 0 ∧ (h.stSeq + 65536 - 0) % 65536 < 32768)) = false ∧
    fget sC Fld.BTN_CFG_DIS_N ≤ { bt with disRun := fget sC Fld.BTN_CFG_DIS_N }.disRun ∧ 0 < fget sC Fld.BTN_CFG_DIS_N ∧
    { bt with stOwn := 2 }.stOwn ≠ 0 ∧ bt.stTwin = 0 ∧
    fbit (fset Fld.MIR_STATUS_LANE1 1 sC) (laneField 1) = true ∧ fbit sC (laneField 0) = false ∧
    (fget sC Fld.MIR_CTRL_LANE_EN).testBit 1 = true ∧
    (let s := sPair .standby false { bt with twin := some { hb0 with mode := .ready } };
      s.sys.role = .standby ∧ s.btn.twin = some { hb0 with mode := .ready } ∧ hb0.role = .active ∧ Mode.ready ≠ s.sys.mode) ∧
    { bt with pbDiffers := true }.pbDiffers = true ∧
    (some hb0).any (fun h => h.role == .active && decide ((sPair .standby false bt).sys.commAt ≤ 0)) = true ∧
    lanesUp (fset Fld.MIR_STATUS_LANE0 1 sC) ≠ 0 ∧ lanesUp sC = 0 ∧ min (65536 : Nat) 65535 = 65535 ∧ (1200 : Nat) < 1201 ∧
    chainOf sRelay 0 = some ch0 ∧ [rw0].filter (fun r => r.chain == 0) ≠ [] ∧ (0xFFFFFFFF : Word) + 1 = cycleNo sRelay ∧
    (port sRelay ch0.portE).lit = true ∧ (port sRelay ch0.portE).withheld = false ∧ sRelay.sys.role = .standby ∧
    pt.swept = false ∧ pt.wantSweep = false ∧ portChain sRelay 127 = none ∧
    portChain (sPair .active false bt) 0 = none ∧ portChain { sRelay with sys := { sRelay.sys with role := .active } } 0 =
      some (ch0, true) := by decide +kernel
/-- Unit B in STANDBY with a lane: port 0 of chain 0 is `x` in state `st`, folded at `fold`. -/
def sTwin (x : Port) (st fold : Nat) : State :=
  fset Fld.MIR_STATUS_LANE0 1 (fset (Fld.RING_PSTAT_FOLD_POS 0) fold (fset (Fld.RING_PSTAT_STATE 0) st (setPort 0 { x with lit := true } sRelay)))
theorem witness_twin_messages :
    inPair (sTwin pt 3 0) = true ∧ lanesUp (sTwin pt 3 0) ≠ 0 ∧
    (let s := hm .ready .standby (sTwin { pt with wantSweep := true } 3 0);
      (port s 0).wantSweep = true ∧ (port s 0).swept = false ∧ maySweep s = true ∧ joiningTwin s = false ∧ portChain s 0 ≠ none ∧
        (port s 0).sweep = none ∧ peerPort s 0 = none) ∧
    portChain (sTwin { pt with heal := some (.echo 8) } 5 9) 0 = some (ch0, true) ∧
    (port (sTwin { pt with heal := some (.echo 8) } 5 9) 0).heal = some (.echo 8) ∧
    fget (sTwin { pt with heal := some (.echo 8) } 5 9) (Fld.RING_PSTAT_FOLD_POS 0) + 1 = ch0.n ∧
    fget (sTwin { pt with heal := some (.echo 8) } 5 0xFF) (Fld.RING_PSTAT_FOLD_POS 0) + 1 ≠ ch0.n ∧
    mayHeal (sTwin pt 4 9) 0 = true ∧ mayHeal (sTwin pt 3 0) 0 = false ∧ (sTwin pt 4 9).sys.role = .standby ∧
    portState (sTwin pt 4 9) 0 = PState.folded ∧ portState (sTwin pt 5 9) 0 = PState.healing ∧
    healOwner (sTwin pt 3 0) 0 = none ∧ healOwner (sTwin { pt with heal := some (.follow 8) } 5 9) 0 = some 0 ∧
    firstFail [(roleAtLeast .engineer (.hmp .engineer 1), Status.notPermitted), (sC.sys.mode != .boot, .illegalInMode), (!bt.stRun, .busy)] = none ∧
    firstFail [(roleAtLeast .engineer (.hmp .operator 1), Status.notPermitted), (sC.sys.mode != .boot, .illegalInMode), (!bt.stRun, .busy)] =
      some .notPermitted := by decide +kernel
theorem test_lane_loss : after (.mirrorLaneLoss 1) (fset Fld.MIR_STATUS_LANE1 1 (fset Fld.MIR_STATUS_LANE0 1 sC))
    (fun t => (fired 40 0 t, fired 41 0 t, lanesUp t)) = some (true, false, 1) := by decide +kernel

/-! ### The scheduler, register writes and statistics -/

def sTim : State := fset (Fld.SCH_TIM_CFG_EN 15) 1 sC
def rwChecks (o : Origin) : Option Status :=
  firstFail [(roleOrCore .operator o, Status.notPermitted), (sC.sys.mode != .boot, .illegalInMode)]
theorem witness_TimersTraceAndRegisterWrites :
    fbit sTim (Fld.SCH_TIM_CFG_EN 15) = true ∧ fbit sC (Fld.SCH_TIM_CFG_EN 0) = false ∧ sTim.sys.mode ≠ .boot ∧
    (usableEntry sTim (srcClass sTim 8 false)).isSome = true ∧
    sTim.sch.held.any (fun h => h.src == 8 && h.inst == 15) = false ∧
    fbit (fset Fld.SCH_TRC_CTRL_EN 1 sC) Fld.SCH_TRC_CTRL_EN = true ∧ fbit sC Fld.SCH_TRC_CTRL_STOP = false ∧
    fbit (fset Fld.SCH_TRC_CTRL_STOP 1 sC) Fld.SCH_TRC_CTRL_STOP = true ∧ { sC.sch with trcFull := true }.trcFull = true ∧
    firstFail [(roleAtLeast .engineer (.hmp .engineer 1), Status.notPermitted), (sC.sys.mode != .boot, .illegalInMode)] = none ∧
    firstFail [(roleAtLeast .engineer (.hmp .operator 1), Status.notPermitted), (sC.sys.mode != .boot, .illegalInMode)] = some .notPermitted ∧
    nextSlot sC 3 = none ∧ (curSlot (setCur 3 (some (ev 1 5)) sC) 3).isSome = true ∧
    (regDesc 0x40000001).isNone = true ∧ (regDesc 0x4012FFFC).isNone = true ∧
    (regDesc Reg.ESC_CYCLE).map (fun d => (d.rw, d.w1c, d.wo)) = some (0, 0, 0) ∧
    isTrigger Reg.ESC_CHECK = true ∧ isTiming Reg.ESC_CHECK = false ∧ isTrigger Reg.HKA_MASK = false ∧
    blockOf (Reg.WHL_CFG 0) = 0x04 ∧ blockOf Reg.HKA_MASK = 0x07 ∧ blockOf Reg.RING_HEAL_HOLD = 0x03 ∧
    firstFail (plainChecks (.eventCore 3) Reg.HKA_MASK 0xFFFFFFFF sC) = none ∧
    firstFail (plainChecks (.hmp .viewer 1) Reg.HKA_MASK 0 sC) = some .notPermitted ∧
    rwChecks (.eventCore 0) = none ∧ rwChecks (.hmp .viewer 1) = some .notPermitted ∧
    firstFail [(roleOrCore .operator (.eventCore 0), Status.notPermitted), (sC.sys.mode != .boot, .illegalInMode),
      (!(0x0000FFFF : Word).getLsbD 15 || decide (2 ≤ fieldGet (0x0000FFFF : Word) 10 0 ∧
        fieldGet (0x0000FFFF : Word) 10 0 ≤ sC.sys.prog.upb.getD (fieldGet (0x0000FFFF : Word) 14 11) 0), .badParam)] = some .badParam ∧
    (let s := { sC with sys := { sC.sys with prog := { sC.sys.prog with upb := List.replicate 16 2 } } };
      let v : Word := 0x0000F802;
      firstFail [(roleOrCore .operator (.eventCore 0), Status.notPermitted), (s.sys.mode != .boot, .illegalInMode),
      (!v.getLsbD 15 || decide (2 ≤ fieldGet v 10 0 ∧ fieldGet v 10 0 ≤ s.sys.prog.upb.getD (fieldGet v 14 11) 0), .badParam)] = none) ∧
    (nowSplit sC).sec % 10 = 0 ∧ sC.sys.statSec = none := by decide +kernel
theorem test_one_shot : after (.schTimerExpiry 15) (fset (Fld.SCH_TIM_CFG_ONESHOT 15) 1 sTim)
    (fun t => (fbit t (Fld.SCH_TIM_CFG_EN 15), t.sch.ready.map (fun e => (e.src, e.inst)))) = some (false, [(8, 15)]) := by
  decide +kernel
theorem test_unmapped_write : after (.registerWrite (.hmp .engineer 1) 0x4012FFFC 0) sC (fun t => t.fco.log.map (fun e => e.source)) =
    some [30] := by decide +kernel

/-! ### The whole machine -/

theorem witness_StepRunsTheFrontCommand :
    { sC with pending := [.cutRun] }.pending = .cutRun :: [] ∧ sC.pending = [] ∧ sC.time.cnt + 1 < 2 ^ 64 := by decide +kernel
theorem test_idle_step : (match step State.reset with | .next t => some t.time.cnt | _ => none) = some 1 := by decide +kernel
theorem witness_EveryStepKeepsTheCanonicalForm : Canonical State.reset ∧ Canonical sCfg := by
  unfold Canonical; decide +kernel
theorem witness_InstructionWordsDecodeToTheirInstruction :
    Fci.encode (.addi 7 31 31 0xFFFF) = some (7, 0x07FFFFFF) ∧ Fci.decode 7 0x07FFFFFF = some (.addi 7 31 31 0xFFFF) := by decide
end Sys2Proof.Machine.Tests
end

section
namespace Sys2Proof.Machine

/-! # The state after reset -/

theorem canonical_reset : Canonical State.reset := by
  refine ⟨?_, ?_, ?_, ?_⟩ <;> rfl

theorem outputsOff_reset : outputsOff State.reset := by
  intro o ho
  obtain rfl : o = OutState.reset := List.eq_of_mem_replicate ho
  exact ⟨rfl, fun _ => ⟨rfl, rfl⟩⟩

theorem resetValues_hold : ∀ e ∈ resetValues, (regGet State.reset e.1).toNat = e.2 := by decide

theorem memRead_reset (a : Nat) : memRead State.reset a = 0 := rfl

/-- Settles O58: what waits, the logs and the modes are read off the reset state; the outputs, the register values and
memory are its own lemmas. -/
theorem resetIsAsTheTablesSay : Obligations.ResetIsAsTheTablesSay :=
  ⟨canonical_reset, rfl, rfl, rfl, rfl, rfl, rfl, rfl, rfl, outputsOff_reset, rfl, resetValues_hold, memRead_reset⟩

end Sys2Proof.Machine
end

section
namespace Sys2Proof.Machine

/-! # Every command keeps the canonical form

One lemma per function of the model that answers a state: what it answers keeps the queue and the canonical form
(`Keeps`) if the state it was given did. A function built of others is kept by the lemmas of its parts, so each proof
follows the function's own text: a record update of other fields is `Keeps.update`, a condition is `Keeps.ite`, a loop
is `Keeps.foldl`, and a function that takes an action asks that the action keeps too. Only the few functions that
write memory, the hidden buffers or the register store need the laws of `Memory.wf` and `Store.wf`. -/

/-- The state that an effect leaves, with an exception or without. -/
def Eff.state : Eff → State
  | .ok s => s
  | .exc _ _ _ s => s

variable {s t u : State}

/-! ### The relation itself -/

theorem Keeps.refl (s : State) : Keeps s s := ⟨rfl, id⟩

theorem Keeps.fst_of_eq {β : Type} {p : State × β} {b : β} (hp : p = (u, b)) (h : Keeps s p.1) : Keeps s u := by
  subst hp; exact h

theorem Keeps.snd_of_eq {β : Type} {p : β × State} {b : β} (hp : p = (b, u)) (h : Keeps s p.2) : Keeps s u := by
  subst hp; exact h

theorem Keeps.ite {c : Prop} [Decidable c] (h : Keeps s t) (h' : Keeps s u) : Keeps s (if c then t else u) := by
  split
  · exact h
  · exact h'

theorem Keeps.ite_fst {β : Type} {c : Prop} [Decidable c] {p q : State × β} (h : Keeps s p.1) (h' : Keeps s q.1) :
    Keeps s (if c then p else q).1 := by
  split
  · exact h
  · exact h'

theorem Keeps.ite_snd {β : Type} {c : Prop} [Decidable c] {p q : β × State} (h : Keeps s p.2) (h' : Keeps s q.2) :
    Keeps s (if c then p else q).2 := by
  split
  · exact h
  · exact h'

theorem Keeps.foldl {β : Type} {f : State → β → State} {l : List β} (h : Keeps s t)
    (hf : ∀ u x, Keeps s u → Keeps s (f u x)) : Keeps s (l.foldl f t) := by
  induction l generalizing t with
  | nil => exact h
  | cons x l ih => exact ih (hf t x h)

theorem Keeps.foldl_snd {β γ : Type} {f : γ × State → β → γ × State} {l : List β} {p : γ × State} (h : Keeps s p.2)
    (hf : ∀ q x, Keeps s q.2 → Keeps s (f q x).2) : Keeps s (l.foldl f p).2 := by
  induction l generalizing p with
  | nil => exact h
  | cons x l ih => exact ih (hf p x h)

/-- Only memory, its buffers, the registers and the queue count. -/
theorem Keeps.update (h : Keeps s t)
    {fc pub latches bank staged sys time esc sch fco saf btn cores eng recent cells wheels ports svc loops meas front
      chr eth fio} :
    Keeps s ⟨t.pending, fc, t.regs, pub, latches, bank, staged, t.mem, t.hidden, t.userOut, sys, time, esc, sch, fco,
      saf, btn, cores, eng, recent, cells, wheels, ports, svc, loops, meas, front, chr, eth, fio⟩ := h

theorem Keeps.ite_snd_snd {β γ : Type} {c : Prop} [Decidable c] {p q : β × γ × State} (h : Keeps s p.2.2)
    (h' : Keeps s q.2.2) : Keeps s (if c then p else q).2.2 := by
  split
  · exact h
  · exact h'

theorem Keeps.ite_eff {c : Prop} [Decidable c] {p q : Eff} (h : Keeps s p.state) (h' : Keeps s q.state) :
    Keeps s (if c then p else q).state := by
  split
  · exact h
  · exact h'

theorem Keeps.snd_snd_of_eq {β γ : Type} {p : β × γ × State} {b : β} {c : γ} (hp : p = (b, c, u))
    (h : Keeps s p.2.2) : Keeps s u := by
  subst hp; exact h

/-! ### Registers, memory and occurrences (Machine/Ops) -/

theorem Keeps.regSet {a v} (h : Keeps s t) : Keeps s (regSet a v t) :=
  ⟨h.1, fun hs => have ⟨hm, hh, hu, hr⟩ := h.2 hs; ⟨hm, hh, hu, Store.wf_set _ _ _ _ hr⟩⟩

theorem Keeps.fset {f v} (h : Keeps s t) : Keeps s (fset f v t) := h.regSet

theorem Keeps.bumpBy {n a} (h : Keeps s t) : Keeps s (bumpBy n a t) := h.regSet

theorem Keeps.bump {a} (h : Keeps s t) : Keeps s (bump a t) := h.bumpBy

theorem Keeps.setSplitRegs {a0 t'} (h : Keeps s t) : Keeps s (setSplitRegs a0 t' t) := h.regSet.regSet.regSet

theorem Keeps.drawFree (h : Keeps s t) : Keeps s (drawFree t).2 := h.update

theorem Keeps.memWriteBytes {a bs} (h : Keeps s t) : Keeps s (memWriteBytes a bs t) :=
  ⟨h.1, fun hs => have ⟨hm, hh, hu, hr⟩ := h.2 hs; ⟨Memory.wf_writeList _ _ _ hm, hh, hu, hr⟩⟩

theorem Keeps.memWriteWord {a w} (h : Keeps s t) : Keeps s (memWriteWord a w t) := h.memWriteBytes

theorem Keeps.hideBytes {a bs} (h : Keeps s t) : Keeps s (hideBytes a bs t) :=
  ⟨h.1, fun hs => have ⟨hm, hh, hu, hr⟩ := h.2 hs; ⟨hm, Memory.wf_writeList _ _ _ hh, hu, hr⟩⟩

theorem Keeps.hideWords {a ws} (h : Keeps s t) : Keeps s (hideWords a ws t) := h.hideBytes

theorem Keeps.publish {a n} (h : Keeps s t) : Keeps s (publish a n t) :=
  ⟨h.1, fun hs => have ⟨hm, hh, hu, hr⟩ := h.2 hs; ⟨Memory.wf_copyRange _ _ _ _ hh hm, hh, hu, hr⟩⟩

theorem Keeps.voidCheck (h : Keeps s t) : Keeps s (voidCheck t) := h.update

theorem Keeps.reach {t'} (h : Keeps s t) : Keeps s (reach t' t) := h.update

theorem Keeps.logRefusal {cmd block st origin session} (h : Keeps s t) :
    Keeps s (logRefusal cmd block st origin session t) :=
  h.update.bump

theorem Keeps.supersede {replaced key} (h : Keeps s t) : Keeps s (supersede replaced key t) := .ite h.update h

theorem Keeps.eccMark {key} (h : Keeps s t) : Keeps s (eccMark key t) := h.update.fset

theorem Keeps.eccStore {c i key} (h : Keeps s t) : Keeps s (eccStore c i key t) := .ite h.eccMark h.update

theorem Keeps.eccUnmark {lo hi} (h : Keeps s t) : Keeps s (eccUnmark lo hi t) := h.update

theorem Keeps.eccPass {a n} (h : Keeps s t) : Keeps s (eccPass a n t) := by
  unfold Machine.eccPass
  extract_lets lo hi
  split
  · exact h.eccUnmark
  · split
    · exact h.eccUnmark.eccMark
    · exact h.eccUnmark

theorem Keeps.putBytes {a bs} (h : Keeps s t) : Keeps s (putBytes a bs t) := h.eccPass.memWriteBytes

theorem Keeps.putWord {a w} (h : Keeps s t) : Keeps s (putWord a w t) := h.putBytes

theorem Keeps.traceRecord {lo hi} (h : Keeps s t) : Keeps s (traceRecord lo hi t) := by
  unfold Machine.traceRecord
  split
  · exact h
  · split
    · exact h.fset.fset
    · extract_lets w a s1 s2 s3 _ s4
      have hs1 : Keeps s s1 := .ite h.fset h
      have hs2 : Keeps s s2 := hs1.putBytes
      have hs3 : Keeps s s3 := hs2.fset
      have hs4 : Keeps s s4 := hs3.update
      exact .ite (.ite hs4.fset hs4) hs3

theorem Keeps.traceEvent {reason cls core src flow} (h : Keeps s t) :
    Keeps s (traceEvent reason cls core src flow t) :=
  h.traceRecord

theorem Keeps.refusalRing {e} (h : Keeps s t) : Keeps s (refusalRing e t) :=
  .ite (.update (.fset (.putBytes (.ite h.fset h)))) (.fset (.putBytes (.ite h.fset h)))

theorem Keeps.enterReady {e res} (h : Keeps s t) : Keeps s (enterReady e res t) := .ite h.update.regSet h.update

theorem Keeps.refuseEvent {e reason toRing} (h : Keeps s t) : Keeps s (refuseEvent e reason toRing t) :=
  .ite h.bump.traceEvent.refusalRing h.bump.traceEvent

theorem Keeps.enterNow {e} (h : Keeps s t) (hu : enterNow e t = some u) : Keeps s u := by
  unfold Machine.enterNow at hu
  split at hu
  · obtain rfl := Option.some.inj hu
    exact h.enterReady
  · split at hu
    · exact absurd hu nofun
    · obtain ⟨r, -, rfl⟩ := Option.map_eq_some_iff.mp hu
      exact h.update.bump.refuseEvent.enterReady

theorem Keeps.arriveCore {e} (h : Keeps s t) : Keeps s (arriveCore e t).1 := by
  unfold Machine.arriveCore
  split
  · exact h
  · split
    · extract_lets m s1
      have hs1 : Keeps s s1 := h.bump
      split
      next hu =>
        split at hu
        · exact hs1.update.enterNow hu
        · exact absurd hu nofun
      next => exact hs1.update
    · split
      next hu => exact h.enterNow hu
      next => exact .ite_fst h.update.bump.traceEvent h.refuseEvent

theorem Keeps.assertFaultOut (h : Keeps s t) : Keeps s (assertFaultOut t) := h.fset.fset

theorem Keeps.noteLatch {cls} (h : Keeps s t) : Keeps s (noteLatch cls t) := .ite h h.update

theorem Keeps.latchOccurrence {d} (h : Keeps s t) : Keeps s (latchOccurrence d t) := by
  unfold Machine.latchOccurrence
  extract_lets cls st s1 s2 s3 valid rank held out fills t1 cap1 s4 _ s5 full e log _ s6 s7
  have hs1 : Keeps s s1 := .ite h h.noteLatch
  have hs2 : Keeps s s2 := hs1.regSet
  have hs3 : Keeps s s3 := hs2.bump
  have hs4 : Keeps s s4 := .ite hs3.bump hs3
  have hs5 : Keeps s s5 := .ite hs4.update.regSet.regSet.setSplitRegs hs4
  have hs6 : Keeps s s6 := hs5.update
  have hs7 : Keeps s s7 := hs6.fset
  exact .ite hs7.fset hs7

theorem Keeps.safetyCause {code} (h : Keeps s t) : Keeps s (safetyCause code t) := h.update

theorem Keeps.startSelftest {seq cmd} (h : Keeps s t) : Keeps s (startSelftest seq cmd t) := h.update

theorem Keeps.startHandover {cause} (h : Keeps s t) : Keeps s (startHandover cause t) := h.update.fset

theorem Keeps.reactClassAB {src cls} (h : Keeps s t) : Keeps s (reactClassAB src cls t) := by
  unfold Machine.reactClassAB
  extract_lets s1 passing
  have hs1 : Keeps s s1 := h.assertFaultOut
  split
  · exact hs1
  · split
    · exact .ite hs1 hs1.safetyCause
    · split
      · exact hs1.safetyCause
      · exact .ite hs1.safetyCause (.ite hs1 hs1.startHandover)
      · exact hs1.fset

theorem Keeps.occurOnce {d} (h : Keeps s t) : Keeps s (occurOnce d t).1 :=
  .ite_fst h.latchOccurrence.reactClassAB h.latchOccurrence.arriveCore

theorem Keeps.setRaised {src inst b} (h : Keeps s t) : Keeps s (setRaised src inst b t) := h.update

theorem Keeps.noteC0Held (h : Keeps s t) : Keeps s (noteC0Held t) := .ite h h.fset.setRaised.occurOnce

theorem Keeps.occur {d} (h : Keeps s t) : Keeps s (occur d t) := by
  unfold Machine.occur
  split
  next s1 _ hp =>
    have hs1 : Keeps s s1 := .fst_of_eq hp h.occurOnce
    exact .ite hs1.noteC0Held hs1

theorem Keeps.arrive {e} (h : Keeps s t) : Keeps s (arrive e t).1 := by
  unfold Machine.arrive
  split
  next s1 _ hp =>
    have hs1 : Keeps s s1 := .fst_of_eq hp h.arriveCore
    exact .ite_fst hs1.noteC0Held hs1

theorem Keeps.post {e} (h : Keeps s t) : Keeps s (post e t) := h.arrive

theorem Keeps.raiseCond {src inst master access} (h : Keeps s t) : Keeps s (raiseCond src inst master access t) :=
  .ite h.setRaised h.setRaised.occur

theorem Keeps.clearCond {src inst} (h : Keeps s t) : Keeps s (clearCond src inst t) := h.setRaised

theorem Keeps.archiveAdd {x} (h : Keeps s t) : Keeps s (archiveAdd x t) := h.update

theorem Keeps.condIs {b src inst master} (h : Keeps s t) : Keeps s (condIs b src inst master t) :=
  .ite (.ite h h.raiseCond) h.clearCond

/-! ### Fault collection (Machine/Fault) -/

theorem Keeps.refuseWrite {a st o} (h : Keeps s t) : Keeps s (refuseWrite a st o t).1 := h.logRefusal

theorem Keeps.checkWrite {a o checks act} (h : Keeps s t) (hact : ∀ u, Keeps s u → Keeps s (act u)) :
    Keeps s (checkWrite a o checks act t).1 := by
  unfold Machine.checkWrite
  split
  · exact h.refuseWrite
  · exact hact _ h

theorem Keeps.fcoStatusClear {o n val} (h : Keeps s t) : Keeps s (fcoStatusClear o n val t).1 :=
  .checkWrite h (fun _ h1 => h1.regSet)

theorem Keeps.fcoCaptureRelease {o} (h : Keeps s t) : Keeps s (fcoCaptureRelease o t).1 :=
  .checkWrite h (fun _ h1 => h1.fset)

theorem Keeps.fcoClassWrite {o n val} (h : Keeps s t) : Keeps s (fcoClassWrite o n val t).1 :=
  .checkWrite h (fun _ h1 => h1.regSet)

theorem Keeps.fcoInjectGo {o val} (h : Keeps s t) : Keeps s (fcoInjectGo o val t).1 :=
  .fset (.checkWrite h (fun _ h1 => h1.update.regSet.fset))

theorem Keeps.fcoInjectCancel {o} (h : Keeps s t) : Keeps s (fcoInjectCancel o t).1 :=
  .checkWrite h (fun _ h1 => .ite h1.fset h1)

theorem Keeps.takeInjection {c i} (h : Keeps s t) : Keeps s (takeInjection c i t).2 := .ite_snd h.fset h

theorem Keeps.occurInj {inj src addr master access} (h : Keeps s t) :
    Keeps s (occurInj inj src addr master access t) :=
  h.occur

theorem Keeps.crossLink {i} (h : Keeps s t) : Keeps s (crossLink i t) := by
  unfold Machine.crossLink
  split
  next _ s1 hp =>
    have hs1 : Keeps s s1 := .snd_of_eq hp h.takeInjection
    exact .ite hs1.occurInj hs1

theorem Keeps.eccLoad {key src addr master access} (h : Keeps s t) :
    Keeps s (eccLoad key src addr master access t).2 :=
  .ite_snd h h.occur

theorem Keeps.swFaultRaise {o} (h : Keeps s t) : Keeps s (swFaultRaise o t).1 :=
  .checkWrite h (fun _ h1 => .ite h1 h1.raiseCond)

theorem Keeps.swFaultClear {o} (h : Keeps s t) : Keeps s (swFaultClear o t).1 :=
  .checkWrite h (fun _ h1 => h1.clearCond)

theorem Keeps.settleFaultOut (h : Keeps s t) : Keeps s (settleFaultOut t) := h.fset

theorem Keeps.fcoFoutWrite {o val} (h : Keeps s t) : Keeps s (fcoFoutWrite o val t).1 :=
  .checkWrite h (fun _ h1 => h1.fset.fset.settleFaultOut)

theorem Keeps.faultOutTminExpiry (h : Keeps s t) : Keeps s (faultOutTminExpiry t) := .ite h.fset.settleFaultOut h

/-! ### HMP requests (Machine/Hmp) -/

theorem Keeps.hmpAnswer {session seq st payload} (h : Keeps s t) : Keeps s (hmpAnswer session seq st payload t) :=
  h.update

theorem Keeps.closeSessions {p} (h : Keeps s t) : Keeps s (closeSessions p t) := h.update

theorem Keeps.authFail {session seq src cmd} (h : Keeps s t) : Keeps s (authFail session seq src cmd t) :=
  .ite h.logRefusal.occur.update.update.closeSessions h.logRefusal.occur.update

theorem Keeps.acceptSeq {n seq} (h : Keeps s t) : Keeps s (acceptSeq n seq t) := h.update

theorem Keeps.hmpRefuse {r cmd st} (h : Keeps s t) : Keeps s (hmpRefuse r cmd st t) := h.logRefusal.hmpAnswer

theorem Keeps.hmpRun {r k body} (h : Keeps s t) (hbody : ∀ x u, Keeps s u → Keeps s (body x u).1) :
    Keeps s (hmpRun r k body t) := by
  unfold Machine.hmpRun
  split
  · exact h
  · split
    · exact h.authFail
    · refine .ite h.authFail (.ite h ?_)
      split
      · split
        · exact h.update
        · exact h
      · extract_lets s1
        have hs1 : Keeps s s1 := h.acceptSeq
        split
        · exact hs1.hmpRefuse
        · have hb := fun x => hbody x s1 hs1
          split
          next hp => exact .fst_of_eq hp (hb _)
          next hp => exact .hmpAnswer (.fst_of_eq hp (hb _))
          next hp => exact .hmpRefuse (.fst_of_eq hp (hb _))

theorem Keeps.mailboxAnswer {mb st payload} (h : Keeps s t) : Keeps s (mailboxAnswer mb st payload t) := by
  unfold Machine.mailboxAnswer
  split
  · exact h
  · exact h.update.hmpAnswer

/-! ### Scheduler and events (Machine/Sched) -/

theorem Keeps.setNext {c e} (h : Keeps s t) : Keeps s (setNext c e t) := h.update

theorem Keeps.setCur {c e} (h : Keeps s t) : Keeps s (setCur c e t) := h.update

theorem Keeps.place {c reason e} (h : Keeps s t) : Keeps s (place c reason e t) := h.update.setNext.bump.traceEvent

theorem Keeps.dispatch {c} (h : Keeps s t) : Keeps s (dispatch c t) := by
  unfold Machine.dispatch
  split
  · exact h
  · split
    · exact h
    · split
      · exact h.place
      · split
        · exact h
        · split
          · exact h
          · split
            · exact h
            · exact h.update.bump.place

theorem Keeps.settleC0Held (h : Keeps s t) : Keeps s (settleC0Held t) := .ite h h.fset.clearCond

theorem Keeps.heldEntry (h : Keeps s t) : Keeps s (heldEntry t).1 := by
  unfold Machine.heldEntry
  split
  · exact h
  · split
    · exact h
    · exact h.update.enterReady.settleC0Held

theorem Keeps.schTimerExpiry {t'} (h : Keeps s t) : Keeps s (schTimerExpiry t' t) :=
  .ite h (.post (.ite h.bump.fset h.bump))

theorem Keeps.schTraceMark (h : Keeps s t) : Keeps s (schTraceMark t) := h.traceRecord

theorem Keeps.schTrcEnable {o val} (h : Keeps s t) : Keeps s (schTrcEnable o val t).1 :=
  .checkWrite h (fun _ h1 => .regSet (.ite h1.update.fset.regSet h1))

theorem Keeps.eventWatchdogExpiry {c next} (h : Keeps s t) : Keeps s (eventWatchdogExpiry c next t) := by
  unfold Machine.eventWatchdogExpiry
  split
  · exact h
  · exact h.occur

theorem Keeps.completeEvent {c st} (h : Keeps s t) : Keeps s (completeEvent c st t) := by
  unfold Machine.completeEvent
  split
  · exact h
  · extract_lets s1 s2
    have hs1 : Keeps s s1 := h.setCur
    have hs2 : Keeps s s2 := .ite hs1 hs1.bump
    split
    · exact .ite hs2.mailboxAnswer hs2
    · exact hs2

theorem Keeps.schedReset (h : Keeps s t) : Keeps s (schedReset t) :=
  .settleC0Held (.update (.foldl h fun _ _ h1 => h1.fset))

/-! ### The clock (Machine/Clock) -/

theorem Keeps.commitAdj {rate step set} (h : Keeps s t) : Keeps s (commitAdj rate step set t) := h.update.fset.bump

theorem Keeps.timAdjCommit {o val} (h : Keeps s t) : Keeps s (timAdjCommit o val t).1 :=
  .fset (.checkWrite h (fun _ h1 => h1.regSet.commitAdj))

theorem Keeps.timEpochStart (h : Keeps s t) : Keeps s (timEpochStart t) := by
  unfold Machine.timEpochStart
  split
  · exact h
  · exact h.update.fset

theorem Keeps.refState (h : Keeps s t) : Keeps s (refState t) :=
  .ite h.fset.fset.clearCond (.ite h h.fset.fset.bump.raiseCond)

theorem Keeps.selectRef (h : Keeps s t) : Keeps s (selectRef t) := .ite h.refState h.fset.fset.clearCond

theorem Keeps.ref10Loss (h : Keeps s t) : Keeps s (ref10Loss t) := .ite h.update.refState h.update

theorem Keeps.ref10Restore (h : Keeps s t) : Keeps s (ref10Restore t) := .ite h.update.refState h.update

theorem Keeps.ppsOutPulse (h : Keeps s t) : Keeps s (ppsOutPulse t) := .ite h h.update

theorem Keeps.ppsInEdge {falling} (h : Keeps s t) : Keeps s (ppsInEdge falling t) :=
  .ite h (.ite h.bump h.setSplitRegs)

theorem Keeps.setServo {n} (h : Keeps s t) : Keeps s (setServo n t) := .condIs (.fset (.fset (.ite h.update h)))

theorem Keeps.servoCommit {rate step} (h : Keeps s t) : Keeps s (servoCommit rate step t) :=
  .ite h.fset h.commitAdj.fset

theorem Keeps.servoCorrect {offset rate} (h : Keeps s t) : Keeps s (servoCorrect offset rate t) :=
  .ite h.servoCommit h.servoCommit

theorem Keeps.servoMeasurement {measured rate} (h : Keeps s t) : Keeps s (servoMeasurement measured rate t) := by
  unfold Machine.servoMeasurement
  split
  · exact h
  · extract_lets offset s1 good _ s2 trim
    have hs1 : Keeps s s1 := h.regSet
    have hs2 : Keeps s s2 := hs1.update
    split
    · exact .ite hs2.setServo.servoCorrect hs2.servoCommit
    · exact .ite hs2.setServo.servoCommit hs2.setServo.servoCorrect

theorem Keeps.servoHoldover {silence} (h : Keeps s t) : Keeps s (servoHoldover silence t) :=
  .ite h (.ite h.update.setServo.servoCommit (.ite h.setServo h))

theorem Keeps.twinTimeCompare {diff} (h : Keeps s t) : Keeps s (twinTimeCompare diff t) :=
  .ite h (.ite h.regSet.update.fset.fset.condIs (.ite h.regSet.update.fset.fset.clearCond h.regSet.update))

/-! ### What the cores share (Machine/CoreOps) -/

theorem Keeps.setCore {c k} (h : Keeps s t) : Keeps s (setCore c k t) := h.update

theorem Keeps.clearLatches {c} (h : Keeps s t) : Keeps s (clearLatches c t) := h.update

theorem Keeps.enterCore {c} (h : Keeps s t) : Keeps s (enterCore c t) := h.setCore.clearLatches

theorem Keeps.exception {c cause pc eaddr access} (h : Keeps s t) : Keeps s (exception c cause pc eaddr access t) :=
  .ite h.setCore.occur.completeEvent.enterCore h.setCore.occur.setCore

theorem Keeps.fci {c u' act} (h : Keeps s t) (hact : ∀ n u, Keeps s u → Keeps s (act n u).state) :
    Keeps s (fci c u' act t) := by
  unfold Machine.fci
  extract_lets k n
  refine .ite h (.ite h.exception ?_)
  split
  next s1 hp =>
    have hs1 : Keeps s s1 := .snd_of_eq hp h.eccLoad
    refine .ite hs1.exception (.ite hs1.exception ?_)
    have ha := hact n _ (hs1.setCore (k := (core s1 c).issue u' n) (c := c))
    split
    next he => rw [he] at ha; exact ha
    next he => rw [he] at ha; exact ha.exception

theorem Keeps.fciReg {c u' f} (h : Keeps s t) : Keeps s (fciReg c u' f t) := .fci h (fun _ _ h1 => h1.setCore)

theorem Keeps.setEngQueue {k l} (h : Keeps s t) : Keeps s (setEngQueue k l t) := h.update

theorem Keeps.wake {c} (h : Keeps s t) : Keeps s (wake c t) := .ite h.drawFree.setCore h.setCore

theorem Keeps.complete {cls desc st} (h : Keeps s t) : Keeps s (complete cls desc st t) :=
  .foldl h.eccStore.memWriteBytes fun _ _ h1 => .ite h1.setCore.wake h1

theorem Keeps.dropOp {k o} (h : Keeps s t) : Keeps s (dropOp k o t) := h.setEngQueue

theorem Keeps.finishOp {k cls o st} (h : Keeps s t) : Keeps s (finishOp k cls o st t) := h.dropOp.complete

theorem Keeps.loopResult {e desc} (h : Keeps s t) : Keeps s (loopResult e desc t) := h.putBytes

theorem Keeps.turnAway {cls idx o} (h : Keeps s t) : Keeps s (turnAway cls idx o t) :=
  .ite h.bump.loopResult.complete h.putWord.complete

theorem Keeps.seenWord {c now l w} (h : Keeps s t) : Keeps s (seenWord c now l w t).2 := by
  induction l generalizing t with
  | nil => exact h
  | cons r l ih =>
    unfold Machine.seenWord
    exact .ite_snd (.ite_snd h.drawFree (ih h.drawFree)) (ih h)

theorem Keeps.scmSeen {c now a} (h : Keeps s t) : Keeps s (scmSeen c now a t).2 := h.seenWord

theorem Keeps.noteStore {c now a bs vis} (h : Keeps s t) : Keeps s (noteStore c now a bs vis t) := h.update

theorem Keeps.engWord {o i} (h : Keeps s t) : Keeps s (engWord o i t).2 := by
  unfold Machine.engWord
  extract_lets a
  split
  next _ s1 hp =>
    have hs1 : Keeps s s1 := .snd_of_eq hp h.eccLoad
    exact .ite_snd hs1.drawFree (.ite_snd hs1 hs1.scmSeen)

theorem Keeps.engWords {o n} (h : Keeps s t) : Keeps s (engWords o n t).2 := by
  induction n with
  | zero => exact h
  | succ n ih => exact ih.engWord

/-! ### Wheels (Machine/Wheel) -/

theorem Keeps.setCell {i x} (h : Keeps s t) : Keeps s (setCell i x t) := h.update

theorem Keeps.setWheel {w x} (h : Keeps s t) : Keeps s (setWheel w x t) := h.update

theorem Keeps.startBypass {w slot} (h : Keeps s t) : Keeps s (startBypass w slot t) := h.setCell.bump

theorem Keeps.fatalBypass {w slot} (h : Keeps s t) : Keeps s (fatalBypass w slot t) := .ite h.startBypass h

theorem Keeps.bypassFail {w slot} (h : Keeps s t) : Keeps s (bypassFail w slot t) := h.setCell.bump.occur

theorem Keeps.noteReport {slot r} (h : Keeps s t) : Keeps s (noteReport slot r t) := by
  unfold Machine.noteReport
  extract_lets x a s1
  have hs1 : Keeps s s1 := h.setCell
  split
  · exact hs1
  · extract_lets s2 _
    have hs2 : Keeps s s2 := hs1.condIs
    split
    · exact hs2.fatalBypass
    · exact .ite hs2.setCell (.ite hs2.bypassFail hs2)

theorem Keeps.alarmEvent {slot port pos old new} (h : Keeps s t) : Keeps s (alarmEvent slot port pos old new t) :=
  .ite h h.post

theorem Keeps.seeReport {slot r port pos} (h : Keeps s t) : Keeps s (seeReport slot r port pos t) := by
  unfold Machine.seeReport
  extract_lets s1 s2 s3 x
  have hs1 : Keeps s s1 := .ite h.bump h
  have hs2 : Keeps s s2 := .ite hs1.bump hs1
  have hs3 : Keeps s s3 := .ite hs2.bump hs2
  exact hs3.setCell.alarmEvent

theorem Keeps.deliver {slot r arrival port pos west mirrored} (h : Keeps s t) :
    Keeps s (deliver slot r arrival port pos west mirrored t) :=
  .ite (.ite h.seeReport h.seeReport.noteReport) (.ite h.seeReport.setCell h.seeReport.setCell.noteReport)

theorem Keeps.takeLate {slot} (h : Keeps s t) : Keeps s (takeLate slot t) := by
  unfold Machine.takeLate
  split
  · exact h
  · exact h.setCell.noteReport

theorem Keeps.cellCommand {w slot o checks act} (h : Keeps s t) (hact : ∀ u, Keeps s u → Keeps s (act u)) :
    Keeps s (cellCommand w slot o checks act t).1 :=
  .fset (.fset (.checkWrite h (fun _ h1 => hact _ h1)))

theorem Keeps.whlWithdraw {o w slot} (h : Keeps s t) : Keeps s (whlWithdraw o w slot t).1 :=
  .cellCommand h (fun _ h1 => h1.setCell)

theorem Keeps.whlReturn {o w slot} (h : Keeps s t) : Keeps s (whlReturn o w slot t).1 :=
  .cellCommand h (fun _ h1 => h1.setCell)

theorem Keeps.whlBypass {o w slot} (h : Keeps s t) : Keeps s (whlBypass o w slot t).1 :=
  .cellCommand h (fun _ h1 => h1.startBypass)

theorem Keeps.bypassConfirmTimeout {slot} (h : Keeps s t) : Keeps s (bypassConfirmTimeout slot t) := by
  unfold Machine.bypassConfirmTimeout
  split
  · exact .ite h.bypassFail h
  · exact h

theorem Keeps.finishWheelOp {w o st} (h : Keeps s t) : Keeps s (finishWheelOp w o st t) := h.putBytes.finishOp

theorem Keeps.takeRef {w o} (h : Keeps s t) : Keeps s (takeRef t w o).1 := by
  unfold Machine.takeRef
  split
  next hp =>
    have hs := Keeps.snd_of_eq hp h.engWords
    exact .ite_fst hs hs

theorem Keeps.takeRefs {w l d} (h : Keeps s t) : Keeps s (takeRefs w l (t, d)).1 := by
  induction l generalizing t d with
  | nil => exact h
  | cons o l ih => exact ih h.takeRef

theorem Keeps.staleRef {w} (h : Keeps s t) : Keeps s (staleRef w t) := h.setWheel.bump.bump.fset.occur

theorem Keeps.adoptEntry {e} (h : Keeps s t) : Keeps s (adoptEntry e t) := .ite h.setCell h.setCell

theorem Keeps.adoptWheel {w} (h : Keeps s t) : Keeps s (adoptWheel w t) := by
  unfold Machine.adoptWheel
  split
  · split
    · exact h
    · split
      · exact h
      · exact .setWheel (.foldl h fun _ _ h1 => h1.adoptEntry)
  · exact h

theorem Keeps.wheelRefPoint {w} (h : Keeps s t) : Keeps s (wheelRefPoint w t) := by
  unfold Machine.wheelRefPoint
  extract_lets s1 q
  have hs1 : Keeps s s1 := h.adoptWheel
  split
  next s2 d done hp =>
    have hs2 : Keeps s s2 := .fst_of_eq hp hs1.takeRefs
    extract_lets x s3 x1 s4 x2 i c s5 s6
    have hs3 : Keeps s s3 := hs2.setWheel
    have hs4 : Keeps s s4 := by
      unfold s4
      split
      · exact hs3
      · split
        · extract_lets start s5 s6
          have hs6 : Keeps s s6 := hs3.setWheel.clearCond.fset.fset
          exact .ite (.foldl hs6 fun _ _ h1 => h1.setCell) hs6
        · exact .ite hs3.setWheel hs3.setWheel.staleRef
    have hs5 : Keeps s s5 := .ite hs4 hs4.setWheel
    have hs6 : Keeps s s6 := .foldl hs5 fun _ _ h1 => h1.finishWheelOp
    split
    · exact hs6.memWriteBytes
    · exact hs6

theorem Keeps.lateRefs {w} (h : Keeps s t) : Keeps s (lateRefs w t) := by
  unfold Machine.lateRefs
  refine .foldl h fun _ _ h1 => ?_
  split
  next s1 _ _ hp =>
    have hs1 : Keeps s s1 := .fst_of_eq hp h1.takeRef
    exact .ite hs1.finishWheelOp hs1.bump.bump.finishWheelOp

theorem Keeps.staleRefRun {w} (h : Keeps s t) : Keeps s (staleRefRun w t) := .ite h.raiseCond h

theorem Keeps.speculativeRoundStart {r} (h : Keeps s t) : Keeps s (speculativeRoundStart r t) :=
  .ite h (.foldl h.reach fun _ _ h1 => .ite h1.setWheel h1)

theorem Keeps.speculativePlanReady {w} (h : Keeps s t) :
    Keeps s (speculativePlanReady w t) := .ite h.reach.setWheel h

theorem Keeps.confirmationStart {w} (h : Keeps s t) : Keeps s (confirmationStart w t) := .ite h.reach.setWheel h

theorem Keeps.confirmationEnd {w} (h : Keeps s t) : Keeps s (confirmationEnd w t) := by
  unfold Machine.confirmationEnd
  extract_lets x s1
  have hs1 : Keeps s s1 := h.reach
  split
  · exact h
  · split
    · exact h.reach.setWheel
    · exact hs1.setWheel

theorem Keeps.commitPlanReady {w} (h : Keeps s t) : Keeps s (commitPlanReady w t) := by
  unfold Machine.commitPlanReady
  extract_lets x s1
  have hs1 : Keeps s s1 := h.reach
  split
  · exact .ite h hs1.setWheel
  · exact h

theorem Keeps.repairDone {w} (h : Keeps s t) : Keeps s (repairDone w t) := by
  unfold Machine.repairDone
  extract_lets x
  split
  · split
    · exact h
    · extract_lets r s1
      have hs1 : Keeps s s1 := h.reach
      split
      · exact hs1.setWheel
      · exact h.reach.setWheel
  · exact h

theorem Keeps.fallbackPlanReady {w} (h : Keeps s t) : Keeps s (fallbackPlanReady w t) := .ite h.reach.setWheel h

theorem Keeps.wheelTrace {w0 w1 w2 w3} (h : Keeps s t) : Keeps s (wheelTrace w0 w1 w2 w3 t) := by
  unfold Machine.wheelTrace
  split
  · exact h.fset.fset
  · extract_lets p a s1 s2 s3 _ s4
    have hs1 : Keeps s s1 := .ite h.fset h
    have hs2 : Keeps s s2 := hs1.putBytes
    have hs3 : Keeps s s3 := hs2.fset
    have hs4 : Keeps s s4 := hs3.update
    exact .ite (.ite hs4.fset hs4) hs3

theorem Keeps.planTrace {w tag cause failed q moves time} (h : Keeps s t) :
    Keeps s (planTrace w tag cause failed q moves time t) :=
  h.wheelTrace

theorem Keeps.traceWheel {w tag cause q time} (h : Keeps s t) : Keeps s (traceWheel w tag cause q time t) := by
  unfold Machine.traceWheel
  extract_lets x s1
  have hs1 : Keeps s s1 := by
    unfold s1
    split
    · exact .ite h h.planTrace
    · exact h
  exact .ite h hs1.planTrace

theorem Keeps.commitCell {w q slot} (h : Keeps s t) : Keeps s (commitCell w q slot t) :=
  .regSet (.setCell (.ite h.bump h))

theorem Keeps.countThresholds {w nAvail} (h : Keeps s t) : Keeps s (countThresholds w nAvail t) := .ite h.setWheel h

theorem Keeps.wheelOutput {w nIns} (h : Keeps s t) : Keeps s (wheelOutput w nIns t) :=
  h.regSet.regSet.regSet.regSet.countThresholds.hideWords

theorem Keeps.bumpHalf {f b} (h : Keeps s t) : Keeps s (bumpHalf f b t) := .ite h.fset h

theorem Keeps.countOutcome {w tag cause} (h : Keeps s t) : Keeps s (countOutcome w tag cause t) := by
  unfold Machine.countOutcome
  extract_lets x failed s1 s2 s3 fb s4 s5
  have hs1 : Keeps s s1 := .ite h.bump h
  have hs2 : Keeps s s2 := .ite hs1 (.ite hs1.bump (.ite hs1.bump hs1.bump))
  have hs3 : Keeps s s3 := hs2.bumpHalf.bumpHalf.bumpHalf.bumpHalf
  have hs4 : Keeps s s4 := hs3.setWheel
  have hs5 : Keeps s s5 := .ite hs4 hs4.clearCond
  exact hs5.regSet

theorem Keeps.wheelFlags {w q block} (h : Keeps s t) : Keeps s (wheelFlags w q block t) :=
  h.fset.fset.fset.fset.fset.fset.fset.regSet.regSet

theorem Keeps.latchWheel {w cut} (h : Keeps s t) : Keeps s (latchWheel w cut t) := by
  unfold Machine.latchWheel
  split
  extract_lets q _ s1 x s0 s2 stale s3 s4 s5 s6 s7 s8 s9 s10 x2
  have hs1 : Keeps s s1 := h.setWheel
  have hs0 : Keeps s s0 := hs1
  have hs2 : Keeps s s2 := hs1.traceWheel
  have hs3 : Keeps s s3 := .ite hs2.bumpBy hs2
  have hs4 : Keeps s s4 := .foldl hs3 fun _ _ h1 => h1.commitCell
  have hs5 : Keeps s s5 := hs4.setWheel
  have hs6 : Keeps s s6 := hs5.bumpBy
  have hs7 : Keeps s s7 := .ite hs6.bump hs6
  have hs8 : Keeps s s8 := .ite hs7.bump hs7
  have hs9 : Keeps s s9 := hs8.wheelFlags.countOutcome
  have hs10 : Keeps s s10 := hs9.wheelOutput
  exact hs10.setWheel

theorem Keeps.cellTableEntry {slot} (h : Keeps s t) : Keeps s (cellTableEntry slot t) :=
  .ite h.hideWords h.drawFree.drawFree.drawFree.hideWords

theorem Keeps.poolThreshold {w} (h : Keeps s t) : Keeps s (poolThreshold w t) := by
  unfold Machine.poolThreshold
  extract_lets x hold low
  have hlow {src on off f u} (hu : Keeps s u) : Keeps s (low src on off f u) :=
    .ite hu.fset.condIs (.ite hu.fset.clearCond hu)
  exact hlow (hlow h)

theorem Keeps.whlFallbackRun {w} (h : Keeps s t) : Keeps s (whlFallbackRun w t) := .ite h.condIs h

theorem Keeps.wheelEnterRun {w} (h : Keeps s t) : Keeps s (wheelEnterRun w t) :=
  .foldl h.setWheel.regSet.fset.fset fun _ _ h1 => h1.setCell.fset.fatalBypass

theorem Keeps.setWhlTrc {val} (h : Keeps s t) : Keeps s (setWhlTrc val t) := .regSet (.ite h.update.regSet.regSet h)

theorem Keeps.whlTrcEnable {o val} (h : Keeps s t) : Keeps s (whlTrcEnable o val t).1 :=
  .checkWrite h (fun _ h1 => h1.setWhlTrc)

/-! ### Baton and plans (Machine/Baton) -/

theorem Keeps.setPort {p x} (h : Keeps s t) : Keeps s (setPort p x t) := h.update

theorem Keeps.sendMgmt {m} (h : Keeps s t) : Keeps s (sendMgmt m t) := .ite h.update h

theorem Keeps.setEpoch {e} (h : Keeps s t) : Keeps s (setEpoch e t) := h.update.regSet

theorem Keeps.commitRole {r epoch j cause} (h : Keeps s t) : Keeps s (commitRole r epoch j cause t) := h.update

theorem Keeps.applyRole (h : Keeps s t) : Keeps s (applyRole t) := by
  unfold Machine.applyRole
  split
  · exact h
  · extract_lets due active ho _ _ s1 s2 s3 s4 s5 s6
    have hs1 : Keeps s s1 := h.update
    have hs2 : Keeps s s2 := .ite hs1.setEpoch hs1
    have hs3 : Keeps s s3 := hs2.setSplitRegs.fset
    have hs4 : Keeps s s4 := hs3.fset
    have hs5 : Keeps s s5 := .ite hs4.bump hs4
    have hs6 : Keeps s s6 := .ite hs5.bump hs5
    exact .ite h (.ite hs6.bump hs6)

theorem Keeps.fenceFrom {epoch} (h : Keeps s t) : Keeps s (fenceFrom epoch t) :=
  .ite h.setEpoch.fset.commitRole.occur h

theorem Keeps.noteHeader {h'} (h : Keeps s t) :
    Keeps s (noteHeader h' t) := .ite h (.ite h.update.fenceFrom h.update)

theorem Keeps.tryClaim (h : Keeps s t) : Keeps s (tryClaim t) := .ite (.ite h.commitRole h.occur) h

theorem Keeps.silenceTimeout (h : Keeps s t) : Keeps s (silenceTimeout t) := .ite h.fset.fset.tryClaim h

theorem Keeps.leaseExpiry (h : Keeps s t) : Keeps s (leaseExpiry t) := by
  unfold Machine.leaseExpiry
  split
  · exact .ite h.update.commitRole.fset.occur h
  · exact h

theorem Keeps.renewLease (h : Keeps s t) : Keeps s (renewLease t) := by
  unfold Machine.renewLease
  extract_lets _ s1 _
  have hs1 : Keeps s s1 := .ite h.update h
  exact hs1.update.fset.tryClaim

theorem Keeps.cycleEvidence (h : Keeps s t) : Keeps s (cycleEvidence t) := .ite h.update h

theorem Keeps.takeEvidence (h : Keeps s t) : Keeps s (takeEvidence t) := .ite h h.update

theorem Keeps.heartbeatSend (h : Keeps s t) : Keeps s (heartbeatSend t) := .ite h h.update

theorem Keeps.takeOffer {hb} (h : Keeps s t) : Keeps s (takeOffer hb t) :=
  .ite (.ite (.ite h.occur h) h.update.commitRole) h

theorem Keeps.settleSelftest (h : Keeps s t) : Keeps s (settleSelftest t) := by
  unfold Machine.settleSelftest
  split
  · exact h
  · extract_lets own twin cmd _ s1
    have hs1 : Keeps s s1 := h.update
    split
    · exact hs1
    · split
      · exact .ite (.ite hs1 hs1.startHandover) (.ite hs1.occur (.ite hs1.occur hs1))
      · exact .ite hs1.fset.occur hs1

theorem Keeps.greetTwin {hb} (h : Keeps s t) : Keeps s (greetTwin hb t) := by
  unfold Machine.greetTwin
  split
  extract_lets s1
  have hs1 : Keeps s s1 := .foldl h.sendMgmt fun _ _ h1 => h1.sendMgmt
  split
  · refine .foldl hs1 fun _ _ h1 => ?_
    split
    · exact h1
    · exact h1.sendMgmt
  · exact hs1

theorem Keeps.noteMode {shown} (h : Keeps s t) : Keeps s (noteMode shown t) := h.update

theorem Keeps.heartbeatReceive {hb} (h : Keeps s t) : Keeps s (heartbeatReceive hb t) := by
  unfold Machine.heartbeatReceive
  extract_lets last missed s1 e1 fresh act _ s2 s3 s4 tie s5 s6 s7 _ s8 _
  have hs1 : Keeps s s1 := h.bumpBy
  have hs2 : Keeps s s2 := hs1.update
  have hs3 : Keeps s s3 := hs2.regSet.fset
  have hs4 : Keeps s s4 := .ite hs3.greetTwin hs3
  have hs5 : Keeps s s5 := .ite hs4.fenceFrom hs4
  have hs6 : Keeps s s6 := .ite hs5.fset.commitRole hs5
  have hs7 : Keeps s s7 := .ite (.noteMode (.ite hs6.fset hs6)) hs6
  have hs8 : Keeps s s8 := by
    unfold s8
    split
    · exact .ite hs7.takeOffer hs7
    · exact hs7.update
    · exact hs7
  exact .ite h (.ite h.bump (.ite h (.ite hs8.update.settleSelftest hs8)))

theorem Keeps.btnCommand {o checks act} (h : Keeps s t) (hact : ∀ u, Keeps s u → Keeps s (act u)) :
    Keeps s (btnCommand o checks act t).1 :=
  .fset (.checkWrite h (fun _ h1 => hact _ h1))

theorem Keeps.btnCmdHandover {o} (h : Keeps s t) : Keeps s (btnCmdHandover o t).1 := by
  unfold Machine.btnCmdHandover
  split
  next s1 _ hp =>
    have hs1 : Keeps s s1 := .fst_of_eq hp (.btnCommand h (fun _ h1 => h1.startHandover))
    exact .ite hs1.fset hs1

theorem Keeps.handoverAcceptDeadline (h : Keeps s t) : Keeps s (handoverAcceptDeadline t) := by
  unfold Machine.handoverAcceptDeadline
  split
  · exact h
  · extract_lets _ s1 _ s2
    have hs1 : Keeps s s1 := h.update.fset
    have hs2 : Keeps s s2 := hs1.update
    exact .ite hs1.update.commitRole.fset (.ite hs2.fset hs2)

theorem Keeps.btnCmdReadyAck {o} (h : Keeps s t) : Keeps s (btnCmdReadyAck o t).1 :=
  .btnCommand h (fun _ h1 => h1.fset.fset.fset)

theorem Keeps.btnSelftestStart (h : Keeps s t) : Keeps s (btnSelftestStart t) := by
  unfold Machine.btnSelftestStart
  extract_lets other
  split
  · exact h
  · clear_value other
    split
    · exact h.startSelftest
    · exact .ite h.startSelftest h

theorem Keeps.btnCmdSelftest {o} (h : Keeps s t) : Keeps s (btnCmdSelftest o t).1 :=
  .btnCommand h (fun _ h1 => h1.startSelftest.sendMgmt)

theorem Keeps.btnSelftestDone {pass} (h : Keeps s t) : Keeps s (btnSelftestDone pass t) :=
  .ite h h.update.fset.settleSelftest

theorem Keeps.btnSelftestResultTimeout (h : Keeps s t) : Keeps s (btnSelftestResultTimeout t) :=
  .ite h.update.settleSelftest h

theorem Keeps.settleLanes (h : Keeps s t) : Keeps s (settleLanes t) :=
  .condIs (.condIs (.ite h.fset.fset.fset h.fset.fset))

theorem Keeps.mirrorLaneLoss {l} (h : Keeps s t) : Keeps s (mirrorLaneLoss l t) := .ite h.fset.settleLanes h

theorem Keeps.disableLanes (h : Keeps s t) : Keeps s (disableLanes t) :=
  .foldl h fun _ _ h1 => .ite h1 h1.mirrorLaneLoss

theorem Keeps.mirrorLaneRestore {l} (h : Keeps s t) : Keeps s (mirrorLaneRestore l t) := .ite h.fset.settleLanes h

theorem Keeps.modeDiffTimeout (h : Keeps s t) : Keeps s (modeDiffTimeout t) := by
  unfold Machine.modeDiffTimeout
  split
  · exact .ite h.fset h
  · exact h

theorem Keeps.pbDiffTimeout (h : Keeps s t) : Keeps s (pbDiffTimeout t) := .ite h.fset h

theorem Keeps.joinTimeout (h : Keeps s t) : Keeps s (joinTimeout t) := .ite h.fset h

theorem Keeps.joinComplete (h : Keeps s t) : Keeps s (joinComplete t) := .ite h.fset h

theorem Keeps.noteRecordSize {n} (h : Keeps s t) : Keeps s (noteRecordSize n t) := h.fset.fset

theorem Keeps.wheelRecs {blocked} (h : Keeps s t) : Keeps s (wheelRecs blocked t).2 :=
  .foldl_snd h fun _ _ h1 => h1.setWheel.bumpBy

theorem Keeps.updateStranded (h : Keeps s t) : Keeps s (updateStranded t) := h.update

theorem Keeps.grantChain {num r} (h : Keeps s r.2) : Keeps s (grantChain num r).2 := by
  unfold Machine.grantChain
  split
  · exact h
  · exact h.fset.fset.fset.fset.bumpBy.fset.fset.update

theorem Keeps.relayGrants (h : Keeps s t) : Keeps s (relayGrants t) := by
  unfold Machine.relayGrants
  extract_lets _ s1 s2 s3
  have hs2 : Keeps s s2 := .foldl h.update fun _ _ h1 => h1.fset.fset.fset.fset
  have hs3 : Keeps s s3 := hs2.fset.fset
  exact .ite (.foldl_snd hs3.updateStranded fun _ _ h1 => h1.grantChain) hs3

theorem Keeps.sendRecords {cut blocked} (h : Keeps s t) : Keeps s (sendRecords cut blocked t) := by
  unfold Machine.sendRecords
  split
  · exact h
  · split
    · exact h.wheelRecs.noteRecordSize.update
    · exact h.update.noteRecordSize
    · exact h

theorem Keeps.deliverMirrored {r} (h : Keeps s t) : Keeps s (deliverMirrored r t) := by
  unfold Machine.deliverMirrored
  split
  · exact h
  · extract_lets west posE
    split
    · exact h
    · exact .ite h.deliver h

theorem Keeps.noteRelayed {r} (h : Keeps s t) : Keeps s (noteRelayed r t) := by
  unfold Machine.noteRelayed
  split
  · exact h
  · split
    · exact h.setCell
    · exact h

theorem Keeps.mirrorRecordReceive {p} (h : Keeps s t) : Keeps s (mirrorRecordReceive p t) := by
  unfold Machine.mirrorRecordReceive
  split
  · exact h
  · split
    · exact .ite h.update h.bump
    · split
      · exact h.bump
      · extract_lets _ s1 s2 diff _ s3 s4
        have hs1 : Keeps s s1 := h.update
        have hs2 : Keeps s s2 := hs1.fset
        have hs3 : Keeps s s3 := hs2.update
        have hs4 : Keeps s s4 := .ite hs3 hs3.fset
        exact .ite (.foldl hs4 fun _ _ h1 => h1.noteRelayed) hs2
    · exact .ite h.bump (.foldl h.update.fset fun _ _ h1 => h1.deliverMirrored)

theorem Keeps.noteLatency {ns} (h : Keeps s t) : Keeps s (noteLatency ns t) := h.fset.fset.condIs

theorem Keeps.compareCycle {outDiff skip} (h : Keeps s t) : Keeps s (compareCycle outDiff skip t) :=
  .ite h (.ite h.update.bump (.ite h.update.bump (.update (.ite h.bump h))))

theorem Keeps.keepShadow {cut blocked} (h : Keeps s t) : Keeps s (keepShadow cut blocked t) := h.update

/-! ### Staged writes (Machine/Stage) -/

theorem Keeps.stageWrite {o a v} (h : Keeps s t) : Keeps s (stageWrite o a v t) := .ite h.update h.supersede.update

theorem Keeps.checkStage {a o checks val} (h : Keeps s t) : Keeps s (checkStage a o checks val t).1 :=
  .checkWrite h (fun _ h1 => h1.stageWrite)

/-! ### Field IO (Machine/Fio) -/

theorem Keeps.setField {f} (h : Keeps s t) : Keeps s (setField f t) := h.update

theorem Keeps.frameFault {inj} (h : Keeps s t) : Keeps s (frameFault inj t) := .ite h h.occurInj

theorem Keeps.fieldReport {fv term oc extv} (h : Keeps s t) : Keeps s (fieldReport fv term oc extv t) := by
  unfold Machine.fieldReport
  extract_lets f status s1 s2 s3 s4 s5 s6 _ s7 s8 s9 s10
  have hs1 : Keeps s s1 := h.regSet
  have hs2 : Keeps s s2 := hs1.regSet
  have hs3 : Keeps s s3 := hs2.regSet
  have hs4 : Keeps s s4 := hs3.regSet
  have hs5 : Keeps s s5 := hs4.regSet
  have hs6 : Keeps s s6 := hs5.bumpBy.bumpBy.bumpBy
  have hs7 : Keeps s s7 := hs6.update
  have hs8 : Keeps s s8 := hs7.clearCond
  have hs9 : Keeps s s9 := .foldl hs8 fun _ _ h1 => h1.frameFault
  have hs10 : Keeps s s10 := .foldl hs9 fun _ _ h1 => h1.occur
  exact hs10.condIs.condIs

theorem Keeps.fioWrite {o a v} (h : Keeps s t) : Keeps s (fioWrite o a v t).1 := by
  unfold Machine.fioWrite
  split
  next s1 _ hp =>
    have hs1 : Keeps s s1 := .fst_of_eq hp h.checkStage
    exact .ite hs1.fset hs1

theorem Keeps.adoptFioCtrl {v} (h : Keeps s t) : Keeps s (adoptFioCtrl v t) := h.update

theorem Keeps.publishField (h : Keeps s t) : Keeps s (publishField t) := h.putBytes

/-! ### Filters and front-end configuration (Machine/Filter) -/

theorem Keeps.setChan {n c} (h : Keeps s t) : Keeps s (setChan n c t) := h.update

theorem Keeps.showFilter {n} (h : Keeps s t) : Keeps s (showFilter n t) := .ite h.fset h.fset.regSet.regSet

theorem Keeps.decimated {n t' x c} (h : Keeps s t) : Keeps s (decimated n t' x c t) := by
  unfold Machine.decimated
  extract_lets fir
  split
  split
  split
  exact .ite h.setChan.regSet h.setChan

theorem Keeps.chainSample {n code} (h : Keeps s t) : Keeps s (chainSample n code t) := by
  unfold Machine.chainSample
  extract_lets c t1
  split
  · exact h
  · split
    · exact h.setChan
    · split
      · exact h.setChan
      · exact h.decimated

theorem Keeps.setSvSamples {st l} (h : Keeps s t) : Keeps s (setSvSamples st l t) := h.update

theorem Keeps.svEnter {n idx by_} (h : Keeps s t) : Keeps s (svEnter n idx by_ t) := by
  unfold Machine.svEnter
  extract_lets c got prev t1 copy
  clear_value got
  split
  · exact .ite h.setChan.bump h.setChan
  · exact h.setChan.bump

theorem Keeps.svFill {n tau by_} (h : Keeps s t) : Keeps s (svFill n tau by_ t) := .foldl h fun _ _ h1 => h1.svEnter

theorem Keeps.resetChan {t' n} (h : Keeps s t) :
    Keeps s (resetChan t' n t) := .fset (.ite h.setChan.regSet h.setChan)

theorem Keeps.askReset {b n} (h : Keeps s t) : Keeps s (askReset b n t) := .ite h h.setChan

theorem Keeps.placeOne {n tg by_} (h : Keeps s t) : Keeps s (placeOne n tg by_ t) := by
  unfold Machine.placeOne
  extract_lets s1
  have hs1 : Keeps s s1 := .ite h.svFill h
  split
  extract_lets cause g
  split
  next _ s2 hp =>
    have hs2 : Keeps s s2 := .snd_of_eq hp (.ite_snd hs1.drawFree hs1)
    extract_lets s3 s4 s5 s6 s7 c
    have hs3 : Keeps s s3 := .ite hs2.fset hs2
    have hs4 : Keeps s s4 := hs3.fset
    have hs5 : Keeps s s5 := .ite hs4 hs4.bump
    have hs6 : Keeps s s6 := .ite hs5.fset.bump hs5
    have hs7 : Keeps s s7 := .ite hs6.regSet.regSet hs6
    exact hs7.setChan

theorem Keeps.placeUpTo {limit n} (h : Keeps s t) : Keeps s (placeUpTo limit n t) :=
  .foldl h fun _ _ h1 => .ite h1.placeOne h1

theorem Keeps.dueReset {limit n} (h : Keeps s t) : Keeps s (dueReset limit n t) := by
  unfold Machine.dueReset
  split
  · exact .ite (.resetChan (.ite h.placeUpTo h)) h
  · exact h

theorem Keeps.placeChan {limit n} (h : Keeps s t) : Keeps s (placeChan limit n t) := h.dueReset.placeUpTo

theorem Keeps.placeOutputs {limit} (h : Keeps s t) : Keeps s (placeOutputs limit t) :=
  .ite (.foldl h.update fun _ _ h1 => h1.placeChan) h

theorem Keeps.showRatio {span n} (h : Keeps s t) : Keeps s (showRatio span n t) := h.regSet.regSet

theorem Keeps.showRatios (h : Keeps s t) : Keeps s (showRatios t) := .foldl h fun _ _ h1 => h1.showRatio

theorem Keeps.filterStart (h : Keeps s t) : Keeps s (filterStart t) := h.update

theorem Keeps.filterBoundary (h : Keeps s t) : Keeps s (filterBoundary t) :=
  .foldl (.foldl h.placeOutputs.update fun _ _ h1 => h1.setChan) fun _ _ h1 => h1.setSvSamples

theorem Keeps.measXs {n m} (h : Keeps s t) : Keeps s (measXs n m t).2 :=
  .foldl_snd h fun _ _ h1 => .ite_snd h1 h1.drawFree

theorem Keeps.measEntry {n} (h : Keeps s t) : Keeps s (measEntry n t) := by
  unfold Machine.measEntry
  extract_lets m last sp k spacing
  split
  next _ s1 hp =>
    have hs1 : Keeps s s1 := .snd_of_eq hp h.measXs
    exact .putBytes (.ite hs1 hs1.update)

theorem Keeps.publishMeasurement (h : Keeps s t) : Keeps s (publishMeasurement t) :=
  .foldl h fun _ _ h1 => h1.measEntry

theorem Keeps.requestSync (h : Keeps s t) : Keeps s (requestSync t) := by
  unfold Machine.requestSync
  split
  · exact h
  · exact h.update.fset

theorem Keeps.syncInEdge {falling} (h : Keeps s t) : Keeps s (syncInEdge falling t) :=
  .ite h (.ite h.bump h.requestSync)

theorem Keeps.fltSyncGo {o} (h : Keeps s t) : Keeps s (fltSyncGo o t).1 :=
  .fset (.checkWrite h (fun _ h1 => h1.requestSync))

theorem Keeps.syncResetApply (h : Keeps s t) : Keeps s (syncResetApply t) := by
  unfold Machine.syncResetApply
  split
  · exact h
  · extract_lets _ s1 s2
    have hs1 : Keeps s s1 := h.update.placeOutputs
    have hs2 : Keeps s s2 := .foldl hs1 fun _ _ h1 => .ite h1.resetChan h1
    exact hs2.bump.fset.setSplitRegs

theorem Keeps.fltConfigWrite {o a v} (h : Keeps s t) : Keeps s (fltConfigWrite o a v t).1 := by
  generalize hp : Machine.fltConfigWrite o a v t = p
  generalize hf : @Machine.fltConfigWrite = f at hp
  delta Machine.fltConfigWrite at hf
  subst hf
  beta_reduce at hp
  split at hp
  · subst hp
    exact h
  · subst hp
    exact h.checkStage

theorem Keeps.showFrozen {n} (h : Keeps s t) : Keeps s (showFrozen n t) := h.fset

theorem Keeps.adoptFlt {a v} (h : Keeps s t) : Keeps s (adoptFlt a v t) := by
  generalize hf : @Machine.adoptFlt = f
  delta Machine.adoptFlt at hf
  subst hf
  beta_reduce
  split
  · exact h
  · extract_lets only s1 s2
    have hs1 : Keeps s s1 := h.regSet
    have hs2 : Keeps s s2 := hs1.showFrozen
    exact .ite hs2 hs2.askReset.showFilter

theorem Keeps.adoptChans {was} (h : Keeps s t) : Keeps s (adoptChans was t) := by
  unfold Machine.adoptChans
  refine .foldl h fun u n h1 => ?_
  extract_lets s1
  have hs1 : Keeps s s1 := .ite h1 h1.fset
  exact .ite hs1 hs1.showFrozen.askReset.showFilter

theorem Keeps.showFilters (h : Keeps s t) : Keeps s (showFilters t) := by
  unfold Machine.showFilters
  exact .foldl h fun _ _ h1 => h1.showFrozen.showFilter

theorem Keeps.newPeriod (h : Keeps s t) : Keeps s (newPeriod t) := by
  unfold Machine.newPeriod
  exact .foldl h fun _ _ h1 => .showFilter (.ite h1.askReset h1)

theorem Keeps.svRateChanged {st} (h : Keeps s t) : Keeps s (svRateChanged st t) :=
  .foldl h.setSvSamples fun _ _ h1 => .ite h1.setChan.showFilter h1

/-! ### Front end (Machine/Front) -/

theorem Keeps.fadOverrange {n} (h : Keeps s t) : Keeps s (fadOverrange n t) := h.regSet.bump.condIs

theorem Keeps.fadCommonMode {n} (h : Keeps s t) : Keeps s (fadCommonMode n t) := h.setChan.regSet.condIs

theorem Keeps.fgcalGo {o val} (h : Keeps s t) : Keeps s (fgcalGo o val t).1 := by
  unfold Machine.fgcalGo
  split
  next s1 _ hp =>
    have hs1 : Keeps s s1 := .fst_of_eq hp <| h.checkWrite fun _ h1 =>
      .foldl h1.update.fset.fset.fset fun _ _ h2 => .ite h2.setChan h2
    exact hs1.fset

theorem Keeps.fgcalFill (h : Keeps s t) : Keeps s (fgcalFill t) := .foldl h.fset fun _ _ h1 => .ite h1.fset h1

theorem Keeps.fgcalEnd {offs gain} (h : Keeps s t) : Keeps s (fgcalEnd offs gain t) :=
  .ite h (.fset (.fgcalFill (.foldl h.placeOutputs fun _ _ h1 => .ite h1.regSet.regSet h1)))

theorem Keeps.fgcalAbort (h : Keeps s t) : Keeps s (fgcalAbort t) := .ite h h.placeOutputs.fgcalFill.fset.fset

theorem Keeps.bgCalConverged {m} (h : Keeps s t) : Keeps s (bgCalConverged m t) := .ite h.fset h

theorem Keeps.adoptChCfg {n v} (h : Keeps s t) : Keeps s (adoptChCfg n v t) :=
  .showFilter (.setChan (.fset (.ite h.regSet.fset h.regSet)))

theorem Keeps.winCount {n x} (h : Keeps s t) : Keeps s (winCount n x t) := .ite h h.setChan

theorem Keeps.windowTrip {n} (h : Keeps s t) : Keeps s (windowTrip n t) :=
  .ite (.ite h.setChan.fset.fset.bump.occur.update.safetyCause h.setChan.fset.fset.bump.occur) h

theorem Keeps.windowRelease {n} (h : Keeps s t) : Keeps s (windowRelease n t) := .ite h.setChan.fset.update h

theorem Keeps.adoptWin {n off v} (h : Keeps s t) : Keeps s (adoptWin n off v t) := by
  unfold Machine.adoptWin
  extract_lets s1 _
  have hs1 : Keeps s s1 := by
    unfold s1
    split
    · exact h.regSet
    · exact h.regSet
    · exact h.regSet
  exact hs1.setChan

theorem Keeps.setHka {h'} (h : Keeps s t) : Keeps s (setHka h' t) := h.update

theorem Keeps.showHka (h : Keeps s t) : Keeps s (showHka t) := h.fset.fset.fset.fset

theorem Keeps.calFollows {after} (h : Keeps s t) : Keeps s (calFollows after t) := .ite h.setHka h.setHka

theorem Keeps.beginScan (h : Keeps s t) : Keeps s (beginScan t) := h.setHka.setSplitRegs.showHka

theorem Keeps.scanStart (h : Keeps s t) : Keeps s (scanStart t) := by
  unfold Machine.scanStart
  extract_lets h1
  split
  · exact h
  · split
    · exact h.bump
    · split
      · exact .ite h.beginScan h.bump
      · exact h.beginScan

theorem Keeps.hkaScanGo {o} (h : Keeps s t) : Keeps s (hkaScanGo o t).1 :=
  .checkWrite h (fun _ h1 => .ite h1 h1.scanStart)

theorem Keeps.hkaTimedStart (h : Keeps s t) : Keeps s (hkaTimedStart t) := by
  unfold Machine.hkaTimedStart
  split
  · exact h.scanStart
  · exact .ite h.scanStart h
  · exact h

theorem Keeps.hkaEvent {arg} (h : Keeps s t) : Keeps s (hkaEvent arg t) := h.post

theorem Keeps.hkaBuffer {e} (h : Keeps s t) : Keeps s (hkaBuffer e t) :=
  .ite h.putWord.fset.hkaEvent (.ite h.putWord.fset.hkaEvent h.putWord.fset)

theorem Keeps.currentLimits {ch r} (h : Keeps s t) : Keeps s (currentLimits ch r t) :=
  .ite h (.ite (.fset (.ite h.fset h)) (.ite h.fset h))

theorem Keeps.hkaConversion {code} (h : Keeps s t) : Keeps s (hkaConversion code t) := by
  unfold Machine.hkaConversion
  extract_lets h1
  split
  · exact h
  · exact .ite h h.setHka.currentLimits.regSet.hkaBuffer

theorem Keeps.hkaLimitCheck {e} (h : Keeps s t) : Keeps s (hkaLimitCheck t e) := by
  unfold Machine.hkaLimitCheck
  split
  · exact h
  · exact .ite h.setHka.condIs (.ite h.setHka.condIs h.setHka)

theorem Keeps.hkaSelfTest {got} (h : Keeps s t) : Keeps s (hkaSelfTest got t) :=
  .ite h.condIs.fset (.ite h.condIs.fset h)

theorem Keeps.hkaScanEnd (h : Keeps s t) : Keeps s (hkaScanEnd t) := by
  unfold Machine.hkaScanEnd
  extract_lets h1 s1 s2
  have hs1 : Keeps s s1 := h.setHka
  have hs2 : Keeps s s2 := .bump (.foldl hs1.hkaSelfTest fun _ _ h1 => h1.hkaLimitCheck)
  split
  · exact h
  · refine .showHka ?_
    split
    · exact hs2.calFollows
    · exact hs2

theorem Keeps.hkaInjReq {o val} (h : Keeps s t) : Keeps s (hkaInjReq o val t).1 := by
  unfold Machine.hkaInjReq
  split
  next s1 _ hp =>
    have hs1 : Keeps s s1 := .fst_of_eq hp (.checkWrite h (fun _ h1 => h1.setHka.fset.fset.showHka))
    exact .ite hs1.bump.fset hs1

theorem Keeps.hkaInjConversion {code} (h : Keeps s t) : Keeps s (hkaInjConversion code t) := by
  unfold Machine.hkaInjConversion
  extract_lets h1
  split
  · exact h
  · split
    · exact h
    · extract_lets w s1 s2
      have hs1 : Keeps s s1 := h.setHka.regSet
      have hs2 : Keeps s s2 := .currentLimits (.ite hs1.bump hs1)
      refine .showHka ?_
      split
      · exact hs2.calFollows
      · exact hs2

theorem Keeps.hkaResRead {i} (h : Keeps s t) : Keeps s (hkaResRead i t) := .ite h.update.setHka.regSet.showHka h

theorem Keeps.hkaCalGo {o} (h : Keeps s t) : Keeps s (hkaCalGo o t).1 :=
  .checkWrite h (fun _ h1 => h1.calFollows.showHka)

theorem Keeps.hkaCalEnd (h : Keeps s t) : Keeps s (hkaCalEnd t) := .ite h.setHka.showHka.fset h

theorem Keeps.hkaCommission (h : Keeps s t) : Keeps s (hkaCommission t) :=
  .ite h.setHka.fset.calFollows.showHka h.setHka.fset

theorem Keeps.publishHka (h : Keeps s t) : Keeps s (publishHka t) := .foldl h fun _ _ h1 => h1.putBytes

/-! ### Loops and services (Machine/Loop) -/

theorem Keeps.setLoop {e x} (h : Keeps s t) : Keeps s (setLoop e x t) := h.update

theorem Keeps.winSet {e off v} (h : Keeps s t) : Keeps s (winSet e off v t) := h.memWriteWord

theorem Keeps.winSetAll {e off vs} (h : Keeps s t) : Keeps s (winSetAll e off vs t) := h.memWriteBytes

theorem Keeps.showStatus {e} (h : Keeps s t) : Keeps s (showStatus e t) := h.winSet

theorem Keeps.setLoopMode {e m} (h : Keeps s t) : Keeps s (setLoopMode e m t) :=
  .ite h h.fset.regSet.setLoop.showStatus

theorem Keeps.finishLoop {e o st} (h : Keeps s t) : Keeps s (finishLoop e o st t) := h.loopResult.finishOp

theorem Keeps.operandWords {o ptr n} (h : Keeps s t) : Keeps s (operandWords o ptr n t).2 := by
  induction n with
  | zero => exact h
  | succ n ih => exact ih.engWord

theorem Keeps.loopRun {e op body} (h : Keeps s t) (hbody : ∀ y0 y1 y2 u, Keeps s u → Keeps s (body y0 y1 y2 u).1) :
    Keeps s (loopRun e op body t) := by
  unfold Machine.loopRun
  split
  · exact h
  · split
    next _ s1 hp =>
      have hs1 : Keeps s s1 := .snd_of_eq hp h.engWords
      exact .ite (.finishLoop (hbody _ _ _ _ hs1)) (.ite hs1.finishLoop h)

theorem Keeps.noteUpdate {e c} (h : Keeps s t) : Keeps s (noteUpdate e c t) := by
  unfold Machine.noteUpdate
  extract_lets held s1 s2 s3 s4 s5 s6
  have hs1 : Keeps s s1 := h.fset.fset
  have hs2 : Keeps s s2 := hs1.fset.fset
  have hs3 : Keeps s s3 := hs2.fset
  have hs4 : Keeps s s4 := hs3.fset.fset
  have hs5 : Keeps s s5 := .ite hs4.bump hs4
  have hs6 : Keeps s s6 := .ite hs5.bump hs5
  exact .ite hs6.bump hs6.clearCond

theorem Keeps.noteSkip {e skip} (h : Keeps s t) : Keeps s (noteSkip e skip t) := .ite h.fset.bump.occur h.fset

theorem Keeps.loopOutput {cut e} (h : Keeps s t) : Keeps s (loopOutput cut e t) := h.hideWords

theorem Keeps.lateOutput {e} (h : Keeps s t) : Keeps s (lateOutput e t) := .ite h.loopOutput h

theorem Keeps.loopUpdate {e ns} (h : Keeps s t) : Keeps s (loopUpdate e ns t) := by
  unfold Machine.loopUpdate
  refine .loopRun h fun _ _ _ _ h1 => ?_
  extract_lets rd m x prog needs
  split
  · exact h1
  · split
    · exact h1
    · split
      · exact h1.bump
      · split
        next _ s1 hp =>
          have hs1 : Keeps s s1 := .snd_of_eq hp (.ite_snd h1.operandWords h1)
          extract_lets ts c skip s2 s3 cnt _ s4 s5 s6 s7
          have hs2 : Keeps s s2 := hs1.setLoop.noteSkip
          have hs3 : Keeps s s3 := .ite hs2.fset hs2
          have hs4 : Keeps s s4 := hs3.setLoop
          have hs5 : Keeps s s5 := hs4.winSetAll.winSetAll
          have hs6 : Keeps s s6 := hs5.noteUpdate.bump.clearCond
          have hs7 : Keeps s s7 := hs3.bump.setLoopMode.fset
          split
          · exact hs6.winSet.showStatus.lateOutput
          · exact hs7.winSet.condIs.showStatus.lateOutput

theorem Keeps.loopSetModeTo {e m} (h : Keeps s t) : Keeps s (loopSetModeTo e m t).1 :=
  .ite_fst h (.ite_fst h h.setLoopMode)

theorem Keeps.loopSetMode {e} (h : Keeps s t) : Keeps s (loopSetMode e t) :=
  .loopRun h (fun _ _ _ _ h1 => h1.loopSetModeTo)

theorem Keeps.holdUnused {e} (h : Keeps s t) : Keeps s (holdUnused e t) := h.winSetAll

theorem Keeps.writeRegion {e c ws} (h : Keeps s t) : Keeps s (writeRegion e c ws t).1 := by
  unfold Machine.writeRegion
  split
  · exact h
  · exact .ite_fst h.bump (.ite_fst h.winSetAll.holdUnused h)

theorem Keeps.loopWriteCoef {e} (h : Keeps s t) : Keeps s (loopWriteCoef e t) := by
  unfold Machine.loopWriteCoef
  refine .loopRun h fun _ _ _ _ h1 => ?_
  split
  · exact h1
  · exact .ite_fst h1 h1.operandWords.writeRegion

theorem Keeps.loopSetTarget {e} (h : Keeps s t) : Keeps s (loopSetTarget e t) := by
  unfold Machine.loopSetTarget
  refine .loopRun h fun _ _ _ _ h1 => ?_
  split
  · exact h1
  · split
    next _ s1 hp =>
      have hs1 : Keeps s s1 := .snd_of_eq hp h1.operandWords
      exact .ite_fst hs1.winSetAll hs1

theorem Keeps.loopPreset {e} (h : Keeps s t) : Keeps s (loopPreset e t) := by
  unfold Machine.loopPreset
  refine .loopRun h fun _ _ _ _ h1 => ?_
  split
  · exact h1
  · split
    · exact h1.bump
    · split
      next _ s1 hp =>
        have hs1 : Keeps s s1 := .snd_of_eq hp h1.operandWords
        exact .ite (.winSetAll (.ite hs1.winSetAll hs1)) (.ite hs1.winSetAll hs1)

theorem Keeps.loopInputLost {e} (h : Keeps s t) : Keeps s (loopInputLost e t) := .ite h.condIs h

theorem Keeps.loopModeCmd {o e val} (h : Keeps s t) : Keeps s (loopModeCmd o e val t).1 :=
  .checkWrite h (fun _ h1 => .ite h1.regSet.supersede.setLoop h1.regSet)

theorem Keeps.loopPbCommit {o e val} (h : Keeps s t) : Keeps s (loopPbCommit o e val t).1 :=
  .checkWrite h (fun _ h1 => .ite h1.regSet.supersede.setLoop h1.regSet)

theorem Keeps.adoptBlock {e b} (h : Keeps s t) : Keeps s (adoptBlock e b t).1 :=
  .ite_fst h (.ite_fst h.bump (.ite_fst (.holdUnused (.foldl h fun _ _ h1 => h1.winSet)) h))

theorem Keeps.adoptLoop {e} (h : Keeps s t) : Keeps s (adoptLoop e t) := by
  unfold Machine.adoptLoop
  extract_lets _ s1 _
  have hs1 : Keeps s s1 := by
    unfold s1
    split
    · exact .ite h.setLoop.loopSetModeTo h
    · exact h
  split
  · exact hs1
  · split
    · exact hs1
    · split
      next s2 _ hp =>
        have hs2 : Keeps s s2 := .fst_of_eq hp hs1.setLoop.adoptBlock
        exact .regSet (.regSet (.ite hs2.update hs2))

theorem Keeps.sendEngines (h : Keeps s t) : Keeps s (sendEngines t) := .ite h.update h

theorem Keeps.loadEngine {e r} (h : Keeps s t) : Keeps s (loadEngine e r t) :=
  .foldl h.setLoopMode.winSetAll.winSetAll.holdUnused fun _ _ h1 => .ite h1.winSet h1.setLoop

theorem Keeps.adoptEngines (h : Keeps s t) : Keeps s (adoptEngines t) := by
  unfold Machine.adoptEngines
  split
  · exact h
  · extract_lets k
    split
    · exact h.bump
    · refine .foldl h fun _ _ h1 => ?_
      split
      · exact .ite h1.loadEngine (.ite h1.bump h1)
      · exact h1

theorem Keeps.loopFromBoot {e} (h : Keeps s t) : Keeps s (loopFromBoot e t) :=
  .winSetAll (.winSetAll (.foldl h.setLoop.setLoopMode fun _ _ h1 => h1.winSet))

theorem Keeps.loopLockout {e} (h : Keeps s t) : Keeps s (loopLockout e t) := h.setLoopMode

/-! ### Ports (Machine/Ports) -/

theorem Keeps.setPortState {p st fold} (h : Keeps s t) : Keeps s (setPortState p st fold t) :=
  .ite h.fset.fset h.fset.fset.post

theorem Keeps.setReached {p n} (h : Keeps s t) : Keeps s (setReached p n t) := .ite h h.fset.sendMgmt

theorem Keeps.startSweep {p} (h : Keeps s t) :
    Keeps s (startSweep p t) := .ite h (.ite h.setPort h.setPort.sendMgmt)

theorem Keeps.wanted {p} (h : Keeps s t) : Keeps s (wanted p t) := .ite h.startSweep h

theorem Keeps.dropRequests {p owner} (h : Keeps s t) : Keeps s (dropRequests p owner t) := h.setPort.fset

theorem Keeps.endSweep {p broken} (h : Keeps s t) : Keeps s (endSweep p broken t) := by
  unfold Machine.endSweep
  split
  · exact h
  · extract_lets _ s1 s2
    have hs1 : Keeps s s1 := h.setPort.dropRequests
    have hs2 : Keeps s s2 := hs1.sendMgmt
    split
    · exact hs2.wanted
    · exact hs2

theorem Keeps.breakSweep {p} (h : Keeps s t) : Keeps s (breakSweep p t) := by
  unfold Machine.breakSweep
  split
  · exact .ite h.endSweep h
  · exact h

theorem Keeps.leaveHeal {p} (h : Keeps s t) : Keeps s (leaveHeal t p) :=
  .ite h.setPort.dropRequests.setPortState h.setPort.dropRequests

theorem Keeps.abandonHeal {p} (h : Keeps s t) : Keeps s (abandonHeal p t) := by
  unfold Machine.abandonHeal
  split
  · exact h.setPort
  · exact .sendMgmt (.foldl h fun _ _ h1 => h1.leaveHeal)

theorem Keeps.foldPort {p fold reached} (h : Keeps s t) : Keeps s (foldPort p fold reached t) := by
  unfold Machine.foldPort
  extract_lets st was same s1 s2 s3 s4
  have hs1 : Keeps s s1 := h.setReached
  have hs2 : Keeps s s2 := hs1.breakSweep.abandonHeal
  have hs3 : Keeps s s3 := by
    unfold s3
    split
    · exact hs2.abandonHeal
    · exact hs2
  have hs4 : Keeps s s4 := .ite hs3 hs3.bump.raiseCond
  exact .ite h (.ite hs1 hs4.setPortState)

theorem Keeps.reachNone {p} (h : Keeps s t) : Keeps s (reachNone p t) :=
  .ite h.foldPort (.ite h.setReached.setPortState h)

theorem Keeps.lightPorts (h : Keeps s t) : Keeps s (lightPorts t) := .foldl h fun _ _ h1 => h1.setPort.setPortState

theorem Keeps.stopSweeps (h : Keeps s t) : Keeps s (stopSweeps t) := .foldl h fun _ _ h1 => h1.setPort.endSweep

theorem Keeps.foldUnreached (h : Keeps s t) :
    Keeps s (foldUnreached t) := .foldl h fun _ _ h1 => .ite h1.reachNone h1

/-! ### Modes (Machine/Modes) -/

theorem Keeps.setMode {m} (h : Keeps s t) : Keeps s (setMode m t) := h.update

theorem Keeps.decideMode {c st} (h : Keeps s t) : Keeps s (decideMode c st t) := by
  unfold Machine.decideMode
  extract_lets s1
  have hs1 : Keeps s s1 := h.fset
  split
  · exact .ite hs1.hmpAnswer hs1.hmpRefuse
  · exact .ite hs1 hs1.logRefusal

theorem Keeps.endWaiting {st} (h : Keeps s t) : Keeps s (endWaiting st t) := by
  unfold Machine.endWaiting
  split
  · exact h
  · exact h.update.decideMode

theorem Keeps.startEventCores (h : Keeps s t) : Keeps s (startEventCores t) :=
  .foldl (.foldl h fun _ _ h1 => h1.setCore) fun _ _ h1 => h1.enterCore

theorem Keeps.enterCommission (h : Keeps s t) : Keeps s (enterCommission t) := by
  unfold Machine.enterCommission
  extract_lets boot _ s1 s2 s3 _ _ s4
  have hs1 : Keeps s s1 := h.update.setMode.schedReset
  have hs2 : Keeps s s2 := hs1.setServo.hkaCommission
  have hs3 : Keeps s s3 := .foldl hs2 fun _ _ h1 => .ite h1.loopFromBoot h1.setLoop
  have hs4 : Keeps s s4 := hs3.update.startEventCores
  exact .ite hs4 hs4.lightPorts

theorem Keeps.enterLockoutNow (h : Keeps s t) : Keeps s (enterLockoutNow t) :=
  .archiveAdd (.foldl h.setMode.endWaiting.stopSweeps.fgcalAbort fun _ _ h1 => h1.loopLockout)

theorem Keeps.enterLockout (h : Keeps s t) : Keeps s (enterLockout t) := .ite h h.enterLockoutNow

theorem Keeps.enterRun (h : Keeps s t) : Keeps s (enterRun t) :=
  .foldUnreached (.foldl h.setMode.stopSweeps fun _ _ h1 => h1.wheelEnterRun)

theorem Keeps.enterMode {m} (h : Keeps s t) : Keeps s (enterMode m t) := by
  unfold Machine.enterMode
  split
  · exact h.enterCommission
  · exact h.setMode.foldUnreached
  · exact h.enterRun
  · exact h.setMode

/-! ### The safety die (Machine/SafetyDie) -/

theorem Keeps.setOut {q o} (h : Keeps s t) : Keeps s (setOut q o t) := h.update

theorem Keeps.settleOutputs (h : Keeps s t) : Keeps s (settleOutputs t) := h.update

theorem Keeps.latchCauses {c} (h : Keeps s t) : Keeps s (latchCauses c t) :=
  .ite h (.ite h.update h.update.update.bump.enterLockout.occur)

theorem Keeps.setPresent {code b} (h : Keeps s t) : Keeps s (setPresent code b t) := h.update

theorem Keeps.safetyFirmwareStep {chA chB svOk selfOk} (h : Keeps s t) :
    Keeps s (safetyFirmwareStep chA chB svOk selfOk t) :=
  .ite h (.crossLink (.settleOutputs (.latchCauses (.setPresent (.ite h.update.setPresent h.update)))))

theorem Keeps.endTests (h : Keeps s t) : Keeps s (endTests t) := h.update

theorem Keeps.sendBlockComma {p} (h : Keeps s t) : Keeps s (sendBlockComma t p) := .ite h h.drawFree.setPort

theorem Keeps.blockLine (h : Keeps s t) : Keeps s (blockLine t) := .foldl h.update fun _ _ h1 => h1.sendBlockComma

theorem Keeps.safetyBlockDecision (h : Keeps s t) : Keeps s (safetyBlockDecision t) :=
  .ite h h.endTests.blockLine.update

theorem Keeps.sf3WatchdogExpiry (h : Keeps s t) : Keeps s (sf3WatchdogExpiry t) := .ite h.update.safetyCause h

theorem Keeps.testPulse {tp missed other} (h : Keeps s t) : Keeps s (testPulse tp missed other t) :=
  .ite h (.ite h.update.safetyCause.settleOutputs h.update)

theorem Keeps.discrepancyTimeout {i} (h : Keeps s t) : Keeps s (discrepancyTimeout i t) :=
  .ite h h.update.safetyCause.settleOutputs

theorem Keeps.outputSwitchTest {q high} (h : Keeps s t) : Keeps s (outputSwitchTest q high t) := .ite h h.setOut

theorem Keeps.outputFault {q} (h : Keeps s t) : Keeps s (outputFault q t) := h.setOut.safetyCause.settleOutputs

theorem Keeps.outputSwitchTestEnd {q high pass} (h : Keeps s t) : Keeps s (outputSwitchTestEnd q high pass t) :=
  .ite h (.ite h.setOut.bump.settleOutputs h.bump.outputFault)

theorem Keeps.permitDelayExpiry {q} (h : Keeps s t) : Keeps s (permitDelayExpiry q t) := .ite h.setOut h

theorem Keeps.detected {code} (h : Keeps s t) : Keeps s (detected code t) := h.setPresent.safetyCause.settleOutputs

theorem Keeps.safetySelftestEnd {pass} (h : Keeps s t) : Keeps s (safetySelftestEnd pass t) :=
  .ite h (.ite h.update.settleOutputs h.update.setPresent.latchCauses)

theorem Keeps.armRelease (h : Keeps s t) : Keeps s (armRelease t).1 := .ite_fst h (.ite_fst h h.update)

theorem Keeps.releaseLockout (h : Keeps s t) : Keeps s (releaseLockout t) :=
  .settleOutputs (.ite h.update.bump.enterCommission h.update.bump)

theorem Keeps.resetFallingEdge {ms} (h : Keeps s t) : Keeps s (resetFallingEdge ms t) :=
  .ite h.update.releaseLockout h.update

theorem Keeps.winImage {n w} (h : Keeps s t) : Keeps s (winImage n w t) :=
  .ite h.fset h.fset.fset.fset.fset.regSet.regSet

theorem Keeps.winImages {b} (h : Keeps s t) : Keeps s (winImages b t) := .foldl h fun _ _ h1 => h1.winImage

theorem Keeps.adoptSafetyBlock {b image} (h : Keeps s t) : Keeps s (adoptSafetyBlock b image t) :=
  h.update.update.winImages.settleOutputs

theorem Keeps.setPbStatus {st} (h : Keeps s t) : Keeps s (setPbStatus st t) := h.update

theorem Keeps.safePbBody {r pwOk sig b image x} (h : Keeps s t) :
    Keeps s (safePbBody r pwOk sig b image x t).1 := by
  unfold Machine.safePbBody
  split
  · exact h.setPbStatus.occur
  · exact h.adoptSafetyBlock.setPbStatus

theorem Keeps.safePbLoad {r pwOk sig b image} (h : Keeps s t) : Keeps s (safePbLoad r pwOk sig b image t) := by
  unfold Machine.safePbLoad
  extract_lets t1
  have ht1 : Keeps s t1 := .hmpRun h (fun _ _ h1 => h1.safePbBody)
  exact .ite ht1.setPbStatus.occur ht1

theorem Keeps.safeLogAckBody {seq crc x2} (h : Keeps s t) : Keeps s (safeLogAckBody seq crc x2 t).1 :=
  .ite_fst (.ite_fst h h.update.archiveAdd) h

/-! ### Chronograph (Machine/Chrono) -/

theorem Keeps.setChr {c} (h : Keeps s t) : Keeps s (setChr c t) := h.update

theorem Keeps.setChrState {n} (h : Keeps s t) : Keeps s (setChrState n t) := h.fset

theorem Keeps.setSegState {i n} (h : Keeps s t) : Keeps s (setSegState i n t) := h.fset

theorem Keeps.falseStart {sp} (h : Keeps s t) : Keeps s (falseStart sp t) := h.setChr.bump

theorem Keeps.takeTrigger {code sp} (h : Keeps s t) : Keeps s (takeTrigger code sp t) := by
  unfold Machine.takeTrigger
  extract_lets c out
  split
  · exact h
  · exact h.setChr.setChrState.setSplitRegs

theorem Keeps.trigger {code sp} (h : Keeps s t) : Keeps s (trigger code sp t).2 := by
  unfold Machine.trigger
  extract_lets c
  split
  · exact h.takeTrigger
  · exact .ite_snd (.ite_snd h.setChr.setSplitRegs h.setChr) h.falseStart
  · exact h.setChr.falseStart
  · exact h.falseStart
  · exact h

theorem Keeps.setSeq {t'} (h : Keeps s t) : Keeps s (setSeq t' t) := h.setChr.fset

theorem Keeps.recognise {code sp} (h : Keeps s t) : Keeps s (recognise code sp t).2 :=
  .ite_snd h (.ite_snd (.ite_snd h.trigger h) (.ite_snd (.ite_snd h.setSeq.trigger h) (.ite_snd h.setSeq h)))

theorem Keeps.recognised {code sp} (h : Keeps s t) : Keeps s (recognised code sp t) := h.recognise

theorem Keeps.maskStop {m sp} (h : Keeps s t) : Keeps s (maskStop m sp t) := by
  unfold Machine.maskStop
  split
  · exact h.takeTrigger.setChr
  · exact h.setChr
  · exact h.setChrState
  · exact h.setChrState
  · exact h

theorem Keeps.maskViolated {m sp} (h : Keeps s t) : Keeps s (maskViolated m sp t) := .ite h.maskStop h.recognised

theorem Keeps.rawMasks {n i x} (h : Keeps s t) : Keeps s (rawMasks n i x t) :=
  .foldl h fun _ _ h1 => .ite h1.maskViolated h1

theorem Keeps.filtMasks {n j o} (h : Keeps s t) : Keeps s (filtMasks n j o t) :=
  .foldl h fun _ _ h1 => .ite h1.maskViolated h1

theorem Keeps.evalUnit {n o u'} (h : Keeps s t) : Keeps s (evalUnit n o t u') := by
  unfold Machine.evalUnit
  split
  · exact h
  · extract_lets x dx waiting put _ s1
    have hs1 : Keeps s s1 := h.setChr
    split
    exact .ite hs1.setChr (.ite hs1.setChr.recognised hs1)

theorem Keeps.testOutput {n e} (h : Keeps s t) : Keeps s (testOutput n t e) :=
  .ite h (.filtMasks (.foldl h fun _ _ h1 => h1.evalUnit))

theorem Keeps.chrOutputs (h : Keeps s t) : Keeps s (chrOutputs t) :=
  .foldl h fun _ _ h1 => .foldl h1.setChan fun _ _ h2 => h2.testOutput

theorem Keeps.chrLast (h : Keeps s t) : Keeps s (chrLast t) :=
  .foldl h fun _ _ h1 => .foldl h1.setChan fun _ _ h2 => h2.testOutput

theorem Keeps.chrInstant {dig} (h : Keeps s t) : Keeps s (chrInstant dig t) := by
  unfold Machine.chrInstant
  extract_lets fs _ s1 met was _ s2
  have hs1 : Keeps s s1 := .foldl h.setChr fun _ _ h1 => .ite h1.recognised h1
  have hs2 : Keeps s s2 := hs1.setChr
  exact .ite hs2.recognised hs2

theorem Keeps.trigInEdge {falling} (h : Keeps s t) : Keeps s (trigInEdge falling t) := .ite h.recognised h

theorem Keeps.pruneRaws (h : Keeps s t) : Keeps s (pruneRaws t) := h.setChr

theorem Keeps.chrBoundary {k} (h : Keeps s t) : Keeps s (chrBoundary k t) := h.setChr.pruneRaws

theorem Keeps.chrCut (h : Keeps s t) : Keeps s (chrCut t) := h.setChr

theorem Keeps.chrCapture {k} (h : Keeps s t) : Keeps s (chrCapture k t) := by
  unfold Machine.chrCapture
  split
  · exact h.setChr
  · exact h.setChr

theorem Keeps.imageWrite {h' off bs} (h : Keeps s t) : Keeps s (imageWrite h' off bs t) :=
  .ite h.putBytes.putBytes h.putBytes

theorem Keeps.queueSend {h' off n} (h : Keeps s t) : Keeps s (queueSend h' off n t) := .ite h.setChr h

theorem Keeps.enterHoldoff (h : Keeps s t) : Keeps s (enterHoldoff t) :=
  .ite h.setChr.setChrState h.setChr.setChrState

theorem Keeps.queuePre {h' t'} (h : Keeps s t) : Keeps s (queuePre h' t' t) := .foldl h fun _ _ h1 => h1.queueSend

theorem Keeps.closeRecord {flags next} (h : Keeps s t) : Keeps s (closeRecord flags next t) := by
  unfold Machine.closeRecord
  split
  · extract_lets t1 total flags ovfIndex fl s1 off
    have hs1 : Keeps s s1 := .ite h.queuePre h
    split
    next _ s2 hp =>
      have hs2 : Keeps s s2 := .snd_of_eq hp (.ite_snd hs1.drawFree hs1)
      extract_lets s3 s4 g s5 e _ s6 s7
      have hs3 : Keeps s s3 := hs2.imageWrite.queueSend
      have hs4 : Keeps s s4 := hs3.imageWrite.queueSend
      have hs5 : Keeps s s5 := hs4.setSegState.fset
      have hs6 : Keeps s s6 := hs5.setChr
      have hs7 : Keeps s s7 := hs6.bump.post
      exact .ite hs7.enterHoldoff hs7.setChrState
  · exact h

theorem Keeps.chrRecordClose (h : Keeps s t) : Keeps s (chrRecordClose t) := by
  unfold Machine.chrRecordClose
  split
  · exact h.closeRecord
  · exact h

theorem Keeps.ringBlock {h' b room} (h : Keeps s t) : Keeps s (ringBlock h' b room t) :=
  .ite h.setChr.bump.occur (.ite h h.setChr.imageWrite)

theorem Keeps.recordBlock {h' t' b room} (h : Keeps s t) : Keeps s (recordBlock h' t' b room t) := by
  unfold Machine.recordBlock
  extract_lets c off s1 _ s2 ends t1 _ s3 _
  have hs1 : Keeps s s1 := .ite h.queuePre h
  have hs2 : Keeps s s2 := hs1.setChr.imageWrite
  have hs3 : Keeps s s3 := .ite hs2 hs2.queueSend.setChr
  exact .ite h (.ite h.closeRecord.bump.occur (.ite hs3.setChr (.ite hs3.setChr hs3)))

theorem Keeps.chrBlockWrite {room} (h : Keeps s t) : Keeps s (chrBlockWrite room t) := by
  unfold Machine.chrBlockWrite
  split
  · exact h
  · extract_lets _ s1 s2
    have hs1 : Keeps s s1 := h.setChr
    have hs2 : Keeps s s2 := by
      unfold s2
      split
      · exact .ite hs1.ringBlock hs1
      · exact .ite hs1.recordBlock hs1
      · exact hs1
    exact hs2.pruneRaws

theorem Keeps.chrEscStop (h : Keeps s t) : Keeps s (chrEscStop t) :=
  .ite (.ite h (.ite h.setChr.setChr h.setChr)) h.setChr

theorem Keeps.chrStatus {st} (h : Keeps s t) : Keeps s (chrStatus st t) := h.fset

theorem Keeps.chrOp {op body} (h : Keeps s t) (hbody : ∀ y0 y1 u, Keeps s u → Keeps s (body y0 y1 u).1) :
    Keeps s (chrOp op body t) := by
  unfold Machine.chrOp
  split
  · exact h
  · split
    next _ s1 hp =>
      have hs1 : Keeps s s1 := .snd_of_eq hp h.engWord
      exact .ite (.finishOp (.putWord (.putWord (hbody _ _ _ hs1)))) (.ite hs1.finishOp h)

theorem Keeps.armInto {g stream} (h : Keeps s t) : Keeps s (armInto g stream t) :=
  h.fset.setSegState.setChr.setChrState

theorem Keeps.armNow (h : Keeps s t) : Keeps s (armNow t).1 := by
  unfold Machine.armNow
  split
  · exact h.chrStatus
  · split
    · exact h.chrStatus
    · exact h.setChr.setSeq.armInto.chrStatus

theorem Keeps.chrCommand {a o body} (h : Keeps s t) (hbody : ∀ u, Keeps s u → Keeps s (body u).1) :
    Keeps s (chrCommand a o body t).1 := by
  unfold Machine.chrCommand
  split
  next s1 _ hp =>
    have hs1 : Keeps s s1 := .fst_of_eq hp (.checkWrite h (fun _ h1 => h1))
    split
    · exact hs1.chrStatus
    · split
      next s2 _ _ hp =>
        have hs2 : Keeps s s2 := .fst_of_eq hp (hbody _ h)
        exact .ite_fst hs2 hs2.refuseWrite.chrStatus

theorem Keeps.ctrlConfig {val} (h : Keeps s t) (hu : ctrlConfig val t = some u) : Keeps s u := by
  unfold Machine.ctrlConfig at hu
  split at hu
  · obtain rfl := Option.some.inj hu
    exact h
  · split at hu
    · obtain rfl := Option.some.inj hu
      exact h.regSet
    · exact absurd hu nofun

theorem Keeps.chrArmReg {o val} (h : Keeps s t) : Keeps s (chrArmReg o val t).1 := by
  unfold Machine.chrArmReg
  refine .chrCommand h fun u h1 => ?_
  split
  next hu => exact .ite_fst (h1.ctrlConfig hu).armNow h1
  next => exact h1

theorem Keeps.chrArm {src} (h : Keeps s t) : Keeps s (chrArm src t) := by
  unfold Machine.chrArm
  split
  · exact h.chrArmReg
  · exact .chrOp h (fun _ _ _ h1 => h1.armNow)

theorem Keeps.disarmNow (h : Keeps s t) : Keeps s (disarmNow t).1 :=
  .chrStatus (.ite h (.ite h.closeRecord h.setChrState.setSegState))

theorem Keeps.chrDisarmReg {o} (h : Keeps s t) : Keeps s (chrDisarmReg o t).1 :=
  .chrCommand h (fun _ h1 => h1.disarmNow)

theorem Keeps.chrDisarm {src} (h : Keeps s t) : Keeps s (chrDisarm src t) := by
  unfold Machine.chrDisarm
  split
  · exact h.chrDisarmReg
  · exact .chrOp h (fun _ _ _ h1 => h1.disarmNow)

theorem Keeps.softTrigger (h : Keeps s t) : Keeps s (softTrigger t).1 := by
  unfold Machine.softTrigger
  extract_lets n stageA
  split
  next _ s1 hp =>
    have hs1 : Keeps s s1 := .snd_of_eq hp h.recognise
    exact .ite_fst hs1.chrStatus (.ite_fst hs1.chrStatus hs1.falseStart.chrStatus)

theorem Keeps.chrTriggerReg {o} (h : Keeps s t) : Keeps s (chrTriggerReg o t).1 :=
  .chrCommand h (fun _ h1 => h1.softTrigger)

theorem Keeps.chrTrigger {src} (h : Keeps s t) : Keeps s (chrTrigger src t) := by
  unfold Machine.chrTrigger
  split
  · exact h.chrTriggerReg
  · exact .chrOp h (fun _ _ _ h1 => h1.softTrigger)

theorem Keeps.chrMark (h : Keeps s t) : Keeps s (chrMark t) :=
  .chrOp h (fun _ _ _ h1 => .ite_fst h1 (.ite_fst h1.setChr.bump h1.setChr))

theorem Keeps.releaseSeg {g} (h : Keeps s t) : Keeps s (releaseSeg g t).1 :=
  .ite_fst h.chrStatus h.setSegState.chrStatus

theorem Keeps.chrReleaseReg {o val} (h : Keeps s t) : Keeps s (chrReleaseReg o val t).1 :=
  .chrCommand h (fun _ h1 => h1.releaseSeg)

theorem Keeps.chrRelease {src} (h : Keeps s t) : Keeps s (chrRelease src t) := by
  unfold Machine.chrRelease
  split
  · exact h.chrReleaseReg
  · exact .chrOp h (fun _ _ _ h1 => h1.releaseSeg)

theorem Keeps.chrHoldoffEnd (h : Keeps s t) : Keeps s (chrHoldoffEnd t) := .ite h (.ite h h.setChrState)

theorem Keeps.chrRearm (h : Keeps s t) : Keeps s (chrRearm t) := by
  unfold Machine.chrRearm
  split
  · exact h
  · split
    · exact h.armInto
    · exact h

theorem Keeps.chrConfigWrite {o a v} (h : Keeps s t) : Keeps s (chrConfigWrite o a v t).1 := h.checkStage.chrStatus

/-! ### Ethernet (Machine/Ether) -/

theorem Keeps.setEthPort {n p} (h : Keeps s t) : Keeps s (setEthPort n p t) := h.update

theorem Keeps.ethEmit {n t' f} (h : Keeps s t) : Keeps s (ethEmit n t' f t) := h.setEthPort.bump

theorem Keeps.ethDrain {n l} (h : Keeps s t) : Keeps s (ethDrain n l t) := by
  induction l generalizing t with
  | nil => exact h.setEthPort
  | cons f l ih =>
    unfold Machine.ethDrain
    exact .ite (ih h.ethEmit) h.setEthPort

theorem Keeps.ethSend {n f} (h : Keeps s t) : Keeps s (ethSend n f t) := .ite h.ethDrain h

theorem Keeps.pairSend {f} (h : Keeps s t) : Keeps s (pairSend f t) := .ite h.ethSend.ethSend h.ethSend

theorem Keeps.showStamps {n} (h : Keeps s t) : Keeps s (showStamps n t) := h.fset

theorem Keeps.pushStamp {n e} (h : Keeps s t) : Keeps s (pushStamp n e t).2 :=
  .ite_snd h.fset.fset.bump.occur h.setEthPort.showStamps

theorem Keeps.latchPut {rd a v} (h : Keeps s t) : Keeps s (latchPut rd a v t) := h.update

theorem Keeps.txtsRead {rd n} (h : Keeps s t) : Keeps s (txtsRead rd n t).2 := by
  unfold Machine.txtsRead
  extract_lets p
  split
  · exact h.latchPut.latchPut
  · exact h.setEthPort.showStamps.latchPut.latchPut

theorem Keeps.ptpReceive {n m phase} (h : Keeps s t) : Keeps s (ptpReceive n m phase t) :=
  .ite h.bump.bump (.ite h.bump (.ite h.bump.fset.setEthPort h.bump.fset))

theorem Keeps.nextSeq {n i} (h : Keeps s t) : Keeps s (nextSeq n i t).2 := h.setEthPort

theorem Keeps.queueOwnStamp {n t'} (h : Keeps s t) : Keeps s (queueOwnStamp n t' t) := h.drawFree.pushStamp

theorem Keeps.ptpSend {n k phase} (h : Keeps s t) : Keeps s (ptpSend n k phase t) := by
  unfold Machine.ptpSend
  extract_lets master one t1 free
  split
  · exact h
  · split
    · split
      · exact h
      · split
        next _ s1 hp =>
          have hs1 : Keeps s s1 := .snd_of_eq hp h.nextSeq
          exact .ite hs1.ethEmit hs1.ethEmit.queueOwnStamp
    · exact .ite h h.nextSeq.ethEmit
    · exact .ite h h.ethEmit
    · exact h.nextSeq.ethEmit
    · split
      · exact h
      · exact .ite h.ethEmit.setEthPort h.ethEmit.queueOwnStamp
    · split
      · exact h
      · exact .ite h h.ethEmit.setEthPort

theorem Keeps.showDepths {n} (h : Keeps s t) : Keeps s (showDepths n t) := h.fset.fset.fset.fset

theorem Keeps.addLaunch {n l} (h : Keeps s t) : Keeps s (addLaunch n l t) := h.setEthPort.showDepths

theorem Keeps.launchStatus {d st} (h : Keeps s t) : Keeps s (launchStatus d st t) := h.putBytes

theorem Keeps.lqPost {o n q addr} (h : Keeps s t) : Keeps s (lqPost o n q addr t).1 := by
  unfold Machine.lqPost
  extract_lets a d word fr len core t1 l s1
  have hs1 : Keeps s s1 := h.launchStatus.addLaunch
  split
  · exact h.refuseWrite
  · split
    · exact h.refuseWrite
    · split
      · exact h
      · split
        · exact h.bump.traceEvent.launchStatus
        · exact .ite_fst h.launchStatus (.ite_fst h.launchStatus (.ite hs1.addLaunch hs1))

theorem Keeps.launchDone {d st late ans sent} (h : Keeps s t) : Keeps s (launchDone d st late ans sent t) :=
  .ite h.launchStatus.putWord.putWord h.launchStatus

theorem Keeps.copyDone {n l st late ans} (h : Keeps s t) : Keeps s (copyDone n l st late ans t) := by
  unfold Machine.copyDone
  split
  · exact h.launchDone
  · split
    · exact h.update
    · exact h.update.launchDone

theorem Keeps.afterLaunch {n} (h : Keeps s t) : Keeps s (afterLaunch n t) := .ite h.ethDrain h

theorem Keeps.timedLaunch {n phase} (h : Keeps s t) : Keeps s (timedLaunch n phase t) := by
  unfold Machine.timedLaunch
  split
  · exact h
  · extract_lets now p pol busy takeOff drop late s1 s2 s3
    have hs1 : Keeps s s1 := h.setEthPort.showDepths.ethEmit
    have hs2 : Keeps s s2 := .ite hs1.bump hs1
    have hs3 : Keeps s s3 := by
      unfold s3
      split
      · split
        next _ s4 hp =>
          have hs4 : Keeps s s4 := .snd_of_eq hp hs2.pushStamp
          exact .ite hs4.putBytes hs4
      · exact hs2
    split
    · exact h
    · split
      · exact h.setEthPort.showDepths.bump.copyDone.afterLaunch
      · split
        · exact h.bump.setEthPort.showDepths.bump.copyDone.afterLaunch
        · exact .ite h hs3.copyDone.afterLaunch

theorem Keeps.prpCheck {n p} (h : Keeps s t) : Keeps s (prpCheck n p t).2 := by
  unfold Machine.prpCheck
  split
  · exact h
  · split
    · exact h.bump
    · split
      · exact h
      · split
        · exact h
        · exact .ite_snd (.bump (.update (.ite h h.bump))) (.update (.ite h h.bump))

theorem Keeps.setGsub {e g} (h : Keeps s t) : Keeps s (setGsub e g t) := h.update

theorem Keeps.setGValid {e b} (h : Keeps s t) : Keeps s (setGValid e b t) := h.regSet.fset

theorem Keeps.gooseTake {e f} (h : Keeps s t) : Keeps s (gooseTake e f t) :=
  .ite h.bump (.ite h.setGsub.regSet.setGValid.post h.setGsub.regSet.setGValid)

theorem Keeps.gooseReceive {n f} (h : Keeps s t) : Keeps s (gooseReceive n f t) := by
  unfold Machine.gooseReceive
  split
  next _ s1 hp =>
    have hs1 : Keeps s s1 := .snd_of_eq hp h.bump.prpCheck
    exact .ite hs1 (.foldl hs1 fun _ _ h1 => .ite h1.gooseTake h1)

theorem Keeps.gooseTalExpiry {e} (h : Keeps s t) : Keeps s (gooseTalExpiry e t) := by
  unfold Machine.gooseTalExpiry
  split
  · exact .ite h.setGValid h
  · exact h

theorem Keeps.publishGoose (h : Keeps s t) : Keeps s (publishGoose t) := .foldl h.putBytes fun _ _ h1 => h1.putBytes

theorem Keeps.setGpub {g x} (h : Keeps s t) : Keeps s (setGpub g x t) := h.update

theorem Keeps.gpubSend {g interval} (h : Keeps s t) : Keeps s (gpubSend g interval t) := by
  unfold Machine.gpubSend
  extract_lets x f ps s1 s2 s3
  have hs1 : Keeps s s1 := h.setGpub
  have hs2 : Keeps s s2 := .ite hs1.pairSend hs1
  have hs3 : Keeps s s3 := .ite hs2.ethSend hs2
  exact .ite hs3.ethSend hs3

theorem Keeps.goosePublish (h : Keeps s t) : Keeps s (goosePublish t) :=
  .foldl h fun _ _ h1 => .ite h1.regSet.regSet.setGpub.gpubSend h1

theorem Keeps.gooseRepeat {g} (h : Keeps s t) : Keeps s (gooseRepeat g t) := .ite h.regSet.gpubSend h

theorem Keeps.svTake {st a} (h : Keeps s t) : Keeps s (svTake st a t) := by
  unfold Machine.svTake
  extract_lets rate i s1 s2 s3 run _ s4
  have hs1 : Keeps s s1 := h.setSvSamples
  have hs2 : Keeps s s2 := hs1.fset.fset.bump
  have hs3 : Keeps s s3 := .foldl hs2 fun _ _ h1 => h1.fset
  have hs4 : Keeps s s4 := hs3.update
  exact .ite h.bump (.ite h.bump (.ite hs4.fset (.ite hs4.fset.condIs hs4)))

theorem Keeps.svReceive {n f} (h : Keeps s t) : Keeps s (svReceive n f t) :=
  .ite h.bump (.foldl h.bump fun _ _ h1 => .ite h1 (.ite h1.bump (.foldl h1 fun _ _ h2 => h2.svTake)))

theorem Keeps.svStreamLost {st} (h : Keeps s t) : Keeps s (svStreamLost st t) :=
  .ite h (.condIs (.fset (.update (.foldl h fun _ _ h1 => h1.resetChan))))

theorem Keeps.ipSend {n f} (h : Keeps s t) : Keeps s (ipSend n f t) := .ite h.pairSend h.ethSend

theorem Keeps.arpRequest {n ip} (h : Keeps s t) : Keeps s (arpRequest n ip t) := .ite h.bump.ipSend h.bump

theorem Keeps.icmpEcho {n ip src data} (h : Keeps s t) : Keeps s (icmpEcho n ip src data t) :=
  .ite h.bump.ipSend h.bump

theorem Keeps.arpReply {n ip} (h : Keeps s t) : Keeps s (arpReply n ip t) := .ite h.bump.update h.bump

theorem Keeps.streamDatagram {bs} (h : Keeps s t) (hu : streamDatagram t = some (bs, u)) : Keeps s u := by
  unfold Machine.streamDatagram at hu
  split at hu
  · extract_lets k g size bytes pre at hu
    split at hu
    · obtain ⟨-, rfl⟩ := Prod.mk.inj (Option.some.inj hu)
      exact h.setChr
    · exact absurd hu nofun
  · exact absurd hu nofun

theorem Keeps.chrStreamDatagram (h : Keeps s t) : Keeps s (chrStreamDatagram t) := by
  unfold Machine.chrStreamDatagram
  split
  next hu => exact (h.streamDatagram hu).ipSend
  next => exact .ite h.ipSend h

theorem Keeps.ethLinkDown {n} (h : Keeps s t) : Keeps s (ethLinkDown n t) := by
  unfold Machine.ethLinkDown
  extract_lets slave _ s1 s2 s3
  have hs1 : Keeps s s1 := h.setEthPort.fset
  have hs2 : Keeps s s2 := .ite hs1.fset hs1
  have hs3 : Keeps s s3 := hs2.fset
  exact .ite hs3.condIs hs3

theorem Keeps.ethLinkUp {n} (h : Keeps s t) : Keeps s (ethLinkUp n t) := h.fset.fset.condIs

/-! ### Chain and mirror (Machine/Chain) -/

theorem Keeps.setChainOut {ch count} (h : Keeps s t) : Keeps s (setChainOut ch count t) :=
  .foldl h fun _ _ h1 => h1.setPortState.setPort

theorem Keeps.readmitPort {p} (h : Keeps s t) : Keeps s (readmitPort p t) :=
  .ite h (.ite h.setReached.setPortState h.setPortState)

theorem Keeps.numberRequests {p rs} (h : Keeps s t) : Keeps s (numberRequests p rs t).2 := h.setPort

theorem Keeps.setQueue {p q} (h : Keeps s t) : Keeps s (setQueue p q t) := h.setPort.fset

theorem Keeps.pumpQueue {p} (h : Keeps s t) : Keeps s (pumpQueue p t) := h.setPort.setQueue

theorem Keeps.askCells {p rs} (h : Keeps s t) : Keeps s (askCells p rs t) := h.numberRequests.setPort.pumpQueue

theorem Keeps.enqueueSvc {p r} (h : Keeps s t) : Keeps s (enqueueSvc p r t).1 :=
  .ite_fst h.numberRequests.setQueue h.fset.bump.traceEvent

theorem Keeps.sendRequest {p r} (h : Keeps s t) : Keeps s (sendRequest p r t).2 := .ite_snd h h.update.bump

theorem Keeps.launchTail {p} (h : Keeps s t) : Keeps s (launchTail p t).2 :=
  .foldl_snd h fun _ _ h1 => h1.sendRequest.setQueue

theorem Keeps.setOutcome {ch posE o} (h : Keeps s t) : Keeps s (setOutcome ch posE o t) :=
  .foldl h fun _ _ h1 => h1.fset

theorem Keeps.writeParams {ch posE} (h : Keeps s t) : Keeps s (writeParams ch posE t) := by
  unfold Machine.writeParams
  split
  · exact h
  · split
    · exact h
    · exact h.askCells

theorem Keeps.settlePosition {ch posE} (h : Keeps s t) : Keeps s (settlePosition ch posE t) := by
  unfold Machine.settlePosition
  split
  · exact h.setOutcome
  · exact .ite h.setOutcome.condIs.writeParams h.setOutcome.condIs

theorem Keeps.settleChain {ch} (h : Keeps s t) : Keeps s (settleChain ch t) := by
  unfold Machine.settleChain
  extract_lets s1
  have hs1 : Keeps s s1 := .foldl h fun _ _ h1 => h1.settlePosition
  split
  · exact hs1.setChainOut.condIs
  · exact .ite (.foldl hs1.clearCond fun _ _ h1 => h1.setPort.readmitPort) hs1

theorem Keeps.voidCheckByLap (h : Keeps s t) : Keeps s (voidCheckByLap t) := .ite h.update h

theorem Keeps.settleLap {p} (h : Keeps s t) : Keeps s (settleLap p t) := by
  unfold Machine.settleLap
  split
  · exact h
  · split
    · exact h.setPort.regSet
    · extract_lets _ s1
      have hs1 : Keeps s s1 := h.setPort.regSet.voidCheckByLap
      exact .ite hs1.setChainOut.condIs hs1

theorem Keeps.settleReach {p} (h : Keeps s t) : Keeps s (settleReach p t) := by
  unfold Machine.settleReach
  split
  · exact h
  · exact .ite h (.sendMgmt (.ite h.fset.fset h))

theorem Keeps.discGo {o} (h : Keeps s t) : Keeps s (discGo o t).1 :=
  .checkWrite h (fun _ h1 => .foldl h1 fun _ _ h2 => h2.startSweep)

theorem Keeps.discoveryRepeat {p} (h : Keeps s t) : Keeps s (discoveryRepeat p t) := .ite h.startSweep h

theorem Keeps.sweepRestart {p} (h : Keeps s t) : Keeps s (sweepRestart p t) := .ite h.startSweep h

theorem Keeps.probeLaunch {p} (h : Keeps s t) : Keeps s (probeLaunch p t) := by
  unfold Machine.probeLaunch
  split
  · exact .ite h h.setPort
  · exact h

theorem Keeps.recordProbes {p w} (h : Keeps s t) : Keeps s (recordProbes p w t) := by
  unfold Machine.recordProbes
  refine .foldl h fun _ _ h1 => ?_
  split
  · exact h1
  · split
    · exact h1
    · exact h1.fset.fset

theorem Keeps.settleReached {p n} (h : Keeps s t) : Keeps s (settleReached p n t) :=
  .ite h (.ite h.setReached (.ite h.setReached.reachNone h.setReached.setPortState))

theorem Keeps.settleEnd {p} (h : Keeps s t) : Keeps s (settleEnd p t) := by
  unfold Machine.settleEnd
  split
  · exact h
  · extract_lets s1 s2
    have hs1 : Keeps s s1 := h.settleChain.settleLap
    have hs2 : Keeps s s2 := by
      unfold s2
      split
      · exact .ite hs1.settleLap hs1
      · exact hs1
    exact hs2.settleReach

theorem Keeps.finishSweep {p w} (h : Keeps s t) : Keeps s (finishSweep p w t) := by
  unfold Machine.finishSweep
  extract_lets n s1 _ s2 s3 s4 s5
  have hs1 : Keeps s s1 := h.recordProbes
  have hs2 : Keeps s s2 := hs1.setPort
  have hs3 : Keeps s s3 := hs2.settleReached.settleEnd
  have hs4 : Keeps s s4 := hs3.sendMgmt
  have hs5 : Keeps s s5 := .ite hs4.sendMgmt hs4
  split
  · exact hs5.wanted
  · exact hs5

theorem Keeps.endProbes {p w} (h : Keeps s t) : Keeps s (endProbes p w t) := by
  unfold Machine.endProbes
  split
  · exact h
  · exact .ite h.finishSweep h.setPort.askCells

theorem Keeps.frameCheck {p n bytes} (h : Keeps s t) : Keeps s (frameCheck p n bytes t).2 := by
  unfold Machine.frameCheck
  split
  next _ s1 hp =>
    have hs1 : Keeps s s1 := .snd_of_eq hp h.takeInjection
    exact .ite hs1 hs1.bump.occurInj

theorem Keeps.bareFrame {p frame} (h : Keeps s t) : Keeps s (bareFrame p frame t).2 := h.bumpBy.frameCheck

theorem Keeps.probeReturn {p frame rtt} (h : Keeps s t) : Keeps s (probeReturn p frame rtt t) := by
  unfold Machine.probeReturn
  refine .ite h ?_
  split
  next hp => exact .snd_of_eq hp h.bareFrame
  next s1 hp =>
    have hs1 : Keeps s s1 := .snd_of_eq hp h.bareFrame
    split
    · exact hs1
    · exact .ite hs1 (.ite hs1.setPort.noteHeader.endProbes hs1.setPort.noteHeader)

theorem Keeps.probeTimeout {p} (h : Keeps s t) : Keeps s (probeTimeout p t) := by
  unfold Machine.probeTimeout
  split
  · exact .ite h.endProbes h
  · exact h

theorem Keeps.shiftPhi {p i0 n west d} (h : Keeps s t) : Keeps s (shiftPhi p i0 n west d t) :=
  .foldl h fun _ _ h1 => .ite h1 h1.fset.askCells

theorem Keeps.stopFolds {p f n c} (h : Keeps s t) : Keeps s (stopFolds p f n c t) := by
  unfold Machine.stopFolds
  extract_lets stop far faces s1
  have hs1 : Keeps s s1 := .ite h h.askCells
  split
  · exact .ite (.ite hs1.askCells (.ite hs1.askCells hs1)) (.ite hs1 hs1.askCells)
  · exact .ite hs1.askCells (.ite hs1.askCells hs1)

theorem Keeps.applyDelay {p delay} (h : Keeps s t) : Keeps s (applyDelay p delay t) := by
  unfold Machine.applyDelay
  split
  · exact h
  · extract_lets f d lap _ s1 s2
    have hs1 : Keeps s s1 := h.setPort
    have hs2 : Keeps s s2 := hs1.shiftPhi.regSet
    refine .voidCheckByLap ?_
    split
    · exact hs2.shiftPhi.regSet
    · exact hs2.settleReach

theorem Keeps.healMeasured {p delay} (h : Keeps s t) : Keeps s (healMeasured p delay t) := by
  unfold Machine.healMeasured
  split
  · extract_lets f c _ s1 s2 s3 _
    have hs1 : Keeps s s1 := h.setPort.stopFolds
    have hs2 : Keeps s s2 := hs1.applyDelay.sendMgmt
    have hs3 : Keeps s s3 := h.abandonHeal
    exact .ite (.ite hs2 hs2.clearCond) hs3.setPort.condIs
  · exact h

theorem Keeps.joinHeal {q} (h : Keeps s t) : Keeps s (joinHeal q t) := .ite h.setPortState h

theorem Keeps.startHeal {p0} (h : Keeps s t) : Keeps s (startHeal p0 t) := by
  unfold Machine.startHeal
  split
  · exact h
  · extract_lets p west f c faces s1 s2 _ s3
    have hs1 : Keeps s s1 := h.joinHeal
    have hs2 : Keeps s s2 := by
      unfold s2
      split
      · exact .ite hs1.joinHeal hs1
      · exact hs1
    have hs3 : Keeps s s3 := hs2.setPort.sendMgmt
    exact .ite hs2.setPort (.ite hs3 hs3.askCells)

theorem Keeps.healHoldExpiry {p} (h : Keeps s t) : Keeps s (healHoldExpiry p t) :=
  .ite h (.ite h.setPort.startHeal h.setPort)

theorem Keeps.chainHeal {r p} (h : Keeps s t) : Keeps s (chainHeal r p t) :=
  .hmpRun h (fun _ _ h1 => .ite_fst h1 (.ite_fst h1 h1.startHeal))

theorem Keeps.leaveFold {n faces q} (h : Keeps s t) : Keeps s (leaveFold n faces t q) :=
  .clearCond (.setPortState (.ite h.setPort.setReached h.setPort))

theorem Keeps.healComplete {p} (h : Keeps s t) : Keeps s (healComplete p t) := by
  unfold Machine.healComplete
  split
  · exact .ite h (.foldl h fun _ _ h1 => h1.leaveFold)
  · exact h

theorem Keeps.echoLaunch {p} (h : Keeps s t) : Keeps s (echoLaunch p t) := by
  unfold Machine.echoLaunch
  split
  · exact .ite h h.setPort
  · exact h

theorem Keeps.echoReceive {p frame n} (h : Keeps s t) : Keeps s (echoReceive p frame n t) := by
  unfold Machine.echoReceive
  refine .ite h ?_
  split
  next hp => exact .snd_of_eq hp h.bareFrame
  next s1 hp =>
    have hs1 : Keeps s s1 := .snd_of_eq hp h.bareFrame
    refine .ite hs1 (.ite ?_ hs1.setPort)
    split
    · exact hs1.healMeasured
    · exact hs1.setPort.sendMgmt

theorem Keeps.svcEvent {p r st payload} (h : Keeps s t) : Keeps s (svcEvent p r st payload t) := by
  unfold Machine.svcEvent
  split
  · exact h.putBytes.post
  · exact h

theorem Keeps.sweepAnswer {p r st payload} (h : Keeps s t) : Keeps s (sweepAnswer p r st payload t) := by
  unfold Machine.sweepAnswer
  split
  · exact h
  · extract_lets w w2 w3 _ s1 _ s2
    have hs1 : Keeps s s1 := h.setPort
    have hs2 : Keeps s s2 := .ite hs1.setPort hs1
    exact .ite hs2.finishSweep hs2

theorem Keeps.healAnswer {p r st payload} (h : Keeps s t) : Keeps s (healAnswer p r st payload t) :=
  .ite (.ite h.healMeasured h.abandonHeal) (.ite h.abandonHeal h)

theorem Keeps.completeSvc {p r st payload} (h : Keeps s t) : Keeps s (completeSvc p r st payload t) := by
  unfold Machine.completeSvc
  extract_lets s1 late s2
  have hs1 : Keeps s s1 := h.setQueue.pumpQueue
  have hs2 : Keeps s s2 := .ite hs1.bump hs1
  split
  · exact hs2.sweepAnswer
  · exact hs2.healAnswer
  · exact hs2
  · exact hs2.svcEvent

theorem Keeps.svcResponse {p seg} (h : Keeps s t) : Keeps s (svcResponse p seg t) := by
  unfold Machine.svcResponse
  split
  · exact h
  · split
    · exact h
    · exact .ite h h.completeSvc

theorem Keeps.svcTimeout {p pos} (h : Keeps s t) : Keeps s (svcTimeout p pos t) := by
  unfold Machine.svcTimeout
  split
  · exact h
  · exact .ite h (.ite h.setQueue h.bump.completeSvc)

theorem Keeps.acceptIdent {m b} (h : Keeps s t) : Keeps s (acceptIdent m b t) := h.update

theorem Keeps.cellAccept {r chain pos} (h : Keeps s t) : Keeps s (cellAccept r chain pos t) := by
  unfold Machine.cellAccept
  refine .hmpRun h fun _ _ h1 => ?_
  split
  · split
    · exact h1
    · split
      · exact h1
      · exact h1.acceptIdent.update
  · exact h1

theorem Keeps.adoptAccepts (h : Keeps s t) : Keeps s (adoptAccepts t) := by
  unfold Machine.adoptAccepts
  extract_lets due _ s1 s2
  have hs1 : Keeps s s1 := h.update
  have hs2 : Keeps s s2 := .ite hs1 hs1.voidCheck
  refine .foldl hs2 fun _ _ h1 => ?_
  split
  · exact h1.setOutcome.clearCond.writeParams
  · exact h1

theorem Keeps.launchFrame {withheld p} (h : Keeps s t) : Keeps s (launchFrame withheld p t) := by
  unfold Machine.launchFrame
  split
  · exact h
  · exact .ite h (.ite h.setPort.bump (.ite h.setPort h.launchTail.setPort))

theorem Keeps.launchFrames {withheld} (h : Keeps s t) : Keeps s (launchFrames withheld t) :=
  .foldl h fun _ _ h1 => h1.launchFrame

theorem Keeps.relayFrameLaunch {ch} (h : Keeps s t) : Keeps s (relayFrameLaunch ch t) := by
  unfold Machine.relayFrameLaunch
  split
  · exact .ite h h.setPort
  · exact h

theorem Keeps.noteCommands {ch west frame} (h : Keeps s t) : Keeps s (noteCommands ch west frame t) := by
  unfold Machine.noteCommands
  refine .foldl h fun _ _ h1 => ?_
  split
  · exact .ite h1.setCell h1
  · exact h1

theorem Keeps.takeSlotFrom {p q n lap ch west current frame j} (h : Keeps s t) :
    Keeps s (takeSlotFrom p q n lap ch west current frame t j) := by
  unfold Machine.takeSlotFrom
  split
  · exact h
  · split
    · exact h.bump
    · extract_lets at01
      split
      · exact h.bump
      · split
        · exact h
        · exact .ite h.deliver.cellTableEntry h.deliver

theorem Keeps.chainFrame {p chars lap codes} (h : Keeps s t) : Keeps s (chainFrame p chars lap codes t) := by
  unfold Machine.chainFrame
  split
  · exact h
  · split
    · exact h
    · extract_lets frame s1 s2 sound bit
      have hs1 : Keeps s s1 := h.bumpBy
      have hs2 : Keeps s s2 := hs1.frameCheck
      split
      · exact hs2
      · split
        · exact hs2
        · extract_lets s3 mine folded f s4 _ s5 twin _ s6 s7 s8 q js
          have hs3 : Keeps s s3 := .ite hs2.noteHeader hs2
          have hs4 : Keeps s s4 := .ite hs3.foldPort hs3
          have hs5 : Keeps s s5 := .ite hs4.update hs4
          have hs6 : Keeps s s6 := .ite hs5.update hs5
          have hs7 : Keeps s s7 := .ite hs6.noteCommands hs6
          have hs8 : Keeps s s8 := .ite hs7.regSet hs7
          exact .foldl hs8 fun _ _ h1 => h1.takeSlotFrom

theorem Keeps.portLoss {p} (h : Keeps s t) : Keeps s (portLoss p t) := by
  unfold Machine.portLoss
  split
  · exact h
  · extract_lets _ s1 s2 s3
    have hs1 : Keeps s s1 := h.setPort.bump
    have hs2 : Keeps s s2 := hs1.breakSweep.abandonHeal
    have hs3 : Keeps s s3 := by
      unfold s3
      split
      · exact hs2.abandonHeal
      · exact hs2
    exact hs3.reachNone

theorem Keeps.portReturn {p} (h : Keeps s t) : Keeps s (portReturn p t) := .ite h h.setPort

theorem Keeps.chainFreq {p off} (h : Keeps s t) : Keeps s (chainFreq p off t) := .ite h h.setPort.condIs

theorem Keeps.takeDiscovery {p cells lap} (h : Keeps s t) : Keeps s (takeDiscovery p cells lap t) := by
  unfold Machine.takeDiscovery
  extract_lets s1 n _ s2 s3 _
  have hs1 : Keeps s s1 := by
    unfold s1
    refine .foldl h fun _ _ h1 => ?_
    split
    · exact h1.fset.fset
    · exact h1
  have hs2 : Keeps s s2 := hs1.setPort
  have hs3 : Keeps s s3 := hs2.settleReached.settleEnd
  exact .ite hs3 hs3.setPort.regSet.voidCheckByLap

theorem Keeps.followHeal {p delay c} (h : Keeps s t) : Keeps s (followHeal p delay c t) :=
  .ite h.joinHeal.applyDelay.setPort h

theorem Keeps.management {m} (h : Keeps s t) : Keeps s (management m t) := by
  unfold Machine.management
  split
  · exact h
  · split
    · exact h.setPort
    · exact .wanted (.ite h.setPort.update.settleEnd h.setPort.update)
    · split
      · exact .ite h.healMeasured h
      · exact .ite h.setPort.settleEnd h.setPort
    · exact h.update.fset
    · split
      · exact h
      · split
        · exact h.fset.fset
        · exact h
    · exact h.update
    · exact .ite h.takeDiscovery h
    · exact .ite h.startHeal h
    · exact .ite h.followHeal h
    · exact h.abandonHeal
    · exact .ite h h.startSelftest

/-! ### Budget check (Machine/Budget) -/

theorem Keeps.stageTiming {a v} (h : Keeps s t) : Keeps s (stageTiming a v t) := h.update.voidCheck

theorem Keeps.escTiming {o a v} (h : Keeps s t) : Keeps s (escTiming o a v t).1 :=
  .ite_fst (.checkWrite h (fun _ h1 => h1.stageTiming)) h

theorem Keeps.mapCheck (h : Keeps s t) : Keeps s (mapCheck t).2 := by
  unfold Machine.mapCheck
  split
  · exact h.regSet
  · exact h.regSet

theorem Keeps.setRota {laps} (h : Keeps s t) : Keeps s (setRota laps t) := .foldl h fun _ _ h1 => h1.regSet

theorem Keeps.showBudget {t'} (h : Keeps s t) : Keeps s (showBudget t' t) :=
  h.fset.fset.fset.fset.fset.regSet.fset.fset

theorem Keeps.escCheckGo {o} (h : Keeps s t) : Keeps s (escCheckGo o t).1 :=
  .checkWrite h (fun _ h1 => h1.update.fset.fset)

theorem Keeps.admitChains {laps} (h : Keeps s t) : Keeps s (admitChains laps t) :=
  .foldl h fun _ _ h1 => .ite (.foldl h1.clearCond fun _ _ h2 => h2.setPort.readmitPort) h1

theorem Keeps.budgetDone (h : Keeps s t) : Keeps s (budgetDone t) := by
  have hs {x : Terms} {st : Nat} {fail : Nat} :
      Keeps s (Machine.mapCheck (Machine.fset Fld.ESC_BUDGET_STAT_FIRST_FAIL fail (Machine.fset
        Fld.ESC_BUDGET_STAT_STATUS st (Machine.showBudget x (Machine.fset Fld.ESC_STATUS_CHECKING 0
          { t with esc := { t.esc with checking := none } }))))).2 :=
    h.update.fset.showBudget.fset.fset.mapCheck
  fun_cases Machine.budgetDone
  · exact h
  next hp _ _ _ _ => exact (Keeps.snd_of_eq hp hs).update.update.setRota.admitChains
  next hp _ _ _ _ => exact (Keeps.snd_of_eq hp hs).update

/-! ### Mode requests (Machine/ModeReq) -/

theorem Keeps.pairCheck (h : Keeps s t) : Keeps s (pairCheck t).2 := by
  unfold Machine.pairCheck
  split
  · exact h.fset.fset
  · exact h.fset.fset

theorem Keeps.takeMode {c m} (h : Keeps s t) : Keeps s (takeMode c m t) := h.endWaiting.update

theorem Keeps.modeWrite {o m} (h : Keeps s t) : Keeps s (modeWrite o m t).1 := by
  unfold Machine.modeWrite
  split
  · exact h.refuseWrite.fset
  · exact h.takeMode.regSet

theorem Keeps.modeCommand {r m} (h : Keeps s t) : Keeps s (modeCommand r m t) := by
  unfold Machine.modeCommand
  refine .hmpRun h fun _ _ h1 => ?_
  split
  · exact h1.fset
  · exact h1.takeMode

theorem Keeps.modeRequest {c m} (h : Keeps s t) : Keeps s (modeRequest c m t) := by
  unfold Machine.modeRequest
  split
  · exact h.modeCommand
  · exact h.modeWrite

theorem Keeps.modeConditions {m} (h : Keeps s t) : Keeps s (modeConditions m t).2 := by
  unfold Machine.modeConditions
  split
  · exact h
  · split
    · split
      next _ s1 hp =>
        have hs1 : Keeps s s1 := .snd_of_eq hp (.ite_snd (.ite_snd h.pairCheck h) h)
        exact hs1
    · exact h
    · exact h

theorem Keeps.followHolder (h : Keeps s t) : Keeps s (followHolder t) := by
  unfold Machine.followHolder
  split
  · exact h
  · exact .ite h (.ite h.update.enterMode h.update)

theorem Keeps.readinessLost (h : Keeps s t) : Keeps s (readinessLost t) := .ite h.enterMode h

theorem Keeps.adoptMode (h : Keeps s t) : Keeps s (adoptMode t) := by
  unfold Machine.adoptMode
  split
  · exact h.followHolder
  next q _ =>
    have hq : Keeps s (Machine.modeConditions q.target (if q.target = .run then Machine.readinessLost t else t)).2 :=
      .modeConditions (.ite h.readinessLost h)
    refine .ite h ?_
    split
    next hp => exact .endWaiting (.snd_of_eq hp hq)
    next hp => exact .endWaiting (.enterMode (.snd_of_eq hp hq))

theorem Keeps.noteReadiness (h : Keeps s t) : Keeps s (noteReadiness t) := .ite h.update h.update

theorem Keeps.readinessReached (h : Keeps s t) : Keeps s (readinessReached t) := .ite h.enterMode h

/-! ### Register reads (Machine/Regs) -/

theorem Keeps.showRing (h : Keeps s t) : Keeps s (showRing t) := h.regSet.regSet.regSet

theorem Keeps.showImages (h : Keeps s t) : Keeps s (showImages t) := h.fset.fset

theorem Keeps.publishRegs (h : Keeps s t) : Keeps s (publishRegs t) := h.showRing.update

theorem Keeps.bankValRead {m} (h : Keeps s t) : Keeps s (bankValRead m t).2 := by
  unfold Machine.bankValRead
  extract_lets n
  split
  · exact h.fset.regSet
  · exact h.fset.regSet

theorem Keeps.latchHalves {rd d a} (h : Keeps s t) : Keeps s (latchHalves rd d a t) :=
  .foldl h fun _ _ h1 => h1.latchPut

theorem Keeps.readReg {rd a} (h : Keeps s t) : Keeps s (readReg rd a t).2 := by
  unfold Machine.readReg
  split
  · exact h.occur
  · split
    · exact h.occur
    · extract_lets stamp
      split
      · exact h.txtsRead
      · exact .ite_snd h.bankValRead (.ite_snd h.hkaResRead (.ite_snd h h.latchHalves))

theorem Keeps.readRegs {rd a n} (h : Keeps s t) : Keeps s (readRegs rd a n t).2 := by
  induction n generalizing t a with
  | zero => exact h
  | succ n ih => exact ih h.readReg

theorem Keeps.restartMaxima (h : Keeps s t) : Keeps s (restartMaxima t) := .foldl h.fset fun _ _ h1 => h1.fset

theorem Keeps.filterRegs {p : Nat × Word → Bool} {bank} (h : Keeps s t) :
    Keeps s { t with bank := bank, regs := t.regs.filter p } :=
  ⟨h.1, fun hs => have ⟨hm, hh, hu, hr⟩ := h.2 hs; ⟨hm, hh, hu, Store.wf_filter _ _ _ hr⟩⟩

theorem Keeps.statBoundary (h : Keeps s t) : Keeps s (statBoundary t) := by
  unfold Machine.statBoundary
  extract_lets sec p due bound later idx s1 s2 s3 s4 s5
  have hs5 : Keeps s s5 := h.filterRegs.restartMaxima.fset.regSet.regSet.setSplitRegs
  exact .ite h hs5.update

theorem Keeps.statPeriodWrite {o val} (h : Keeps s t) : Keeps s (statPeriodWrite o val t).1 :=
  .checkWrite h (fun _ h1 => h1.update.fset)

/-! ### Register writes (Machine/Writes) -/

theorem Keeps.plainWrite {a v} (h : Keeps s t) : Keeps s (plainWrite a v t) := by
  unfold Machine.plainWrite
  split
  · exact h.regSet
  · exact h

theorem Keeps.upbStat {id b st} (h : Keeps s t) : Keeps s (upbStat id b st t) := h.regSet

theorem Keeps.upbCommit {o v} (h : Keeps s t) : Keeps s (upbCommit o v t).1 := by
  unfold Machine.upbCommit
  extract_lets id b len
  split
  next s1 _ hp =>
    have hs1 : Keeps s s1 := by
      refine .fst_of_eq hp (.checkWrite h fun u h1 => ?_)
      extract_lets s2 words s3
      have hs2 : Keeps s s2 := h1.plainWrite
      have hs3 : Keeps s s3 := by
        unfold s3
        split
        · exact hs2.bump
        · exact hs2
      exact .ite hs3.update hs2
    exact .ite hs1.upbStat hs1

theorem Keeps.adoptUpb (h : Keeps s t) : Keeps s (adoptUpb t) := by
  unfold Machine.adoptUpb
  refine .foldl h fun _ _ h1 => ?_
  split
  · exact h1
  · exact .ite h1.putBytes.update.upbStat h1

theorem Keeps.dropSubscription {a} (h : Keeps s t) : Keeps s (dropSubscription a t) := h.update.setGValid

theorem Keeps.voidCheckByWrite {a} (h : Keeps s t) : Keeps s (voidCheckByWrite a t) := .ite h.voidCheck h

theorem Keeps.takeWrite {a v} (h : Keeps s t) : Keeps s (takeWrite a v t) := by
  unfold Machine.takeWrite
  extract_lets off n s1 _ s2 s3 rate was t1 s4 s5
  have hs1 : Keeps s s1 := h.regSet
  have hs2 : Keeps s s2 := h.plainWrite
  have hs3 : Keeps s s3 := .ite hs2.setServo hs2
  have hs4 : Keeps s s4 := .ite h.regSet h
  have hs5 : Keeps s s5 := h.plainWrite.disableLanes.settleLanes
  split
  · exact .ite (.ite h.adoptChCfg h.adoptWin) h.plainWrite
  · exact .ite h.adoptFlt h.plainWrite
  · exact .ite hs1.update hs1
  · exact .ite hs3.selectRef hs3
  · exact .ite hs2.dropSubscription (.ite hs2.svRateChanged hs2)
  · exact .ite hs4.plainWrite h.plainWrite
  · exact .ite hs5.selectRef hs5
  · exact h.plainWrite.voidCheckByWrite
  · exact h.plainWrite

theorem Keeps.bothThen {f g : State → State × Status} (h : Keeps s t) (hf : ∀ u, Keeps s u → Keeps s (f u).1)
    (hg : ∀ u, Keeps s u → Keeps s (g u).1) : Keeps s (bothThen f g t).1 := by
  unfold Machine.bothThen
  split
  next hp => exact hg _ (.fst_of_eq hp (hf t h))
  next => exact hf t h

theorem Keeps.whenBit {b f} (h : Keeps s t) (hf : ∀ u, Keeps s u → Keeps s (f u).1) : Keeps s (whenBit b f t).1 :=
  .ite_fst (hf _ h) h

theorem Keeps.cellCtrl {o w v} (h : Keeps s t) : Keeps s (cellCtrl o w v t).1 := by
  unfold Machine.cellCtrl
  extract_lets slot
  split
  · exact h.whlWithdraw
  · exact h.whlReturn
  · exact h.whlBypass
  · exact .cellCommand h (fun _ h1 => h1)

theorem Keeps.triggerWrite {o a v} (h : Keeps s t) : Keeps s (triggerWrite o a v t).1 := by
  unfold Machine.triggerWrite
  extract_lets keep
  have hkeep : ∀ u, Keeps s u → Keeps s (keep u).1 := fun _ h1 => h1.plainWrite
  refine .ite_fst (.whenBit h fun _ h1 => h1.escCheckGo) ?_
  refine .ite_fst (.bothThen h (fun _ h1 => .whenBit h1 fun _ h2 => h2.discGo) hkeep) ?_
  refine .ite_fst h.whlTrcEnable ?_
  refine .ite_fst (.bothThen h (fun _ h1 => .whenBit h1 fun _ h2 => h2.fgcalGo) hkeep) ?_
  refine .ite_fst (.bothThen h (fun _ h1 => .whenBit h1 fun _ h2 => h2.hkaScanGo) fun _ h1 =>
    .bothThen h1 (fun _ h2 => .whenBit h2 fun _ h3 => h3.hkaCalGo) hkeep) ?_
  refine .ite_fst h.hkaInjReq ?_
  refine .ite_fst (.bothThen h (fun _ h1 => .whenBit h1 fun _ h2 => h2.fltSyncGo) hkeep) ?_
  refine .ite_fst (.ite_fst h.chrArmReg (.ite_fst h.chrDisarmReg (.ite_fst h.chrTriggerReg ?_))) ?_
  · split
    next hu => exact h.ctrlConfig hu
    next => exact h.refuseWrite
  · exact .ite_fst (.whenBit h fun _ h1 => h1.chrReleaseReg) h.cellCtrl

theorem Keeps.modeReqWrite {o v} (h : Keeps s t) : Keeps s (modeReqWrite o v t).1 := by
  unfold Machine.modeReqWrite
  extract_lets ask
  split
  · exact .ite_fst h.modeWrite h.plainWrite
  · exact .ite_fst h.modeWrite h.plainWrite
  · exact .ite_fst h.modeWrite h.plainWrite
  · exact .ite_fst h.modeWrite h.plainWrite
  · exact .ite_fst (.checkWrite h (fun _ h1 => h1)) h.plainWrite

theorem Keeps.fcoWrite {o a v} (h : Keeps s t) : Keeps s (fcoWrite o a v t).1 := by
  unfold Machine.fcoWrite
  extract_lets store
  split
  · exact h.fcoStatusClear
  · split
    · exact .ite_fst h.fcoCaptureRelease (.checkWrite h (fun _ h1 => h1.takeWrite))
    · split
      · exact h.fcoClassWrite
      · split
        · split
          · exact h.fcoInjectGo
          · exact .ite_fst h.fcoInjectCancel (.checkWrite h (fun _ h1 => h1.takeWrite))
        · split
          · exact h.fcoFoutWrite
          · split
            · split
              · exact h.swFaultRaise
              · exact h.swFaultClear
              · exact .checkWrite h (fun _ h1 => h1)
              · exact .checkWrite h (fun _ h1 => h1.takeWrite)
            · exact .checkWrite h (fun _ h1 => h1.takeWrite)

theorem Keeps.btnCmdWrite {o v} (h : Keeps s t) : Keeps s (btnCmdWrite o v t).1 := by
  unfold Machine.btnCmdWrite
  split
  · exact h.btnCmdHandover
  · exact h.btnCmdReadyAck
  · exact h.btnCmdSelftest
  · exact .btnCommand h (fun _ h1 => h1)

theorem Keeps.showRefused {a v st} (h : Keeps s t) : Keeps s (showRefused a v st t) :=
  .ite h.fset (.ite h.fset (.ite h.chrStatus (.ite h.fset.fset h)))

theorem Keeps.stageTrigger {o a v} (h : Keeps s t) : Keeps s (stageTrigger o a v t).1 := by
  unfold Machine.stageTrigger
  split
  next s1 _ hp =>
    have hs1 : Keeps s s1 := .fst_of_eq hp h.checkStage
    exact .ite hs1.showRefused hs1

theorem Keeps.writeKnown {o a v} (h : Keeps s t) : Keeps s (writeKnown o a v t).1 := by
  unfold Machine.writeKnown
  split
  · exact h.escTiming
  · split
    · exact h.stageTrigger
    · split
      · extract_lets e
        split
        · exact .checkWrite h (fun _ h1 => h1.plainWrite)
        · exact .ite_fst h.loopModeCmd h.loopPbCommit
      · exact .ite_fst h.fltConfigWrite h.checkStage
      · exact h.chrConfigWrite
      · exact h.fcoWrite
      · exact h.fioWrite
      · split
        · exact h.modeReqWrite
        · split
          · exact h.upbCommit
          · split
            · exact h.timAdjCommit
            · split
              · exact h.lqPost
              · split
                · exact h.schTrcEnable
                · split
                  · exact h.btnCmdWrite
                  · split
                    · exact h.statPeriodWrite
                    · split
                      · split
                        next s1 _ hp =>
                          have hs1 : Keeps s s1 := .fst_of_eq hp h.checkStage
                          exact .ite hs1.voidCheckByWrite hs1
                      · exact .checkWrite h (fun _ h1 => h1.takeWrite)

theorem Keeps.writeReg {o a v} (h : Keeps s t) : Keeps s (writeReg o a v t).1 := by
  unfold Machine.writeReg
  extract_lets master
  split
  · exact h.occur
  · exact .ite_fst h h.writeKnown

theorem Keeps.noteDue {w st} (h : Keeps s t) : Keeps s (noteDue w st t) := by
  unfold Machine.noteDue
  split
  · exact h.update
  · exact h

theorem Keeps.adoptWrite {w} (h : Keeps s t) : Keeps s (adoptWrite w t) := by
  unfold Machine.adoptWrite
  split
  · exact h.refuseWrite.noteDue
  · split
    · split
      next s1 _ hp =>
        have hs1 : Keeps s s1 := .fst_of_eq hp h.triggerWrite
        exact .ite hs1 hs1.noteDue
    · exact .ite h.adoptFioCtrl h.takeWrite

theorem Keeps.adoptWrites (h : Keeps s t) : Keeps s (adoptWrites t) := .foldl h.update fun _ _ h1 => h1.adoptWrite

theorem Keeps.answerDue (h : Keeps s t) : Keeps s (answerDue t) := .foldl h.update fun _ _ h1 => h1.hmpAnswer

/-! ### Memory access (Machine/Mem) -/

theorem Keeps.wideRead {rd off w} (h : Keeps s t) : Keeps s (wideRead rd off w t).2 :=
  .ite_snd h (.foldl h fun _ _ h1 => h1.latchPut)

theorem Keeps.windowRead {master a} (h : Keeps s t) : Keeps s (windowRead master a t).2 := .ite_snd h.occur h

theorem Keeps.hmpReadWord {session a} (h : Keeps s t) : Keeps s (hmpReadWord session a t).2 := by
  unfold Machine.hmpReadWord
  extract_lets src
  split
  next _ s1 hp =>
    have hs1 : Keeps s s1 := .snd_of_eq hp h.eccLoad
    exact .ite_snd hs1.drawFree (.ite_snd hs1.wideRead (.ite_snd hs1.windowRead hs1))

theorem Keeps.rsLowHalfRead {rd a} (h : Keeps s t) : Keeps s (rsLowHalfRead rd a t) :=
  .ite h.readReg (.ite h.wideRead h)

theorem Keeps.hmpReadWords {session a n} (h : Keeps s t) : Keeps s (hmpReadWords session a n t).2 := by
  induction n generalizing t a with
  | zero => exact h
  | succ n ih => exact ih h.hmpReadWord

/-! ### Management (Machine/Mgmt) -/

theorem Keeps.hmpOpen {r role num} (h : Keeps s t) : Keeps s (hmpOpen r role num t) :=
  .ite h (.ite h.update (.ite h.authFail (.ite h.logRefusal.update (.ite h h.update.hmpAnswer))))

theorem Keeps.hmpClose {r} (h : Keeps s t) : Keeps s (hmpClose r t) :=
  .hmpRun h (fun _ _ h1 => h1.hmpAnswer.closeSessions)

theorem Keeps.regReadBody {bank a n x} (h : Keeps s t) : Keeps s (regReadBody bank a n x t).1 :=
  .ite_fst h (.ite_fst h (.ite_fst h h.readRegs))

theorem Keeps.writeRegs {o a l} (h : Keeps s t) : Keeps s (writeRegs o a l t).1 := by
  induction l generalizing t a with
  | nil => exact h
  | cons w l ih => exact ih h.writeReg

theorem Keeps.regWriteBody {r a vals x} (h : Keeps s t) : Keeps s (regWriteBody r a vals x t).1 := by
  unfold Machine.regWriteBody
  split
  · exact h
  · split
    next s1 _ _ hp =>
      have hs1 : Keeps s s1 := .fst_of_eq hp h.writeRegs
      exact .ite_fst hs1.update hs1.hmpAnswer

theorem Keeps.memReadBody {a n x} (h : Keeps s t) : Keeps s (memReadBody a n x t).1 := by
  unfold Machine.memReadBody
  split
  · exact h
  · exact h.hmpReadWords

theorem Keeps.memWriteBody {a bs x2} (h : Keeps s t) : Keeps s (memWriteBody a bs x2 t).1 := by
  unfold Machine.memWriteBody
  split
  · exact h
  · exact h.putBytes

theorem Keeps.recordReadBody {kind index off len x4} (h : Keeps s t) :
    Keeps s (recordReadBody kind index off len x4 t).1 := by
  unfold Machine.recordReadBody
  split
  · exact h
  · split
    · exact h
    · exact h

theorem Keeps.setFlashKind {k f} (h : Keeps s t) : Keeps s (setFlashKind k f t) := by
  unfold Machine.setFlashKind
  refine .showImages ?_
  split
  · exact h.update
  · exact h.update
  · exact h.update

theorem Keeps.imageRun {r k kind body} (h : Keeps s t) (hbody : ∀ y0 u, Keeps s u → Keeps s (body y0 u).1) :
    Keeps s (imageRun r k kind body t) := by
  unfold Machine.imageRun
  extract_lets s' s'2
  have hs' : Keeps s s' := .hmpRun h (fun _ _ h1 => hbody _ _ h1)
  have hs'2 : Keeps s s'2 := by
    unfold s'2
    split
    · exact hs'.fset
    · exact hs'
  split
  · exact hs'
  · split
    · exact hs'2.fset
    · exact hs'2

theorem Keeps.imageBeginBody {kind len x} (h : Keeps s t) : Keeps s (imageBeginBody kind len x t).1 := by
  unfold Machine.imageBeginBody
  split
  · exact h
  · exact .ite_fst h h.setFlashKind.update

theorem Keeps.imageDataBody {off bs x} (h : Keeps s t) : Keeps s (imageDataBody off bs x t).1 := by
  unfold Machine.imageDataBody
  split
  · exact h
  · exact .ite_fst h h.update

theorem Keeps.imageEndBody {sig hashOk limitsOk c x} (h : Keeps s t) :
    Keeps s (imageEndBody sig hashOk limitsOk c x t).1 := by
  unfold Machine.imageEndBody
  split
  · exact h
  · exact .ite h.update.setFlashKind h.update

theorem Keeps.imageActivate {r k modes act} (h : Keeps s t) (hact : ∀ u, Keeps s u → Keeps s (act u)) :
    Keeps s (imageActivate r k modes act t) :=
  .imageRun h (fun _ _ h1 => .ite_fst h1 (.ite_fst h1 (hact _ h1)))

theorem Keeps.swapActive {k} (h : Keeps s t) : Keeps s (swapActive k t) := h.setFlashKind

theorem Keeps.keyEnrolBody {kind slot key x3} (h : Keeps s t) : Keeps s (keyEnrolBody kind slot key x3 t).1 := by
  unfold Machine.keyEnrolBody
  extract_lets put _
  split
  · exact .ite_fst h h.update
  · exact .ite_fst h h.update

theorem Keeps.setMailbox {m x} (h : Keeps s t) : Keeps s (setMailbox m x t) := h.update

theorem Keeps.mbWriteBody {r m bs x3} (h : Keeps s t) : Keeps s (mbWriteBody r m bs x3 t).1 := by
  unfold Machine.mbWriteBody
  split
  · exact h
  · split
    · exact h
    · extract_lets s1 e
      have hs1 : Keeps s s1 := h.putBytes
      split
      next s2 _ hp =>
        have hs2 : Keeps s s2 := .fst_of_eq hp hs1.arrive
        exact .ite_fst hs2 hs2.setMailbox

/-! ### Reset and boot (Machine/Boot) -/

theorem Keeps.loadCore {img c} (h : Keeps s t) : Keeps s (loadCore img t c) := by
  unfold Machine.loadCore
  split
  · exact h
  · exact h.update.memWriteBytes.memWriteBytes

theorem Keeps.loadProgram {img} (h : Keeps s t) : Keeps s (loadProgram img t) :=
  .foldl h.update.voidCheck fun _ _ h1 => h1.loadCore

theorem Keeps.loadReg {e} (h : Keeps s t) : Keeps s (loadReg t e) := by
  unfold Machine.loadReg
  split
  · exact h
  · exact .ite h.regSet h.regSet

theorem Keeps.showInterleave (h : Keeps s t) : Keeps s (showInterleave t) := h.fset

theorem Keeps.clearEnd {chain p} (h : Keeps s t) : Keeps s (clearEnd chain p t) :=
  .clearCond (.clearCond (.clearCond (.clearCond (.foldl h fun _ _ h1 => h1.fset.fset.fset))))

theorem Keeps.installPort {lit p} (h : Keeps s t) : Keeps s (installPort lit t p) := by
  unfold Machine.installPort
  split
  · exact h
  · exact h.setPort.clearEnd.regSet.regSet.setReached.setPortState

theorem Keeps.removePort {chain p} (h : Keeps s t) : Keeps s (removePort chain t p) :=
  h.setPort.regSet.regSet.setReached.setPortState.clearEnd

theorem Keeps.installMap {old lit} (h : Keeps s t) : Keeps s (installMap old lit t) := by
  unfold Machine.installMap
  extract_lets _ was ports s1 s2 s3 s4 s5 s6
  have hwas : Keeps s was := h.update
  have hs1 : Keeps s s1 := .foldl h fun _ _ h1 => h1.removePort
  have hs2 : Keeps s s2 := .foldl hs1 fun _ _ h1 => h1.installPort
  have hs3 : Keeps s s3 := .foldl hs2 fun _ _ h1 => h1.fset
  have hs4 : Keeps s s4 := .foldl hs3 fun _ _ h1 => h1.clearCond.clearCond
  have hs5 : Keeps s s5 := .foldl hs4 fun _ _ h1 => h1.fset
  have hs6 : Keeps s s6 := .foldl hs5 fun _ _ h1 => h1.settleEnd
  exact hs6.setRota

theorem Keeps.loadComm {c} (h : Keeps s t) : Keeps s (loadComm c t) := by
  unfold Machine.loadComm
  extract_lets old _ s1 s2
  have hs1 : Keeps s s1 := .foldl h.update.voidCheck fun _ _ h1 => h1.loadReg
  have hs2 : Keeps s s2 := .ite hs1.refState hs1
  exact hs2.showInterleave.showFilters.installMap

theorem Keeps.activateComm {c} (h : Keeps s t) : Keeps s (activateComm c t) := by
  unfold Machine.activateComm
  extract_lets old was regs _ _ s1
  have hs1 : Keeps s s1 := .foldl h.update fun _ _ h1 => h1.loadReg
  exact hs1.showInterleave.winImages.adoptChans.selectRef.installMap

theorem Keeps.adoptImages (h : Keeps s t) : Keeps s (adoptImages t) := by
  unfold Machine.adoptImages
  extract_lets _ p s1 _ s2
  have hp : Keeps s p := h.update
  have hs1 : Keeps s s1 := by
    unfold s1
    split
    · split
      · exact .foldl hp.swapActive.loadProgram fun _ _ h1 => h1.enterCore
      · exact hp
    · exact h
  have hs2 : Keeps s s2 := hs1.update
  split
  · split
    · exact hs2.swapActive.activateComm
    · exact hs2
  · exact hs1

theorem Keeps.hardReset {key} (h : Keeps s t) : Keeps s (hardReset key t) := ⟨h.1, fun _ => ⟨rfl, rfl, rfl, rfl⟩⟩

theorem Keeps.softReset (h : Keeps s t) : Keeps s (softReset t) :=
  ⟨h.1, fun hs => have ⟨hm, _, _, hr⟩ := h.2 hs; ⟨Store.wf_filter _ _ _ hm, rfl, rfl, Store.wf_filter _ _ _ hr⟩⟩

theorem Keeps.sysReset {r act} (h : Keeps s t) (hact : ∀ u, Keeps s u → Keeps s (act u)) :
    Keeps s (sysReset r act t) :=
  .hmpRun h (fun _ _ h1 => .ite_fst h1 (hact _ h1.hmpAnswer))

theorem Keeps.loadIds {ids} (h : Keeps s t) : Keeps s (loadIds ids t) := by
  refine .foldl h fun u _ hu => ?_
  extract_lets _ _ _ s1 s2
  have hs1 : Keeps s s1 := .foldl hu fun _ _ h1 => h1.regSet
  have hs2 : Keeps s s2 := hs1.fset
  exact .ite hs2 hs2.occur

theorem Keeps.bootFail {step cause} (h : Keeps s t) : Keeps s (bootFail step cause t) := h.fset.fset

theorem Keeps.leaveBoot (h : Keeps s t) : Keeps s (leaveBoot t) :=
  .ite h.winImages.update.setEpoch.enterLockoutNow h.winImages.update.setEpoch.enterCommission

theorem Keeps.pickSlot {k bad} (h : Keeps s t) (hu : pickSlot k bad t = some u) : Keeps s u := by
  unfold Machine.pickSlot at hu
  extract_lets f ok s1 at hu
  have hs1 : Keeps s s1 := h.occur
  split at hu
  · obtain rfl := Option.some.inj hu
    exact h
  · split at hu
    · obtain rfl := Option.some.inj hu
      exact hs1.swapActive.fset
    · exact absurd hu nofun

theorem Keeps.bootComplete {b} (h : Keeps s t) : Keeps s (bootComplete b t) := by
  unfold Machine.bootComplete
  extract_lets s1
  have hs1 : Keeps s s1 := h.loadIds.bootFail.fset.showImages
  refine .ite h (.ite hs1.bootFail ?_)
  split
  next => exact hs1.bootFail
  next s2 hu =>
    have hs2 : Keeps s s2 := hs1.pickSlot hu
    refine .ite hs2.bootFail ?_
    split
    next => exact hs2.bootFail
    next s3 hb =>
      obtain ⟨p, hp, hc⟩ := Option.bind_eq_some_iff.mp hb
      have hs3 : Keeps s s3 := (hs2.pickSlot hp).pickSlot hc
      split
      · exact hs3.loadProgram.loadComm.leaveBoot
      · exact hs3.bootFail

/-! ### Feano: integer (Machine/FciInt) -/

theorem Keeps.fciRRR {c d a b cost lat f} (h : Keeps s t) : Keeps s (fciRRR c d a b cost lat f t) := h.fciReg

theorem Keeps.fciRR {c d a b f} (h : Keeps s t) : Keeps s (fciRR c d a b f t) := h.fciReg

theorem Keeps.fciRRI {c d a lat legal f} (h : Keeps s t) : Keeps s (fciRRI c d a lat legal f t) := h.fciReg

theorem Keeps.goTo {c t' target upd} (h : Keeps s t) :
    Keeps s (goTo c t' target upd t).state := .ite_eff h.setCore h

theorem Keeps.fciBranch {c a b off cond} (h : Keeps s t) : Keeps s (fciBranch c a b off cond t) :=
  .fci h (fun _ _ h1 => .ite_eff h1.goTo h1)

theorem Keeps.bdnz {c a b off} (h : Keeps s t) : Keeps s (bdnz c a b off t) :=
  .fci h (fun _ _ h1 => .ite_eff h1.goTo h1.setCore)

theorem Keeps.jump {c off} (h : Keeps s t) : Keeps s (jump c off t) := .fci h (fun _ _ h1 => h1.goTo)

theorem Keeps.jumpLink {c off} (h : Keeps s t) : Keeps s (jumpLink c off t) := .fci h (fun _ _ h1 => h1.goTo)

theorem Keeps.jumpReg {c d a b} (h : Keeps s t) : Keeps s (jumpReg c d a b t) := .fci h (fun _ _ h1 => h1.goTo)

theorem Keeps.jumpRegLink {c d a b} (h : Keeps s t) : Keeps s (jumpRegLink c d a b t) :=
  .fci h (fun _ _ h1 => h1.goTo)

theorem Keeps.fciPred {c d legal srcs f} (h : Keeps s t) : Keeps s (fciPred c d legal srcs f t) := h.fciReg

/-! ### Feano: floating point (Machine/FciFp) -/

theorem Keeps.fciFff {c d a b cost lat f} (h : Keeps s t) : Keeps s (fciFff c d a b cost lat f t) := h.fciReg

theorem Keeps.fciFf {c d a b cost lat f} (h : Keeps s t) : Keeps s (fciFf c d a b cost lat f t) := h.fciReg

theorem Keeps.fciFfma {c d a b f} (h : Keeps s t) : Keeps s (fciFfma c d a b f t) := h.fciReg

/-! ### Feano: vectors (Machine/FciVec) -/

theorem Keeps.fciVec {c d pp legal srcs lat f} (h : Keeps s t) : Keeps s (fciVec c d pp legal srcs lat f t) :=
  h.fciReg

theorem Keeps.fciVvv {c d a b pp lat f} (h : Keeps s t) : Keeps s (fciVvv c d a b pp lat f t) := h.fciVec

theorem Keeps.fciVv {c d a b pp lat f} (h : Keeps s t) : Keeps s (fciVv c d a b pp lat f t) := h.fciVec

theorem Keeps.fciVvma {c d a b pp f} (h : Keeps s t) : Keeps s (fciVvma c d a b pp f t) := h.fciVec

theorem Keeps.fciVvs {c d a b pp lat f} (h : Keeps s t) : Keeps s (fciVvs c d a b pp lat f t) := h.fciVec

theorem Keeps.fciVvsma {c d a b pp f} (h : Keeps s t) : Keeps s (fciVvsma c d a b pp f t) := h.fciVec

theorem Keeps.fciVcmp {c d a b pp f} (h : Keeps s t) : Keeps s (fciVcmp c d a b pp f t) := h.fciReg

theorem Keeps.fciRed {c d a b pp lat f} (h : Keeps s t) : Keeps s (fciRed c d a b pp lat f t) := h.fciReg

/-! ### Feano: control (Machine/FciCtl) -/

theorem Keeps.latchTime {c t' n} (h : Keeps s t) : Keeps s (latchTime c t' n t) := .ite h.setCore h

theorem Keeps.mfs {c d a imm} (h : Keeps s t) : Keeps s (mfs c d a imm t) :=
  .fci h (fun _ _ h1 => h1.latchTime.setCore)

theorem Keeps.mts {c d a imm} (h : Keeps s t) : Keeps s (mts c d a imm t) := h.fciReg

theorem Keeps.barRelease {n t'} (h : Keeps s t) : Keeps s (barRelease n t' t) :=
  .ite (.foldl h fun _ _ h1 => .ite h1.setCore h1) h

theorem Keeps.bar {c d a b} (h : Keeps s t) : Keeps s (bar c d a b t) :=
  .fci h (fun _ _ h1 => .ite_eff h1.setCore.barRelease h1)

theorem Keeps.cend {c d a b} (h : Keeps s t) : Keeps s (cend c d a b t) :=
  .fci h (fun _ _ h1 => .foldl h1.setCore fun _ _ h2 => h2.barRelease)

theorem Keeps.trap {c d a b} (h : Keeps s t) : Keeps s (trap c d a b t) := .fci h (fun _ _ h1 => h1)

theorem Keeps.fence {c d a b} (h : Keeps s t) : Keeps s (fence c d a b t) := .fci h (fun _ _ h1 => h1.setCore)

theorem Keeps.twait {c d a b} (h : Keeps s t) : Keeps s (twait c d a b t) :=
  .fci h (fun _ _ h1 => .ite_eff h1 h1.setCore)

theorem Keeps.twaitRelease {c} (h : Keeps s t) : Keeps s (twaitRelease c t) := by
  unfold Machine.twaitRelease
  split
  · exact .ite h.wake h.setCore
  · exact h

/-! ### Feano: memory (Machine/FciMem) -/

theorem Keeps.setCacheLine {c l x} (h : Keeps s t) : Keeps s (setCacheLine c l x t) := h.setCore

theorem Keeps.writeBack {c l} (h : Keeps s t) : Keeps s (writeBack c l t) := by
  unfold Machine.writeBack
  split
  · exact .ite h.setCore.setCacheLine h
  · exact h

theorem Keeps.makeRoom {c l} (h : Keeps s t) : Keeps s (makeRoom c l t) := .ite h h.drawFree.writeBack.setCacheLine

theorem Keeps.fillLine {c l phys acc} (h : Keeps s t) : Keeps s (fillLine c l phys acc t).2 := by
  unfold Machine.fillLine
  split
  · exact h
  · split
    next _ s1 hp =>
      have hs1 : Keeps s s1 := .snd_of_eq hp h.eccLoad
      exact .ite_snd hs1 hs1.makeRoom.setCacheLine

theorem Keeps.dramWrite {a bs} (h : Keeps s t) : Keeps s (dramWrite a bs t) := h.putBytes

theorem Keeps.scmWord {c now a} (h : Keeps s t) : Keeps s (scmWord c now a t).2 := .ite_snd h (.ite_snd h h.scmSeen)

theorem Keeps.slotWord {c a} (h : Keeps s t) : Keeps s (slotWord c a t).2 := by
  unfold Machine.slotWord
  split
  · exact h
  · exact h.drawFree

theorem Keeps.loadWord {c now r a acc} (h : Keeps s t) : Keeps s (loadWord c now r a acc t).2.2 := by
  unfold Machine.loadWord
  split
  · exact h.eccLoad
  · exact h.slotWord
  · split
    next s1 hp =>
      have hs : Keeps s s1 := .snd_of_eq hp h.eccLoad
      refine .ite_snd_snd hs ?_
      split
      next w u hw =>
        have hu : Keeps s u := .snd_of_eq hw hs.scmWord
        generalize hr : Machine.wideRead _ _ _ u = r
        have hw := hu.wideRead (rd := .core (Fin.ofNat 8 c)) (off := a - Config.scmBase) (w := w)
        rw [hr] at hw
        exact hw
  · exact h.windowRead
  · exact h.readReg
  · extract_lets p
    split
    next s1 hp =>
      have hs : Keeps s s1 := .snd_of_eq hp h.fillLine
      exact .ite_snd_snd hs hs

theorem Keeps.settleWaits (h : Keeps s t) : Keeps s (settleWaits t) := by
  unfold Machine.settleWaits
  refine .foldl h fun _ _ h1 => ?_
  extract_lets k
  split
  · exact .ite h1 h1.setCore.wake
  · exact h1

theorem Keeps.storeBytes {c t' last r a bs} (h : Keeps s t) : Keeps s (storeBytes c t' last r a bs t) := by
  unfold Machine.storeBytes
  split
  · exact h.eccStore.memWriteBytes
  · split
    · exact h.hideBytes.setCore
    · extract_lets _ s1 s2
      have hs1 : Keeps s s1 := h.eccStore.setCore
      have hs2 : Keeps s s2 := .ite hs1 hs1.noteStore
      exact hs2.memWriteBytes.settleWaits
  · exact .ite h.writeReg h.occur
  · extract_lets p s1
    have hs1 : Keeps s s1 := h.fillLine
    split
    · exact hs1.setCacheLine
    · exact hs1
  · exact h
  · exact h

theorem Keeps.unbounded {c r} (h : Keeps s t) : Keeps s (unbounded c r t) := .ite h.drawFree.setCore h

theorem Keeps.scalarLoad {c d srcs n a ext} (h : Keeps s t) : Keeps s (scalarLoad c d srcs n a ext t) := by
  unfold Machine.scalarLoad
  extract_lets r
  refine .fci h fun _ _ h1 => ?_
  split
  · exact h1
  · clear_value r
    split
    · exact h1
    · split
      · exact h1.occur.drawFree.setCore.unbounded
      · split
        next _ _ s1 hp =>
          have hs1 : Keeps s s1 := .snd_snd_of_eq hp h1.loadWord
          exact .ite_eff hs1 hs1.setCore.unbounded

theorem Keeps.scalarStore {c d srcs n a} (h : Keeps s t) : Keeps s (scalarStore c d srcs n a t) := by
  unfold Machine.scalarStore
  extract_lets r cost
  refine .fci h fun _ _ h1 => ?_
  split
  · exact h1
  · clear_value r
    split
    · exact h1
    · exact h1.storeBytes.unbounded

theorem Keeps.loadWords {c now r a n} (h : Keeps s t) : Keeps s (loadWords c now r a n t).2.2 := by
  induction n with
  | zero => exact h
  | succ n ih =>
    unfold Machine.loadWords
    exact .ite_snd_snd ih ih.loadWord

theorem Keeps.freeWords {n} (h : Keeps s t) : Keeps s (freeWords n t).2 := by
  induction n with
  | zero => exact h
  | succ n ih => exact ih.drawFree

theorem Keeps.vld {c d a imm} (h : Keeps s t) : Keeps s (vld c d a imm t) := by
  unfold Machine.vld
  extract_lets ea r
  refine .fci h fun _ _ h1 => ?_
  split
  · exact h1
  · clear_value r
    split
    · exact h1
    · split
      next _ _ s1 hp =>
        have hs1 : Keeps s s1 := .snd_snd_of_eq hp (.ite_snd_snd h1.occur.freeWords h1.loadWords)
        exact .ite_eff hs1 hs1.setCore.unbounded

theorem Keeps.vst {c d a imm} (h : Keeps s t) : Keeps s (vst c d a imm t) := by
  unfold Machine.vst
  extract_lets ea r cost
  refine .fci h fun _ _ h1 => ?_
  split
  · exact h1
  · clear_value r
    split
    · exact h1
    · exact .unbounded (.ite h1.occur (.foldl h1 fun _ _ h2 => h2.storeBytes))

theorem Keeps.stridedLoad {c n d base stride l} (h : Keeps s t) :
    Keeps s (stridedLoad c n d base stride l t).state := by
  induction l generalizing t with
  | nil => exact h
  | cons j l ih =>
    unfold Machine.stridedLoad
    refine .ite_eff h ?_
    split
    · exact h
    · split
      next hp =>
        have hs : Keeps s _ := .snd_snd_of_eq hp h.loadWord
        exact .ite_eff hs (ih hs.setCore.unbounded)

theorem Keeps.vlds {c d a b} (h : Keeps s t) : Keeps s (vlds c d a b t) := .fci h (fun _ _ h1 => h1.stridedLoad)

theorem Keeps.stridedStore {c n last d base stride l} (h : Keeps s t) :
    Keeps s (stridedStore c n last d base stride l t).state := by
  induction l generalizing t with
  | nil => exact h
  | cons j l ih =>
    unfold Machine.stridedStore
    refine .ite_eff h ?_
    split
    · exact h
    · exact ih h.storeBytes.unbounded

theorem Keeps.vsts {c d a b} (h : Keeps s t) : Keeps s (vsts c d a b t) := .fci h (fun _ _ h1 => h1.stridedStore)

theorem Keeps.dcflush {c d a b} (h : Keeps s t) : Keeps s (dcflush c d a b t) := by
  unfold Machine.dcflush
  refine .fci h fun _ _ h1 => ?_
  show Keeps s _
  split
  · exact h1.writeBack
  · exact h1

theorem Keeps.dcinv {c d a b} (h : Keeps s t) : Keeps s (dcinv c d a b t) := by
  unfold Machine.dcinv
  refine .fci h fun _ _ h1 => ?_
  show Keeps s _
  split
  · exact h1.setCacheLine
  · exact h1

theorem Keeps.dcsync {c d a b} (h : Keeps s t) : Keeps s (dcsync c d a b t) :=
  .fci h (fun _ _ h1 => .unbounded (.foldl h1.setCore fun _ _ h2 => h2.dramWrite))

/-! ### Feano: engines and events (Machine/FciEng) -/

theorem Keeps.statusSeen {c now a cls} (h : Keeps s t) : Keeps s (statusSeen c now a cls t).2.2 := by
  unfold Machine.statusSeen
  exact h.loadWord

theorem Keeps.setEngStatus {c st} (h : Keeps s t) : Keeps s (setEngStatus c st t) := h.setCore

theorem Keeps.enqueueEng {cls idx c o} (h : Keeps s t) : Keeps s (enqueueEng cls idx c o t) :=
  .ite h.setEngQueue.turnAway (.ite h.setEngQueue.lateRefs h.setEngQueue)

theorem Keeps.engGo {c cls idx off} (h : Keeps s t) : Keeps s (engGo c cls idx off t) := by
  unfold Machine.engGo
  extract_lets a
  refine .fci h fun _ _ h1 => ?_
  split
  · exact h1
  · split
    next _ _ s1 hp =>
      have hs1 : Keeps s s1 := .snd_snd_of_eq hp h1.statusSeen
      split
      · exact hs1
      · split
        · exact hs1.setEngStatus.unbounded
        · exact hs1.eccStore.memWriteBytes.setEngStatus.enqueueEng.unbounded

theorem Keeps.engWait {c cls idx off} (h : Keeps s t) : Keeps s (engWait c cls idx off t) := by
  unfold Machine.engWait
  extract_lets a
  refine .fci h fun _ _ h1 => ?_
  split
  · exact h1
  · split
    next _ _ s1 hp =>
      have hs1 : Keeps s s1 := .snd_snd_of_eq hp h1.statusSeen
      exact .ite_eff hs1 (.ite_eff hs1.setCore hs1.setCore.unbounded)

theorem Keeps.engWaitTimeout {c} (h : Keeps s t) : Keeps s (engWaitTimeout c t) := by
  unfold Machine.engWaitTimeout
  extract_lets k
  split
  · exact h.setCore.setEngStatus.unbounded
  · exact h

theorem Keeps.dmaWord {c src dst} (h : Keeps s t) : Keeps s (dmaWord c src dst t) := by
  unfold Machine.dmaWord
  extract_lets now
  split
  next bad w s1 hp =>
    have hs1 : Keeps s s1 := by
      refine .snd_snd_of_eq hp ?_
      split
      · exact h.eccLoad
      · exact h.eccLoad
      · exact h.eccLoad.scmWord
      · exact h.loadWord
      · exact h
    split
    next w s2 hp =>
      have hs2 : Keeps s s2 := .snd_of_eq hp (.ite_snd hs1.drawFree hs1)
      split
      · exact hs2.dramWrite
      · exact .ite hs2.eccStore.hideBytes hs2.eccStore.memWriteBytes.settleWaits
      · exact hs2.storeBytes
      · exact hs2

theorem Keeps.dmaWords {c src dst n} (h : Keeps s t) : Keeps s (dmaWords c src dst n t) := by
  induction n with
  | zero => exact h
  | succ n ih => exact ih.dmaWord

theorem Keeps.finishDma {c o st} (h : Keeps s t) : Keeps s (finishDma c o st t) := h.putWord.finishOp

theorem Keeps.dmaCopy {c} (h : Keeps s t) : Keeps s (dmaCopy c t) := by
  unfold Machine.dmaCopy
  split
  · exact h
  · split
    · exact h
    · split
      next _ s1 hp =>
        have hs1 : Keeps s s1 := .snd_of_eq hp h.engWords
        extract_lets w src dst
        split
        · exact hs1.finishDma
        · exact hs1.dmaWords.setEngQueue

theorem Keeps.dmaCopyDone {c} (h : Keeps s t) : Keeps s (dmaCopyDone c t) := by
  unfold Machine.dmaCopyDone
  split
  · exact h.finishDma
  · exact h

theorem Keeps.timeOp {c op body} (h : Keeps s t) (hbody : ∀ y0 y1 u, Keeps s u → Keeps s (body y0 y1 u)) :
    Keeps s (timeOp c op body t) := by
  unfold Machine.timeOp
  split
  · exact h
  · split
    next _ s1 hp =>
      have hs1 : Keeps s s1 := .snd_of_eq hp h.engWords
      exact .ite (hbody _ _ _ hs1) (.ite hs1 hs1.finishOp)

theorem Keeps.timeCapture {c} (h : Keeps s t) : Keeps s (timeCapture c t) :=
  .timeOp h (fun _ _ _ h1 => h1.putBytes.finishOp)

theorem Keeps.timeAlarm {c} (h : Keeps s t) : Keeps s (timeAlarm c t) :=
  .timeOp h (fun _ _ _ h1 => .ite h1.finishOp (.ite h1.finishOp h1.setEngQueue))

theorem Keeps.timeAlarmExpiry {c} (h : Keeps s t) : Keeps s (timeAlarmExpiry c t) := by
  unfold Machine.timeAlarmExpiry
  split
  · exact h.finishOp
  · exact h

theorem Keeps.mailboxOp {op body} (h : Keeps s t) (hbody : ∀ y0 y1 u, Keeps s u → Keeps s (body y0 y1 u).1) :
    Keeps s (mailboxOp op body t) := by
  unfold Machine.mailboxOp
  split
  · exact h
  · split
    next _ s1 hp =>
      have hs1 : Keeps s s1 := .snd_of_eq hp h.engWords
      exact .ite (.finishOp (hbody _ _ _ hs1)) (.ite hs1 hs1.finishOp)

theorem Keeps.mailboxSvcReq (h : Keeps s t) : Keeps s (mailboxSvcReq t) := by
  unfold Machine.mailboxSvcReq
  refine .mailboxOp h fun _ _ _ h1 => ?_
  extract_lets w p ptr len a owner
  split
  · exact h1
  · exact h1.enqueueSvc

theorem Keeps.mailboxMbReply (h : Keeps s t) : Keeps s (mailboxMbReply t) := by
  unfold Machine.mailboxMbReply
  refine .mailboxOp h fun _ _ _ h1 => ?_
  extract_lets w ptr len m
  split
  · exact h1
  · exact .ite_fst h1 h1.mailboxAnswer

theorem Keeps.takeEvent {c d e} (h : Keeps s t) : Keeps s (takeEvent c d e t) := h.setCur.setNext.update.setCore

theorem Keeps.takeWaiting {c} (h : Keeps s t) : Keeps s (takeWaiting c t) := by
  unfold Machine.takeWaiting
  split
  · exact h.takeEvent
  · exact h

theorem Keeps.evtTake {c d a b} (h : Keeps s t) : Keeps s (evtTake c d a b t) := by
  unfold Machine.evtTake
  extract_lets legal
  refine .fci h fun _ _ h1 => ?_
  extract_lets s1 _
  have hs1 : Keeps s s1 := h1.unbounded
  show Keeps s _
  split
  · exact hs1.takeEvent
  · exact hs1.setCore

theorem Keeps.doneStatus {b} (h : Keeps s t) : Keeps s (doneStatus b t).2 := .ite_snd h h.drawFree

theorem Keeps.evtDone {c d a b} (h : Keeps s t) : Keeps s (evtDone c d a b t) :=
  .fci h (fun _ _ h1 => h1.doneStatus.completeEvent)

theorem Keeps.postedEvent {c ws} (h : Keeps s t) : Keeps s (postedEvent c ws t).2 := .ite h.bump.traceEvent h

theorem Keeps.evtPost {c d a b} (h : Keeps s t) : Keeps s (evtPost c d a b t) := by
  unfold Machine.evtPost
  refine .fci h fun _ _ h1 => ?_
  extract_lets p r
  split
  · exact h1
  · split
    · exact h1
    · split
      next _ _ s1 hp =>
        have hs1 : Keeps s s1 := .snd_snd_of_eq hp h1.loadWords
        split
        · exact hs1
        · extract_lets s2
          have hs2 : Keeps s s2 := hs1.unbounded
          split
          next _ s3 hp =>
            have hs3 : Keeps s s3 := .snd_of_eq hp hs2.postedEvent
            split
            next s4 _ hp =>
              have hs4 : Keeps s s4 := .fst_of_eq hp hs3.arrive
              exact .ite hs4.setCore hs4.setCore

theorem Keeps.heldEventEntry (h : Keeps s t) : Keeps s (heldEventEntry t) := by
  unfold Machine.heldEventEntry
  split
  next hp => exact .fst_of_eq hp h.heldEntry
  next s1 _ hp =>
    have hs1 : Keeps s s1 := .fst_of_eq hp h.heldEntry
    refine .ite hs1 ?_
    extract_lets c
    split
    · exact hs1.setCore
    · exact hs1

theorem Keeps.trc {c d a b} (h : Keeps s t) : Keeps s (trc c d a b t) :=
  .fci h (fun _ _ h1 => h1.traceRecord.unbounded)

/-! ### The cycle (Machine/Cycle) -/

theorem Keeps.setEsc {e} (h : Keeps s t) : Keeps s (setEsc e t) := h.update

theorem Keeps.measurePhase {n sec} (h : Keeps s t) : Keeps s (measurePhase n sec t) := by
  generalize hf : @Machine.measurePhase = f
  delta Machine.measurePhase at hf
  subst hf
  beta_reduce
  extract_lets ticks
  split
  next _ s1 hp =>
    have hs1 : Keeps s s1 := .snd_of_eq hp (.ite_snd h h.drawFree)
    exact hs1.setEsc.setSplitRegs.regSet

theorem Keeps.settlePhase (h : Keeps s t) : Keeps s (settlePhase t) :=
  .ite h.fset.fset.clearCond (.ite h.fset.fset.condIs h.fset.fset)

theorem Keeps.setLength (h : Keeps s t) : Keeps s (setLength t) := by
  unfold Machine.setLength
  extract_lets p _ m d s1 _
  have hs1 : Keeps s s1 := .ite h h.bump
  split
  · exact .ite h.setEsc h.setEsc
  · exact .ite h.setEsc hs1.setEsc

theorem Keeps.clearCycle (h : Keeps s t) : Keeps s (clearCycle t) := .update (.foldl h fun _ _ h1 => h1.takeLate)

theorem Keeps.adoptAll (h : Keeps s t) : Keeps s (adoptAll t) := by
  unfold Machine.adoptAll
  extract_lets s1 s2 s3
  have hs1 : Keeps s s1 := h.adoptWrites.adoptUpb
  have hs2 : Keeps s s2 := .foldl hs1 fun _ _ h1 => h1.adoptLoop
  have hs3 : Keeps s s3 := hs2.adoptAccepts.adoptImages.adoptMode
  exact hs3.applyRole.adoptEngines.answerDue

theorem Keeps.startCores (h : Keeps s t) : Keeps s (startCores t) := .foldl h fun _ _ h1 => h1.enterCore

theorem Keeps.takeHidden (h : Keeps s t) : Keeps s { t with userOut := t.hidden } :=
  ⟨h.1, fun hs => have ⟨hm, hh, _, hr⟩ := h.2 hs; ⟨hm, hh, hh, hr⟩⟩

theorem Keeps.beginCycle {n sec j sync withheld} (h : Keeps s t) :
    Keeps s (beginCycle n sec j sync withheld t) := by
  unfold Machine.beginCycle
  extract_lets _ s1 s2 s3 s4 s5 s6
  have hs3 : Keeps s s3 := h.takeHidden.setEsc.regSet.clearCycle.adoptAll
  have hs4 : Keeps s s4 := .ite hs3.measurePhase hs3
  have hs5 : Keeps s s5 := hs4.settlePhase.setLength
  have hs6 : Keeps s s6 := .ite hs5.requestSync hs5
  exact hs6.showRatios.startCores.launchFrames.publishRegs

theorem Keeps.cycleRelease {withheld} (h : Keeps s t) : Keeps s (cycleRelease withheld t) :=
  .ite h h.reach.filterBoundary.cycleEvidence.chrBoundary.chrLast.beginCycle

theorem Keeps.escapementStart (h : Keeps s t) : Keeps s (escapementStart t) :=
  .ite h h.reach.fset.filterStart.beginCycle

theorem Keeps.escapementStop (h : Keeps s t) : Keeps s (escapementStop t) :=
  .ite (.chrEscStop (.setEsc (.fset (.fset (.fset (.foldl h fun _ _ h1 => h1.setCore)))))) h

theorem Keeps.timingParams (h : Keeps s t) : Keeps s (timingParams t) := by
  unfold Machine.timingParams
  split
  · exact h
  · split
    · exact h
    · extract_lets changed g s1 _ s2 s3
      have hs1 : Keeps s s1 := h.fset.fset.fset.fset.fset
      have hs2 : Keeps s s2 := hs1.setEsc
      have hs3 : Keeps s s3 := .foldl hs2 fun _ _ h1 => .ite h1.settleReach h1
      exact .ite hs3.newPeriod hs3

theorem Keeps.measurementPublication (h : Keeps s t) : Keeps s (measurementPublication t) :=
  .ite h h.reach.publishMeasurement.publishHka.publishGoose.publishField.chrOutputs

theorem Keeps.referencePoint (h : Keeps s t) : Keeps s (referencePoint t) :=
  .ite h (.sendEngines (.foldl h.reach.setEsc fun _ _ h1 => h1.wheelRefPoint.lateRefs))

theorem Keeps.stopCores (h : Keeps s t) : Keeps s (stopCores t) := .foldl h fun _ _ h1 => .ite h1 h1.setCore

theorem Keeps.countCut {cut} (h : Keeps s t) : Keeps s (countCut cut t) :=
  .ite h.fset.chrCut.fset.bump.occur h.fset.fset.clearCond

theorem Keeps.keepOutputs (h : Keeps s t) : Keeps s (keepOutputs t) := h.update

theorem Keeps.compareShadow (h : Keeps s t) : Keeps s (compareShadow t) := h.compareCycle

theorem Keeps.cutoff (h : Keeps s t) : Keeps s (cutoff t) := by
  unfold Machine.cutoff
  split
  · exact h
  · extract_lets s1 cut s2 blocked s3 s4 s5 s6 s7 s8 _
    have hs1 : Keeps s s1 := h.reach
    have hs2 : Keeps s s2 := hs1.stopCores.countCut
    have hs3 : Keeps s s3 := hs2.takeEvidence
    have hs4 : Keeps s s4 := .foldl hs3 fun _ _ h1 => h1.latchWheel
    have hs5 : Keeps s s5 := .foldl hs4 fun _ _ h1 => h1.loopOutput
    have hs6 : Keeps s s6 := .foldl hs5 fun _ _ h1 => h1.cellTableEntry
    have hs7 : Keeps s s7 := hs6.relayGrants.sendRecords
    have hs8 : Keeps s s8 := hs7.compareShadow.keepShadow.keepOutputs
    exact hs8.setEsc

theorem Keeps.cutRun (h : Keeps s t) : Keeps s (cutRun t) := .ite h.condIs h

theorem wf_stampUser (k : Word) {m : Memory} (hm : Memory.wf m = true) : Memory.wf (stampUser k m) = true := by
  unfold stampUser
  generalize List.range 512 = l
  induction l generalizing m with
  | nil => exact hm
  | cons i l ih => exact ih (Memory.wf_writeList m _ _ hm)

theorem Keeps.copyMem {a n m} (h : Keeps s t) (hm : Canonical s → Memory.wf m = true) :
    Keeps s { t with mem := Memory.copyRange a n m t.mem } :=
  ⟨h.1, fun hs => have ⟨hm', hh, hu, hr⟩ := h.2 hs; ⟨Memory.wf_copyRange _ _ _ _ (hm hs) hm', hh, hu, hr⟩⟩

theorem Keeps.publishUser {k} (h : Keeps s t) : Keeps s (publishUser k t) := by
  refine h.eccPass.copyMem fun hs => wf_stampUser k ?_
  have ⟨_, hh, hu, _⟩ := h.2 hs
  split
  · exact hh
  · exact hu

theorem Keeps.publishTables {k} (h : Keeps s t) : Keeps s (publishTables k t) :=
  h.eccPass.publish.eccPass.publish.eccPass.publish.publishUser

theorem Keeps.cellPublication (h : Keeps s t) : Keeps s (cellPublication t) := by
  unfold Machine.cellPublication
  split
  · exact h
  · exact h.reach.setEsc.publishTables.renewLease.goosePublish.chrCapture.noteReadiness

/-! ### Sampling (Machine/Sample) -/

theorem Keeps.sampleCode {codes cm n} (h : Keeps s t) : Keeps s (sampleCode codes cm n t).2 :=
  .ite_snd h (.ite_snd h.drawFree h)

theorem Keeps.sampleChan {codes cm p n} (h : Keeps s p.2) : Keeps s (sampleChan codes cm p n).2 := by
  unfold Machine.sampleChan
  extract_lets s1
  have hs1 : Keeps s s1 := h.dueReset
  refine .ite_snd hs1 ?_
  extract_lets
  split
  next s2 hp =>
    have hs2 : Keeps s s2 := .snd_of_eq hp hs1.sampleCode
    extract_lets s3 s4
    have hs3 : Keeps s s3 := .ite hs2.clearCond hs2
    have hs4 : Keeps s s4 := .ite hs3 hs3.clearCond
    exact hs4.winCount.chainSample.rawMasks

theorem Keeps.rawSample {codes cm} (h : Keeps s t) : Keeps s (rawSample codes cm t) := by
  unfold Machine.rawSample
  refine .ite h ?_
  split
  next s1 hp =>
    have hs1 : Keeps s s1 := .snd_of_eq hp (.foldl_snd h.crossLink fun _ _ h1 => h1.sampleChan)
    extract_lets whole dig r _ s2 s3
    have hs2 : Keeps s s2 := .ite hs1.setChr hs1
    have hs3 : Keeps s s3 := .ite hs2.chrInstant hs2
    exact hs3.placeOutputs.chrOutputs

/-! ### Commands and the step -/

theorem execDieLinkLoss_answers (l : DieLink) (s : State) : ∃ t, execDieLinkLoss l s = .next t ∧ Keeps s t := by
  have h := Keeps.refl s
  refine ⟨_, rfl, ?_⟩
  cases l with
  | safety => exact .ite h h.raiseCond
  | frontEnd => exact .ite h h.raiseCond

theorem execDieLinkRestore_answers (l : DieLink) (s : State) :
    ∃ t, execDieLinkRestore l s = .next t ∧ Keeps s t := by
  have h := Keeps.refl s
  refine ⟨_, rfl, ?_⟩
  cases l with
  | safety => exact h.update.clearCond
  | frontEnd => exact h.clearCond

theorem execFieldFrameToLogic_answers (body : List Byte) (crc fv term oc extv : Half) (s : State) :
    ∃ t, execFieldFrameToLogic body crc fv term oc extv s = .next t ∧ Keeps s t := by
  have h := Keeps.refl s
  exact ⟨_, rfl, .ite h (.ite h.takeInjection.bump.frameFault h.takeInjection.fieldReport)⟩

/-- The queue is not a command's to change, so what a command does to the queue is what a step leaves of it. -/
theorem exec_answers (c : Instr) (s : State) : ∃ t, exec c s = .next t ∧ Keeps s t := by
  have h := Keeps.refl s
  cases c with
  | powerOn _ => exact ⟨_, rfl, h.hardReset.update⟩
  | supplyLoss => exact ⟨_, rfl, h.hardReset.update⟩
  | supplyInputFault _ => exact ⟨_, rfl, h.occur⟩
  | bootComplete _ => exact ⟨_, rfl, h.bootComplete⟩
  | sysResetHard _ => exact ⟨_, rfl, .sysReset h (fun _ h1 => h1.hardReset)⟩
  | sysResetSoft _ => exact ⟨_, rfl, .sysReset h (fun _ h1 => h1.softReset)⟩
  | escapementStart => exact ⟨_, rfl, h.escapementStart⟩
  | cycleRelease _ => exact ⟨_, rfl, h.cycleRelease⟩
  | escapementStop => exact ⟨_, rfl, h.escapementStop⟩
  | measurementTablePublication => exact ⟨_, rfl, h.measurementPublication⟩
  | referencePoint => exact ⟨_, rfl, h.referencePoint⟩
  | staleRefRun _ => exact ⟨_, rfl, h.staleRefRun⟩
  | speculativeRoundStart _ => exact ⟨_, rfl, h.speculativeRoundStart⟩
  | speculativePlanReady _ => exact ⟨_, rfl, h.speculativePlanReady⟩
  | confirmationStart _ => exact ⟨_, rfl, h.confirmationStart⟩
  | confirmationEnd _ => exact ⟨_, rfl, h.confirmationEnd⟩
  | commitPlanReady _ => exact ⟨_, rfl, h.commitPlanReady⟩
  | repairDone _ => exact ⟨_, rfl, h.repairDone⟩
  | fallbackPlanReady _ => exact ⟨_, rfl, h.fallbackPlanReady⟩
  | cutoff => exact ⟨_, rfl, h.cutoff⟩
  | cutRun => exact ⟨_, rfl, h.cutRun⟩
  | poolThreshold _ => exact ⟨_, rfl, h.poolThreshold⟩
  | whlFallbackRun _ => exact ⟨_, rfl, h.whlFallbackRun⟩
  | bypassConfirmTimeout _ => exact ⟨_, rfl, h.bypassConfirmTimeout⟩
  | cellTablePublication => exact ⟨_, rfl, h.cellPublication⟩
  | readinessReached => exact ⟨_, rfl, h.readinessReached⟩
  | readinessLost => exact ⟨_, rfl, h.readinessLost⟩
  | escTimingRegisterWrite _ _ _ => exact ⟨_, rfl, h.escTiming⟩
  | escCheckGo _ => exact ⟨_, rfl, h.escCheckGo⟩
  | budgetCheckDone => exact ⟨_, rfl, h.budgetDone⟩
  | timingParamsTakeEffect => exact ⟨_, rfl, h.timingParams⟩
  | discGo _ => exact ⟨_, rfl, h.discGo⟩
  | discoveryRepeat _ => exact ⟨_, rfl, h.discoveryRepeat⟩
  | sweepRestart _ => exact ⟨_, rfl, h.sweepRestart⟩
  | probeLaunch _ => exact ⟨_, rfl, h.probeLaunch⟩
  | probeReturn _ _ _ => exact ⟨_, rfl, h.probeReturn⟩
  | probeTimeout _ => exact ⟨_, rfl, h.probeTimeout⟩
  | chainFrameReceive _ _ _ _ => exact ⟨_, rfl, h.chainFrame⟩
  | portLossOfSignal _ => exact ⟨_, rfl, h.portLoss⟩
  | chainFreqTimeout _ => exact ⟨_, rfl, h.chainFreq⟩
  | healHoldExpiry _ => exact ⟨_, rfl, h.healHoldExpiry⟩
  | chainHeal _ _ => exact ⟨_, rfl, h.chainHeal⟩
  | healComplete _ => exact ⟨_, rfl, h.healComplete⟩
  | echoLaunch _ => exact ⟨_, rfl, h.echoLaunch⟩
  | echoReceive _ _ _ => exact ⟨_, rfl, h.echoReceive⟩
  | svcResponseReceive _ _ => exact ⟨_, rfl, h.svcResponse⟩
  | svcTimeout _ _ => exact ⟨_, rfl, h.svcTimeout⟩
  | cellAccept _ _ _ => exact ⟨_, rfl, h.cellAccept⟩
  | whlWithdraw _ _ _ => exact ⟨_, rfl, h.whlWithdraw⟩
  | whlReturn _ _ _ => exact ⟨_, rfl, h.whlReturn⟩
  | whlBypass _ _ _ => exact ⟨_, rfl, h.whlBypass⟩
  | whlTrcEnable _ _ => exact ⟨_, rfl, h.whlTrcEnable⟩
  | loopUpdate _ _ => exact ⟨_, rfl, h.loopUpdate⟩
  | loopSetMode _ => exact ⟨_, rfl, h.loopSetMode⟩
  | loopWriteCoef _ => exact ⟨_, rfl, h.loopWriteCoef⟩
  | loopSetTarget _ => exact ⟨_, rfl, h.loopSetTarget⟩
  | loopPreset _ => exact ⟨_, rfl, h.loopPreset⟩
  | loopInputLost _ => exact ⟨_, rfl, h.loopInputLost⟩
  | loopModeCmd _ _ _ => exact ⟨_, rfl, h.loopModeCmd⟩
  | loopPbCommit _ _ _ => exact ⟨_, rfl, h.loopPbCommit⟩
  | add _ _ _ _ => exact ⟨_, rfl, h.fciRRR⟩
  | sub _ _ _ _ => exact ⟨_, rfl, h.fciRRR⟩
  | and _ _ _ _ => exact ⟨_, rfl, h.fciRRR⟩
  | or _ _ _ _ => exact ⟨_, rfl, h.fciRRR⟩
  | xor _ _ _ _ => exact ⟨_, rfl, h.fciRRR⟩
  | sll _ _ _ _ => exact ⟨_, rfl, h.fciRRR⟩
  | srl _ _ _ _ => exact ⟨_, rfl, h.fciRRR⟩
  | sra _ _ _ _ => exact ⟨_, rfl, h.fciRRR⟩
  | slt _ _ _ _ => exact ⟨_, rfl, h.fciRRR⟩
  | sltu _ _ _ _ => exact ⟨_, rfl, h.fciRRR⟩
  | min _ _ _ _ => exact ⟨_, rfl, h.fciRRR⟩
  | max _ _ _ _ => exact ⟨_, rfl, h.fciRRR⟩
  | minu _ _ _ _ => exact ⟨_, rfl, h.fciRRR⟩
  | maxu _ _ _ _ => exact ⟨_, rfl, h.fciRRR⟩
  | adds _ _ _ _ => exact ⟨_, rfl, h.fciRRR⟩
  | subs _ _ _ _ => exact ⟨_, rfl, h.fciRRR⟩
  | mul _ _ _ _ => exact ⟨_, rfl, h.fciRRR⟩
  | mulh _ _ _ _ => exact ⟨_, rfl, h.fciRRR⟩
  | mulhu _ _ _ _ => exact ⟨_, rfl, h.fciRRR⟩
  | div _ _ _ _ => exact ⟨_, rfl, h.fciRRR⟩
  | divu _ _ _ _ => exact ⟨_, rfl, h.fciRRR⟩
  | rem _ _ _ _ => exact ⟨_, rfl, h.fciRRR⟩
  | remu _ _ _ _ => exact ⟨_, rfl, h.fciRRR⟩
  | clz _ _ _ _ => exact ⟨_, rfl, h.fciRR⟩
  | popc _ _ _ _ => exact ⟨_, rfl, h.fciRR⟩
  | sextb _ _ _ _ => exact ⟨_, rfl, h.fciRR⟩
  | sexth _ _ _ _ => exact ⟨_, rfl, h.fciRR⟩
  | addi _ _ _ _ => exact ⟨_, rfl, h.fciRRI⟩
  | muli _ _ _ _ => exact ⟨_, rfl, h.fciRRI⟩
  | andi _ _ _ _ => exact ⟨_, rfl, h.fciRRI⟩
  | ori _ _ _ _ => exact ⟨_, rfl, h.fciRRI⟩
  | xori _ _ _ _ => exact ⟨_, rfl, h.fciRRI⟩
  | slti _ _ _ _ => exact ⟨_, rfl, h.fciRRI⟩
  | sltiu _ _ _ _ => exact ⟨_, rfl, h.fciRRI⟩
  | lui _ _ _ _ => exact ⟨_, rfl, h.fciRRI⟩
  | shi _ _ _ _ => exact ⟨_, rfl, h.fciRRI⟩
  | fadd _ _ _ _ => exact ⟨_, rfl, h.fciFff⟩
  | fsub _ _ _ _ => exact ⟨_, rfl, h.fciFff⟩
  | fmul _ _ _ _ => exact ⟨_, rfl, h.fciFff⟩
  | fdiv _ _ _ _ => exact ⟨_, rfl, h.fciFff⟩
  | fsqrt _ _ _ _ => exact ⟨_, rfl, h.fciFf⟩
  | fmin _ _ _ _ => exact ⟨_, rfl, h.fciFff⟩
  | fmax _ _ _ _ => exact ⟨_, rfl, h.fciFff⟩
  | fabs _ _ _ _ => exact ⟨_, rfl, h.fciFf⟩
  | fneg _ _ _ _ => exact ⟨_, rfl, h.fciFf⟩
  | fcvtsw _ _ _ _ => exact ⟨_, rfl, h.fciFf⟩
  | fcvtws _ _ _ _ => exact ⟨_, rfl, h.fciFf⟩
  | fcvtwsz _ _ _ _ => exact ⟨_, rfl, h.fciFf⟩
  | feq _ _ _ _ => exact ⟨_, rfl, h.fciFff⟩
  | flt _ _ _ _ => exact ⟨_, rfl, h.fciFff⟩
  | fle _ _ _ _ => exact ⟨_, rfl, h.fciFff⟩
  | fmac _ _ _ _ => exact ⟨_, rfl, h.fciFfma⟩
  | fmsc _ _ _ _ => exact ⟨_, rfl, h.fciFfma⟩
  | ldw _ _ _ _ => exact ⟨_, rfl, h.scalarLoad⟩
  | ldh _ _ _ _ => exact ⟨_, rfl, h.scalarLoad⟩
  | ldhu _ _ _ _ => exact ⟨_, rfl, h.scalarLoad⟩
  | ldbu _ _ _ _ => exact ⟨_, rfl, h.scalarLoad⟩
  | stw _ _ _ _ => exact ⟨_, rfl, h.scalarStore⟩
  | sth _ _ _ _ => exact ⟨_, rfl, h.scalarStore⟩
  | stb _ _ _ _ => exact ⟨_, rfl, h.scalarStore⟩
  | ldwx _ _ _ _ => exact ⟨_, rfl, h.scalarLoad⟩
  | stwx _ _ _ _ => exact ⟨_, rfl, h.scalarStore⟩
  | beq _ _ _ _ => exact ⟨_, rfl, h.fciBranch⟩
  | bne _ _ _ _ => exact ⟨_, rfl, h.fciBranch⟩
  | blt _ _ _ _ => exact ⟨_, rfl, h.fciBranch⟩
  | bge _ _ _ _ => exact ⟨_, rfl, h.fciBranch⟩
  | j _ _ => exact ⟨_, rfl, h.jump⟩
  | jal _ _ => exact ⟨_, rfl, h.jumpLink⟩
  | jr _ _ _ _ => exact ⟨_, rfl, h.jumpReg⟩
  | jalr _ _ _ _ => exact ⟨_, rfl, h.jumpRegLink⟩
  | bdnz _ _ _ _ => exact ⟨_, rfl, h.bdnz⟩
  | vadd _ _ _ _ _ => exact ⟨_, rfl, h.fciVvv⟩
  | vsub _ _ _ _ _ => exact ⟨_, rfl, h.fciVvv⟩
  | vand _ _ _ _ _ => exact ⟨_, rfl, h.fciVvv⟩
  | vor _ _ _ _ _ => exact ⟨_, rfl, h.fciVvv⟩
  | vxor _ _ _ _ _ => exact ⟨_, rfl, h.fciVvv⟩
  | vsll _ _ _ _ _ => exact ⟨_, rfl, h.fciVvv⟩
  | vsrl _ _ _ _ _ => exact ⟨_, rfl, h.fciVvv⟩
  | vsra _ _ _ _ _ => exact ⟨_, rfl, h.fciVvv⟩
  | vmin _ _ _ _ _ => exact ⟨_, rfl, h.fciVvv⟩
  | vmax _ _ _ _ _ => exact ⟨_, rfl, h.fciVvv⟩
  | vmul _ _ _ _ _ => exact ⟨_, rfl, h.fciVvv⟩
  | vfadd _ _ _ _ _ => exact ⟨_, rfl, h.fciVvv⟩
  | vfsub _ _ _ _ _ => exact ⟨_, rfl, h.fciVvv⟩
  | vfmul _ _ _ _ _ => exact ⟨_, rfl, h.fciVvv⟩
  | vfmin _ _ _ _ _ => exact ⟨_, rfl, h.fciVvv⟩
  | vfmax _ _ _ _ _ => exact ⟨_, rfl, h.fciVvv⟩
  | vfabs _ _ _ _ _ => exact ⟨_, rfl, h.fciVv⟩
  | vfneg _ _ _ _ _ => exact ⟨_, rfl, h.fciVv⟩
  | vfcvtsw _ _ _ _ _ => exact ⟨_, rfl, h.fciVv⟩
  | vfcvtws _ _ _ _ _ => exact ⟨_, rfl, h.fciVv⟩
  | vfcvtwsz _ _ _ _ _ => exact ⟨_, rfl, h.fciVv⟩
  | vfmac _ _ _ _ _ => exact ⟨_, rfl, h.fciVvma⟩
  | vfmsc _ _ _ _ _ => exact ⟨_, rfl, h.fciVvma⟩
  | vfaddS _ _ _ _ _ => exact ⟨_, rfl, h.fciVvs⟩
  | vfmulS _ _ _ _ _ => exact ⟨_, rfl, h.fciVvs⟩
  | vfmacS _ _ _ _ _ => exact ⟨_, rfl, h.fciVvsma⟩
  | vfmscS _ _ _ _ _ => exact ⟨_, rfl, h.fciVvsma⟩
  | vaddS _ _ _ _ _ => exact ⟨_, rfl, h.fciVvs⟩
  | vceq _ _ _ _ _ => exact ⟨_, rfl, h.fciVcmp⟩
  | vcne _ _ _ _ _ => exact ⟨_, rfl, h.fciVcmp⟩
  | vclt _ _ _ _ _ => exact ⟨_, rfl, h.fciVcmp⟩
  | vcle _ _ _ _ _ => exact ⟨_, rfl, h.fciVcmp⟩
  | vfceq _ _ _ _ _ => exact ⟨_, rfl, h.fciVcmp⟩
  | vfclt _ _ _ _ _ => exact ⟨_, rfl, h.fciVcmp⟩
  | vfcle _ _ _ _ _ => exact ⟨_, rfl, h.fciVcmp⟩
  | vredadd _ _ _ _ _ => exact ⟨_, rfl, h.fciRed⟩
  | vfredadd _ _ _ _ _ => exact ⟨_, rfl, h.fciRed⟩
  | vfredmax _ _ _ _ _ => exact ⟨_, rfl, h.fciRed⟩
  | vfredmin _ _ _ _ _ => exact ⟨_, rfl, h.fciRed⟩
  | vmov _ _ _ _ _ => exact ⟨_, rfl, h.fciVv⟩
  | vsplat _ _ _ _ _ => exact ⟨_, rfl, h.fciVec⟩
  | vext _ _ _ _ _ => exact ⟨_, rfl, h.fciReg⟩
  | vins _ _ _ _ _ => exact ⟨_, rfl, h.fciReg⟩
  | vld _ _ _ _ => exact ⟨_, rfl, h.vld⟩
  | vst _ _ _ _ => exact ⟨_, rfl, h.vst⟩
  | vlds _ _ _ _ => exact ⟨_, rfl, h.vlds⟩
  | vsts _ _ _ _ => exact ⟨_, rfl, h.vsts⟩
  | mfs _ _ _ _ => exact ⟨_, rfl, h.mfs⟩
  | mts _ _ _ _ => exact ⟨_, rfl, h.mts⟩
  | pand _ _ _ _ => exact ⟨_, rfl, h.fciPred⟩
  | por _ _ _ _ => exact ⟨_, rfl, h.fciPred⟩
  | pxor _ _ _ _ => exact ⟨_, rfl, h.fciPred⟩
  | pnot _ _ _ _ => exact ⟨_, rfl, h.fciPred⟩
  | pfrom _ _ _ _ => exact ⟨_, rfl, h.fciPred⟩
  | pto _ _ _ _ => exact ⟨_, rfl, h.fciReg⟩
  | pcnt _ _ _ _ => exact ⟨_, rfl, h.fciReg⟩
  | bar _ _ _ _ => exact ⟨_, rfl, h.bar⟩
  | cend _ _ _ _ => exact ⟨_, rfl, h.cend⟩
  | trap _ _ _ _ => exact ⟨_, rfl, h.trap⟩
  | fence _ _ _ _ => exact ⟨_, rfl, h.fence⟩
  | twait _ _ _ _ => exact ⟨_, rfl, h.twait⟩
  | twaitRelease _ => exact ⟨_, rfl, h.twaitRelease⟩
  | engGo _ _ _ _ => exact ⟨_, rfl, h.engGo⟩
  | engWait _ _ _ _ => exact ⟨_, rfl, h.engWait⟩
  | engWaitTimeout _ => exact ⟨_, rfl, h.engWaitTimeout⟩
  | evtTake _ _ _ _ => exact ⟨_, rfl, h.evtTake⟩
  | evtDone _ _ _ _ => exact ⟨_, rfl, h.evtDone⟩
  | evtPost _ _ _ _ => exact ⟨_, rfl, h.evtPost⟩
  | trc _ _ _ _ => exact ⟨_, rfl, h.trc⟩
  | dcflush _ _ _ _ => exact ⟨_, rfl, h.dcflush⟩
  | dcinv _ _ _ _ => exact ⟨_, rfl, h.dcinv⟩
  | dcsync _ _ _ _ => exact ⟨_, rfl, h.dcsync⟩
  | dmaCopy _ => exact ⟨_, rfl, h.dmaCopy⟩
  | dmaCopyDone _ => exact ⟨_, rfl, h.dmaCopyDone⟩
  | timeCapture _ => exact ⟨_, rfl, h.timeCapture⟩
  | timeAlarm _ => exact ⟨_, rfl, h.timeAlarm⟩
  | timeAlarmExpiry _ => exact ⟨_, rfl, h.timeAlarmExpiry⟩
  | mailboxSvcReq => exact ⟨_, rfl, h.mailboxSvcReq⟩
  | mailboxMbReply => exact ⟨_, rfl, h.mailboxMbReply⟩
  | sysUpbCommit _ _ => exact ⟨_, rfl, h.upbCommit⟩
  | fadOverrange _ => exact ⟨_, rfl, h.fadOverrange⟩
  | fadCommonMode _ => exact ⟨_, rfl, h.fadCommonMode⟩
  | fgcalGo _ _ => exact ⟨_, rfl, h.fgcalGo⟩
  | fgcalEnd _ _ => exact ⟨_, rfl, h.fgcalEnd⟩
  | bgCalConverged _ => exact ⟨_, rfl, h.bgCalConverged⟩
  | windowComparatorTrip _ => exact ⟨_, rfl, h.windowTrip⟩
  | windowComparatorRelease _ => exact ⟨_, rfl, h.windowRelease⟩
  | hkaScanGo _ => exact ⟨_, rfl, h.hkaScanGo⟩
  | hkaTimedScanStart => exact ⟨_, rfl, h.hkaTimedStart⟩
  | hkaConversion _ => exact ⟨_, rfl, h.hkaConversion⟩
  | hkaScanEnd => exact ⟨_, rfl, h.hkaScanEnd⟩
  | hkaInjReq _ _ => exact ⟨_, rfl, h.hkaInjReq⟩
  | hkaInjConversion _ => exact ⟨_, rfl, h.hkaInjConversion⟩
  | hkaInjResRead _ => exact ⟨_, rfl, h.hkaResRead⟩
  | hkaCalGo _ => exact ⟨_, rfl, h.hkaCalGo⟩
  | hkaCalEnd => exact ⟨_, rfl, h.hkaCalEnd⟩
  | syncInEdge _ => exact ⟨_, rfl, h.syncInEdge⟩
  | fltSyncGo _ => exact ⟨_, rfl, h.fltSyncGo⟩
  | syncResetApply => exact ⟨_, rfl, h.syncResetApply⟩
  | fltConfigWrite _ _ _ => exact ⟨_, rfl, h.fltConfigWrite⟩
  | chrArm _ => exact ⟨_, rfl, h.chrArm⟩
  | chrDisarm _ => exact ⟨_, rfl, h.chrDisarm⟩
  | chrTrigger _ => exact ⟨_, rfl, h.chrTrigger⟩
  | chrMark => exact ⟨_, rfl, h.chrMark⟩
  | chrRelease _ => exact ⟨_, rfl, h.chrRelease⟩
  | chrConfigWrite _ _ _ => exact ⟨_, rfl, h.chrConfigWrite⟩
  | trigInEdge _ => exact ⟨_, rfl, h.trigInEdge⟩
  | chrBlockWrite _ => exact ⟨_, rfl, h.chrBlockWrite⟩
  | chrRecordClose => exact ⟨_, rfl, h.chrRecordClose⟩
  | chrHoldoffEnd => exact ⟨_, rfl, h.chrHoldoffEnd⟩
  | chrRearm => exact ⟨_, rfl, h.chrRearm⟩
  | chrSeqWindowExpiry => exact ⟨_, rfl, .ite h.setSeq h⟩
  | chrStreamDatagram => exact ⟨_, rfl, h.chrStreamDatagram⟩
  | timAdjCommit _ _ => exact ⟨_, rfl, h.timAdjCommit⟩
  | timEpochStart => exact ⟨_, rfl, h.timEpochStart⟩
  | ref10Loss => exact ⟨_, rfl, h.ref10Loss⟩
  | ref10Restore => exact ⟨_, rfl, h.ref10Restore⟩
  | ppsOutPulse => exact ⟨_, rfl, h.ppsOutPulse⟩
  | ppsInEdge _ => exact ⟨_, rfl, h.ppsInEdge⟩
  | servoMeasurement _ _ => exact ⟨_, rfl, h.servoMeasurement⟩
  | servoHoldover _ => exact ⟨_, rfl, h.servoHoldover⟩
  | servoHoldMaxExpiry => exact ⟨_, rfl, .ite h.setServo h⟩
  | ptpMessageReceive _ _ _ => exact ⟨_, rfl, h.ptpReceive⟩
  | ptpMessageSend _ _ _ => exact ⟨_, rfl, h.ptpSend⟩
  | prpSupervisionSend => exact ⟨_, rfl, .ite h.pairSend h⟩
  | twinTimeCompare _ => exact ⟨_, rfl, h.twinTimeCompare⟩
  | ethTxtsRead _ _ => exact ⟨_, rfl, h.txtsRead⟩
  | lqPost _ _ _ _ => exact ⟨_, rfl, h.lqPost⟩
  | timedLaunch _ _ => exact ⟨_, rfl, h.timedLaunch⟩
  | gooseReceive _ _ => exact ⟨_, rfl, h.gooseReceive⟩
  | gooseTalExpiry _ => exact ⟨_, rfl, h.gooseTalExpiry⟩
  | gooseRepeat _ => exact ⟨_, rfl, h.gooseRepeat⟩
  | svFrameReceive _ _ => exact ⟨_, rfl, h.svReceive⟩
  | svStreamLost _ => exact ⟨_, rfl, h.svStreamLost⟩
  | arpRequestReceive _ _ => exact ⟨_, rfl, h.arpRequest⟩
  | icmpEchoReceive _ _ _ _ => exact ⟨_, rfl, h.icmpEcho⟩
  | ethLinkDown _ => exact ⟨_, rfl, h.ethLinkDown⟩
  | heartbeatSend _ => exact ⟨_, rfl, h.heartbeatSend⟩
  | heartbeatReceive _ => exact ⟨_, rfl, h.heartbeatReceive⟩
  | silenceTimeout => exact ⟨_, rfl, h.silenceTimeout⟩
  | leaseExpiry => exact ⟨_, rfl, h.leaseExpiry⟩
  | mirrorLaneLoss _ => exact ⟨_, rfl, h.mirrorLaneLoss⟩
  | mirrorRecordReceive _ _ => exact ⟨_, rfl, .ite h h.noteLatency.mirrorRecordReceive⟩
  | relayFrameLaunch _ => exact ⟨_, rfl, h.relayFrameLaunch⟩
  | btnSelftestStart => exact ⟨_, rfl, h.btnSelftestStart⟩
  | btnSelftestDone _ => exact ⟨_, rfl, h.btnSelftestDone⟩
  | btnSelftestResultTimeout => exact ⟨_, rfl, h.btnSelftestResultTimeout⟩
  | btnCmdHandover _ => exact ⟨_, rfl, h.btnCmdHandover⟩
  | btnCmdReadyAck _ => exact ⟨_, rfl, h.btnCmdReadyAck⟩
  | btnCmdSelftest _ => exact ⟨_, rfl, h.btnCmdSelftest⟩
  | handoverAcceptDeadline => exact ⟨_, rfl, h.handoverAcceptDeadline⟩
  | modeDiffTimeout => exact ⟨_, rfl, h.modeDiffTimeout⟩
  | pbDiffTimeout => exact ⟨_, rfl, h.pbDiffTimeout⟩
  | joinTimeout => exact ⟨_, rfl, h.joinTimeout⟩
  | joinComplete => exact ⟨_, rfl, h.joinComplete⟩
  | eventDispatch _ => exact ⟨_, rfl, h.dispatch.takeWaiting⟩
  | heldEventEntry => exact ⟨_, rfl, h.heldEventEntry⟩
  | schTimerExpiry _ => exact ⟨_, rfl, h.schTimerExpiry⟩
  | schTraceMark => exact ⟨_, rfl, h.schTraceMark⟩
  | schTrcEnable _ _ => exact ⟨_, rfl, h.schTrcEnable⟩
  | eventWatchdogExpiry _ _ => exact ⟨_, rfl, h.eventWatchdogExpiry⟩
  | fcoStatusClear _ _ _ => exact ⟨_, rfl, h.fcoStatusClear⟩
  | fcoCaptureRelease _ => exact ⟨_, rfl, h.fcoCaptureRelease⟩
  | fcoClassWrite _ _ _ => exact ⟨_, rfl, h.fcoClassWrite⟩
  | fcoInjectGo _ _ => exact ⟨_, rfl, h.fcoInjectGo⟩
  | fcoInjectCancel _ => exact ⟨_, rfl, h.fcoInjectCancel⟩
  | swFaultRaise _ => exact ⟨_, rfl, h.swFaultRaise⟩
  | swFaultClear _ => exact ⟨_, rfl, h.swFaultClear⟩
  | fcoFoutWrite _ _ => exact ⟨_, rfl, h.fcoFoutWrite⟩
  | faultOutTminExpiry => exact ⟨_, rfl, h.faultOutTminExpiry⟩
  | pllLossOfLock => exact ⟨_, rfl, h.occur⟩
  | supervisoryWatchdogExpiry => exact ⟨_, rfl, h.occur⟩
  | dieLinkLoss l => exact execDieLinkLoss_answers l s
  | opticsAlarm _ => exact ⟨_, rfl, h.occur⟩
  | safetyFirmwareStep _ _ _ _ => exact ⟨_, rfl, h.safetyFirmwareStep⟩
  | safetyBlockDecision => exact ⟨_, rfl, h.safetyBlockDecision⟩
  | blockCommaRepeat => exact ⟨_, rfl, .ite h.blockLine h⟩
  | sf3WatchdogExpiry => exact ⟨_, rfl, h.sf3WatchdogExpiry⟩
  | testPulse _ _ _ => exact ⟨_, rfl, h.testPulse⟩
  | safetyDiscrepancyTimeout _ => exact ⟨_, rfl, h.discrepancyTimeout⟩
  | outputSwitchTest _ _ => exact ⟨_, rfl, h.outputSwitchTest⟩
  | outputSwitchTestEnd _ _ _ => exact ⟨_, rfl, h.outputSwitchTestEnd⟩
  | outputReadbackMismatch _ => exact ⟨_, rfl, .ite h h.outputFault⟩
  | outputOvercurrent _ => exact ⟨_, rfl, .ite h h.outputFault⟩
  | permitDelayExpiry _ => exact ⟨_, rfl, h.permitDelayExpiry⟩
  | safetyLinkSilence => exact ⟨_, rfl, .ite h h.detected.latchCauses.settleOutputs⟩
  | svSupplyOutOfRange => exact ⟨_, rfl, .ite h h.detected.latchCauses.settleOutputs⟩
  | safetySelftestEnd _ => exact ⟨_, rfl, h.safetySelftestEnd⟩
  | lockoutRelease _ => exact ⟨_, rfl, .hmpRun h (fun _ _ h1 => h1.armRelease)⟩
  | releaseWindowExpiry => exact ⟨_, rfl, h.update⟩
  | lockoutResetFallingEdge _ => exact ⟨_, rfl, h.resetFallingEdge⟩
  | lockoutResetLongPress => exact ⟨_, rfl, h.update⟩
  | keyStuckClear => exact ⟨_, rfl, h.update⟩
  | safePbLoad _ _ _ _ _ => exact ⟨_, rfl, h.safePbLoad⟩
  | safeLogAck _ _ _ => exact ⟨_, rfl, .hmpRun h (fun _ _ h1 => h1.safeLogAckBody)⟩
  | fieldFrameToLogic body crc fv term oc extv => exact execFieldFrameToLogic_answers body crc fv term oc extv s
  | fieldFrameToField _ _ => exact ⟨_, rfl, .ite h (.ite h.setField h.update)⟩
  | fieldLinkSilenceField => exact ⟨_, rfl, .ite h.setField h⟩
  | fieldLinkSilenceLogic => exact ⟨_, rfl, .ite h h.fset.regSet.bump.raiseCond⟩
  | fieldInputChange _ _ => exact ⟨_, rfl, h.setField⟩
  | fieldWireBreak _ => exact ⟨_, rfl, .ite h.setField h⟩
  | fieldWireBreakClear _ => exact ⟨_, rfl, h.setField⟩
  | fieldOutputOvercurrent _ => exact ⟨_, rfl, h.setField⟩
  | fieldOutputExtVoltage _ => exact ⟨_, rfl, .ite h h.setField⟩
  | fieldSupplyWarn => exact ⟨_, rfl, h.setField⟩
  | fieldSupplyWarnClear => exact ⟨_, rfl, h.setField⟩
  | fieldSupplyOff => exact ⟨_, rfl, .ite h h.setField⟩
  | fieldSupplyOk => exact ⟨_, rfl, .ite h.setField h⟩
  | supRearm _ => exact ⟨_, rfl, h.fioWrite⟩
  | linkRearm _ => exact ⟨_, rfl, h.fioWrite⟩
  | fioDqWrite _ _ => exact ⟨_, rfl, h.fioWrite⟩
  | modeReqCommission _ => exact ⟨_, rfl, h.modeRequest⟩
  | modeReqCharge _ => exact ⟨_, rfl, h.modeRequest⟩
  | modeReqReady _ => exact ⟨_, rfl, h.modeRequest⟩
  | modeReqRun _ => exact ⟨_, rfl, h.modeRequest⟩
  | statBoundary => exact ⟨_, rfl, h.statBoundary⟩
  | statPeriodWrite _ _ => exact ⟨_, rfl, h.statPeriodWrite⟩
  | statBankValRead _ => exact ⟨_, rfl, h.bankValRead⟩
  | rsLowHalfRead _ _ => exact ⟨_, rfl, h.rsLowHalfRead⟩
  | registerWrite _ _ _ => exact ⟨_, rfl, h.writeReg⟩
  | hmpOpen _ _ _ => exact ⟨_, rfl, h.hmpOpen⟩
  | hmpClose _ => exact ⟨_, rfl, h.hmpClose⟩
  | hmpSessionIdleTimeout _ => exact ⟨_, rfl, h.closeSessions⟩
  | hmpAddressBlockExpiry _ => exact ⟨_, rfl, h.update⟩
  | regRead _ _ _ _ => exact ⟨_, rfl, .hmpRun h (fun _ _ h1 => h1.regReadBody)⟩
  | regWrite _ _ _ => exact ⟨_, rfl, .hmpRun h (fun _ _ h1 => h1.regWriteBody)⟩
  | memRead _ _ _ => exact ⟨_, rfl, .hmpRun h (fun _ _ h1 => h1.memReadBody)⟩
  | memWrite _ _ _ => exact ⟨_, rfl, .hmpRun h (fun _ _ h1 => h1.memWriteBody)⟩
  | recordRead _ _ _ _ _ => exact ⟨_, rfl, .hmpRun h (fun _ _ h1 => h1.recordReadBody)⟩
  | imageBegin _ _ _ => exact ⟨_, rfl, .imageRun h (fun _ _ h1 => h1.imageBeginBody)⟩
  | imageData _ _ _ => exact ⟨_, rfl, .imageRun h (fun _ _ h1 => h1.imageDataBody)⟩
  | imageEnd _ _ _ _ _ => exact ⟨_, rfl, .imageRun h (fun _ _ h1 => h1.imageEndBody)⟩
  | imageActivateFirmware _ => exact ⟨_, rfl, .imageActivate h (fun _ h1 => h1.swapActive)⟩
  | imageActivateProgram _ => exact ⟨_, rfl, .imageActivate h (fun _ h1 => h1.update)⟩
  | imageActivateCommission _ => exact ⟨_, rfl, .imageActivate h (fun _ h1 => h1.update)⟩
  | keyEnrol _ _ _ _ => exact ⟨_, rfl, .hmpRun h (fun _ _ h1 => h1.keyEnrolBody)⟩
  | mbWrite _ _ _ => exact ⟨_, rfl, .hmpRun h (fun _ _ h1 => h1.mbWriteBody)⟩
  | rawSample _ _ => exact ⟨_, rfl, h.rawSample⟩
  | portSignalReturn _ => exact ⟨_, rfl, h.portReturn⟩
  | chainFreqReturn _ => exact ⟨_, rfl, h.chainFreq⟩
  | mirrorLaneRestore _ => exact ⟨_, rfl, h.mirrorLaneRestore⟩
  | ethLinkUp _ => exact ⟨_, rfl, h.ethLinkUp⟩
  | dieLinkRestore l => exact execDieLinkRestore_answers l s
  | mbWriteTimeout _ => exact ⟨_, rfl, h.mailboxAnswer⟩
  | arpReplyReceive _ _ => exact ⟨_, rfl, h.arpReply⟩
  | managementChannelReceive _ => exact ⟨_, rfl, h.management⟩

theorem Keeps.idle {s t : State} (h : Keeps s t) : Keeps s (idle t) := h.update

/-- A step is `exec` of the front command on the rest of the queue, or the idle tick, so it keeps what they keep. -/
theorem step_answers (s : State) : ∃ t, step s = .next t ∧ Keeps { s with pending := s.pending.tail } t := by
  unfold step
  split
  next hq =>
    refine ⟨_, rfl, rfl.trans ?_, fun hs => hs⟩
    show s.pending = s.pending.tail
    rw [hq]
    rfl
  next c rest hq =>
    rw [hq]
    exact exec_answers c _

/-- Settles O59: every part of a command's work keeps the canonical form (the `Keeps` lemmas), so every command does. -/
theorem everyStepKeepsTheCanonicalForm : Obligations.EveryStepKeepsTheCanonicalForm := by
  refine ⟨exec_answers, fun s hs => ?_⟩
  obtain ⟨t, hstep, hpending, hcanonical⟩ := step_answers s
  exact ⟨t, hstep, hcanonical hs, hpending⟩

end Sys2Proof.Machine
end

section
namespace Sys2Proof.Machine

/-! # Fields of registers -/

theorem testBit_fieldGet (w : Word) (hi lo i : Nat) :
    (fieldGet w hi lo).testBit i = (decide (i < hi - lo + 1) && w.toNat.testBit (i + lo)) := by
  simp [fieldGet, Nat.testBit_mod_two_pow, Nat.testBit_div_two_pow]

/-- A word is its bits above a field, the field, and its bits below. -/
theorem toNat_eq_fieldGet (w : Word) {hi lo : Nat} (h : lo ≤ hi) :
    w.toNat = 2 ^ lo * (2 ^ (hi - lo + 1) * (w.toNat / 2 ^ (hi + 1)) + fieldGet w hi lo) + w.toNat % 2 ^ lo := by
  have hsplit : 2 ^ (hi + 1) = 2 ^ lo * 2 ^ (hi - lo + 1) := by
    rw [← Nat.pow_add]
    congr 1
    omega
  rw [hsplit, ← Nat.div_div_eq_div_mul, fieldGet, Nat.div_add_mod, Nat.div_add_mod]

theorem toNat_fieldSet (w : Word) {hi lo : Nat} (v : Nat) (h : lo ≤ hi) (hhi : hi < 32) :
    (fieldSet w hi lo v).toNat =
      2 ^ lo * (2 ^ (hi - lo + 1) * (w.toNat / 2 ^ (hi + 1)) + v % 2 ^ (hi - lo + 1)) + w.toNat % 2 ^ lo := by
  have hw := toNat_eq_fieldGet w h
  have hrest : w.toNat - fieldGet w hi lo * 2 ^ lo + v % 2 ^ (hi - lo + 1) * 2 ^ lo =
      2 ^ lo * (2 ^ (hi - lo + 1) * (w.toNat / 2 ^ (hi + 1)) + v % 2 ^ (hi - lo + 1)) + w.toNat % 2 ^ lo := by
    rw [Nat.mul_add] at hw ⊢
    rw [Nat.mul_comm (fieldGet w hi lo), Nat.mul_comm (v % _)]
    omega
  have hlt : 2 ^ lo * (2 ^ (hi - lo + 1) * (w.toNat / 2 ^ (hi + 1)) + v % 2 ^ (hi - lo + 1)) + w.toNat % 2 ^ lo
      < 2 ^ 32 := by
    have h1 : w.toNat / 2 ^ (hi + 1) < 2 ^ (31 - hi) := by
      rw [Nat.div_lt_iff_lt_mul (Nat.two_pow_pos _), ← Nat.pow_add, show 31 - hi + (hi + 1) = 32 by omega]
      exact w.isLt
    have h2 := Nat.mod_lt v (Nat.two_pow_pos (hi - lo + 1))
    have h3 := Nat.mod_lt w.toNat (Nat.two_pow_pos lo)
    have e : 2 ^ 32 = 2 ^ lo * (2 ^ (hi - lo + 1) * 2 ^ (31 - hi)) := by
      rw [← Nat.pow_add, ← Nat.pow_add]; congr 1; omega
    rw [e]
    calc _ < 2 ^ lo * (2 ^ (hi - lo + 1) * (w.toNat / 2 ^ (hi + 1)) + v % 2 ^ (hi - lo + 1)) + 2 ^ lo := by omega
      _ = 2 ^ lo * (2 ^ (hi - lo + 1) * (w.toNat / 2 ^ (hi + 1)) + v % 2 ^ (hi - lo + 1) + 1) := by ring
      _ ≤ 2 ^ lo * (2 ^ (hi - lo + 1) * (w.toNat / 2 ^ (hi + 1) + 1)) := by
        refine Nat.mul_le_mul_left _ ?_
        rw [Nat.mul_add]; omega
      _ ≤ _ := Nat.mul_le_mul_left _ (Nat.mul_le_mul_left _ h1)
  rw [fieldSet, hrest, BitVec.toNat_ofNat, Nat.mod_eq_of_lt hlt]

theorem testBit_fieldSet (w : Word) {hi lo : Nat} (v i : Nat) (h : lo ≤ hi) (hhi : hi < 32) :
    (fieldSet w hi lo v).toNat.testBit i =
      if lo ≤ i ∧ i ≤ hi then v.testBit (i - lo) else w.toNat.testBit i := by
  rw [toNat_fieldSet w v h hhi, Nat.testBit_two_pow_mul_add _ (Nat.mod_lt _ (Nat.two_pow_pos _)),
    Nat.testBit_two_pow_mul_add _ (Nat.mod_lt _ (Nat.two_pow_pos _))]
  simp only [Nat.testBit_mod_two_pow, Nat.testBit_div_two_pow]
  split
  · rw [if_neg (by omega), decide_eq_true (by omega), Bool.true_and]
  · split
    · rw [if_pos (by omega), decide_eq_true (by omega), Bool.true_and]
    · rw [if_neg (by omega)]
      congr 1
      omega

theorem fieldGet_fieldSet_self (w : Word) {hi lo : Nat} (v : Nat) (h : lo ≤ hi) (hhi : hi < 32) :
    fieldGet (fieldSet w hi lo v) hi lo = v % 2 ^ (hi - lo + 1) := by
  refine Nat.eq_of_testBit_eq fun i => ?_
  rw [testBit_fieldGet, testBit_fieldSet w v _ h hhi, Nat.testBit_mod_two_pow]
  by_cases hi' : i < hi - lo + 1
  · rw [if_pos (by omega), Nat.add_sub_cancel]
  · simp [hi']

theorem fieldGet_fieldSet_other (w : Word) {hi lo hi' lo' : Nat} (v : Nat) (h : lo ≤ hi) (hhi : hi < 32)
    (h' : lo' ≤ hi') (hd : hi' < lo ∨ hi < lo') : fieldGet (fieldSet w hi lo v) hi' lo' = fieldGet w hi' lo' := by
  refine Nat.eq_of_testBit_eq fun i => ?_
  rw [testBit_fieldGet, testBit_fieldGet, testBit_fieldSet w v _ h hhi]
  by_cases hi'' : i < hi' - lo' + 1
  · rw [if_neg (by omega)]
  · simp [hi'']

theorem fget_fset_self (f : Field) (v : Nat) (s : State) (h : f.lo ≤ f.hi) (hhi : f.hi < 32) :
    fget (fset f v s) f = v % 2 ^ (f.hi - f.lo + 1) := by
  rw [fget, fset, regGet_regSet_self, fieldGet_fieldSet_self _ _ h hhi]

theorem fget_regSet_other {f : Field} {a : Nat} (v : Word) (s : State) (h : f.reg ≠ a) :
    fget (regSet a v s) f = fget s f := by
  rw [fget, fget, regGet_regSet_other _ _ h]

theorem regGet_fset_other {f : Field} {x : Nat} (v : Nat) (s : State) (h : x ≠ f.reg) :
    regGet (fset f v s) x = regGet s x := regGet_regSet_other _ _ h

theorem testBit_setBit (m i : Nat) (b : Bool) : (setBit m i b).testBit i = b := by
  unfold setBit
  split
  · assumption
  next h =>
    cases b with
    | true =>
      rw [if_pos rfl, Nat.add_comm, Nat.testBit_two_pow_add_eq]
      simpa using h
    | false =>
      have hm : m.testBit i = true := by simpa using h
      have hsum := Nat.testBit_two_pow_add_eq (m - 2 ^ i) i
      rw [Nat.add_sub_cancel' (Nat.ge_two_pow_of_testBit hm), hm] at hsum
      simpa using hsum
theorem testBit_add_two_pow_other {m i j : Nat} (hm : m.testBit i = false) (h : j ≠ i) :
    (m + 2 ^ i).testBit j = m.testBit j := by
  rcases Nat.lt_or_gt_of_ne h with hlt | hgt
  · have hmod : (m + 2 ^ i) % 2 ^ i = m % 2 ^ i := Nat.add_mod_right ..
    calc (m + 2 ^ i).testBit j = ((m + 2 ^ i) % 2 ^ i).testBit j := by simp only [Nat.testBit_mod_two_pow, hlt]; simp
      _ = m.testBit j := by rw [hmod, Nat.testBit_mod_two_pow, decide_eq_true hlt, Bool.true_and]
  · have heven : m / 2 ^ i % 2 = 0 := by simpa [Nat.testBit_eq_decide_div_mod_eq] using hm
    have hdiv : (m + 2 ^ i) / 2 ^ i / 2 = m / 2 ^ i / 2 := by
      rw [Nat.add_div_right _ (Nat.two_pow_pos i)]
      omega
    rw [Nat.div_div_eq_div_mul, Nat.div_div_eq_div_mul, ← Nat.pow_succ] at hdiv
    have hbit := congrArg (fun n => n.testBit (j - (i + 1))) hdiv
    simpa [Nat.testBit_div_two_pow, Nat.sub_add_cancel hgt] using hbit

theorem testBit_setBit_other {m i j : Nat} (b : Bool) (h : j ≠ i) : (setBit m i b).testBit j = m.testBit j := by
  unfold setBit
  split
  · rfl
  next hne =>
    cases b with
    | true => exact testBit_add_two_pow_other (by simpa using hne) h
    | false =>
      have hm : m.testBit i = true := by simpa using hne
      have hsum := Nat.sub_add_cancel (Nat.ge_two_pow_of_testBit hm)
      have hclear : (m - 2 ^ i).testBit i = false := by simpa [setBit, hm] using testBit_setBit m i false
      rw [if_neg Bool.false_ne_true, ← testBit_add_two_pow_other hclear h, hsum]

end Sys2Proof.Machine
end

section
namespace Sys2Proof.Machine

/-! # HMP requests that are admitted -/

theorem CmdRule.refusal_of_admitted {r : Req} {k : CmdRule} {x : Session} {s : State} (h : admitted r k x s) :
    k.refusal x r (acceptSeq r.session r.seq s) = none := by
  obtain ⟨-, -, -, -, hrole, heth, hholder, hmode⟩ := h
  have hport : (k.ethM && r.port == .station) = false := by
    cases hk : k.ethM
    · rfl
    · simp [heth hk]
  have hstandby : (k.holder && s.sys.role == .standby) = false := by
    cases hk : k.holder
    · rfl
    · simp [hholder hk]
  unfold CmdRule.refusal
  rw [if_neg (Nat.not_lt.mpr hrole), if_neg (by simp [hport])]
  show (if (k.holder && s.sys.role == .standby) = true then _ else if s.sys.mode ∉ k.modes then _ else _) = _
  rw [if_neg (by simp [hstandby]), if_neg (not_not.mpr hmode)]

/-- An admitted request whose body answers OK is answered OK (R457, R481). -/
theorem hmpRun_of_ok {r : Req} {k : CmdRule} {x : Session} {s t : State} {p : List Byte}
    {body : Session → State → State × Reply} (h : admitted r k x s)
    (hbody : body x (acceptSeq r.session r.seq s) = (t, some (.ok, p))) :
    hmpRun r k body s = hmpAnswer r.session r.seq .ok p t := by
  have hrefusal := CmdRule.refusal_of_admitted h
  obtain ⟨hpow, hfind, htag, hseq, -⟩ := h
  unfold hmpRun
  rw [if_neg (by simp [hpow]), hfind]
  have hne : r.seq ≠ x.lastSeq := fun he => by rw [he] at hseq; exact lt_irrefl _ hseq
  simp only [htag, Bool.not_true, Bool.false_eq_true, if_false, if_neg (Nat.not_lt.mpr hseq.le), if_neg hne, hrefusal,
    hbody]

theorem hmpAnswer_answers (r : Req) (st : Status) (p : List Byte) (t : State) :
    answers (hmpAnswer r.session r.seq st p t) r st p := rfl

/-- Accepting the SEQ and answering touch the management state only. -/
theorem hmpAnswer_acceptSeq_frame (r : Req) (st : Status) (p : List Byte) (s : State) :
    hmpAnswer r.session r.seq st p (acceptSeq r.session r.seq s) =
      { s with sys := (hmpAnswer r.session r.seq st p (acceptSeq r.session r.seq s)).sys } := rfl

/-! # Register reads -/

theorem bankRead_acceptSeq (n q : Word) (s : State) (a : Nat) : bankRead (acceptSeq n q s) a = bankRead s a := rfl

theorem regReadBody_bank {a n : Nat} {x : Session} {s : State} (hboot : s.sys.mode ≠ .boot) (h1 : 1 ≤ n)
    (h256 : n ≤ 256) (hin : inBlocks a n = true) : regReadBody true a n x s =
      (s, some (.ok, wordsBytes ((List.range n).map (fun i => bankRead s (a + 4 * i))))) := by
  unfold regReadBody
  rw [if_neg (fun h => hboot h.1), if_neg (by simp [hin]; omega), if_pos rfl]

theorem regReadBody_now {a n : Nat} {x : Session} {s : State} (hboot : s.sys.mode ≠ .boot) (h1 : 1 ≤ n)
    (h256 : n ≤ 256) (hin : inBlocks a n = true) : regReadBody false a n x s =
      ((readRegs (.session x.num) a n s).2, some (.ok, wordsBytes (readRegs (.session x.num) a n s).1)) := by
  unfold regReadBody
  rw [if_neg (fun h => hboot h.1), if_neg (by simp [hin]; omega), if_neg Bool.false_ne_true]

theorem regRead_answers {s : State} {r : Req} {x : Session} {a : Word} {n : Nat}
    (h : admitted r ⟨0x0010, .viewer, false, false, allModes⟩ x s) (hboot : s.sys.mode ≠ .boot) (h1 : 1 ≤ n)
    (h256 : n ≤ 256) (hin : inBlocks a.toNat n = true) :
    (∃ t, exec (.regRead r false a n) s = .next t ∧
      answers t r .ok (wordsBytes (readRegs (.session x.num) a.toNat n (acceptSeq r.session r.seq s)).1)) ∧
    (∃ t, exec (.regRead r true a n) s = .next t ∧ t = { s with sys := t.sys } ∧
      answers t r .ok (wordsBytes ((List.range n).map (fun i => bankRead s (a.toNat + 4 * i))))) := by
  have hnow := hmpRun_of_ok h (regReadBody_now (x := x) (s := acceptSeq r.session r.seq s) hboot h1 h256 hin)
  have hbank := hmpRun_of_ok h (regReadBody_bank (x := x) (s := acceptSeq r.session r.seq s) hboot h1 h256 hin)
  exact ⟨⟨_, congrArg Host.Outcome.next hnow, rfl⟩, ⟨_, congrArg Host.Outcome.next hbank, rfl, rfl⟩⟩

/-! # Memory reads -/

theorem memReadBody_of_none {a n : Nat} {x : Session} {s : State} (h : hmpReadRefusal s a n = none) :
    memReadBody a n x s =
      ((hmpReadWords x.num a (n / 4) s).2, some (.ok, wordsBytes (hmpReadWords x.num a (n / 4) s).1)) := by
  unfold memReadBody
  rw [h]

/-- The bytes of a word that four bytes spell, least significant first (R3). -/
theorem wordBytes_append (b3 b2 b1 b0 : Byte) : wordBytes (b3 ++ b2 ++ b1 ++ b0 : BitVec 32) = [b0, b1, b2, b3] := by
  have hbyte (k : Nat) (b : Byte)
      (h : ∀ i, i < 8 → (b3 ++ b2 ++ b1 ++ b0 : BitVec 32).getLsbD (k + i) = b.getLsbD i) :
      ((b3 ++ b2 ++ b1 ++ b0 : BitVec 32) >>> k).setWidth 8 = b := by
    ext i hi
    rw [← BitVec.getLsbD_eq_getElem, ← BitVec.getLsbD_eq_getElem, BitVec.getLsbD_setWidth, BitVec.getLsbD_ushiftRight,
      h i hi]
    simp [hi]
  unfold wordBytes
  rw [hbyte 8 b1, hbyte 16 b2, hbyte 24 b3]
  · have h0 := hbyte 0 b0
    rw [BitVec.ushiftRight_zero] at h0
    rw [h0]
    intro i hi
    simp only [Nat.zero_add, BitVec.getLsbD_append]
    rw [if_pos hi]
  · intro i hi
    simp only [BitVec.getLsbD_append]
    rw [if_neg (by omega), if_neg (by omega), if_neg (by omega)]
    congr 1
    omega
  · intro i hi
    simp only [BitVec.getLsbD_append]
    rw [if_neg (by omega), if_neg (by omega), if_pos (by omega)]
    congr 1
    omega
  · intro i hi
    simp only [BitVec.getLsbD_append]
    rw [if_neg (by omega), if_pos (by omega)]
    congr 1
    omega

theorem wordsBytes_memReadWord (s : State) (a : Nat) :
    wordsBytes [memReadWord s a] = [memRead s a, memRead s (a + 1), memRead s (a + 2), memRead s (a + 3)] := by
  simp [wordsBytes, memReadWord, wordBytes_append]

theorem eccLoad_unmarked {key src addr master access : Nat} {s : State}
    (h : Store.get (fun _ => 0) s.fco.marks key = 0) : eccLoad key src addr master access s = (false, s) := by
  unfold eccLoad
  rw [if_pos h]

/-- Beyond the snapshot tables no word has higher halves (R8). -/
theorem wideRead_beyond_tables {rd : Reader} {off : Nat} {w : Word} {s : State} (h : 0x20E00 ≤ off) :
    wideRead rd off w s = (w, s) := by
  have hhigh : isHigher off = false := by
    unfold isHigher
    rw [if_neg (by omega), if_neg (by omega)]
    simp; omega
  have hwide : wideHalves off = 0 := by
    unfold wideHalves
    rw [if_neg (by omega), if_neg (by omega), if_neg (by omega)]
  unfold wideRead
  simp only [hhigh, hwide, Bool.false_eq_true, if_false]
  rfl

/-- Staging and user memory lie in shared control memory beyond the snapshot tables. -/
theorem scmWithin_staging {a : Nat} (h : scmWithin [(0x60000, 0x70000), (0x200000, 0x210000)] a 4 = true) :
    inScm a 4 = true ∧ 0x20E00 ≤ a - Config.scmBase := by
  simp [scmWithin] at h
  simp [inScm]
  omega

theorem hmpReadWord_staging {n : Word} {a : Nat} {s : State}
    (h : scmWithin [(0x60000, 0x70000), (0x200000, 0x210000)] a 4 = true)
    (hmark : Store.get (fun _ => 0) s.fco.marks (a / 4) = 0) : hmpReadWord n a s = (memReadWord s a, s) := by
  obtain ⟨hscm, hoff⟩ := scmWithin_staging h
  unfold hmpReadWord
  simp only [eccLoad_unmarked hmark, Bool.false_eq_true, if_false, if_pos hscm, wideRead_beyond_tables hoff]

theorem memRead_answers {s : State} {r : Req} {x : Session} {a : BitVec 40} {n : Nat}
    (h : admitted r ⟨0x0012, .viewer, false, false, notBoot⟩ x s) (hmay : hmpReadRefusal s a.toNat n = none) :
    (∃ t, exec (.memRead r a n) s = .next t ∧
      answers t r .ok (wordsBytes (hmpReadWords x.num a.toNat (n / 4) (acceptSeq r.session r.seq s)).1)) ∧
    (n = 4 → scmWithin [(0x60000, 0x70000), (0x200000, 0x210000)] a.toNat 4 = true →
      Store.get (fun _ => 0) s.fco.marks (a.toNat / 4) = 0 →
      ∃ t, exec (.memRead r a n) s = .next t ∧ t = { s with sys := t.sys } ∧
        answers t r .ok
          [memRead s a.toNat, memRead s (a.toNat + 1), memRead s (a.toNat + 2), memRead s (a.toNat + 3)]) := by
  have hmay' : hmpReadRefusal (acceptSeq r.session r.seq s) a.toNat n = none := hmay
  have hrun := hmpRun_of_ok h (memReadBody_of_none (x := x) hmay')
  refine ⟨⟨_, congrArg Host.Outcome.next hrun, rfl⟩, ?_⟩
  rintro rfl hscm hmark
  have hword : hmpReadWords x.num a.toNat (4 / 4) (acceptSeq r.session r.seq s) =
      ([memReadWord s a.toNat], acceptSeq r.session r.seq s) := by
    have hread := hmpReadWord_staging (n := x.num) (s := acceptSeq r.session r.seq s) hscm hmark
    simp only [Nat.div_self (Nat.succ_pos 3), hmpReadWords, hread]
    rfl
  rw [hword, wordsBytes_memReadWord] at hrun
  exact ⟨_, congrArg Host.Outcome.next hrun, rfl, rfl⟩

/-! # Record reads -/

theorem recordBytes_acceptSeq (n q : Word) (s : State) (kind index : Nat) :
    recordBytes (acceptSeq n q s) kind index = recordBytes s kind index := rfl

theorem recordRead_answers {s : State} {r : Req} {x : Session} {kind index off len : Nat} {bs : List Byte}
    (h : admitted r ⟨0x0020, .viewer, false, false, allModes⟩ x s) (hlen : len ≤ 1024)
    (hbs : recordBytes s kind index = .ok bs) :
    ∃ t, exec (.recordRead r kind index off len) s = .next t ∧ t = { s with sys := t.sys } ∧
      answers t r .ok ((bs.drop off).take len) := by
  have hbody : recordReadBody kind index off len x (acceptSeq r.session r.seq s) =
      (acceptSeq r.session r.seq s, some (.ok, (bs.drop off).take len)) := by
    unfold recordReadBody
    rw [if_neg (Nat.not_lt.mpr hlen), recordBytes_acceptSeq, hbs]
  exact ⟨_, congrArg Host.Outcome.next (hmpRun_of_ok h hbody), rfl, rfl⟩

/-! # Wide registers -/

theorem latchGet_latchPut (rd : Reader) (a b : Nat) (v : Word) (s : State) :
    latchGet rd b (latchPut rd a v s) = if b = a then v else latchGet rd b s := by
  simp [latchGet, latchPut, Store.get_set]

theorem regShown_latchPut (rd : Reader) (d : RegDesc) (a b : Nat) (v : Word) (s : State) :
    regShown (latchPut rd a v s) d b = regShown s d b := rfl

/-- The first `n` latches of `latchHalves`. -/
def latchFirst (rd : Reader) (d : RegDesc) (a n : Nat) (s : State) : State :=
  (List.range n).foldl (fun s i => latchPut rd (a + 4 * (i + 1)) (regShown s d (a + 4 * (i + 1))) s) s

theorem latchHalves_eq (rd : Reader) (d : RegDesc) (a : Nat) (s : State) :
    latchHalves rd d a s = latchFirst rd d a d.rs s := rfl

theorem latchFirst_succ (rd : Reader) (d : RegDesc) (a n : Nat) (s : State) :
    latchFirst rd d a (n + 1) s =
      latchPut rd (a + 4 * (n + 1)) (regShown (latchFirst rd d a n s) d (a + 4 * (n + 1))) (latchFirst rd d a n s) := by
  simp [latchFirst, List.range_succ]

theorem latchFirst_frame (rd : Reader) (d : RegDesc) (a n : Nat) (s : State) :
    latchFirst rd d a n s = { s with latches := (latchFirst rd d a n s).latches } := by
  induction n with
  | zero => rfl
  | succ n ih => rw [latchFirst_succ, latchPut, ih]

theorem regShown_latchFirst (rd : Reader) (d : RegDesc) (a n b : Nat) (s : State) :
    regShown (latchFirst rd d a n s) d b = regShown s d b := by
  rw [latchFirst_frame]
  rfl

theorem latchGet_latchFirst (rd : Reader) (d : RegDesc) (a n : Nat) (s : State) (i : Nat) (hi : i < n) :
    latchGet rd (a + 4 * (i + 1)) (latchFirst rd d a n s) = regShown s d (a + 4 * (i + 1)) := by
  induction n with
  | zero => omega
  | succ n ih =>
    rw [latchFirst_succ, latchGet_latchPut, regShown_latchFirst]
    split
    next h => rw [h]
    next h => exact ih (by omega)

theorem regDesc_range {a : Nat} {d : RegDesc} (h : regDesc a = some d) : 0x40000000 ≤ a ∧ a < 0x40130000 := by
  unfold regDesc at h
  split at h
  · assumption
  · cases h

/-- A plain register is read as shown, and its higher halves are latched. -/
theorem readReg_plain {rd : Reader} {a : Nat} {d : RegDesc} {s : State} (halign : a % 4 = 0) (hd : regDesc a = some d)
    (hrc : d.rc = false) (hup : d.up = 0) (hstamp : ¬(0x400B1000 ≤ a ∧ a < 0x400B1400))
    (hbank : ¬(0x40120020 ≤ a ∧ a < 0x40120040)) : readReg rd a s = (regShown s d a, latchHalves rd d a s) := by
  have hnostamp : (decide (0x400B1000 ≤ a ∧ a < 0x400B1400) && a % 0x100 == 0x10) = false := by
    rw [decide_eq_false hstamp, Bool.false_and]
  unfold readReg
  rw [if_neg (not_not.mpr halign), hd]
  simp only [hnostamp, hrc, Bool.false_eq_true, if_false]
  rw [if_neg (fun h => hbank ⟨h.1, h.2.1⟩), if_neg (not_not.mpr hup)]

theorem rsLowHalfRead_latches {s : State} {rd : Reader} {a : Word} {d : RegDesc} (halign : a.toNat % 4 = 0)
    (hd : regDesc a.toNat = some d) (hrc : d.rc = false) (hup : d.up = 0)
    (hstamp : ¬(0x400B1000 ≤ a.toNat ∧ a.toNat < 0x400B1400))
    (hbank : ¬(0x40120020 ≤ a.toNat ∧ a.toNat < 0x40120040)) :
    ∃ t, exec (.rsLowHalfRead rd a) s = .next t ∧ t = { s with latches := t.latches } ∧
      (∀ i, i < d.rs → latchGet rd (a.toNat + 4 * (i + 1)) t = regShown s d (a.toNat + 4 * (i + 1))) := by
  have hread : rsLowHalfRead rd a.toNat s = latchFirst rd d a.toNat d.rs s := by
    unfold rsLowHalfRead
    rw [if_pos (regDesc_range hd), readReg_plain halign hd hrc hup hstamp hbank, latchHalves_eq]
  exact ⟨_, congrArg Host.Outcome.next hread, latchFirst_frame .., latchGet_latchFirst rd d _ _ s⟩

/-! # Statistics banks -/

/-- What a read of STAT_BANK_VAL_m leaves: the value shown and the mark of a selection that is no counter (R489). -/
def bankShown (m : Nat) (v : Word) (notCounter : Bool) (s : State) : State :=
  regSet (Reg.STAT_BANK_VAL m) v
    (fset Fld.STAT_BANK_STAT_NOT_COUNTER (setBit (fget s Fld.STAT_BANK_STAT_NOT_COUNTER) m notCounter) s)

theorem onlyRegs_bankShown (m : Nat) (v : Word) (b : Bool) (s : State) :
    onlyRegs [Reg.STAT_BANK_VAL m, Reg.STAT_BANK_STAT] s (bankShown m v b s) := by
  refine ⟨rfl, fun a ha => ?_⟩
  rw [List.mem_cons, List.mem_singleton, not_or] at ha
  rw [bankShown, regGet_regSet_other _ _ ha.1, regGet_fset_other _ _ ha.2]

theorem regGet_bankShown (m : Nat) (v : Word) (b : Bool) (s : State) :
    regGet (bankShown m v b s) (Reg.STAT_BANK_VAL m) = v := regGet_regSet_self ..

theorem notCounter_bankShown {m : Nat} (hm : m < 4) (v : Word) (b : Bool) (s : State) :
    (fget (bankShown m v b s) Fld.STAT_BANK_STAT_NOT_COUNTER).testBit m = b := by
  have hne : Reg.STAT_BANK_STAT ≠ Reg.STAT_BANK_VAL m := by
    unfold Reg.STAT_BANK_STAT Reg.STAT_BANK_VAL
    omega
  rw [bankShown, fget_regSet_other _ _ hne, fget_fset_self _ _ _ (by decide) (by decide), Nat.testBit_mod_two_pow,
    testBit_setBit]
  simp [Fld.STAT_BANK_STAT_NOT_COUNTER, hm]

theorem statBankValRead_shows (s : State) (m : Fin 4) :
    ∃ t, exec (.statBankValRead m) s = .next t ∧ onlyRegs [Reg.STAT_BANK_VAL m, Reg.STAT_BANK_STAT] s t ∧
      match bankSelected s m with
      | some a => regGet t (Reg.STAT_BANK_VAL m) = bankGet s a ∧
          (fget t Fld.STAT_BANK_STAT_NOT_COUNTER).testBit m = false
      | none => regGet t (Reg.STAT_BANK_VAL m) = 0 ∧ (fget t Fld.STAT_BANK_STAT_NOT_COUNTER).testBit m = true := by
  cases hsel : bankSelected s m with
  | some a =>
    have hread : (bankValRead m s).2 = bankShown m (bankGet s a) false s := by
      unfold bankValRead bankShown
      rw [hsel]
    exact ⟨_, congrArg Host.Outcome.next hread, onlyRegs_bankShown .., regGet_bankShown ..,
      notCounter_bankShown m.isLt ..⟩
  | none =>
    have hread : (bankValRead m s).2 = bankShown m 0 true s := by
      unfold bankValRead bankShown
      rw [hsel]
    exact ⟨_, congrArg Host.Outcome.next hread, onlyRegs_bankShown .., regGet_bankShown ..,
      notCounter_bankShown m.isLt ..⟩

/-- Settles O22: an admitted read runs its body on the accepted state, which answers what it reads; a wide register's
read and a bank value's are read off their functions. -/
theorem readsAnswerWhatTheyRead : Obligations.ReadsAnswerWhatTheyRead :=
  ⟨fun _ _ _ _ _ h hboot h1 h256 hin => regRead_answers h hboot h1 h256 hin,
    fun _ _ _ _ _ h hmay => memRead_answers h hmay,
    fun _ _ _ _ _ _ _ _ h hlen hbs => recordRead_answers h hlen hbs,
    fun _ _ _ _ halign hd _ hrc hup hstamp hbank => rsLowHalfRead_latches halign hd hrc hup hstamp hbank,
    statBankValRead_shows⟩

end Sys2Proof.Machine
end

section
namespace Sys2Proof.Machine

/-! # What an occurrence and an arriving event change

`Reacts`: what reactions and arrivals change, which leave the fault log and the latched bits alone. `FaultStep`: what a
latched occurrence changes beside. Each is a relation between the state an operation starts from and the one it leaves,
with one lemma per operation. -/

/-- The registers that a reaction or an arriving event may change. -/
def reactRegs : List Nat :=
  [Reg.SCH_MERGE_CNT, Reg.SCH_EVICT_CNT, Reg.SCH_DELAY_MAX, Reg.SCH_DELAY_CNT, Reg.SCH_REF_CNT 0, Reg.SCH_REF_CNT 1,
   Reg.SCH_REF_CNT 2, Reg.SCH_REF_CNT 3, Reg.SCH_TRC_STAT, Reg.SCH_TRC_WPTR, Reg.SCH_REF_WPTR, Reg.SCH_STATUS,
   Reg.FCO_INJ_STAT, Reg.FCO_FOUT, Reg.BTN_STATUS, Reg.BTN_HEALTH]

/-- The registers that the latching of an occurrence changes. -/
def latchRegs : List Nat :=
  [Reg.FCO_STATUS_0, Reg.FCO_STATUS_1, Reg.FCO_OCC_CNT 0, Reg.FCO_OCC_CNT 1, Reg.FCO_OCC_CNT 2, Reg.FCO_OCC_CNT 3,
   Reg.FCO_MULTI_CNT, Reg.FCO_CAP_0, Reg.FCO_CAP_1, Reg.FCO_CAP_2, Reg.FCO_CAP_3, Reg.FCO_CAP_4, Reg.FCO_LOG_WPTR]

/-- Only what an occurrence may change changed, and of the registers only those of `reactRegs` and `latchRegs`. -/
structure FaultStep (s t : State) : Prop where
  frame : onlyFault s t
  regs : regsBut (reactRegs ++ latchRegs) s t

/-- As `FaultStep`, with no occurrence latched. -/
structure Reacts (s t : State) : Prop extends FaultStep s t where
  ownRegs : regsBut reactRegs s t
  log : t.fco.log = s.fco.log

variable {s t u : State}

theorem regsBut.refl (as : List Nat) (s : State) : regsBut as s s := fun _ _ => rfl

theorem regsBut.trans {as : List Nat} (h : regsBut as s t) (h' : regsBut as t u) : regsBut as s u :=
  fun a ha => (h' a ha).trans (h a ha)

theorem regsBut.mono {as bs : List Nat} (h : regsBut as s t) (hsub : as ⊆ bs) : regsBut bs s t :=
  fun a ha => h a fun hin => ha (hsub hin)

theorem regsBut_regSet {as : List Nat} {a : Nat} (v : Word) (s : State) (ha : a ∈ as) : regsBut as s (regSet a v s) :=
  fun _ hx => regGet_regSet_other v s fun he => hx (he ▸ ha)

theorem regsBut.of_regs_eq {as : List Nat} (h : regsBut as s t) (hu : u.regs = t.regs) : regsBut as s u := by
  intro a ha
  rw [regGet, hu]
  exact h a ha

theorem regsBut.regSet {as : List Nat} {a : Nat} {v : Word} (h : regsBut as s t) (ha : a ∈ as) :
    regsBut as s (regSet a v t) := h.trans (regsBut_regSet v t ha)

theorem regsBut.fset {as : List Nat} {f : Field} {v : Nat} (h : regsBut as s t) (ha : f.reg ∈ as) :
    regsBut as s (fset f v t) := h.regSet ha

theorem regsBut.bump {as : List Nat} {a : Nat} (h : regsBut as s t) (ha : a ∈ as) : regsBut as s (bump a t) :=
  h.regSet ha

theorem regsBut.setSplitRegs {as : List Nat} {a : Nat} {v : Split} (h : regsBut as s t)
    (ha : a ∈ as ∧ a + 4 ∈ as ∧ a + 8 ∈ as) : regsBut as s (setSplitRegs a v t) :=
  ((h.regSet ha.2.2).regSet ha.2.1).regSet ha.1

theorem regsBut.ite {as : List Nat} {c : Prop} [Decidable c] (h : regsBut as s t) (h' : regsBut as s u) :
    regsBut as s (if c then t else u) := by
  split
  · exact h
  · exact h'

theorem regsBut.fget_eq {as : List Nat} (h : regsBut as s t) {f : Field} (hf : f.reg ∉ as) : fget t f = fget s f := by
  rw [fget, fget, h _ hf]

theorem onlyFault.refl (s : State) : onlyFault s s := ⟨rfl, rfl, rfl, fun _ _ => rfl⟩

/-- Where the rings lie is kept by whatever keeps their base registers. -/
theorem FaultStep.traceBase (h : FaultStep s t) :
    fget t Fld.SCH_TRC_BASE_BASE_MIB = fget s Fld.SCH_TRC_BASE_BASE_MIB := h.regs.fget_eq (by decide)

theorem FaultStep.refusalBase (h : FaultStep s t) :
    fget t Fld.SCH_REF_BASE_BASE_KIB = fget s Fld.SCH_REF_BASE_BASE_KIB := h.regs.fget_eq (by decide)

theorem FaultStep.ringsApart_iff (h : FaultStep s t) (x : Nat) : ringsApart t x ↔ ringsApart s x := by
  unfold ringsApart
  rw [h.traceBase, h.refusalBase]

theorem FaultStep.refl (s : State) : FaultStep s s := ⟨.refl s, .refl _ s⟩

theorem FaultStep.trans (h : FaultStep s t) (h' : FaultStep t u) : FaultStep s u := by
  obtain ⟨hframe, hsaf, hchr, hmem⟩ := h.frame
  obtain ⟨hframe', hsaf', hchr', hmem'⟩ := h'.frame
  refine ⟨⟨?_, ?_, ?_, fun x hx => (hmem' x ((h.ringsApart_iff x).mpr hx)).trans (hmem x hx)⟩, h.regs.trans h'.regs⟩
  · rw [hframe', hframe]
  · rw [hsaf', hsaf]
  · rw [hchr', hchr]

theorem Reacts.refl (s : State) : Reacts s s := ⟨.refl s, .refl _ s, rfl⟩

theorem Reacts.trans (h : Reacts s t) (h' : Reacts t u) : Reacts s u :=
  ⟨h.toFaultStep.trans h'.toFaultStep, h.ownRegs.trans h'.ownRegs, h'.log.trans h.log⟩

/-! ### The updates that they are made of -/

theorem FaultStep.regSet {a : Nat} {v : Word} (h : FaultStep s t) (ha : a ∈ reactRegs ++ latchRegs) :
    FaultStep s (regSet a v t) :=
  h.trans ⟨⟨rfl, rfl, rfl, fun _ _ => rfl⟩, regsBut_regSet v t ha⟩

theorem FaultStep.fset {f : Field} {v : Nat} (h : FaultStep s t) (ha : f.reg ∈ reactRegs ++ latchRegs) :
    FaultStep s (fset f v t) := h.regSet ha

theorem FaultStep.bump {a : Nat} (h : FaultStep s t) (ha : a ∈ reactRegs ++ latchRegs) : FaultStep s (bump a t) :=
  h.regSet ha

theorem FaultStep.fco (h : FaultStep s t) {f} : FaultStep s { t with fco := f } :=
  h.trans ⟨⟨rfl, rfl, rfl, fun _ _ => rfl⟩, .refl _ t⟩

theorem FaultStep.chrFaults (h : FaultStep s t) {l} : FaultStep s { t with chr := { t.chr with faults := l } } :=
  h.trans ⟨⟨rfl, rfl, rfl, fun _ _ => rfl⟩, .refl _ t⟩

theorem Reacts.regSet {a : Nat} {v : Word} (h : Reacts s t) (ha : a ∈ reactRegs) : Reacts s (regSet a v t) :=
  h.trans ⟨FaultStep.regSet (.refl t) (List.mem_append_left _ ha), regsBut_regSet v t ha, rfl⟩

theorem Reacts.fset {f : Field} {v : Nat} (h : Reacts s t) (ha : f.reg ∈ reactRegs) : Reacts s (fset f v t) :=
  h.regSet ha

theorem Reacts.bump {a : Nat} (h : Reacts s t) (ha : a ∈ reactRegs) : Reacts s (bump a t) := h.regSet ha

theorem Reacts.sch (h : Reacts s t) {x} : Reacts s { t with sch := x } :=
  h.trans ⟨⟨⟨rfl, rfl, rfl, fun _ _ => rfl⟩, .refl _ t⟩, .refl _ t, rfl⟩

theorem Reacts.btn (h : Reacts s t) {x} : Reacts s { t with btn := x } :=
  h.trans ⟨⟨⟨rfl, rfl, rfl, fun _ _ => rfl⟩, .refl _ t⟩, .refl _ t, rfl⟩

theorem Reacts.safetyCause {code : Nat} (h : Reacts s t) : Reacts s (safetyCause code t) :=
  h.trans ⟨⟨⟨rfl, rfl, rfl, fun _ _ => rfl⟩, .refl _ t⟩, .refl _ t, rfl⟩

theorem Reacts.setRaised {src inst : Nat} {b : Bool} (h : Reacts s t) : Reacts s (setRaised src inst b t) :=
  h.trans ⟨⟨⟨rfl, rfl, rfl, fun _ _ => rfl⟩, .refl _ t⟩, .refl _ t, rfl⟩

theorem Reacts.ite {c : Prop} [Decidable c] (h : Reacts s t) (h' : Reacts s u) : Reacts s (if c then t else u) := by
  split
  · exact h
  · exact h'

/-! ### Writes through the checkers -/

/-- A write through a checker changes FCO_INJ_STAT alone of the registers (R411). -/
theorem eccPass_regsBut (a n : Nat) (s : State) : regsBut [Reg.FCO_INJ_STAT] s (eccPass a n s) := by
  intro x hx
  unfold eccPass
  extract_lets lo hi
  split
  · rfl
  · split
    · exact regGet_regSet_other _ _ fun he => hx (he ▸ List.mem_singleton_self _)
    · rfl

theorem putBytes_regsBut (a : Nat) (bs : List Byte) (s : State) : regsBut [Reg.FCO_INJ_STAT] s (putBytes a bs s) :=
  eccPass_regsBut a bs.length s

/-- Bytes written within the rings. -/
theorem Reacts.putBytes {a : Nat} {bs : List Byte} (h : Reacts s t)
    (hring : ∀ x, ringsApart s x → ¬(a ≤ x ∧ x < a + bs.length)) : Reacts s (putBytes a bs t) := by
  have hregs := (putBytes_regsBut a bs t).mono (bs := reactRegs) (by decide)
  have hframe := putBytes_frame a bs t
  refine h.trans ⟨⟨⟨?_, ?_, ?_, fun x hx => memRead_putBytes_other a bs t x (hring x ((h.ringsApart_iff x).mp hx))⟩,
    hregs.mono (List.subset_append_left ..)⟩, hregs, ?_⟩
  · rw [hframe]
  · rw [hframe]
  · rw [hframe]
  · rw [hframe]

/-! ### The trace and the refusal ring -/

theorem wordBytes_length (w : Word) : (wordBytes w).length = 4 := rfl

theorem wordsBytes_length (ws : List Word) : (wordsBytes ws).length = 4 * ws.length := by
  simp [wordsBytes, wordBytes_length, List.length_flatMap, Nat.mul_comm]

theorem Event.words_length (e : Event) : e.words.length = 8 := rfl

theorem Reacts.traceRecord {lo hi : Word} (h : Reacts s t) : Reacts s (traceRecord lo hi t) := by
  unfold Machine.traceRecord
  split
  · exact h
  · split
    · exact (h.fset (by decide)).fset (by decide)
    · extract_lets w a s1 s2 s3 s4
      have hs1 : Reacts s s1 := .ite (h.fset (by decide)) h
      have hs2 : Reacts s s2 := by
        refine hs1.putBytes fun x hx => ?_
        have hw : w < 65536 := fieldGet_lt ..
        obtain ⟨htrc, -⟩ := hx
        rw [← h.traceBase] at htrc
        have ha : a = Config.dramBase + fget t Fld.SCH_TRC_BASE_BASE_MIB * 2 ^ 20 + 8 * w := rfl
        rw [List.length_append, wordBytes_length, wordBytes_length]
        omega
      have hs3 : Reacts s s3 := hs2.fset (by decide)
      exact .ite (.ite (hs3.sch.fset (by decide)) hs3.sch) hs3

theorem Reacts.traceEvent {reason cls core src flow : Nat} (h : Reacts s t) :
    Reacts s (traceEvent reason cls core src flow t) := h.traceRecord

theorem Reacts.refusalRing {e : Event} (h : Reacts s t) : Reacts s (refusalRing e t) := by
  unfold Machine.refusalRing
  extract_lets p a s1 s2 s3
  have hs1 : Reacts s s1 := .ite (h.fset (by decide)) h
  have hs2 : Reacts s s2 := by
    refine hs1.putBytes fun x hx => ?_
    have hp : p < 256 := fieldGet_lt ..
    obtain ⟨-, href⟩ := hx
    rw [← h.refusalBase] at href
    have ha : a = Config.dramBase + fget t Fld.SCH_REF_BASE_BASE_KIB * 1024 + 32 * p := rfl
    rw [wordsBytes_length, Event.words_length]
    omega
  have hs3 : Reacts s s3 := hs2.fset (by decide)
  exact .ite hs3.sch hs3

/-! ### Arrivals -/

theorem refCnt_mem_reactRegs {c : Nat} (h : c < 4) : Reg.SCH_REF_CNT c ∈ reactRegs := by
  match c with
  | 0 | 1 | 2 | 3 => decide

theorem Reacts.enterReady {e : Event} {res : Bool} (h : Reacts s t) : Reacts s (enterReady e res t) := by
  unfold Machine.enterReady
  extract_lets d e' _ t1
  have ht1 : Reacts s t1 := h.sch
  exact .ite (ht1.regSet (by decide)) ht1

theorem Reacts.refuseEvent {e : Event} {reason : Nat} {toRing : Bool} (h : Reacts s t) (he : e.cls < 4) :
    Reacts s (refuseEvent e reason toRing t) := by
  unfold Machine.refuseEvent
  have ht := (h.bump (refCnt_mem_reactRegs he)).traceEvent (reason := reason) (cls := e.cls) (core := 7) (src := e.src)
    (flow := e.flow)
  exact .ite ht.refusalRing ht

theorem takeLast_satisfies {p : Event → Bool} {l : List Event} {r : Event × List Event} (h : takeLast p l = some r) :
    p r.1 = true := by
  unfold takeLast at h
  split at h
  · cases h
  next e hfind =>
    obtain rfl := Option.some.inj h
    exact List.find?_some hfind

/-- Only events of class 2 and 3 are evicted (R392). -/
theorem evictable_cls {l : List Event} {r : Event × List Event} (h : evictable l = some r) : r.1.cls < 4 := by
  unfold evictable at h
  split at h
  next r' h3 =>
    obtain rfl := Option.some.inj h
    have hcls : r'.1.cls = 3 := by simpa using takeLast_satisfies h3
    omega
  · have hcls : r.1.cls = 2 := by simpa using takeLast_satisfies h
    omega

theorem Reacts.enterNow {e : Event} (h : Reacts s t) (hu : enterNow e t = some u) : Reacts s u := by
  unfold Machine.enterNow at hu
  split at hu
  · obtain rfl := Option.some.inj hu
    exact h.enterReady
  · split at hu
    · cases hu
    · obtain ⟨r, hr, rfl⟩ := Option.map_eq_some_iff.mp hu
      exact ((h.sch.bump (by decide)).refuseEvent (evictable_cls hr)).enterReady

theorem Reacts.arriveCore {e : Event} (h : Reacts s t) (he : e.cls < 4) : Reacts s (arriveCore e t).1 := by
  unfold Machine.arriveCore
  split
  · exact h
  · split
    next held _ =>
      extract_lets m t1
      have ht1 : Reacts s t1 := h.bump (by decide)
      split
      next t2 hin =>
        split at hin
        · exact ht1.sch.enterNow hin
        · cases hin
      · exact ht1.sch
    · split
      next t2 hin => exact h.enterNow hin
      · split
        · exact (h.sch.bump (by decide)).traceEvent
        · exact h.refuseEvent he

/-! ### Occurrences -/

theorem Reacts.assertFaultOut (h : Reacts s t) : Reacts s (assertFaultOut t) := (h.fset (by decide)).fset (by decide)

theorem Reacts.startHandover {cause : Nat} (h : Reacts s t) : Reacts s (startHandover cause t) := h.btn.fset (by decide)

theorem Reacts.reactClassAB {src cls : Nat} (h : Reacts s t) : Reacts s (reactClassAB src cls t) := by
  unfold Machine.reactClassAB
  extract_lets t1
  have ht1 : Reacts s t1 := h.assertFaultOut
  refine .ite ht1 (.ite (.ite ht1 ht1.safetyCause) ?_)
  split
  · exact ht1.safetyCause
  · exact .ite ht1.safetyCause (.ite ht1 ht1.startHandover)
  · exact ht1.fset (by decide)

theorem sourceClass_lt (s : State) (src : Nat) : sourceClass s src < 4 := by
  have h := fieldGet_lt (regGet s (Reg.FCO_CLASS (src / 16))) (2 * (src % 16) + 1) (2 * (src % 16))
  rwa [show 2 * (src % 16) + 1 - 2 * (src % 16) + 1 = 2 by omega] at h

theorem srcClass_lt (s : State) (k : Nat) (hi : Bool) : srcClass s k hi < 4 := by
  unfold srcClass
  split
  · exact fieldGet_lt _ 5 4
  · exact fieldGet_lt _ 1 0

theorem faultEvent_cls_lt (s : State) (src cls addr : Nat) : (faultEvent s src cls addr).cls < 4 := srcClass_lt ..

/-- The latch register of a source. -/
theorem statusReg_mem_latchRegs {src : Nat} (h : src < 64) :
    Reg.FCO_STATUS_0 + 4 * (src / 32) ∈ reactRegs ++ latchRegs := by
  have hword : src / 32 < 2 := by omega
  generalize src / 32 = n at hword
  match n with
  | 0 | 1 => decide

theorem occCnt_mem_latchRegs {c : Nat} (h : c < 4) : Reg.FCO_OCC_CNT c ∈ reactRegs ++ latchRegs := by
  match c with
  | 0 | 1 | 2 | 3 => decide

theorem FaultStep.ite {c : Prop} [Decidable c] (h : FaultStep s t) (h' : FaultStep s u) :
    FaultStep s (if c then t else u) := by
  split
  · exact h
  · exact h'

theorem FaultStep.noteLatch {cls : Nat} (h : FaultStep s t) : FaultStep s (noteLatch cls t) := .ite h h.chrFaults

theorem FaultStep.setSplitRegs {v : Split} (h : FaultStep s t) : FaultStep s (setSplitRegs Reg.FCO_CAP_2 v t) :=
  ((h.regSet (by decide)).regSet (by decide)).regSet (by decide)

theorem FaultStep.latchOccurrence {d : Detection} (h : FaultStep s t) (hd : d.src < 64) :
    FaultStep s (latchOccurrence d t) := by
  unfold Machine.latchOccurrence
  extract_lets cls st t1 t2 t3 valid rank held out fills now cap1 t4 _ t5 full e log _ t6 t7
  have ht1 : FaultStep s t1 := .ite h h.noteLatch
  have ht2 : FaultStep s t2 := ht1.regSet (statusReg_mem_latchRegs hd)
  have ht3 : FaultStep s t3 := ht2.bump (occCnt_mem_latchRegs (sourceClass_lt ..))
  have ht4 : FaultStep s t4 := .ite (ht3.bump (by decide)) ht3
  have ht5 : FaultStep s t5 := .ite ((ht4.fco.regSet (by decide)).regSet (by decide)).setSplitRegs ht4
  have ht7 : FaultStep s t7 := ht5.fco.fset (by decide)
  exact .ite (ht7.fset (by decide)) ht7

/-- What follows the latching of an occurrence is a reaction. -/
theorem reacts_occurOnce (d : Detection) (s : State) : Reacts (latchOccurrence d s) (occurOnce d s).1 := by
  unfold occurOnce
  extract_lets rc s1
  split
  · exact .reactClassAB (.refl s1)
  · exact .arriveCore (.refl s1) (faultEvent_cls_lt ..)

theorem FaultStep.occurOnce {d : Detection} (h : FaultStep s t) (hd : d.src < 64) : FaultStep s (occurOnce d t).1 :=
  (h.latchOccurrence hd).trans (reacts_occurOnce d t).toFaultStep

/-- SCH_C0_HELD is raised by itself, or by an occurrence of its source. -/
theorem noteC0Held_eq (s : State) :
    noteC0Held s = s ∨ ∃ u, Reacts s u ∧ noteC0Held s = (occurOnce (detect 48 0 0x3F 0) u).1 := by
  unfold noteC0Held
  split
  · exact .inl rfl
  · exact .inr ⟨_, .setRaised (.fset (.refl s) (by decide)), rfl⟩

theorem FaultStep.noteC0Held (h : FaultStep s t) : FaultStep s (noteC0Held t) := by
  rcases noteC0Held_eq t with heq | ⟨u, hu, heq⟩
  · rw [heq]
    exact h
  · rw [heq]
    exact .occurOnce (h.trans hu.toFaultStep) (by decide)

theorem FaultStep.occur {d : Detection} (h : FaultStep s t) (hd : d.src < 64) : FaultStep s (occur d t) := by
  unfold Machine.occur
  exact .ite (h.occurOnce hd).noteC0Held (h.occurOnce hd)

theorem FaultStep.post {e : Event} (h : FaultStep s t) (he : e.cls < 4) : FaultStep s (post e t) := by
  have harrive : FaultStep s (arriveCore e t).1 := h.trans (Reacts.arriveCore (.refl t) he).toFaultStep
  unfold Machine.post arrive
  dsimp only
  split
  · exact harrive.noteC0Held
  · exact harrive

/-! ### The latched occurrence -/

/-- The latch bit of a source is set. -/
def latched (s : State) (src : Nat) : Prop :=
  (regGet s (Reg.FCO_STATUS_0 + 4 * (src / 32))).getLsbD (src % 32) = true

/-- A log entry is that of an occurrence. -/
def FaultEntry.Records (e : FaultEntry) (d : Detection) (seq : Nat) (time : Split) : Prop :=
  e.source = d.src ∧ e.addr = d.addr ∧ e.master = d.master ∧ e.seq = seq ∧ e.time = time

theorem FaultStep.nowSplit_eq (h : FaultStep s t) : nowSplit t = nowSplit s := by
  have htime : t.time = s.time := by rw [h.frame.1]
  unfold nowSplit timeAt
  rw [htime]

theorem mem_ringPush_self {α : Type} {n : Nat} (hn : 0 < n) (x : α) (l : List α) : x ∈ ringPush n x l := by
  unfold ringPush
  rw [List.drop_append_of_le_length (by omega)]
  simp

theorem getLast?_ringPush {α : Type} {n : Nat} (hn : 0 < n) (x : α) (l : List α) :
    (ringPush n x l).getLast? = some x := by
  unfold ringPush
  rw [List.drop_append_of_le_length (by omega)]
  simp

/-- The newest entry outlasts one more. -/
theorem mem_ringPush_of_getLast? {α : Type} {n : Nat} (hn : 1 < n) {x y : α} {l : List α} (h : l.getLast? = some x) :
    x ∈ ringPush n y l := by
  obtain ⟨l0, rfl⟩ := List.getLast?_eq_some_iff.mp h
  unfold ringPush
  rw [List.append_assoc, List.drop_append_of_le_length (by simp; omega)]
  simp

/-- The capture marks of a log with one occurrence's taken back. -/
def uncapture (q : Nat) (l : List FaultEntry) : List FaultEntry :=
  l.map (fun x => if x.seq = q then { x with capt := false } else x)

/-- Latching an occurrence logs it last, and of the older entries no more than a capture mark changes. -/
theorem latchOccurrence_log (d : Detection) (s : State) :
    ∃ e l, (latchOccurrence d s).fco.log = ringPush Config.faultLogCap e l ∧
      e.Records d s.fco.logSeq (nowSplit s) ∧ (l = s.fco.log ∨ ∃ q, l = uncapture q s.fco.log) := by
  unfold latchOccurrence
  extract_lets cls st t1 t2 t3 valid rank held out fills now cap1 t4 _ t5 full e log _ t6 t7
  have ht1 : t1.fco = s.fco ∧ t1.time = s.time := by
    unfold t1 noteLatch
    split
    · exact ⟨rfl, rfl⟩
    · split <;> exact ⟨rfl, rfl⟩
  have ht4 : t4.fco = s.fco := by
    rw [← ht1.1]
    unfold t4
    split <;> rfl
  have ht5 : t5.fco.log = s.fco.log ∧ t5.fco.logSeq = s.fco.logSeq := by
    rw [← ht4]
    unfold t5
    split
    · simp only [setSplitRegs_fco, regSet_fco]
      exact ⟨rfl, rfl⟩
    · exact ⟨rfl, rfl⟩
  have hnow : now = nowSplit s := by
    unfold now nowSplit timeAt
    rw [show t3.time = s.time from ht1.2]
  refine ⟨e, log, ?_, ⟨rfl, rfl, rfl, ht5.2, hnow⟩, ?_⟩
  · have ht7 : t7.fco = t6.fco := fset_fco ..
    rw [apply_ite State.fco, fset_fco, ite_self, ht7]
  · rw [← ht5.1]
    clear_value out
    cases out with
    | none => exact .inl rfl
    | some c => exact .inr ⟨c.2, rfl⟩

/-- The word that latches an occurrence: its source's bit is set, and no other of its word. -/
def latchWord (d : Detection) (s : State) : Word :=
  BitVec.ofNat 32 (setBit (regGet s (Reg.FCO_STATUS_0 + 4 * (d.src / 32))).toNat (d.src % 32) true)

/-- The registers that tell of the occurrence beside the latched bit. -/
def captureRegs : List Nat :=
  [Reg.FCO_OCC_CNT 0, Reg.FCO_OCC_CNT 1, Reg.FCO_OCC_CNT 2, Reg.FCO_OCC_CNT 3, Reg.FCO_MULTI_CNT, Reg.FCO_CAP_0,
   Reg.FCO_CAP_1, Reg.FCO_CAP_2, Reg.FCO_CAP_3, Reg.FCO_CAP_4, Reg.FCO_LOG_WPTR]

theorem occCnt_mem_captureRegs {c : Nat} (h : c < 4) : Reg.FCO_OCC_CNT c ∈ captureRegs := by
  match c with
  | 0 | 1 | 2 | 3 => decide

/-- An occurrence latches its source's bit; what else it writes stands in the registers of the capture. -/
theorem latchOccurrence_regsBut (d : Detection) (s : State) :
    regsBut captureRegs (regSet (Reg.FCO_STATUS_0 + 4 * (d.src / 32)) (latchWord d s) s) (latchOccurrence d s) := by
  unfold latchOccurrence
  extract_lets cls st t1 t2 t3 valid rank held out fills now cap1 t4 _ t5 full e log _ t6 t7
  have ht1 : t1.regs = s.regs := by
    unfold t1 noteLatch
    split
    · rfl
    · split <;> rfl
  have ht2 : regsBut captureRegs (regSet st (latchWord d s) s) t2 := by
    intro a _
    unfold t2 latchWord regSet regGet
    rw [ht1]
  have ht3 : regsBut captureRegs (regSet st (latchWord d s) s) t3 :=
    ht2.bump (occCnt_mem_captureRegs (sourceClass_lt ..))
  have ht4 : regsBut captureRegs (regSet st (latchWord d s) s) t4 := .ite (ht3.bump (by decide)) ht3
  have ht5 : regsBut captureRegs (regSet st (latchWord d s) s) t5 := by
    refine .ite (.setSplitRegs (.regSet (.regSet ?_ (by decide)) (by decide)) ⟨by decide, by decide, by decide⟩) ht4
    exact ht4.of_regs_eq rfl
  have ht6 : regsBut captureRegs (regSet st (latchWord d s) s) t6 := ht5.of_regs_eq rfl
  have ht7 : regsBut captureRegs (regSet st (latchWord d s) s) t7 := ht6.fset (by decide)
  exact .ite (ht7.fset (by decide)) ht7

theorem getLsbD_latchWord (d : Detection) (s : State) {i : Nat} (hi : i < 32) :
    (latchWord d s).getLsbD i =
      (decide (i = d.src % 32) || (regGet s (Reg.FCO_STATUS_0 + 4 * (d.src / 32))).getLsbD i) := by
  unfold latchWord
  rw [← BitVec.testBit_toNat, BitVec.toNat_ofNat, Nat.testBit_mod_two_pow, decide_eq_true hi, Bool.true_and,
    ← BitVec.testBit_toNat]
  by_cases heq : i = d.src % 32
  · rw [heq, testBit_setBit, decide_eq_true rfl, Bool.true_or]
  · rw [testBit_setBit_other _ heq, decide_eq_false heq, Bool.false_or]

theorem statusReg_not_mem {src : Nat} (h : src < 64) :
    Reg.FCO_STATUS_0 + 4 * (src / 32) ∉ reactRegs ++ captureRegs := by
  have hword : src / 32 < 2 := by omega
  generalize src / 32 = n at hword
  match n with
  | 0 | 1 => decide

/-- Of the latched bits the occurrence sets its source's and leaves the others. -/
theorem latched_latchOccurrence {d : Detection} {src : Nat} (hsrc : src < 64)
    (h : src = d.src ∨ latched s src) : latched (latchOccurrence d s) src := by
  have hreg := fun h => statusReg_not_mem hsrc (List.mem_append_right reactRegs h)
  unfold latched
  rw [latchOccurrence_regsBut d s _ hreg, regGet_regSet]
  split
  next heq =>
    rw [getLsbD_latchWord _ _ (Nat.mod_lt _ (by decide)), ← heq]
    rcases h with rfl | hbit
    · simp
    · unfold latched at hbit
      rw [hbit, Bool.or_true]
  next hne =>
    rcases h with rfl | hbit
    · exact absurd rfl hne
    · exact hbit

/-- The newest log entry is that of an occurrence. -/
def lastLogged (s : State) (d : Detection) (seq : Nat) (time : Split) : Prop :=
  ∃ e, s.fco.log.getLast? = some e ∧ e.Records d seq time

theorem lastLogged_latchOccurrence (d : Detection) (s : State) :
    lastLogged (latchOccurrence d s) d s.fco.logSeq (nowSplit s) := by
  obtain ⟨e, l, hlog, he, -⟩ := latchOccurrence_log d s
  exact ⟨e, by rw [hlog]; exact getLast?_ringPush (by decide) _ _, he⟩

/-- What is latched and logged last stays latched and logged through one more occurrence. -/
theorem logged_latchOccurrence {d d' : Detection} {seq : Nat} {time : Split} (h : lastLogged s d seq time) :
    ∃ e ∈ (latchOccurrence d' s).fco.log, e.Records d seq time := by
  obtain ⟨e, hlast, he⟩ := h
  obtain ⟨e', l, hlog, -, rfl | ⟨q, rfl⟩⟩ := latchOccurrence_log d' s
  · exact ⟨e, by rw [hlog]; exact mem_ringPush_of_getLast? (by decide) hlast, he⟩
  · refine ⟨if e.seq = q then { e with capt := false } else e, ?_, ?_⟩
    · rw [hlog]
      refine mem_ringPush_of_getLast? (by decide) ?_
      rw [uncapture, List.getLast?_map, hlast]
      rfl
    · split
      · exact he
      · exact he

theorem Reacts.latched (h : Reacts s t) {src : Nat} (hsrc : src < 64) (hs : latched s src) : latched t src := by
  unfold Machine.latched
  rw [h.ownRegs _ fun hin => statusReg_not_mem hsrc (List.mem_append_left captureRegs hin)]
  exact hs

theorem Reacts.lastLogged (h : Reacts s t) {d : Detection} {seq : Nat} {time : Split} (hs : lastLogged s d seq time) :
    lastLogged t d seq time := by
  unfold Machine.lastLogged
  rw [h.log]
  exact hs

theorem lastLogged.logged {d : Detection} {seq : Nat} {time : Split} (h : lastLogged s d seq time) :
    ∃ e ∈ s.fco.log, e.Records d seq time := by
  obtain ⟨e, hlast, he⟩ := h
  exact ⟨e, List.mem_of_getLast? hlast, he⟩

/-- An occurrence is latched, logged, and changes what `onlyFault` lets it (R405, R409). -/
theorem occur_occurred (d : Detection) (s : State) (hd : d.src < 64) :
    occurred d.src d.addr d.master s (occur d s) := by
  have hreact := reacts_occurOnce d s
  have hbit : latched (occurOnce d s).1 d.src := hreact.latched hd (latched_latchOccurrence hd (.inl rfl))
  have hlast := hreact.lastLogged (lastLogged_latchOccurrence d s)
  suffices h : latched (occur d s) d.src ∧ ∃ e ∈ (occur d s).fco.log, e.Records d s.fco.logSeq (nowSplit s) from
    ⟨h.1, h.2, (FaultStep.occur (.refl s) hd).frame⟩
  unfold occur
  dsimp only
  split
  · rcases noteC0Held_eq (occurOnce d s).1 with heq | ⟨u, hu, heq⟩
    · rw [heq]
      exact ⟨hbit, hlast.logged⟩
    · rw [heq]
      have hreact' := reacts_occurOnce (detect 48 0 0x3F 0) u
      refine ⟨hreact'.latched hd (latched_latchOccurrence hd (.inr (hu.latched hd hbit))), ?_⟩
      rw [hreact'.log]
      exact logged_latchOccurrence (hu.lastLogged hlast)
  · exact ⟨hbit, hlast.logged⟩

end Sys2Proof.Machine
end

section
namespace Sys2Proof.Machine

variable {s t : State}

/-! # Checked writes of registers -/

theorem checkWrite_of_some {a : Nat} {o : Origin} {checks : List (Bool × Status)} {act : State → State} {st : Status}
    (h : firstFail checks = some st) : checkWrite a o checks act s = refuseWrite a st o s := by
  obtain ⟨c, hc, rfl⟩ := Option.map_eq_some_iff.mp h
  unfold checkWrite
  rw [hc]

theorem checkWrite_of_none {a : Nat} {o : Origin} {checks : List (Bool × Status)} {act : State → State}
    (h : firstFail checks = none) : checkWrite a o checks act s = (act s, .ok) := by
  unfold checkWrite
  rw [Option.map_eq_none_iff.mp h]

theorem countedUp_bump (a : Nat) (s : State) : countedUp a s (bump a s) := by
  unfold countedUp bump bumpBy
  rw [regGet_regSet_self, BitVec.toNat_ofNat]
  omega

theorem countedUp_of_regs_eq {a : Nat} {s' : State} (h : countedUp a s t) (hs : s.regs = s'.regs) :
    countedUp a s' t := by
  unfold countedUp regGet at *
  rw [← hs]
  exact h

/-- A refusal is logged and counted, and changes nothing else (R458). -/
theorem refusedWrite_refuseWrite (a : Nat) (st : Status) (o : Origin) (s : State) :
    refusedWrite [] st s (refuseWrite a st o s).1 := by
  unfold refuseWrite logRefusal
  extract_lets e _
  have hlog : e ∈ ringPush Config.cmdLogCap e s.sys.cmdLog := mem_ringPush_self (by decide) ..
  generalize ringPush Config.cmdLogCap e s.sys.cmdLog = log at hlog
  exact ⟨rfl, ⟨e, hlog, rfl, rfl, rfl⟩, countedUp_of_regs_eq (countedUp_bump ..) rfl,
    .bump (.of_regs_eq (.refl _ s) rfl) (List.mem_singleton_self _)⟩

/-- A refused write that shows its status in a register of its block. -/
theorem refusedWrite_regSet {as : List Nat} {st : Status} {a : Nat} {v : Word} (h : refusedWrite as st s t)
    (ha : a ∈ as) (hcount : a ≠ Reg.SYS_REJECT_COUNT) : refusedWrite as st s (regSet a v t) := by
  obtain ⟨hframe, hlog, hcnt, hregs⟩ := h
  refine ⟨?_, hlog, ?_, hregs.regSet (List.mem_cons_of_mem _ ha)⟩
  · rw [regSet, hframe]
  · rw [regGet_regSet_other _ _ hcount.symm]
    exact hcnt

theorem refusedWrite_fset {as : List Nat} {st : Status} {f : Field} {v : Nat} (h : refusedWrite as st s t)
    (hf : f.reg ∈ as) (hcount : f.reg ≠ Reg.SYS_REJECT_COUNT) : refusedWrite as st s (fset f v t) :=
  refusedWrite_regSet h hf hcount

theorem refusedWrite_mono {as bs : List Nat} {st : Status} (h : refusedWrite as st s t) (hsub : as ⊆ bs) :
    refusedWrite bs st s t :=
  ⟨h.1, h.2.1, h.2.2.1, h.2.2.2.mono (List.cons_subset_cons _ hsub)⟩

/-- A write whose effect is a checked one is refused as `checkWrite` refuses. -/
theorem refusedWrite_checkWrite {a : Nat} {o : Origin} {checks : List (Bool × Status)} {act : State → State}
    {st : Status} (h : firstFail checks = some st) (s : State) :
    refusedWrite [] st s (checkWrite a o checks act s).1 := by
  rw [checkWrite_of_some h]
  exact refusedWrite_refuseWrite ..

/-! # Timers -/

theorem fbit_fset_bit (f : Field) (b : Bool) (s : State) (h : f.lo = f.hi) (hhi : f.hi < 32) :
    fbit (fset f (boolNat b) s) f = b := by
  unfold fbit
  rw [fget_fset_self f _ s h.le hhi, h]
  cases b <;> simp [boolNat]

/-- A waiting event keeps its place before `e` (R388). -/
def enteredBefore (e x : Event) : Bool := !(x.flow == e.flow && x.entry == e.entry && decide (e.src < x.src))

theorem queueReady_splits (e : Event) (l : List Event) :
    ∃ f r, l = f ++ r ∧ queueReady e l = f ++ e :: r ∧
      (∀ z, r.head? = some z → z.flow = e.flow ∧ z.entry = e.entry ∧ e.src < z.src) ∧
      (∀ z ∈ f, ¬(z.flow = e.flow ∧ z.entry = e.entry ∧ e.src < z.src)) := by
  refine ⟨_, _, (List.takeWhile_append_dropWhile (p := enteredBefore e)).symm, rfl, fun z hz => ?_, fun z hz => ?_⟩
  · have hnot := List.head?_dropWhile_not (enteredBefore e) l
    rw [hz] at hnot
    simpa [enteredBefore, and_assoc] using hnot
  · have hin := List.mem_takeWhile_imp hz
    intro hall
    simp [enteredBefore, hall] at hin

/-- An event that occurs now, of which none is held, and that finds a usable entry enters the ready store at its place. -/
theorem post_of_usable {e : Event} (hmode : s.sys.mode ≠ .boot) (husable : (usableEntry s e.cls).isSome = true)
    (hheld : s.sch.held.any (fun h => h.src == e.src && h.inst == e.inst) = false) (hfirst : e.first = s.time.cnt) :
    ∃ e', (post e s).sch.ready = queueReady e' s.sch.ready ∧ (post e s).regs = s.regs ∧
      e' = { e with delay := 0, status := .ok, reserved := e'.reserved } := by
  obtain ⟨res, hres⟩ := Option.isSome_iff_exists.mp husable
  have hfind : s.sch.held.find? (fun h => h.src == e.src && h.inst == e.inst) = none := by
    rw [List.find?_eq_none]
    intro x hx
    have := List.any_eq_false.mp hheld x hx
    simpa using this
  have hcore : arriveCore e s = (enterReady e res s, .entered) := by
    unfold arriveCore enterNow
    rw [if_neg hmode, hfind]
    simp only [hres]
  have hpost : post e s = enterReady e res s := by
    unfold post arrive
    rw [hcore]
    rfl
  have henter : enterReady e res s = { s with sch := { s.sch with
      ready := queueReady { e with delay := 0, status := .ok, reserved := res } s.sch.ready } } := by
    unfold enterReady
    simp [hfirst]
  exact ⟨_, by rw [hpost, henter], by rw [hpost, henter], rfl⟩

end Sys2Proof.Machine
end

section
namespace Sys2Proof.Machine

variable {s t u : State}

/-! # The expiry of a timer -/

theorem fbit_fset_zero (f : Field) (s : State) (h : f.lo ≤ f.hi) (hhi : f.hi < 32) : fbit (fset f 0 s) f = false := by
  unfold fbit
  rw [fget_fset_self f _ s h hhi, Nat.zero_mod]
  rfl

theorem regsBut.fbit_eq {as : List Nat} (h : regsBut as s t) {f : Field} (hf : f.reg ∉ as) : fbit t f = fbit s f := by
  rw [fbit, fbit, h.fget_eq hf]

theorem onlyRegs.refl (as : List Nat) (s : State) : onlyRegs as s s := ⟨rfl, .refl as s⟩

theorem onlyRegs.regSet {as : List Nat} {a : Nat} {v : Word} (h : onlyRegs as s t) (ha : a ∈ as) :
    onlyRegs as s (regSet a v t) := by
  refine ⟨?_, h.2.regSet ha⟩
  rw [Machine.regSet, h.1]

theorem onlyRegs.fset {as : List Nat} {f : Field} {v : Nat} (h : onlyRegs as s t) (hf : f.reg ∈ as) :
    onlyRegs as s (fset f v t) := h.regSet hf

theorem onlyRegs.bump {as : List Nat} {a : Nat} (h : onlyRegs as s t) (ha : a ∈ as) : onlyRegs as s (bump a t) :=
  h.regSet ha

theorem onlyRegs.ite {as : List Nat} {c : Prop} [Decidable c] (h : onlyRegs as s t) (h' : onlyRegs as s u) :
    onlyRegs as s (if c then t else u) := by
  split
  · exact h
  · exact h'

/-- What follows a change of registers other than the bases of the rings. -/
theorem FaultStep.onlyFault_of_onlyRegs {as : List Nat} (h : FaultStep t u) (ht : onlyRegs as s t)
    (hbases : Reg.SCH_TRC_BASE ∉ as ∧ Reg.SCH_REF_BASE ∉ as) : onlyFault s u := by
  obtain ⟨hframe, hregs⟩ := ht
  obtain ⟨hframe', hsaf, hchr, hmem⟩ := h.frame
  have hring (x : Nat) (hx : ringsApart s x) : ringsApart t x := by
    have htrc : fget t Fld.SCH_TRC_BASE_BASE_MIB = fget s Fld.SCH_TRC_BASE_BASE_MIB := hregs.fget_eq hbases.1
    have href : fget t Fld.SCH_REF_BASE_BASE_KIB = fget s Fld.SCH_REF_BASE_BASE_KIB := hregs.fget_eq hbases.2
    unfold ringsApart
    rw [htrc, href]
    exact hx
  refine ⟨?_, ?_, ?_, fun x hx => (hmem x (hring x hx)).trans ?_⟩
  · rw [hframe', hframe]
  · rw [hsaf, hframe]
  · rw [hchr, hframe]
  · rw [hframe]
    rfl

/-- The registers of timer `tm` that its expiry writes. -/
def timerRegs (tm : Nat) : List Nat := [Reg.SCH_TIM_CNT tm, Reg.SCH_TIM_CFG tm]

/-- The count and the stop of a one-shot that precede a timer's event (R387). -/
def timerCounted (tm : Nat) (s : State) : State :=
  if fbit (bump (Reg.SCH_TIM_CNT tm) s) (Fld.SCH_TIM_CFG_ONESHOT tm) then
    fset (Fld.SCH_TIM_CFG_EN tm) 0 (bump (Reg.SCH_TIM_CNT tm) s)
  else bump (Reg.SCH_TIM_CNT tm) s

/-- The event that timer `tm` posts. -/
def timerEvent (tm : Nat) (s : State) : Event :=
  mkEvent s 8 tm (srcFlow s 8 tm) (srcClass s 8 false) (BitVec.ofNat 32 tm) (regGet s (Reg.SCH_TIM_CNT tm)) 0

theorem schTimerExpiry_of_enabled {tm : Nat} (h : fbit s (Fld.SCH_TIM_CFG_EN tm) = true) :
    schTimerExpiry tm s = post (timerEvent tm (timerCounted tm s)) (timerCounted tm s) := by
  unfold schTimerExpiry
  rw [h]
  rfl

theorem onlyRegs_timerCounted (tm : Nat) (s : State) : onlyRegs (timerRegs tm) s (timerCounted tm s) := by
  have hbump : onlyRegs (timerRegs tm) s (bump (Reg.SCH_TIM_CNT tm) s) :=
    (onlyRegs.refl _ s).bump (List.mem_cons_self ..)
  exact .ite (hbump.fset (List.mem_cons_of_mem _ (List.mem_singleton_self _))) hbump

theorem timCfg_ne_timCnt (tm : Nat) : Reg.SCH_TIM_CFG tm ≠ Reg.SCH_TIM_CNT tm := by
  unfold Reg.SCH_TIM_CFG Reg.SCH_TIM_CNT
  omega

theorem countedUp_timerCounted (tm : Nat) (s : State) : countedUp (Reg.SCH_TIM_CNT tm) s (timerCounted tm s) := by
  have hcnt : regGet (timerCounted tm s) (Reg.SCH_TIM_CNT tm) =
      regGet (bump (Reg.SCH_TIM_CNT tm) s) (Reg.SCH_TIM_CNT tm) := by
    unfold timerCounted
    split
    · exact regGet_fset_other _ _ (timCfg_ne_timCnt tm).symm
    · rfl
  unfold countedUp
  rw [hcnt]
  exact countedUp_bump ..

theorem enabled_timerCounted {tm : Nat} (h : fbit s (Fld.SCH_TIM_CFG_EN tm) = true) :
    fbit (timerCounted tm s) (Fld.SCH_TIM_CFG_EN tm) = !fbit s (Fld.SCH_TIM_CFG_ONESHOT tm) := by
  have hkeep (f : Field) (hf : f.reg = Reg.SCH_TIM_CFG tm) : fbit (bump (Reg.SCH_TIM_CNT tm) s) f = fbit s f := by
    unfold fbit bump bumpBy
    rw [fget_regSet_other _ _ (hf ▸ timCfg_ne_timCnt tm)]
  unfold timerCounted
  rw [hkeep (Fld.SCH_TIM_CFG_ONESHOT tm) rfl]
  cases fbit s (Fld.SCH_TIM_CFG_ONESHOT tm)
  · exact (hkeep _ rfl).trans h
  · exact fbit_fset_zero _ _ (Nat.le_refl _) (by decide : (0 : Nat) < 32)

theorem timerRegs_apart : ∀ tm : Fin 16, ∀ a ∈ timerRegs tm, a ∉ reactRegs ++ latchRegs := by decide

theorem sources_not_mem_timerRegs : ∀ tm : Fin 16,
    Reg.SCH_TRC_BASE ∉ timerRegs tm ∧ Reg.SCH_REF_BASE ∉ timerRegs tm ∧ Reg.SCH_SRC 7 ∉ timerRegs tm ∧
      Reg.SCH_CAP ∉ timerRegs tm := by decide

theorem onlyRegs.nowSplit_eq {as : List Nat} (h : onlyRegs as s t) : nowSplit t = nowSplit s := by
  rw [h.1]
  rfl

theorem usableEntry_of_onlyRegs {as : List Nat} (h : onlyRegs as s t) (hcap : Reg.SCH_CAP ∉ as) (cls : Nat) :
    usableEntry t cls = usableEntry s cls := by
  have hready : t.sch = s.sch := by rw [h.1]
  have hcap1 : fget t Fld.SCH_CAP_CAP1 = fget s Fld.SCH_CAP_CAP1 := h.2.fget_eq hcap
  unfold usableEntry
  rw [hready, hcap1]

theorem srcClass_of_onlyRegs {as : List Nat} (h : onlyRegs as s t) {k : Nat} (hsrc : Reg.SCH_SRC (k - 1) ∉ as)
    (hi : Bool) : srcClass t k hi = srcClass s k hi := by
  unfold srcClass
  rw [h.2 _ hsrc]

theorem srcFlow_of_onlyRegs {as : List Nat} (h : onlyRegs as s t) {k : Nat} (hsrc : Reg.SCH_SRC (k - 1) ∉ as)
    (inst : Nat) : srcFlow t k inst = srcFlow s k inst := by
  unfold srcFlow
  dsimp only
  rw [h.2 _ hsrc]

/-- The place that a timer's event takes in the ready store (R386, R387, R391). -/
theorem timerEvent_enters {tm : Fin 16} (hen : fbit s (Fld.SCH_TIM_CFG_EN tm) = true) (hmode : s.sys.mode ≠ .boot)
    (husable : (usableEntry s (srcClass s 8 false)).isSome = true)
    (hheld : s.sch.held.any (fun h => h.src == 8 && h.inst == tm.val) = false) :
    let t := schTimerExpiry tm s
    ∃ e l r, s.sch.ready = l ++ r ∧ t.sch.ready = l ++ e :: r ∧
      (∀ z, r.head? = some z → z.flow = e.flow ∧ z.entry = s.time.cnt ∧ 8 < z.src) ∧
      (∀ z ∈ l, ¬(z.flow = e.flow ∧ z.entry = s.time.cnt ∧ 8 < z.src)) ∧ e.src = 8 ∧ e.inst = tm.val ∧
      e.flow = srcFlow s 8 tm ∧ e.cls = srcClass s 8 false ∧ e.arg0 = BitVec.ofNat 32 tm ∧
      e.arg1 = regGet t (Reg.SCH_TIM_CNT tm) ∧ e.ts = nowSplit s ∧ e.delay = 0 := by
  have honly := onlyRegs_timerCounted tm s
  obtain ⟨-, -, hsrc, hcap⟩ := sources_not_mem_timerRegs tm
  have hcls : (timerEvent tm (timerCounted tm s)).cls = srcClass s 8 false := srcClass_of_onlyRegs honly hsrc false
  have hflow : (timerEvent tm (timerCounted tm s)).flow = srcFlow s 8 tm := srcFlow_of_onlyRegs honly hsrc tm
  have hframe := honly.1
  have hsys : (timerCounted tm s).sys = s.sys := by rw [hframe]
  have hsch : (timerCounted tm s).sch = s.sch := by rw [hframe]
  have htime : (timerCounted tm s).time = s.time := by rw [hframe]
  obtain ⟨e, hready, hregs, he⟩ := post_of_usable (e := timerEvent tm (timerCounted tm s)) (s := timerCounted tm s)
    (by rw [hsys]; exact hmode) (by rw [hcls, usableEntry_of_onlyRegs honly hcap]; exact husable)
    (by rw [hsch]; exact hheld) rfl
  obtain ⟨l, r, hl, hq, hhead, htail⟩ := queueReady_splits e s.sch.ready
  have hesrc : e.src = 8 := by rw [he]; rfl
  have hentry : e.entry = s.time.cnt := by
    rw [he, ← htime]
    show (timerCounted tm s).time.cnt + 0 / 2 = (timerCounted tm s).time.cnt
    omega
  rw [hesrc, hentry] at hhead htail
  dsimp only
  rw [schTimerExpiry_of_enabled hen]
  refine ⟨e, l, r, hl, by rw [hready, hsch, hq], hhead, htail, hesrc, ?_, ?_, ?_, ?_, ?_, ?_, ?_⟩
  · rw [he]; rfl
  · rw [he]; exact hflow
  · rw [he]; exact hcls
  · rw [he]; rfl
  · rw [regGet, hregs, he]; rfl
  · rw [he, ← honly.nowSplit_eq]; rfl
  · rw [he]

/-- An enabled timer counts, stops if it is a one-shot, and posts its event (R387). -/
theorem timerExpiry_counts {tm : Fin 16} (hen : fbit s (Fld.SCH_TIM_CFG_EN tm) = true) :
    let t := schTimerExpiry tm s
    onlyFault s t ∧ countedUp (Reg.SCH_TIM_CNT tm) s t ∧
      fbit t (Fld.SCH_TIM_CFG_EN tm) = !fbit s (Fld.SCH_TIM_CFG_ONESHOT tm) := by
  dsimp only
  rw [schTimerExpiry_of_enabled hen]
  have honly := onlyRegs_timerCounted tm s
  have hpost : FaultStep (timerCounted tm s) (post (timerEvent tm (timerCounted tm s)) (timerCounted tm s)) :=
    .post (.refl _) (show srcClass _ 8 false < 4 from srcClass_lt ..)
  have hcnt := timerRegs_apart tm (Reg.SCH_TIM_CNT tm) (List.mem_cons_self ..)
  have hcfg := timerRegs_apart tm (Reg.SCH_TIM_CFG tm) (List.mem_cons_of_mem _ (List.mem_singleton_self _))
  obtain ⟨htrc, href, -⟩ := sources_not_mem_timerRegs tm
  refine ⟨hpost.onlyFault_of_onlyRegs honly ⟨htrc, href⟩, ?_, ?_⟩
  · unfold countedUp
    rw [hpost.regs _ hcnt]
    exact countedUp_timerCounted tm s
  · rw [hpost.regs.fbit_eq (f := Fld.SCH_TIM_CFG_EN tm) hcfg]
    exact enabled_timerCounted hen

/-! # The trace -/

theorem fget_fset_other (f g : Field) (v : Nat) (s : State) (h : f.lo ≤ f.hi ∧ f.hi < 32 ∧ g.lo ≤ g.hi)
    (hd : g.hi < f.lo ∨ f.hi < g.lo) (hreg : g.reg = f.reg) : fget (fset f v s) g = fget s g := by
  rw [fget, fget, fset, hreg, regGet_regSet_self, fieldGet_fieldSet_other _ _ h.1 h.2.1 h.2.2 hd]

/-- A stopped full ring loses the record and says so (R402). -/
theorem traceRecord_lost {lo hi : Word} (hen : fbit s Fld.SCH_TRC_CTRL_EN = true)
    (hstop : fbit s Fld.SCH_TRC_CTRL_STOP = true) (hfull : s.sch.trcFull = true) :
    onlyRegs [Reg.SCH_TRC_STAT] s (traceRecord lo hi s) ∧
      fget (traceRecord lo hi s) Fld.SCH_TRC_STAT_LOST = min 0xFFFF (fget s Fld.SCH_TRC_STAT_LOST + 1) := by
  have hrec : traceRecord lo hi s = fset Fld.SCH_TRC_STAT_STOPPED 1
      (fset Fld.SCH_TRC_STAT_LOST (min 0xFFFF (fget s Fld.SCH_TRC_STAT_LOST + 1)) s) := by
    unfold traceRecord
    rw [hen, hstop, hfull]
    rfl
  rw [hrec]
  refine ⟨((onlyRegs.refl _ s).fset (List.mem_singleton_self _)).fset (List.mem_singleton_self _), ?_⟩
  rw [fget_fset_other Fld.SCH_TRC_STAT_STOPPED Fld.SCH_TRC_STAT_LOST _ _ (by decide) (by decide) rfl,
    fget_fset_self _ _ _ (by decide) (by decide)]
  refine Nat.mod_eq_of_lt ?_
  show _ < 2 ^ 16
  omega

/-- Where the next trace record goes (R402). -/
def traceAddr (s : State) : Nat :=
  Config.dramBase + fget s Fld.SCH_TRC_BASE_BASE_MIB * 2 ^ 20 + 8 * fget s Fld.SCH_TRC_WPTR_WPTR

theorem memNat_putBytes (a : Nat) (bs : List Byte) (s : State) :
    memNat (putBytes a bs s) a bs.length = bytesNat bs := by
  have hmem : (putBytes a bs s).mem = Memory.writeList s.mem a bs := by rw [putBytes_frame]
  have hbytes : (List.range bs.length).map (fun j => memRead (putBytes a bs s) (a + j)) = bs := by
    refine List.ext_getElem (by simp) fun j hj hj' => ?_
    simp [memRead, hmem, Memory.read_writeList, hj']
  rw [memNat, hbytes]

theorem bytesNat_append_four (b0 b1 b2 b3 : Byte) (bs : List Byte) :
    bytesNat ([b0, b1, b2, b3] ++ bs) = bytesNat [b0, b1, b2, b3] + 2 ^ 32 * bytesNat bs := by
  simp only [List.cons_append, List.nil_append, bytesNat]
  ring

theorem bytesNat_wordBytes (w : Word) : bytesNat (wordBytes w) = w.toNat := by
  have hw := w.isLt
  simp only [wordBytes, bytesNat, BitVec.toNat_setWidth, BitVec.toNat_ushiftRight, Nat.shiftRight_eq_div_pow]
  omega

theorem bytesNat_twoWords (lo hi : Word) : bytesNat (wordBytes lo ++ wordBytes hi) = lo.toNat + 2 ^ 32 * hi.toNat := by
  rw [← bytesNat_wordBytes lo, ← bytesNat_wordBytes hi]
  exact bytesNat_append_four ..

/-- A record that is written: the ring's overrun mark, the bytes, the write pointer, and what the ring's end makes of
them. -/
theorem traceRecord_of_room {lo hi : Word} (hen : fbit s Fld.SCH_TRC_CTRL_EN = true)
    (hroom : fbit s Fld.SCH_TRC_CTRL_STOP = false ∨ s.sch.trcFull = false) :
    ∃ u, onlyRegs [Reg.SCH_TRC_STAT] s u ∧
      let w := fget s Fld.SCH_TRC_WPTR_WPTR
      let v := fset Fld.SCH_TRC_WPTR_WPTR (w + 1) (putBytes (traceAddr s) (wordBytes lo ++ wordBytes hi) u)
      onlyRegs [Reg.SCH_TRC_STAT] { v with sch := { v.sch with trcFull := v.sch.trcFull || w == 65535 } }
        (traceRecord lo hi s) := by
  have hnot : ¬((fbit s Fld.SCH_TRC_CTRL_STOP && s.sch.trcFull) = true) := by
    rcases hroom with h | h
    · rw [h]
      simp
    · rw [h]
      simp
  unfold traceRecord
  rw [if_neg (by rw [hen]; decide), if_neg hnot]
  extract_lets w a s1 s2 s3 _ s4
  refine ⟨s1, .ite ((onlyRegs.refl _ s).fset (List.mem_singleton_self _)) (.refl _ s), ?_⟩
  show onlyRegs [Reg.SCH_TRC_STAT] { s3 with sch := { s3.sch with trcFull := s3.sch.trcFull || w == 65535 } } _
  split
  next hw =>
    have hend : { s3 with sch := { s3.sch with trcFull := s3.sch.trcFull || w == 65535 } } = s4 := by
      rw [hw, beq_self_eq_true, Bool.or_true]
    rw [hend]
    exact .ite ((onlyRegs.refl _ s4).fset (List.mem_singleton_self _)) (.refl _ s4)
  next hw =>
    rw [beq_eq_false_iff_ne.mpr hw, Bool.or_false]
    exact .refl _ s3

/-- A record is written while tracing is on and the ring takes it (R401, R402). -/
theorem traceRecord_traced {lo hi : Word} (hen : fbit s Fld.SCH_TRC_CTRL_EN = true)
    (hroom : fbit s Fld.SCH_TRC_CTRL_STOP = false ∨ s.sch.trcFull = false) :
    traced s (traceRecord lo hi s) ∧
      memNat (traceRecord lo hi s) (traceAddr s) 8 = bytesNat (wordBytes lo ++ wordBytes hi) := by
  obtain ⟨u, ⟨hu, huregs⟩, ht, htregs⟩ := traceRecord_of_room (lo := lo) (hi := hi) hen hroom
  generalize hbs : wordBytes lo ++ wordBytes hi = bs at *
  have hlen : bs.length = 8 := by
    rw [← hbs]
    rfl
  have hput := putBytes_frame (traceAddr s) bs u
  have hputregs := putBytes_regsBut (traceAddr s) bs u
  generalize traceRecord lo hi s = t at *
  have hmem : t.mem = (putBytes (traceAddr s) bs u).mem := by
    rw [ht]
    rfl
  refine ⟨⟨?_, ?_, ?_, ?_⟩, ?_⟩
  · intro x hx
    rw [memRead, hmem]
    exact (memRead_putBytes_other (traceAddr s) bs u x (by rw [hlen]; exact hx)).trans (by rw [memRead, hu]; rfl)
  · rw [htregs.fget_eq (f := Fld.SCH_TRC_WPTR_WPTR) (by decide)]
    exact fget_fset_self Fld.SCH_TRC_WPTR_WPTR _ (putBytes (traceAddr s) bs u) (by decide) (by decide)
  · have hput' : regsBut [Reg.SCH_TRC_WPTR, Reg.SCH_TRC_STAT, Reg.FCO_INJ_STAT] s (putBytes (traceAddr s) bs u) :=
      (huregs.mono (by decide)).trans (hputregs.mono (by decide))
    exact (hput'.fset (by decide)).trans (.of_regs_eq (htregs.mono (by decide)) rfl)
  · rw [ht, hput, hu]
    rfl
  · have hread := memNat_putBytes (traceAddr s) bs u
    rw [hlen] at hread
    unfold memNat memRead at hread ⊢
    rw [hmem]
    exact hread

/-- The MARK record of a second boundary (R401). -/
def markRecord (s : State) : Nat := (nowSplit s).sec % 2 ^ 30 * 2 ^ 34 + 15 * 2 ^ 30 + 7 * 2 ^ 25

theorem schTraceMark_eq (s : State) : schTraceMark s =
    traceRecord (BitVec.ofNat 32 (markRecord s)) (BitVec.ofNat 32 (markRecord s / 2 ^ 32)) s := rfl

theorem bytesNat_markRecord (s : State) :
    bytesNat (wordBytes (BitVec.ofNat 32 (markRecord s)) ++ wordBytes (BitVec.ofNat 32 (markRecord s / 2 ^ 32))) =
      markRecord s := by
  rw [bytesNat_twoWords, BitVec.toNat_ofNat, BitVec.toNat_ofNat]
  unfold markRecord
  omega

theorem traceRecord_of_disabled {lo hi : Word} (h : fbit s Fld.SCH_TRC_CTRL_EN = false) : traceRecord lo hi s = s := by
  unfold traceRecord
  rw [h]
  rfl

theorem traceMark_records (s : State) :
    (fbit s Fld.SCH_TRC_CTRL_EN = false → exec .schTraceMark s = .next s) ∧
    (fbit s Fld.SCH_TRC_CTRL_EN = true → fbit s Fld.SCH_TRC_CTRL_STOP = false ∨ s.sch.trcFull = false →
      ∃ t, exec .schTraceMark s = .next t ∧ traced s t ∧ memNat t (traceAddr s) 8 = markRecord s) ∧
    (fbit s Fld.SCH_TRC_CTRL_EN = true → fbit s Fld.SCH_TRC_CTRL_STOP = true → s.sch.trcFull = true →
      ∃ t, exec .schTraceMark s = .next t ∧ onlyRegs [Reg.SCH_TRC_STAT] s t ∧
        fget t Fld.SCH_TRC_STAT_LOST = min 0xFFFF (fget s Fld.SCH_TRC_STAT_LOST + 1)) := by
  refine ⟨fun h => congrArg Host.Outcome.next (traceRecord_of_disabled h), fun hen hroom => ?_,
    fun hen hstop hfull => ⟨_, rfl, traceRecord_lost hen hstop hfull⟩⟩
  obtain ⟨htraced, hbytes⟩ := traceRecord_traced (lo := BitVec.ofNat 32 (markRecord s))
    (hi := BitVec.ofNat 32 (markRecord s / 2 ^ 32)) hen hroom
  exact ⟨_, rfl, htraced, hbytes.trans (bytesNat_markRecord s)⟩

/-! ## A write of SCH_TRC_CTRL -/

/-- The first record of a restarted ring (R402). -/
def traceRestarted (s : State) : State :=
  regSet Reg.SCH_TRC_STAT 0 (fset Fld.SCH_TRC_WPTR_WPTR 0 { s with sch := { s.sch with trcFull := false } })

/-- The write sets EN where it was 0. -/
def traceStarts (v : Word) (s : State) : Prop := v.getLsbD 0 = true ∧ fbit s Fld.SCH_TRC_CTRL_EN = false

theorem fieldGet_bit (v : Word) (i : Nat) : fieldGet v i i = 1 ↔ v.getLsbD i = true := by
  rw [fieldGet, Nat.sub_self, Nat.zero_add, pow_one, ← BitVec.testBit_toNat, Nat.testBit_eq_decide_div_mod_eq,
    decide_eq_true_iff]

/-- What an accepted write of SCH_TRC_CTRL does. -/
def traceControlled (v : Word) (s : State) : State :=
  regSet Reg.SCH_TRC_CTRL (v &&& 3)
    (if fieldGet v 0 0 = 1 && !fbit s Fld.SCH_TRC_CTRL_EN then traceRestarted s else s)

theorem traceControlled_of_not_starts {v : Word} (h : ¬traceStarts v s) :
    onlyRegs [Reg.SCH_TRC_CTRL] s (traceControlled v s) := by
  have hcond : ¬((decide (fieldGet v 0 0 = 1) && !fbit s Fld.SCH_TRC_CTRL_EN) = true) := by
    simpa [traceStarts, fieldGet_bit] using h
  unfold traceControlled
  rw [if_neg hcond]
  exact (onlyRegs.refl _ s).regSet (List.mem_singleton_self _)

theorem traceControlled_of_starts {v : Word} (h : traceStarts v s) :
    let t := traceControlled v s
    fget t Fld.SCH_TRC_WPTR_WPTR = 0 ∧ regGet t Reg.SCH_TRC_STAT = 0 ∧
      t = { s with regs := t.regs, sch := { s.sch with trcFull := false } } ∧
      regsBut [Reg.SCH_TRC_CTRL, Reg.SCH_TRC_WPTR, Reg.SCH_TRC_STAT] s t := by
  have hcond : (decide (fieldGet v 0 0 = 1) && !fbit s Fld.SCH_TRC_CTRL_EN) = true := by
    simpa [traceStarts, fieldGet_bit] using h
  unfold traceControlled
  rw [if_pos hcond]
  refine ⟨?_, ?_, rfl, ?_⟩
  · unfold traceRestarted
    rw [fget_regSet_other _ _ (by decide), fget_regSet_other _ _ (by decide),
      fget_fset_self _ _ _ (by decide) (by decide), Nat.zero_mod]
  · unfold traceRestarted
    rw [regGet_regSet_other _ _ (by decide), regGet_regSet_self]
  · exact .regSet (.regSet (.fset (.of_regs_eq (.refl _ s) rfl) (by decide)) (by decide)) (by decide)

theorem traceEnable_restarts (o : Origin) (v : Word) (s : State) :
    let checks := [(roleAtLeast .engineer o, Status.notPermitted), (s.sys.mode != .boot, .illegalInMode)];
    (∀ st, firstFail checks = some st → ∃ t, exec (.schTrcEnable o v) s = .next t ∧ refusedWrite [] st s t) ∧
    (firstFail checks = none → ∃ t, exec (.schTrcEnable o v) s = .next t ∧ regGet t Reg.SCH_TRC_CTRL = v &&& 3 ∧
      (¬traceStarts v s → onlyRegs [Reg.SCH_TRC_CTRL] s t) ∧
      (traceStarts v s → fget t Fld.SCH_TRC_WPTR_WPTR = 0 ∧ regGet t Reg.SCH_TRC_STAT = 0 ∧
        t = { s with regs := t.regs, sch := { s.sch with trcFull := false } } ∧
        regsBut [Reg.SCH_TRC_CTRL, Reg.SCH_TRC_WPTR, Reg.SCH_TRC_STAT] s t)) := by
  refine ⟨fun st h => ⟨_, rfl, refusedWrite_checkWrite h s⟩, fun h => ?_⟩
  have hwrite : (schTrcEnable o v s).1 = traceControlled v s := congrArg Prod.fst (checkWrite_of_none h)
  exact ⟨_, congrArg Host.Outcome.next hwrite, regGet_regSet_self .., traceControlled_of_not_starts,
    traceControlled_of_starts⟩

/-! # The event watchdog -/

theorem eventWatchdog_occurs (c : Fin 4) (next : Bool) (s : State) :
    let slot := if next = true then nextSlot s c else curSlot s c;
    (slot = none → exec (.eventWatchdogExpiry c next) s = .next s) ∧
    (slot.isSome = true → ∃ t, exec (.eventWatchdogExpiry c next) s = .next t ∧ occurred 61 c (4 + c.val) s t) := by
  extract_lets slot
  have hexec : exec (.eventWatchdogExpiry c next) s = .next (match slot with
    | none => s
    | some _ => occur (detect 61 c (4 + c) 0) s) := rfl
  rw [hexec]
  clear_value slot
  cases slot with
  | none => exact ⟨fun _ => rfl, fun h => absurd h (by decide)⟩
  | some e => exact ⟨fun h => absurd h (by simp), fun _ =>
      ⟨_, rfl, occur_occurred (detect 61 c (4 + c) 0) s (show 61 < 64 by decide)⟩⟩

end Sys2Proof.Machine
end

section
namespace Sys2Proof.Machine

variable {s t u : State}

/-! # Writes of registers -/

theorem supersede_counts (b : Bool) (a : Nat) (s : State) :
    supersede b a s = { s with sys := { s.sys with superseded := (supersede b a s).sys.superseded } } ∧
      ∀ k, Store.get (fun _ => 0) (supersede b a s).sys.superseded k =
        Store.get (fun _ => 0) s.sys.superseded k + if k = a ∧ b = true then 1 else 0 := by
  unfold supersede
  cases b with
  | false => exact ⟨rfl, fun k => by simp⟩
  | true =>
    refine ⟨rfl, fun k => ?_⟩
    simp only [if_true, Store.get_set, and_true]
    split
    next h => rw [h]
    · rfl

/-- A write that is staged waits, and is counted if it replaces one (R16). -/
theorem staged_stageWrite (o : Origin) (a : Nat) (v : Word) (s : State) :
    staged a v o s (stageWrite o a v s) ∧ (stageWrite o a v s).regs = s.regs := by
  unfold stageWrite
  cases hq : queuesWrites a with
  | true =>
    refine ⟨⟨?_, fun k => ?_⟩, rfl⟩
    · simp [waiting, hq]
    · simp [hq]
  | false =>
    obtain ⟨hframe, hcount⟩ := supersede_counts (s.staged.any (fun w => w.addr == a)) a s
    simp only [Bool.false_eq_true, if_false]
    refine ⟨⟨?_, fun k => ?_⟩, ?_⟩
    · rw [hframe]
      simp [waiting, hq]
    · rw [hcount]
      simp [hq]
    · rw [hframe]

/-- The write waits for its boundary. -/
def waits (o : Origin) (a : Nat) (v : Word) (s t : State) : Prop := staged a v o s t ∧ t.regs = s.regs

theorem checkStage_waits {a : Nat} {o : Origin} {checks : List (Bool × Status)} {v : Word}
    (h : firstFail checks = none) (s : State) :
    waits o a v s (checkStage a o checks v s).1 ∧ (checkStage a o checks v s).2 = .ok := by
  rw [checkStage, checkWrite_of_none h]
  exact ⟨staged_stageWrite o a v s, rfl⟩

theorem checkStage_refuses {a : Nat} {o : Origin} {checks : List (Bool × Status)} {v : Word} {st : Status}
    (h : firstFail checks = some st) (s : State) :
    refusedWrite [] st s (checkStage a o checks v s).1 ∧ (checkStage a o checks v s).2 = st := by
  rw [checkStage, checkWrite_of_some h]
  exact ⟨refusedWrite_refuseWrite .., rfl⟩

/-- The registers in which a refused command shows its status. -/
def commandShows (a : Nat) : List Nat :=
  [Reg.FAD_CAL_STAT, Reg.FLT_SYNC_STAT, Reg.CHR_STATUS, Reg.WHL_CELL_STAT ((a - 0x40041000) / 0x100)]

theorem refusedWrite_showRefused {a : Nat} {v : Word} {st st' : Status} (h : refusedWrite (commandShows a) st s t) :
    refusedWrite (commandShows a) st s (showRefused a v st' t) := by
  unfold Machine.showRefused
  split
  · exact refusedWrite_fset h (by simp [commandShows, Fld.FAD_CAL_STAT_STATUS]) (by decide)
  · split
    · exact refusedWrite_fset h (by simp [commandShows, Fld.FLT_SYNC_STAT_STATUS]) (by decide)
    · split
      · have hmem : Fld.CHR_STATUS_STATUS.reg ∈ commandShows a := by simp [commandShows, Fld.CHR_STATUS_STATUS]
        exact refusedWrite_fset h hmem (by decide)
      · split
        · have hne : Reg.WHL_CELL_STAT ((a - 0x40041000) / 0x100) ≠ Reg.SYS_REJECT_COUNT := by
            unfold Reg.WHL_CELL_STAT Reg.SYS_REJECT_COUNT
            omega
          have hmem : Reg.WHL_CELL_STAT ((a - 0x40041000) / 0x100) ∈ commandShows a := by simp [commandShows]
          exact refusedWrite_fset (refusedWrite_fset h hmem hne) hmem hne
        · exact h

theorem stageTrigger_waits {o : Origin} {a : Nat} {v : Word}
    (h : firstFail [(roleOrCore .operator o, Status.notPermitted), (s.sys.mode != .boot, .illegalInMode)] = none) :
    waits o a v s (stageTrigger o a v s).1 := by
  obtain ⟨hwaits, hok⟩ := checkStage_waits (a := a) (v := v) (o := o) h s
  unfold stageTrigger
  dsimp only
  rw [hok, if_neg (by decide)]
  exact hwaits

theorem stageTrigger_refuses {o : Origin} {a : Nat} {v : Word} {st : Status}
    (h : firstFail [(roleOrCore .operator o, Status.notPermitted), (s.sys.mode != .boot, .illegalInMode)] = some st) :
    refusedWrite (commandShows a) st s (stageTrigger o a v s).1 := by
  have hrefused := refusedWrite_mono
    (checkStage_refuses (a := a) (v := v) (o := o) h s).1 (List.nil_subset (commandShows a))
  unfold stageTrigger
  dsimp only
  split
  · exact refusedWrite_showRefused hrefused
  · exact hrefused

end Sys2Proof.Machine
end

section
namespace Sys2Proof.Machine

variable {s t u : State}

/-! ## Which write a register takes -/

/-- A register's address tells its block (R468). -/
theorem div_of_regDesc {a : Nat} {d : RegDesc} (h : regDesc a = some d) : a / 0x10000 = 0x4000 + blockOf a := by
  obtain ⟨hlo, hhi⟩ := regDesc_range h
  unfold blockOf
  omega

/-- Blocks of the control and data planes whose plain writes wait for a cycle boundary (R13). -/
def stagedBlocks : List Nat := [0x4003, 0x4006, 0x4007, 0x4010]

theorem ne_of_div_mem {as : List Nat} {a x : Nat} (ha : a / 0x10000 ∈ as) (hx : x / 0x10000 ∉ as) : a ≠ x :=
  fun h => hx (h ▸ ha)

theorem voidCheckByWrite_of_div {a : Nat} (h : a / 0x10000 ≠ 0x4004) (s : State) : voidCheckByWrite a s = s := by
  unfold voidCheckByWrite
  rw [if_neg (by omega)]

/-- Whatever a register with no command of its own and no special block takes. -/
theorem writeKnown_plain {o : Origin} {a : Nat} {v : Word} (hT : isTiming a = false) (htrig : isTrigger a = false)
    (hdiv : a / 0x10000 ∈ 0x4012 :: stagedBlocks) (hblock : a / 0x10000 = 0x4000 + blockOf a)
    (hper : a ≠ Reg.STAT_PERIOD) :
    writeKnown o a v s =
      if snapshotReg a then
        ((if (checkStage a o (plainChecks o a v s) v s).2 = .ok then
            voidCheckByWrite a (checkStage a o (plainChecks o a v s) v s).1
          else (checkStage a o (plainChecks o a v s) v s).1), (checkStage a o (plainChecks o a v s) v s).2)
      else checkWrite a o (plainChecks o a v s) (takeWrite a v) s := by
  unfold writeKnown
  rw [if_neg (by simp [hT]), if_neg (by simp [htrig])]
  have hne {x : Nat} (hx : x / 0x10000 ∉ 0x4012 :: stagedBlocks) : a ≠ x := ne_of_div_mem hdiv hx
  have hb : blockOf a ≠ 5 ∧ blockOf a ≠ 8 ∧ blockOf a ≠ 9 ∧ blockOf a ≠ 13 ∧ blockOf a ≠ 15 := by
    simp [stagedBlocks] at hdiv
    omega
  have hlq : ¬(0x400B1000 ≤ a ∧ a < 0x400B1500 ∧ 0x20 ≤ a % 0x100 ∧ a % 0x100 < 0x30) := by
    simp [stagedBlocks] at hdiv
    omega
  obtain ⟨h5, h8, h9, h13, h15⟩ := hb
  split
  · contradiction
  · contradiction
  · contradiction
  · contradiction
  · contradiction
  · rw [if_neg (hne (by decide)), if_neg (hne (by decide)), if_neg fun h => hne (by decide) h.1, if_neg hlq,
      if_neg (hne (by decide)), if_neg (hne (by decide)), if_neg hper]

theorem snapshotReg_of_stagedBlocks {a : Nat} (h : a / 0x10000 ∈ stagedBlocks) : snapshotReg a = true := by
  simp only [stagedBlocks, List.mem_cons, List.not_mem_nil, or_false] at h
  unfold snapshotReg
  rcases h with h | h | h | h <;> rw [h] <;> rfl

theorem snapshotReg_of_stat {a : Nat} (h : a / 0x10000 = 0x4012) : snapshotReg a = false := by
  unfold snapshotReg
  rw [h, decide_eq_false (by omega), decide_eq_false (by omega)]
  rfl

theorem isTrigger_of_stat {a : Nat} (h : a / 0x10000 = 0x4012) : isTrigger a = false := by
  have hne {x : Nat} (hx : x / 0x10000 ≠ 0x4012) : (a == x) = false := beq_eq_false_iff_ne.mpr fun he => hx (he ▸ h)
  unfold isTrigger
  rw [hne (by decide), hne (by decide), hne (by decide), hne (by decide), hne (by decide), hne (by decide),
    hne (by decide), hne (by decide), hne (by decide), decide_eq_false (by omega)]
  rfl

theorem writeKnown_staged {o : Origin} {a : Nat} {v : Word} (hT : isTiming a = false) (htrig : isTrigger a = false)
    (hdiv : a / 0x10000 ∈ stagedBlocks) (hblock : a / 0x10000 = 0x4000 + blockOf a) :
    writeKnown o a v s = checkStage a o (plainChecks o a v s) v s := by
  have hnot4 : a / 0x10000 ≠ 0x4004 := fun h => absurd (h ▸ hdiv) (by decide)
  rw [writeKnown_plain hT htrig (List.mem_cons_of_mem _ hdiv) hblock (ne_of_div_mem hdiv (by decide)),
    if_pos (snapshotReg_of_stagedBlocks hdiv), voidCheckByWrite_of_div hnot4, ite_self]

theorem takeWrite_stat {a : Nat} {v : Word} (h : blockOf a = 0x12) (s : State) :
    takeWrite a v s = plainWrite a v s := by
  unfold takeWrite
  rw [h]
  rfl

theorem writeKnown_stat {o : Origin} {a : Nat} {v : Word} (hT : isTiming a = false)
    (hblock : a / 0x10000 = 0x4000 + blockOf a) (hb : blockOf a = 0x12) (hper : a ≠ Reg.STAT_PERIOD) :
    writeKnown o a v s = checkWrite a o (plainChecks o a v s) (takeWrite a v) s := by
  have hdiv : a / 0x10000 = 0x4012 := by omega
  rw [writeKnown_plain hT (isTrigger_of_stat hdiv) (hdiv ▸ List.mem_cons_self ..) hblock hper,
    if_neg (by simp [snapshotReg_of_stat hdiv])]

theorem writeKnown_trigger {o : Origin} {a : Nat} {v : Word} (hT : isTiming a = false) (htrig : isTrigger a = true) :
    writeKnown o a v s = stageTrigger o a v s := by
  unfold writeKnown
  rw [if_neg (by simp [hT]), if_pos htrig]

theorem plainWrite_known {a : Nat} {d : RegDesc} (h : regDesc a = some d) (v : Word) (s : State) :
    plainWrite a v s = regSet a (mergeWrite d (regGet s a) v) s := by
  unfold plainWrite
  rw [h]

/-! ## A write of any register -/

/-- The master that a writer is on the bus. -/
def writeMaster : Origin → Nat
  | .eventCore i => 4 + i.val
  | .hmp _ _ => 0x35
  | .supervisory => 0x08

/-- The register that an address names, if it is aligned. -/
def knownReg (a : Nat) : Option RegDesc := if a % 4 = 0 then regDesc a else none

theorem writeReg_unknown {o : Origin} {a : Nat} {v : Word} (h : knownReg a = none) :
    writeReg o a v s = (occur (detect 30 a (writeMaster o) Acc.regWrite) s, .ok) := by
  unfold knownReg at h
  unfold writeReg
  rw [h]
  cases o <;> rfl

theorem writeReg_known {o : Origin} {a : Nat} {v : Word} {d : RegDesc} (h : knownReg a = some d) :
    writeReg o a v s = if d.rw = 0 ∧ d.w1c = 0 ∧ d.wo = 0 then (s, .ok) else writeKnown o a v s := by
  unfold knownReg at h
  unfold writeReg
  rw [h]

theorem regDesc_of_known {a : Nat} {d : RegDesc} (h : knownReg a = some d) : regDesc a = some d := by
  unfold knownReg at h
  split at h
  · exact h
  · cases h

/-- What a write of a known register with writable bits comes to (R7, R13, R457). -/
theorem registerWrite_known {o : Origin} {addr v : Word} {d : RegDesc} (h : knownReg addr.toNat = some d)
    (hwritable : ¬(d.rw = 0 ∧ d.w1c = 0 ∧ d.wo = 0)) :
    exec (.registerWrite o addr v) s = .next (writeKnown o addr.toNat v s).1 := by
  show Host.Outcome.next (writeReg o addr.toNat v s).1 = _
  rw [writeReg_known h, if_neg hwritable]

theorem registerWrite_trigger {o : Origin} {addr v : Word} {d : RegDesc} (h : knownReg addr.toNat = some d)
    (hwritable : ¬(d.rw = 0 ∧ d.w1c = 0 ∧ d.wo = 0)) (hT : isTiming addr.toNat = false)
    (htrig : isTrigger addr.toNat = true) :
    let base := [(roleOrCore .operator o, Status.notPermitted), (s.sys.mode != .boot, .illegalInMode)]
    (firstFail base = none → ∃ t, exec (.registerWrite o addr v) s = .next t ∧ waits o addr.toNat v s t) ∧
    (∀ st, firstFail base = some st → ∃ t, exec (.registerWrite o addr v) s = .next t ∧
      refusedWrite (commandShows addr.toNat) st s t) := by
  rw [registerWrite_known h hwritable, writeKnown_trigger hT htrig]
  exact ⟨fun hpass => ⟨_, rfl, stageTrigger_waits hpass⟩, fun st hfail => ⟨_, rfl, stageTrigger_refuses hfail⟩⟩

theorem registerWrite_staged {o : Origin} {addr v : Word} {d : RegDesc} (h : knownReg addr.toNat = some d)
    (hwritable : ¬(d.rw = 0 ∧ d.w1c = 0 ∧ d.wo = 0)) (hT : isTiming addr.toNat = false)
    (htrig : isTrigger addr.toNat = false) (hb : blockOf addr.toNat ∈ [0x03, 0x06, 0x07, 0x10]) :
    (firstFail (plainChecks o addr.toNat v s) = none →
      ∃ t, exec (.registerWrite o addr v) s = .next t ∧ waits o addr.toNat v s t) ∧
    (∀ st, firstFail (plainChecks o addr.toNat v s) = some st →
      ∃ t, exec (.registerWrite o addr v) s = .next t ∧ refusedWrite [] st s t) := by
  have hblock := div_of_regDesc (regDesc_of_known h)
  have hdiv : addr.toNat / 0x10000 ∈ stagedBlocks := by
    rw [hblock]
    exact List.mem_map_of_mem (f := (0x4000 + ·)) hb
  rw [registerWrite_known h hwritable, writeKnown_staged hT htrig hdiv hblock]
  exact ⟨fun hpass => ⟨_, rfl, (checkStage_waits hpass s).1⟩, fun st hfail => ⟨_, rfl, (checkStage_refuses hfail s).1⟩⟩

theorem registerWrite_stat {o : Origin} {addr v : Word} {d : RegDesc} (h : knownReg addr.toNat = some d)
    (hwritable : ¬(d.rw = 0 ∧ d.w1c = 0 ∧ d.wo = 0)) (hT : isTiming addr.toNat = false)
    (hb : blockOf addr.toNat = 0x12) (hper : addr.toNat ≠ Reg.STAT_PERIOD) :
    (firstFail (plainChecks o addr.toNat v s) = none → ∃ t, exec (.registerWrite o addr v) s = .next t ∧
      onlyRegs [addr.toNat] s t ∧ regGet t addr.toNat = mergeWrite d (regGet s addr.toNat) v) ∧
    (∀ st, firstFail (plainChecks o addr.toNat v s) = some st →
      ∃ t, exec (.registerWrite o addr v) s = .next t ∧ refusedWrite [] st s t) := by
  have hdesc := regDesc_of_known h
  rw [registerWrite_known h hwritable, writeKnown_stat hT (div_of_regDesc hdesc) hb hper]
  refine ⟨fun hpass => ?_, fun st hfail => ⟨_, rfl, refusedWrite_checkWrite hfail s⟩⟩
  rw [checkWrite_of_none hpass, takeWrite_stat hb, plainWrite_known hdesc]
  exact ⟨_, rfl, (onlyRegs.refl _ s).regSet (List.mem_singleton_self _), regGet_regSet_self ..⟩

theorem registerWrite_unknown {o : Origin} {addr v : Word} (h : knownReg addr.toNat = none) :
    ∃ t, exec (.registerWrite o addr v) s = .next t ∧ occurred 30 addr.toNat (writeMaster o) s t := by
  refine ⟨_, congrArg (fun p => Host.Outcome.next (Prod.fst p)) (writeReg_unknown h), ?_⟩
  exact occur_occurred (detect 30 addr.toNat (writeMaster o) Acc.regWrite) s (show 30 < 64 by decide)

theorem registerWrite_readOnly {o : Origin} {addr v : Word} {d : RegDesc} (h : knownReg addr.toNat = some d)
    (hreadonly : d.rw = 0 ∧ d.w1c = 0 ∧ d.wo = 0) : exec (.registerWrite o addr v) s = .next s := by
  show Host.Outcome.next (writeReg o addr.toNat v s).1 = _
  rw [writeReg_known h, if_pos hreadonly]

/-! # User parameter blocks -/

/-- What an accepted COMMIT of SYS_UPB_COMMIT does: it takes the staging words (R488). -/
def upbTaken (v : Word) (s : State) : State :=
  let s := plainWrite Reg.SYS_UPB_COMMIT v s
  let b := fieldGet v 14 11
  let words := (List.range (fieldGet v 10 0 - 2)).map (fun i => memReadWord s (upbStaging b + 8 + 4 * i))
  let s := match Store.get (fun _ => none) s.sys.upb b with
    | some _ => bump Reg.SYS_UPB_SUPER_CNT s
    | none => s
  { s with sys := { s.sys with
      upb := Store.set (fun _ => none) s.sys.upb b (some (fieldGet v 31 16, words, s.time.cnt)) } }

/-- The checks of a write of SYS_UPB_COMMIT. -/
def upbChecks (o : Origin) (v : Word) (s : State) : List (Bool × Status) :=
  [(roleOrCore .operator o, Status.notPermitted), (s.sys.mode != .boot, .illegalInMode),
    (!v.getLsbD 15 || decide (2 ≤ fieldGet v 10 0 ∧ fieldGet v 10 0 ≤ s.sys.prog.upb.getD (fieldGet v 14 11) 0),
      .badParam)]

theorem upbCommit_eq (o : Origin) (v : Word) (s : State) :
    let p := checkWrite Reg.SYS_UPB_COMMIT o (upbChecks o v s)
      (fun s => if v.getLsbD 15 then upbTaken v s else plainWrite Reg.SYS_UPB_COMMIT v s) s
    (upbCommit o v s).1 =
      if p.2 = .badParam then upbStat (fieldGet v 31 16) (fieldGet v 14 11) .badParam p.1 else p.1 := rfl

theorem upbCommit_refused {o : Origin} {v : Word} {st : Status} (h : firstFail (upbChecks o v s) = some st) :
    refusedWrite [Reg.SYS_UPB_STAT] st s (upbCommit o v s).1 := by
  have hrefused : refusedWrite [Reg.SYS_UPB_STAT] st s (refuseWrite Reg.SYS_UPB_COMMIT st o s).1 :=
    refusedWrite_mono (refusedWrite_refuseWrite ..) (List.nil_subset _)
  rw [upbCommit_eq, checkWrite_of_some h]
  split
  · exact refusedWrite_regSet hrefused (List.mem_singleton_self _) (by decide)
  · exact hrefused

theorem upbCommit_accepted {o : Origin} {v : Word} (h : firstFail (upbChecks o v s) = none) :
    (upbCommit o v s).1 = if v.getLsbD 15 then upbTaken v s else plainWrite Reg.SYS_UPB_COMMIT v s := by
  rw [upbCommit_eq, checkWrite_of_none h]
  exact if_neg (by decide : ¬Status.ok = .badParam)

theorem onlyRegs_plainWrite (a : Nat) (v : Word) (s : State) : onlyRegs [a] s (plainWrite a v s) := by
  unfold plainWrite
  split
  · exact (onlyRegs.refl _ s).regSet (List.mem_singleton_self _)
  · exact .refl _ s

theorem upb_frame (h : t = { s with regs := t.regs }) (x : Store (Option (Nat × List Word × Nat))) :
    { t with sys := { t.sys with upb := x } } = { s with regs := t.regs, sys := { s.sys with upb := x } } := by
  rw [h]

/-- A commit that replaces a waiting one counts it, and holds the staging words as they stand (R488). -/
theorem upbTaken_holds (v : Word) (s : State) :
    let b := fieldGet v 14 11
    let pend := fun (t : State) => Store.get (fun _ => none) t.sys.upb b
    let t := upbTaken v s
    pend t = some (fieldGet v 31 16,
      (List.range (fieldGet v 10 0 - 2)).map (fun i => memReadWord s (upbStaging b + 8 + 4 * i)), s.time.cnt) ∧
    t = { s with regs := t.regs, sys := { s.sys with upb := t.sys.upb } } ∧
    ((pend s).isSome = true → countedUp Reg.SYS_UPB_SUPER_CNT s t) := by
  unfold upbTaken
  extract_lets b pend s1 words s2 _ t
  obtain ⟨hframe, hregs⟩ : onlyRegs [Reg.SYS_UPB_COMMIT] s s1 := onlyRegs_plainWrite ..
  have hmem : s1.mem = s.mem := by rw [hframe]
  have hsys : s1.sys = s.sys := by rw [hframe]
  have hs2 : s2 = { s with regs := s2.regs } := by
    unfold s2
    split
    · rw [bump, bumpBy, regSet, hframe]
    · exact hframe
  have hwords : words = (List.range (fieldGet v 10 0 - 2)).map (fun i => memReadWord s (upbStaging b + 8 + 4 * i)) := by
    unfold words memReadWord memRead
    rw [hmem]
  refine ⟨?_, ?_, fun hpend => ?_⟩
  · rw [← hwords, show s.time = s2.time by rw [hs2]]
    show Store.get (fun _ => none) (Store.set (fun _ => none) s2.sys.upb b
      (some (fieldGet v 31 16, words, s2.time.cnt))) b = _
    exact Store.get_set_self _ _ _ _
  · exact upb_frame hs2 _
  · obtain ⟨p, hp⟩ := Option.isSome_iff_exists.mp hpend
    have hcounted : s2 = bump Reg.SYS_UPB_SUPER_CNT s1 := by
      unfold s2
      rw [hsys, show Store.get (fun _ => none) s.sys.upb b = some p from hp]
    have hcnt := countedUp_bump Reg.SYS_UPB_SUPER_CNT s1
    rw [← hcounted] at hcnt
    unfold countedUp at hcnt ⊢
    rw [← hregs Reg.SYS_UPB_SUPER_CNT (by decide)]
    exact hcnt

theorem upbCommit_takes (o : Origin) (v : Word) (s : State) :
    let id := fieldGet v 31 16
    let b := fieldGet v 14 11
    let len := fieldGet v 10 0
    let pend := fun (t : State) => Store.get (fun _ => none) t.sys.upb b;
    (∀ st, firstFail (upbChecks o v s) = some st → ∃ t, exec (.sysUpbCommit o v) s = .next t ∧
      refusedWrite [Reg.SYS_UPB_STAT] st s t) ∧
    (firstFail (upbChecks o v s) = none → v.getLsbD 15 = true → ∃ t, exec (.sysUpbCommit o v) s = .next t ∧
      pend t = some (id, (List.range (len - 2)).map (fun i => memReadWord s (upbStaging b + 8 + 4 * i)), s.time.cnt) ∧
      t = { s with regs := t.regs, sys := { s.sys with upb := t.sys.upb } } ∧
      ((pend s).isSome = true → countedUp Reg.SYS_UPB_SUPER_CNT s t)) ∧
    (firstFail (upbChecks o v s) = none → v.getLsbD 15 = false → ∃ t, exec (.sysUpbCommit o v) s = .next t ∧
      onlyRegs [Reg.SYS_UPB_COMMIT] s t) := by
  refine ⟨fun st h => ⟨_, rfl, upbCommit_refused h⟩, fun h hc => ?_, fun h hc => ?_⟩
  · have htaken : (upbCommit o v s).1 = upbTaken v s := (upbCommit_accepted h).trans (if_pos hc)
    exact ⟨_, congrArg Host.Outcome.next htaken, upbTaken_holds v s⟩
  · have hkept : (upbCommit o v s).1 = plainWrite Reg.SYS_UPB_COMMIT v s :=
      (upbCommit_accepted h).trans (if_neg (by rw [hc]; decide))
    exact ⟨_, congrArg Host.Outcome.next hkept, onlyRegs_plainWrite ..⟩

end Sys2Proof.Machine
end

section
namespace Sys2Proof.Machine

variable {s t u : State}

/-! # Statistics periods -/

/-- The last boundary of the statistics period (R464). -/
def statBound (s : State) : Nat :=
  (nowSplit s).sec / periodSeconds (fget s Fld.STAT_PERIOD_PERIOD) * periodSeconds (fget s Fld.STAT_PERIOD_PERIOD)

/-- A boundary of the statistics period has come that was not latched yet (R464, R465). -/
def statDue (s : State) : Prop :=
  (s.sys.statPartial = true ∨ (nowSplit s).sec % periodSeconds (fget s Fld.STAT_PERIOD_PERIOD) = 0) ∧
    ∀ l, s.sys.statSec = some l → l < statBound s

/-- The counters of the ending period in the bank, and none in the registers. -/
def statBanked (s : State) : State :=
  { s with bank := s.regs.filter (fun e => statAddr e.1), regs := s.regs.filter (fun e => !statAddr e.1) }

/-- The registers that tell of the period, and the maxima that restart with it. -/
def statShown (s : State) : State :=
  let sec := (nowSplit s).sec
  let idx := sec / periodSeconds (fget s Fld.STAT_PERIOD_PERIOD)
  let s1 := fset Fld.STAT_STATUS_PARTIAL (boolNat s.sys.statPartial) (restartMaxima (statBanked s))
  setSplitRegs Reg.STAT_BOUND_T_0 ⟨statBound s, 0⟩
    (regSet Reg.STAT_INDEX_0 (BitVec.ofNat 32 idx)
      (regSet Reg.STAT_INDEX_1 (BitVec.ofNat 32 (idx / 2 ^ 32 % 65536)) s1))

/-- The state after the latch, with the period in force from now on. -/
def statLatched (p : Nat) (s : State) : State :=
  { statShown s with sys := { s.sys with statSec := some (statBound s), statPartial := false, statPeriod := p } }

theorem statBoundary_cases (s : State) :
    (¬statDue s ∧ statBoundary s = s) ∨ (statDue s ∧ ∃ p, statBoundary s = statLatched p s) := by
  unfold statBoundary
  extract_lets sec p due bound later
  have hdue : due = true ↔ s.sys.statPartial = true ∨ sec % p = 0 := by simp [due]
  have hlater : later = true ↔ ∀ l, s.sys.statSec = some l → l < statBound s := by
    unfold later
    cases s.sys.statSec with
    | none => simp
    | some l => simp [bound, statBound, sec, p]
  have hall : (!due || !later) = true ↔ ¬statDue s := by
    rw [statDue, ← hdue, ← hlater]
    cases due <;> cases later <;> simp
  split
  next h => exact .inl ⟨hall.mp h, rfl⟩
  next h => exact .inr ⟨not_not.mp (mt hall.mpr h), _, rfl⟩

/-- The registers that the latch of a period writes. -/
def statRegs : List Nat :=
  [Reg.LOOP_TUPD 0, Reg.LOOP_TUPD 1, Reg.LOOP_TUPD 2, Reg.LOOP_TUPD 3, Reg.LOOP_TUPD 4, Reg.LOOP_TUPD 5,
   Reg.LOOP_TUPD 6, Reg.LOOP_TUPD 7, Reg.MIR_BUDGET, Reg.STAT_STATUS, Reg.STAT_INDEX_0, Reg.STAT_INDEX_1,
   Reg.STAT_BOUND_T_0, Reg.STAT_BOUND_T_1, Reg.STAT_BOUND_T_2]

theorem loopTupd_mem_statRegs {e : Nat} (h : e < 8) : Reg.LOOP_TUPD e ∈ statRegs := by
  match e with
  | 0 | 1 | 2 | 3 | 4 | 5 | 6 | 7 => decide

/-- The first `n` loops' largest update times restarted. -/
def restartUpdates (n : Nat) (s : State) : State :=
  (List.range n).foldl (fun s e => fset (Fld.LOOP_TUPD_TUPD e) 0 s) s

theorem restartMaxima_eq (s : State) : restartMaxima s = restartUpdates 8 (fset Fld.MIR_BUDGET_PEAK 0 s) := rfl

theorem restartUpdates_succ (n : Nat) (s : State) :
    restartUpdates (n + 1) s = fset (Fld.LOOP_TUPD_TUPD n) 0 (restartUpdates n s) := by
  simp [restartUpdates, List.range_succ]

theorem onlyRegs_restartUpdates {n : Nat} (hn : n ≤ 8) (s : State) : onlyRegs statRegs s (restartUpdates n s) := by
  induction n with
  | zero => exact .refl _ s
  | succ n ih =>
    rw [restartUpdates_succ]
    exact (ih (by omega)).fset (loopTupd_mem_statRegs hn)

theorem regGet_restartUpdates_other {n a : Nat} (h : ∀ e, Reg.LOOP_TUPD e ≠ a) (s : State) :
    regGet (restartUpdates n s) a = regGet s a := by
  induction n with
  | zero => rfl
  | succ n ih => rw [restartUpdates_succ, regGet_fset_other _ _ (h n).symm, ih]

theorem onlyRegs.trans {as : List Nat} (h : onlyRegs as s t) (h' : onlyRegs as t u) : onlyRegs as s u := by
  refine ⟨?_, h.2.trans h'.2⟩
  rw [h'.1, h.1]

theorem onlyRegs_restartMaxima (s : State) : onlyRegs statRegs s (restartMaxima s) := by
  have hpeak : onlyRegs statRegs s (fset Fld.MIR_BUDGET_PEAK 0 s) := (onlyRegs.refl _ s).fset (by decide)
  exact hpeak.trans (onlyRegs_restartUpdates (by decide) _)

theorem peak_restartMaxima (s : State) : fget (restartMaxima s) Fld.MIR_BUDGET_PEAK = 0 := by
  have hne (e : Nat) : Reg.LOOP_TUPD e ≠ Reg.MIR_BUDGET := by
    unfold Reg.LOOP_TUPD Reg.MIR_BUDGET
    omega
  rw [restartMaxima_eq, fget, show Fld.MIR_BUDGET_PEAK.reg = Reg.MIR_BUDGET from rfl, regGet_restartUpdates_other hne]
  exact (fget_fset_self Fld.MIR_BUDGET_PEAK 0 s (by decide) (by decide)).trans (Nat.zero_mod _)

theorem storeGet_congr_default {α : Type} {d d' : Nat → α} {x : Nat} (h : d x = d' x) (m : Store α) :
    Store.get d m x = Store.get d' m x := by
  induction m with
  | nil => exact h
  | cons e m ih => rw [Store.get, Store.get, ih]

theorem regGet_statBanked (s : State) (a : Nat) :
    regGet (statBanked s) a = if statAddr a then regReset a else regGet s a := by
  have hfilter := Store.get_filter regReset (fun a => !statAddr a) s.regs a
  refine hfilter.trans ?_
  cases statAddr a <;> rfl

theorem bankGet_statBanked (s : State) {a : Nat} (hstat : statAddr a = true) (hreset : regReset a = 0) :
    bankGet (statBanked s) a = regGet s a := by
  have hfilter := Store.get_filter (fun _ => (0 : Word)) statAddr s.regs a
  rw [if_pos hstat] at hfilter
  exact hfilter.trans (storeGet_congr_default hreset.symm s.regs)

/-- Of the registers and the bank the latch leaves what `statBanked` made of them, but for those of `statRegs`. -/
theorem onlyRegs_statShown (s : State) : onlyRegs statRegs (statBanked s) (statShown s) := by
  unfold statShown setSplitRegs
  extract_lets sec idx s1
  have hs1 : onlyRegs statRegs (statBanked s) s1 := (onlyRegs_restartMaxima (statBanked s)).fset (by decide)
  have hindex1 : onlyRegs statRegs (statBanked s)
      (regSet Reg.STAT_INDEX_1 (BitVec.ofNat 32 (idx / 2 ^ 32 % 65536)) s1) :=
    hs1.regSet (by decide)
  have hindex0 : onlyRegs statRegs (statBanked s) (regSet Reg.STAT_INDEX_0 (BitVec.ofNat 32 idx)
    (regSet Reg.STAT_INDEX_1 (BitVec.ofNat 32 (idx / 2 ^ 32 % 65536)) s1)) := hindex1.regSet (by decide)
  exact ((hindex0.regSet (by decide)).regSet (by decide)).regSet (by decide)

theorem statShown_registers (s : State) :
    let t := statShown s
    regGet t Reg.STAT_INDEX_0 =
        BitVec.ofNat 32 ((nowSplit s).sec / periodSeconds (fget s Fld.STAT_PERIOD_PERIOD)) ∧
      regGet t Reg.STAT_BOUND_T_1 = BitVec.ofNat 32 (statBound s) ∧ regGet t Reg.STAT_BOUND_T_0 = 0 ∧
      fbit t Fld.STAT_STATUS_PARTIAL = s.sys.statPartial ∧ fget t Fld.MIR_BUDGET_PEAK = 0 := by
  unfold statShown setSplitRegs
  extract_lets sec idx s1 t
  have hpartial : fbit s1 Fld.STAT_STATUS_PARTIAL = s.sys.statPartial :=
    fbit_fset_bit Fld.STAT_STATUS_PARTIAL _ _ rfl (by decide)
  have hpeak : fget s1 Fld.MIR_BUDGET_PEAK = 0 := by
    rw [fget, regGet_fset_other _ _ (by decide)]
    exact peak_restartMaxima _
  have hkeep (a : Nat) (ha : a ∉ [Reg.STAT_INDEX_0, Reg.STAT_INDEX_1, Reg.STAT_BOUND_T_0, Reg.STAT_BOUND_T_0 + 4,
      Reg.STAT_BOUND_T_0 + 8]) : regGet t a = regGet s1 a := by
    simp only [List.mem_cons, List.not_mem_nil, or_false, not_or] at ha
    obtain ⟨h0, h1, hb0, hb4, hb8⟩ := ha
    simp only [t, regGet_regSet, h0, h1, hb0, hb4, hb8, if_false]
  refine ⟨?_, ?_, regGet_regSet_self .., ?_, ?_⟩
  · simp only [t]
    rw [regGet_regSet_other _ _ (by decide), regGet_regSet_other _ _ (by decide), regGet_regSet_other _ _ (by decide),
      regGet_regSet_self]
  · show regGet t (Reg.STAT_BOUND_T_0 + 4) = _
    simp only [t]
    rw [regGet_regSet_other _ _ (by decide), regGet_regSet_self]
  · rw [← hpartial, fbit, fbit, fget, fget, hkeep _ (by decide)]
  · rw [← hpeak, fget, fget, hkeep _ (by decide)]

theorem namedCounters_are_counters : ∀ a ∈ namedCounters, statAddr a = true ∧ regReset a = 0 ∧ a ∉ statRegs := by decide

theorem keptRegisters_are_not : ∀ a ∈ keptRegisters, statAddr a = false ∧ a ∉ statRegs := by decide

theorem statShown_frame (s : State) :
    statShown s = { s with regs := (statShown s).regs, bank := (statBanked s).bank } := by
  rw [(onlyRegs_statShown s).1]
  rfl

theorem statLatched_regs (p : Nat) (s : State) : (statLatched p s).regs = (statShown s).regs := rfl

theorem statLatched_bank (p : Nat) (s : State) : (statLatched p s).bank = (statBanked s).bank := by
  unfold statLatched
  rw [statShown_frame]

theorem statLatched_frame (p : Nat) (s : State) :
    let t := statLatched p s
    t = { s with regs := t.regs, bank := t.bank, sys := { s.sys with
      statPartial := false, statSec := t.sys.statSec, statPeriod := t.sys.statPeriod } } := by
  unfold statLatched
  rw [statShown_frame]

theorem regGet_of_regs_eq (h : t.regs = s.regs) (a : Nat) : regGet t a = regGet s a := by
  rw [regGet, regGet, h]

theorem fget_of_regs_eq (h : t.regs = s.regs) (f : Field) : fget t f = fget s f := by
  rw [fget, fget, regGet_of_regs_eq h]

theorem fbit_of_regs_eq (h : t.regs = s.regs) (f : Field) : fbit t f = fbit s f := by
  rw [fbit, fbit, fget_of_regs_eq h]

theorem exec_statBoundary (h : statBoundary s = t) : exec .statBoundary s = .next t := by
  rw [← h]
  rfl

/-- A boundary that has come banks the counters and restarts them (R464, R465). -/
theorem statBoundary_banks (s : State) :
    (¬statDue s → exec .statBoundary s = .next s) ∧
    (statDue s → ∃ t, exec .statBoundary s = .next t ∧
      (∀ a ∈ namedCounters, bankGet t a = regGet s a ∧ regGet t a = 0) ∧
      (∀ a ∈ keptRegisters, regGet t a = regGet s a) ∧
      regGet t Reg.STAT_INDEX_0 =
        BitVec.ofNat 32 ((nowSplit s).sec / periodSeconds (fget s Fld.STAT_PERIOD_PERIOD)) ∧
      regGet t Reg.STAT_BOUND_T_1 = BitVec.ofNat 32 (statBound s) ∧ regGet t Reg.STAT_BOUND_T_0 = 0 ∧
      fbit t Fld.STAT_STATUS_PARTIAL = s.sys.statPartial ∧ fget t Fld.MIR_BUDGET_PEAK = 0 ∧
      t.sys.statPartial = false ∧ t.sys.statSec = some (statBound s) ∧
      t = { s with regs := t.regs, bank := t.bank, sys := { s.sys with
        statPartial := false, statSec := t.sys.statSec, statPeriod := t.sys.statPeriod } }) := by
  rcases statBoundary_cases s with ⟨hnot, heq⟩ | ⟨hdue, p, heq⟩
  · exact ⟨fun _ => exec_statBoundary heq, fun h => absurd h hnot⟩
  · refine ⟨fun h => absurd hdue h, fun _ => ⟨_, exec_statBoundary heq, ?_⟩⟩
    have honly := (onlyRegs_statShown s).2
    have hregs := statLatched_regs p s
    obtain ⟨hindex, hsec, hns, hpartial, hpeak⟩ := statShown_registers s
    refine ⟨fun a ha => ?_, fun a ha => ?_, (regGet_of_regs_eq hregs _).trans hindex,
      (regGet_of_regs_eq hregs _).trans hsec, (regGet_of_regs_eq hregs _).trans hns,
      (fbit_of_regs_eq hregs _).trans hpartial, (fget_of_regs_eq hregs _).trans hpeak, rfl, rfl, statLatched_frame p s⟩
    · obtain ⟨hstat, hreset, hapart⟩ := namedCounters_are_counters a ha
      constructor
      · rw [bankGet, statLatched_bank, ← bankGet, bankGet_statBanked s hstat hreset]
      · rw [regGet_of_regs_eq hregs, honly a hapart, regGet_statBanked, hstat, if_pos rfl, hreset]
    · obtain ⟨hstat, hapart⟩ := keptRegisters_are_not a ha
      rw [regGet_of_regs_eq hregs, honly a hapart, regGet_statBanked, hstat, if_neg Bool.false_ne_true]

/-- A change of the period marks the next latch PARTIAL (R465). -/
theorem statPeriod_partial (o : Origin) (v : Word) (s : State) :
    let checks := [(roleOrCore .operator o, Status.notPermitted), (s.sys.mode != .boot, .illegalInMode)];
    (∀ st, firstFail checks = some st → ∃ t, exec (.statPeriodWrite o v) s = .next t ∧ refusedWrite [] st s t) ∧
    (firstFail checks = none → ∃ t, exec (.statPeriodWrite o v) s = .next t ∧
      fget t Fld.STAT_PERIOD_PERIOD = fieldGet v 1 0 ∧ regsBut [Reg.STAT_PERIOD] s t ∧
      t = { s with regs := t.regs, sys := { s.sys with statPartial := true } }) := by
  refine ⟨fun st h => ⟨_, rfl, refusedWrite_checkWrite h s⟩, fun h => ?_⟩
  refine ⟨_, congrArg (fun p => Host.Outcome.next (Prod.fst p)) (checkWrite_of_none h), ?_, ?_, rfl⟩
  · exact (fget_fset_self Fld.STAT_PERIOD_PERIOD _ _ (by decide) (by decide)).trans
      (Nat.mod_eq_of_lt (fieldGet_lt v 1 0))
  · exact .fset (.of_regs_eq (.refl _ s) rfl) (List.mem_singleton_self _)

/-! # The obligation -/

theorem timerExpiry_posts (tm : Fin 16) (s : State) :
    (fbit s (Fld.SCH_TIM_CFG_EN tm) = false → exec (.schTimerExpiry tm) s = .next s) ∧
    (fbit s (Fld.SCH_TIM_CFG_EN tm) = true → ∃ t, exec (.schTimerExpiry tm) s = .next t ∧ onlyFault s t ∧
      countedUp (Reg.SCH_TIM_CNT tm) s t ∧
      fbit t (Fld.SCH_TIM_CFG_EN tm) = !fbit s (Fld.SCH_TIM_CFG_ONESHOT tm) ∧
      (s.sys.mode ≠ .boot → (usableEntry s (srcClass s 8 false)).isSome = true →
        s.sch.held.any (fun h => h.src == 8 && h.inst == tm.val) = false →
        ∃ e l r, s.sch.ready = l ++ r ∧ t.sch.ready = l ++ e :: r ∧
          (∀ z, r.head? = some z → z.flow = e.flow ∧ z.entry = s.time.cnt ∧ 8 < z.src) ∧
          (∀ z ∈ l, ¬(z.flow = e.flow ∧ z.entry = s.time.cnt ∧ 8 < z.src)) ∧ e.src = 8 ∧ e.inst = tm.val ∧
          e.flow = srcFlow s 8 tm ∧ e.cls = srcClass s 8 false ∧ e.arg0 = BitVec.ofNat 32 tm ∧
          e.arg1 = regGet t (Reg.SCH_TIM_CNT tm) ∧ e.ts = nowSplit s ∧ e.delay = 0)) := by
  refine ⟨fun h => ?_, fun h => ?_⟩
  · have hidle : schTimerExpiry tm s = s := by
      unfold schTimerExpiry
      rw [h]
      rfl
    exact congrArg Host.Outcome.next hidle
  · obtain ⟨hframe, hcount, hen⟩ := timerExpiry_counts h
    exact ⟨_, rfl, hframe, hcount, hen, timerEvent_enters h⟩

theorem registerWrite_decides (o : Origin) (addr v : Word) (s : State) :
    let a := addr.toNat
    let base := [(roleOrCore .operator o, Status.notPermitted), (s.sys.mode != .boot, .illegalInMode)]
    (knownReg a = none → ∃ t, exec (.registerWrite o addr v) s = .next t ∧ occurred 30 a (writeMaster o) s t) ∧
    (∀ d, knownReg a = some d →
      (d.rw = 0 → d.w1c = 0 → d.wo = 0 → exec (.registerWrite o addr v) s = .next s) ∧
      (¬(d.rw = 0 ∧ d.w1c = 0 ∧ d.wo = 0) → isTiming a = false →
        (isTrigger a = true →
          (firstFail base = none → ∃ t, exec (.registerWrite o addr v) s = .next t ∧ waits o a v s t) ∧
          (∀ st, firstFail base = some st → ∃ t, exec (.registerWrite o addr v) s = .next t ∧
            refusedWrite (commandShows a) st s t)) ∧
        (isTrigger a = false → blockOf a ∈ [0x03, 0x06, 0x07, 0x10] →
          (firstFail (plainChecks o a v s) = none →
            ∃ t, exec (.registerWrite o addr v) s = .next t ∧ waits o a v s t) ∧
          (∀ st, firstFail (plainChecks o a v s) = some st →
            ∃ t, exec (.registerWrite o addr v) s = .next t ∧ refusedWrite [] st s t)) ∧
        (blockOf a = 0x12 → a ≠ Reg.STAT_PERIOD →
          (firstFail (plainChecks o a v s) = none → ∃ t, exec (.registerWrite o addr v) s = .next t ∧
            onlyRegs [a] s t ∧ regGet t a = mergeWrite d (regGet s a) v) ∧
          (∀ st, firstFail (plainChecks o a v s) = some st →
            ∃ t, exec (.registerWrite o addr v) s = .next t ∧ refusedWrite [] st s t)))) :=
  ⟨registerWrite_unknown, fun _ h => ⟨fun hrw hw1c hwo => registerWrite_readOnly h ⟨hrw, hw1c, hwo⟩, fun hw hT =>
    ⟨registerWrite_trigger h hw hT, registerWrite_staged h hw hT, registerWrite_stat h hw hT⟩⟩⟩

/-- Settles O56: one theorem for each command, and for a register write one for each kind of register. -/
theorem timersTraceAndRegisterWrites : Obligations.TimersTraceAndRegisterWrites := by
  intro s tm c next o addr v
  obtain ⟨hidle, hfires⟩ := timerExpiry_posts tm s
  obtain ⟨hoff, hrecord, hlost⟩ := traceMark_records s
  refine ⟨hidle, hfires, hoff, hrecord, hlost, traceEnable_restarts o v s, eventWatchdog_occurs c next s, ?_,
    upbCommit_takes o v s, statBoundary_banks s, statPeriod_partial o v s⟩
  cases o <;> exact registerWrite_decides _ addr v s

end Sys2Proof.Machine
end

section
namespace Sys2Proof.Machine

variable {s t u : State}

/-! # Raised condition sources -/

/-- Instance `inst` of a condition source is raised. -/
def isRaised (s : State) (src inst : Nat) : Prop := Store.get (fun _ => false) s.fco.raised (Fco.key src inst) = true

theorem isRaised_setRaised (src inst : Nat) (s : State) : isRaised (setRaised src inst true s) src inst :=
  Store.get_set_self (fun _ => false) s.fco.raised (Fco.key src inst) true

theorem isRaised.setRaised {src inst src' inst' : Nat} (h : isRaised s src inst) :
    isRaised (setRaised src' inst' true s) src inst := by
  refine (Store.get_set (fun _ => false) s.fco.raised (Fco.key src' inst') true (Fco.key src inst)).trans ?_
  split
  · rfl
  · exact h

/-- What is raised raises its source. -/
theorem isRaised.raisedSrc {src inst : Nat} (h : isRaised s src inst) (hinst : inst < 65536) : raisedSrc s src = true := by
  have hlisted : s.fco.raised.any (fun e => e.1 == Fco.key src inst) = true := by
    by_contra hnot
    rw [Bool.not_eq_true] at hnot
    exact Bool.false_ne_true ((Store.get_unlisted _ _ _ hnot).symm.trans h)
  obtain ⟨e, he, hkey⟩ := List.any_eq_true.mp hlisted
  have hdiv : e.1 = src * 65536 + inst := by simpa [Fco.key] using hkey
  exact List.any_eq_true.mpr ⟨e, he, beq_iff_eq.mpr (by omega)⟩

/-! ## What an occurrence leaves raised -/

/-- The same instances are raised. -/
def SameRaised (s t : State) : Prop := t.fco.raised = s.fco.raised

theorem SameRaised.refl (s : State) : SameRaised s s := rfl

theorem SameRaised.isRaised {src inst : Nat} (h : SameRaised s t) (hs : isRaised s src inst) : isRaised t src inst := by
  unfold Machine.isRaised
  rw [h]
  exact hs

theorem SameRaised.ite {c : Prop} [Decidable c] (h : SameRaised s t) (h' : SameRaised s u) :
    SameRaised s (if c then t else u) := by
  split
  · exact h
  · exact h'

theorem SameRaised.of_fco_eq (h : SameRaised s t) (hu : u.fco = t.fco) : SameRaised s u := by
  unfold SameRaised
  rw [hu]
  exact h

theorem SameRaised.putBytes {a : Nat} {bs : List Byte} (h : SameRaised s t) : SameRaised s (putBytes a bs t) := by
  unfold SameRaised
  rw [putBytes_frame]
  exact h

theorem SameRaised.regSet {a : Nat} {v : Word} (h : SameRaised s t) : SameRaised s (regSet a v t) := h

theorem SameRaised.fset {f : Field} {v : Nat} (h : SameRaised s t) : SameRaised s (fset f v t) := h

theorem SameRaised.bump {a : Nat} (h : SameRaised s t) : SameRaised s (bump a t) := h

theorem SameRaised.setSplitRegs {a : Nat} {v : Split} (h : SameRaised s t) : SameRaised s (setSplitRegs a v t) := h

theorem SameRaised.sch (h : SameRaised s t) {x} : SameRaised s { t with sch := x } := h

theorem SameRaised.traceRecord {lo hi : Word} (h : SameRaised s t) : SameRaised s (traceRecord lo hi t) := by
  unfold Machine.traceRecord
  split
  · exact h
  · split
    · exact h.fset.fset
    · extract_lets w a s1 s2 s3 s4
      have hs3 : SameRaised s s3 := (SameRaised.putBytes (.ite h.fset h)).fset
      exact .ite (.ite hs3.sch.fset hs3.sch) hs3

theorem SameRaised.traceEvent {reason cls core src flow : Nat} (h : SameRaised s t) :
    SameRaised s (traceEvent reason cls core src flow t) := h.traceRecord

theorem SameRaised.refusalRing {e : Event} (h : SameRaised s t) : SameRaised s (refusalRing e t) := by
  unfold Machine.refusalRing
  extract_lets p a s1 s2 s3
  have hs3 : SameRaised s s3 := (SameRaised.putBytes (.ite h.fset h)).fset
  exact .ite hs3.sch hs3

theorem SameRaised.enterReady {e : Event} {res : Bool} (h : SameRaised s t) : SameRaised s (enterReady e res t) := by
  unfold Machine.enterReady
  exact .ite h.sch.regSet h.sch

theorem SameRaised.refuseEvent {e : Event} {reason : Nat} {toRing : Bool} (h : SameRaised s t) :
    SameRaised s (refuseEvent e reason toRing t) := by
  unfold Machine.refuseEvent
  exact .ite h.bump.traceEvent.refusalRing h.bump.traceEvent

theorem SameRaised.enterNow {e : Event} (h : SameRaised s t) (hu : enterNow e t = some u) : SameRaised s u := by
  unfold Machine.enterNow at hu
  split at hu
  · obtain rfl := Option.some.inj hu
    exact h.enterReady
  · split at hu
    · cases hu
    · obtain ⟨r, -, rfl⟩ := Option.map_eq_some_iff.mp hu
      exact h.sch.bump.refuseEvent.enterReady

theorem SameRaised.arriveCore {e : Event} (h : SameRaised s t) : SameRaised s (arriveCore e t).1 := by
  unfold Machine.arriveCore
  split
  · exact h
  · split
    next held _ =>
      extract_lets m t1
      split
      next t2 hin =>
        split at hin
        · exact h.bump.sch.enterNow hin
        · cases hin
      · exact h.bump.sch
    · split
      next t2 hin => exact h.enterNow hin
      · split
        · exact h.sch.bump.traceEvent
        · exact h.refuseEvent

theorem SameRaised.btn (h : SameRaised s t) {x} : SameRaised s { t with btn := x } := h

theorem SameRaised.safetyCause {code : Nat} (h : SameRaised s t) : SameRaised s (safetyCause code t) := h

theorem SameRaised.startHandover {cause : Nat} (h : SameRaised s t) : SameRaised s (startHandover cause t) :=
  h.btn.fset

theorem SameRaised.reactClassAB {src cls : Nat} (h : SameRaised s t) : SameRaised s (reactClassAB src cls t) := by
  unfold Machine.reactClassAB
  extract_lets t1
  have ht1 : SameRaised s t1 := h.fset.fset
  refine .ite ht1 (.ite (.ite ht1 ht1.safetyCause) ?_)
  split
  · exact ht1.safetyCause
  · exact .ite ht1.safetyCause (.ite ht1 ht1.startHandover)
  · exact ht1.fset

theorem SameRaised.capAt (h : SameRaised s t) {c} : SameRaised s { t with fco := { t.fco with capAt := c } } := h

theorem SameRaised.log (h : SameRaised s t) {l n} :
    SameRaised s { t with fco := { t.fco with log := l, logSeq := n } } := h

theorem SameRaised.noteLatch {cls : Nat} (h : SameRaised s t) : SameRaised s (noteLatch cls t) := .ite h h

theorem SameRaised.latchOccurrence {d : Detection} (h : SameRaised s t) : SameRaised s (latchOccurrence d t) := by
  unfold Machine.latchOccurrence
  extract_lets cls st t1 t2 t3 valid rank held out fills now cap1 t4 _ t5 full e log _ t6 t7
  have ht3 : SameRaised s t3 := (SameRaised.ite h h.noteLatch).regSet.bump
  have ht4 : SameRaised s t4 := .ite ht3.bump ht3
  have ht5 : SameRaised s t5 := .ite ht4.capAt.regSet.regSet.setSplitRegs ht4
  have ht6 : SameRaised s t6 := ht5.log
  exact .ite ht6.fset.fset ht6.fset

theorem SameRaised.occurOnce {d : Detection} (h : SameRaised s t) : SameRaised s (occurOnce d t).1 := by
  unfold Machine.occurOnce
  extract_lets rc t1
  have ht1 : SameRaised s t1 := h.latchOccurrence
  split
  · exact ht1.reactClassAB
  · exact ht1.arriveCore

theorem isRaised.noteC0Held {src inst : Nat} (h : isRaised s src inst) : isRaised (noteC0Held s) src inst := by
  have hheld : isRaised (fset Fld.SCH_STATUS_C0_HELD 1 s) src inst := h
  unfold Machine.noteC0Held
  split
  · exact h
  · exact (SameRaised.refl _).occurOnce.isRaised hheld.setRaised

/-- An occurrence ends no raised condition. -/
theorem isRaised.occur {src inst : Nat} {d : Detection} (h : isRaised s src inst) : isRaised (occur d s) src inst := by
  have honce : isRaised (occurOnce d s).1 src inst := (SameRaised.refl s).occurOnce.isRaised h
  unfold Machine.occur
  dsimp only
  split
  · exact honce.noteC0Held
  · exact honce

/-- A condition that becomes raised is raised. -/
theorem isRaised_raiseCond (src inst master access : Nat) (s : State) :
    isRaised (raiseCond src inst master access s) src inst := by
  have h := isRaised_setRaised src inst s
  unfold raiseCond
  split
  · exact h
  · exact h.occur

theorem FaultStep.raiseCond {src inst master access : Nat} (h : FaultStep s t) (hsrc : src < 64) :
    FaultStep s (raiseCond src inst master access t) := by
  have hraised : FaultStep s (setRaised src inst true t) := h.fco
  exact .ite hraised (hraised.occur hsrc)

/-! # Occurrences that are latched and logged -/

/-- The registers that an occurrence changes stand in the blocks SCH, FCO and BTN. -/
theorem faultRegs_blocks : ∀ a ∈ reactRegs ++ latchRegs, a / 0x10000 ∈ [0x400C, 0x400D, 0x4011] := by decide

theorem FaultStep.otherBlocks (h : FaultStep s t) {a : Nat} (ha : a / 0x10000 ∉ [0x400C, 0x400D, 0x4011]) :
    regGet t a = regGet s a := h.regs a fun hin => ha (faultRegs_blocks a hin)

theorem occurredAlone_occur (src addr master access : Nat) (s : State) (hsrc : src < 64) :
    occurredAlone src addr master s (occur (detect src addr master access) s) :=
  ⟨occur_occurred (detect src addr master access) s hsrc, fun _ => (FaultStep.occur (.refl s) hsrc).otherBlocks⟩

/-- A condition source that is raised for the first time is an occurrence (R403). -/
theorem occurredAlone_raiseCond {src : Nat} (inst master access : Nat) (hsrc : src < 64) (h : raisedSrc s src = false) :
    occurredAlone src inst master s (raiseCond src inst master access s) := by
  have hstep : FaultStep s (raiseCond src inst master access s) := FaultStep.raiseCond (.refl s) hsrc
  have hoccur : raiseCond src inst master access s =
      occur (detect src inst master access) (setRaised src inst true s) := by
    unfold raiseCond
    rw [h]
    rfl
  rw [hoccur] at hstep ⊢
  obtain ⟨hbit, hlog, -⟩ := occur_occurred (detect src inst master access) (setRaised src inst true s) hsrc
  exact ⟨⟨hbit, hlog, hstep.frame⟩, fun _ => hstep.otherBlocks⟩

/-! # The die-to-die links (R11) -/

/-- Silence of the safety link is cause 8, bit 7 of the causes present (R414). -/
theorem getLsbD_withoutLinkSilence (x : BitVec 10) {n : Nat} (hn : n < 10) :
    (x &&& ~~~(0x080 : BitVec 10)).getLsbD n = (x.getLsbD n && !(n == 7)) := by
  have hmask : ∀ n : Fin 10, (~~~(0x080 : BitVec 10)).getLsbD n = !(n.val == 7) := by decide
  rw [BitVec.getLsbD_and, hmask ⟨n, hn⟩]

theorem dieLink_loses {l : DieLink} {src master : Nat}
    (hp : (l, src, master) ∈ [(DieLink.safety, 0, 0x0A), (DieLink.frontEnd, 1, 0x31)]) (s : State) :
    (raisedSrc s src = true → exec (.dieLinkLoss l) s = .next s) ∧
    (raisedSrc s src = false → ∃ t, exec (.dieLinkLoss l) s = .next t ∧ occurredAlone src 0 master s t ∧
      raisedSrc t src = true) := by
  have hloss : exec (.dieLinkLoss l) s = .next (if raisedSrc s src then s else raiseCond src 0 master 0 s) ∧ src < 64 := by
    rcases List.mem_pair.mp hp with heq | heq
    all_goals
      obtain ⟨rfl, rfl, rfl⟩ := heq
      exact ⟨rfl, by decide⟩
  obtain ⟨hexec, hsrc⟩ := hloss
  rw [hexec]
  refine ⟨fun h => by rw [if_pos h], fun h => ?_⟩
  rw [if_neg (by simp [h])]
  exact ⟨_, rfl, occurredAlone_raiseCond 0 master 0 hsrc h, (isRaised_raiseCond src 0 master 0 s).raisedSrc (by decide)⟩

theorem dieLink_returns {l : DieLink} {src master : Nat}
    (hp : (l, src, master) ∈ [(DieLink.safety, 0, 0x0A), (DieLink.frontEnd, 1, 0x31)]) (s : State) :
    ∃ t, exec (.dieLinkRestore l) s = .next t ∧
      t = { s with fco := { s.fco with raised := t.fco.raised }, saf := { s.saf with present := t.saf.present } } ∧
      Store.get (fun _ => false) t.fco.raised (Fco.key src 0) = false ∧
      (∀ k, k ≠ Fco.key src 0 →
        Store.get (fun _ => false) t.fco.raised k = Store.get (fun _ => false) s.fco.raised k) ∧
      ∀ n, n < 10 → t.saf.present.getLsbD n = (s.saf.present.getLsbD n && !(src == 0 && n == 7)) := by
  rcases List.mem_pair.mp hp with heq | heq
  · obtain ⟨rfl, rfl, rfl⟩ := heq
    exact ⟨_, rfl, rfl, Store.get_set_self (fun _ => false) s.fco.raised (Fco.key 0 0) false,
      fun _ hk => Store.get_set_other (fun _ => false) s.fco.raised false hk,
      fun _ hn => getLsbD_withoutLinkSilence s.saf.present hn⟩
  · obtain ⟨rfl, rfl, rfl⟩ := heq
    exact ⟨_, rfl, rfl, Store.get_set_self (fun _ => false) s.fco.raised (Fco.key 1 0) false,
      fun _ hk => Store.get_set_other (fun _ => false) s.fco.raised false hk, fun _ _ => by simp [clearCond, setRaised]⟩

/-- Settles O28: each detection is an occurrence, and those of the links follow what is raised. -/
theorem occurrencesAreLatchedAndLogged : Obligations.OccurrencesAreLatchedAndLogged := by
  intro s
  refine ⟨⟨_, rfl, occurredAlone_occur 3 0 0x3F 0 s (by decide)⟩, ⟨_, rfl, occurredAlone_occur 60 0 0x08 0 s (by decide)⟩,
    fun n => ⟨_, rfl, occurredAlone_occur 59 n 0x32 0 s (by decide)⟩,
    fun i => ⟨_, rfl, occurredAlone_occur 53 i.val 0x3F 0 s (by decide)⟩, fun p hp => ?_⟩
  obtain ⟨l, src, master⟩ := p
  exact ⟨(dieLink_loses hp s).1, (dieLink_loses hp s).2, dieLink_returns hp s⟩

end Sys2Proof.Machine
end

section
namespace Sys2Proof.Machine

/-! # What the work of an instant leaves alone

A `Scope` names parts of the state. `Spares k s t`: the work that leads from `s` to `t` leaves the parts that `k` names
alone, and with them what no work within a cycle changes: the escapement's own state, the time base and the system. One
lemma per operation; its hypotheses say which parts the operation needs outside the scope. -/

/-- Parts of the state: block registers, bytes of memory, wheels, cores and engine queues one by one; `stores` is all
cores, cells and wheels at once. -/
structure Scope where
  reg : Nat → Prop := fun _ => False
  byte : Nat → Prop := fun _ => False
  wheel : Nat → Prop := fun _ => False
  core : Nat → Prop := fun _ => False
  queue : Nat → Prop := fun _ => False
  stores : Prop := False

/-- The parts of a scope, the escapement's state, the time base and the system stand. -/
structure Spares (k : Scope) (s t : State) : Prop where
  esc : t.esc = s.esc
  time : t.time = s.time
  sys : t.sys = s.sys
  regs : ∀ a, k.reg a → regGet t a = regGet s a
  bytes : ∀ a, k.byte a → memRead t a = memRead s a
  wheels : ∀ w, k.wheel w → wheel t w = wheel s w
  cores : ∀ c, k.core c → core t c = core s c
  queues : ∀ q, k.queue q → engQueue t q = engQueue s q
  stores : k.stores → t.cores = s.cores ∧ t.cells = s.cells ∧ t.wheels = s.wheels

/-- The scope holds nothing that an occurrence may change. -/
structure Scope.OutsideFaults (k : Scope) : Prop where
  regs : ∀ a, k.reg a → a / 0x10000 ∉ [0x400C, 0x400D, 0x4011]
  bytes : ∀ a, k.byte a → a < Config.dramBase

variable {k : Scope} {s t u : State}

theorem ne_of_named {p : Nat → Prop} {a x : Nat} (hx : p x) (ha : ¬p a) : x ≠ a := fun he => ha (he ▸ hx)

theorem Spares.refl (k : Scope) (s : State) : Spares k s s :=
  ⟨rfl, rfl, rfl, fun _ _ => rfl, fun _ _ => rfl, fun _ _ => rfl, fun _ _ => rfl, fun _ _ => rfl,
    fun _ => ⟨rfl, rfl, rfl⟩⟩

theorem Spares.trans (h : Spares k s t) (h' : Spares k t u) : Spares k s u where
  esc := h'.esc.trans h.esc
  time := h'.time.trans h.time
  sys := h'.sys.trans h.sys
  regs a ha := (h'.regs a ha).trans (h.regs a ha)
  bytes a ha := (h'.bytes a ha).trans (h.bytes a ha)
  wheels w hw := (h'.wheels w hw).trans (h.wheels w hw)
  cores c hc := (h'.cores c hc).trans (h.cores c hc)
  queues q hq := (h'.queues q hq).trans (h.queues q hq)
  stores hk :=
    have ⟨hcores, hcells, hwheels⟩ := h.stores hk
    have ⟨hcores', hcells', hwheels'⟩ := h'.stores hk
    ⟨hcores'.trans hcores, hcells'.trans hcells, hwheels'.trans hwheels⟩

theorem Spares.ite {c : Prop} [Decidable c] (h : Spares k s t) (h' : Spares k s u) :
    Spares k s (if c then t else u) := by
  split
  · exact h
  · exact h'

theorem Spares.ite_fst {β : Type} {c : Prop} [Decidable c] {p q : State × β} (h : Spares k s p.1)
    (h' : Spares k s q.1) : Spares k s (if c then p else q).1 := by
  split
  · exact h
  · exact h'

theorem Spares.ite_snd {β : Type} {c : Prop} [Decidable c] {p q : β × State} (h : Spares k s p.2)
    (h' : Spares k s q.2) : Spares k s (if c then p else q).2 := by
  split
  · exact h
  · exact h'

theorem Spares.fst_of_eq {β : Type} {p : State × β} {b : β} (hp : p = (u, b)) (h : Spares k s p.1) : Spares k s u := by
  subst hp
  exact h

theorem Spares.snd_of_eq {β : Type} {p : β × State} {b : β} (hp : p = (b, u)) (h : Spares k s p.2) : Spares k s u := by
  subst hp
  exact h

theorem Spares.foldl {β : Type} {f : State → β → State} {l : List β} (h : Spares k s t)
    (hf : ∀ u, ∀ x ∈ l, Spares k s u → Spares k s (f u x)) : Spares k s (l.foldl f t) := by
  induction l generalizing t with
  | nil => exact h
  | cons x l ih =>
    exact ih (hf t x (List.mem_cons_self ..) h) fun u y hy => hf u y (List.mem_cons_of_mem _ hy)

theorem Spares.foldl_snd {β γ : Type} {f : γ × State → β → γ × State} {l : List β} {p : γ × State}
    (h : Spares k s p.2) (hf : ∀ q, ∀ x ∈ l, Spares k s q.2 → Spares k s (f q x).2) : Spares k s (l.foldl f p).2 := by
  induction l generalizing p with
  | nil => exact h
  | cons x l ih =>
    exact ih (hf p x (List.mem_cons_self ..) h) fun u y hy => hf u y (List.mem_cons_of_mem _ hy)

/-! ## Updates -/

/-- Fields that are no parts of any scope. -/
theorem Spares.update (h : Spares k s t)
    {pend fc pub latches bank staged hidden user sch fco saf btn recent ports svc loops meas front chr eth fio} :
    Spares k s ⟨pend, fc, t.regs, pub, latches, bank, staged, t.mem, hidden, user, t.sys, t.time, t.esc, sch, fco, saf,
      btn, t.cores, t.eng, recent, t.cells, t.wheels, ports, svc, loops, meas, front, chr, eth, fio⟩ :=
  ⟨h.esc, h.time, h.sys, h.regs, h.bytes, h.wheels, h.cores, h.queues, h.stores⟩

theorem Spares.regSet {a : Nat} {v : Word} (h : Spares k s t) (ha : ¬k.reg a) : Spares k s (regSet a v t) where
  esc := h.esc
  time := h.time
  sys := h.sys
  regs x hx := (regGet_regSet_other v t (ne_of_named hx ha)).trans (h.regs x hx)
  bytes := h.bytes
  wheels := h.wheels
  cores := h.cores
  queues := h.queues
  stores := h.stores

theorem Spares.fset {f : Field} {v : Nat} (h : Spares k s t) (hf : ¬k.reg f.reg) : Spares k s (fset f v t) :=
  h.regSet hf

theorem Spares.bumpBy {n a : Nat} (h : Spares k s t) (ha : ¬k.reg a) : Spares k s (bumpBy n a t) := h.regSet ha

theorem Spares.bump {a : Nat} (h : Spares k s t) (ha : ¬k.reg a) : Spares k s (bump a t) := h.regSet ha

theorem Spares.drawFree (h : Spares k s t) : Spares k s (drawFree t).2 := h.update

theorem Spares.setChr {c : Chr} (h : Spares k s t) : Spares k s (setChr c t) := h.update

theorem Spares.clearCond {src inst : Nat} (h : Spares k s t) : Spares k s (clearCond src inst t) := h.update

theorem Spares.setCell {i : Nat} {x : Cell} (h : Spares k s t) (hk : ¬k.stores) : Spares k s (setCell i x t) :=
  ⟨h.esc, h.time, h.sys, h.regs, h.bytes, h.wheels, h.cores, h.queues, fun hs => absurd hs hk⟩

theorem Spares.setWheel {w : Nat} {x : Wheel} (h : Spares k s t) (hw : ¬k.wheel w) (hk : ¬k.stores) :
    Spares k s (setWheel w x t) where
  esc := h.esc
  time := h.time
  sys := h.sys
  regs := h.regs
  bytes := h.bytes
  wheels y hy := by
    rw [wheel_setWheel, if_neg (ne_of_named hy hw)]
    exact h.wheels y hy
  cores := h.cores
  queues := h.queues
  stores hs := absurd hs hk

theorem Spares.setCore {c : Nat} {x : Core} (h : Spares k s t) (hc : ¬k.core c) (hk : ¬k.stores) :
    Spares k s (setCore c x t) where
  esc := h.esc
  time := h.time
  sys := h.sys
  regs := h.regs
  bytes := h.bytes
  wheels := h.wheels
  cores y hy := (core_setCore_other x t (ne_of_named hy hc)).trans (h.cores y hy)
  queues := h.queues
  stores hs := absurd hs hk

theorem Spares.setEngQueue {q : Nat} {l : List EngOp} (h : Spares k s t) (hq : ¬k.queue q) :
    Spares k s (setEngQueue q l t) where
  esc := h.esc
  time := h.time
  sys := h.sys
  regs := h.regs
  bytes := h.bytes
  wheels := h.wheels
  cores := h.cores
  queues y hy := by
    rw [engQueue_setEngQueue, if_neg (ne_of_named hy hq)]
    exact h.queues y hy
  stores := h.stores

/-! ## Writes of memory -/

theorem Spares.memWriteBytes {a : Nat} {bs : List Byte} (h : Spares k s t)
    (ha : ∀ x, k.byte x → ¬(a ≤ x ∧ x < a + bs.length)) : Spares k s (memWriteBytes a bs t) where
  esc := h.esc
  time := h.time
  sys := h.sys
  regs := h.regs
  bytes x hx := (memRead_memWriteBytes_other a bs t x (ha x hx)).trans (h.bytes x hx)
  wheels := h.wheels
  cores := h.cores
  queues := h.queues
  stores := h.stores

theorem Spares.eccPass {a n : Nat} (h : Spares k s t) (hinj : ¬k.reg Reg.FCO_INJ_STAT) :
    Spares k s (eccPass a n t) := by
  unfold Machine.eccPass
  extract_lets lo hi
  split
  · exact h.update
  · split
    · exact Spares.fset h.update hinj
    · exact h.update

theorem Spares.putBytes {a : Nat} {bs : List Byte} (h : Spares k s t) (hinj : ¬k.reg Reg.FCO_INJ_STAT)
    (ha : ∀ x, k.byte x → ¬(a ≤ x ∧ x < a + bs.length)) : Spares k s (putBytes a bs t) :=
  (h.eccPass hinj).memWriteBytes ha

/-! ## Occurrences -/

theorem ringsApart_of_lt (s : State) {x : Nat} (h : x < Config.dramBase) : ringsApart s x :=
  ⟨fun hin => by omega, fun hin => by omega⟩

theorem Scope.OutsideFaults.injStat (hk : k.OutsideFaults) : ¬k.reg Reg.FCO_INJ_STAT :=
  fun hreg => hk.regs _ hreg (by decide)

theorem Spares.faultStep (h : Spares k s t) (hk : k.OutsideFaults) (hu : FaultStep t u) : Spares k s u := by
  obtain ⟨hframe, -, -, hmem⟩ := hu.frame
  refine h.trans ⟨by rw [hframe], by rw [hframe], by rw [hframe], fun a ha => hu.otherBlocks (hk.regs a ha),
    fun a ha => hmem a (ringsApart_of_lt t (hk.bytes a ha)), fun w _ => ?_, fun c _ => ?_, fun q _ => ?_, fun _ => ?_⟩
  · rw [wheel, hframe]
    rfl
  · rw [core, hframe]
    rfl
  · rw [engQueue, hframe]
    rfl
  · rw [hframe]
    exact ⟨rfl, rfl, rfl⟩

theorem Spares.occur {d : Detection} (h : Spares k s t) (hk : k.OutsideFaults) (hd : d.src < 64) :
    Spares k s (occur d t) := h.faultStep hk (.occur (.refl t) hd)

end Sys2Proof.Machine
end

section
namespace Sys2Proof.Machine

/-! # The reference point (R51 to R53, R163)

One wheel's work leaves every other wheel, its queue and its registers alone (`Scope.OutsideWheel`), so that what becomes
of a wheel is what its own work makes of it. -/

variable {k : Scope} {s t u : State}

/-! ## Engines (R232, R233, R246) -/

/-- The scope holds nothing that the completion of an engine operation may change, its queue apart. -/
structure Scope.OutsideEngines (k : Scope) : Prop extends k.OutsideFaults where
  noByte : ∀ a, ¬k.byte a
  noCore : ∀ c, ¬k.core c
  noStores : ¬k.stores

theorem Spares.eccLoad {key src addr master access : Nat} (h : Spares k s t) (hk : k.OutsideFaults) (hsrc : src < 64) :
    Spares k s (eccLoad key src addr master access t).2 := by
  unfold Machine.eccLoad
  refine .ite_snd h (h.occur hk ?_)
  dsimp only
  split
  · exact hsrc
  · decide

theorem Spares.seenWord {c now : Nat} {l : List RecentStore} {w : Word} (h : Spares k s t) :
    Spares k s (seenWord c now l w t).2 := by
  induction l generalizing t with
  | nil => exact h
  | cons r l ih =>
    unfold Machine.seenWord
    exact .ite_snd (.ite_snd h.drawFree (ih h.drawFree)) (ih h)

theorem Spares.engWord {o : EngOp} {i : Nat} (h : Spares k s t) (hk : k.OutsideFaults) :
    Spares k s (engWord o i t).2 := by
  unfold Machine.engWord
  extract_lets a
  split
  next bad t1 hp =>
    have ht1 : Spares k s t1 := .snd_of_eq hp (h.eccLoad hk (by decide))
    exact .ite_snd ht1.drawFree (.ite_snd ht1 ht1.seenWord)

theorem Spares.engWords {o : EngOp} {n : Nat} (h : Spares k s t) (hk : k.OutsideFaults) :
    Spares k s (engWords o n t).2 := by
  induction n with
  | zero => exact h
  | succ n ih => exact ih.engWord hk

theorem Spares.wake {c : Nat} (h : Spares k s t) (hk : k.OutsideEngines) : Spares k s (wake c t) :=
  .ite (h.drawFree.setCore (hk.noCore c) hk.noStores) (h.setCore (hk.noCore c) hk.noStores)

theorem Spares.complete {cls desc : Nat} {st : Status} (h : Spares k s t) (hk : k.OutsideEngines) :
    Spares k s (complete cls desc st t) := by
  have hmark : Spares k s (eccStore 3 0 ((desc + statusOffset cls) / 4) t) := .ite (h.update.fset hk.injStat) h.update
  exact .foldl (hmark.memWriteBytes fun x hx => absurd hx (hk.noByte x)) fun _ c _ h1 =>
    .ite ((h1.setCore (hk.noCore c) hk.noStores).wake hk) h1

/-- A wheel has one queue for every core. -/
theorem engKey_wheel (w c : Nat) : engKey 1 w c = 16 + w := by simp [engKey]

theorem Spares.finishOp {q cls : Nat} {o : EngOp} {st : Status} (h : Spares k s t) (hk : k.OutsideEngines)
    (hq : ¬k.queue q) : Spares k s (finishOp q cls o st t) := (h.setEngQueue hq).complete hk

theorem Spares.finishWheelOp {w : Nat} {o : EngOp} {st : Status} (h : Spares k s t) (hk : k.OutsideEngines)
    (hq : ¬k.queue (engKey 1 w 0)) : Spares k s (finishWheelOp w o st t) := by
  unfold Machine.finishWheelOp
  rw [engKey_wheel w o.core, ← engKey_wheel w 0]
  exact (h.putBytes hk.injStat fun x hx => absurd hx (hk.noByte x)).finishOp hk hq

/-! ## One wheel's work -/

/-- The scope holds nothing of wheel `w`, nor the counters of ESC_STALE_CNT and ESC_LATE_REF_CNT. -/
structure Scope.OutsideWheel (k : Scope) (w : Nat) : Prop where
  wheel : ¬k.wheel w
  queue : ¬k.queue (engKey 1 w 0)
  status : ¬k.reg (Reg.WHL_STATUS w)
  staleCnt : ¬k.reg (Reg.WHL_STALE_CNT w)
  lateCnt : ¬k.reg (Reg.WHL_LATE_CNT w)
  escStale : ¬k.reg Reg.ESC_STALE_CNT
  escLate : ¬k.reg Reg.ESC_LATE_REF_CNT

theorem Spares.takeRef {w : Nat} {o : EngOp} (h : Spares k s t) (hk : k.OutsideFaults) :
    Spares k s (takeRef t w o).1 := by
  unfold Machine.takeRef
  split
  next ws t1 hp =>
    have ht1 : Spares k s t1 := .snd_of_eq hp (h.engWords hk)
    exact .ite_fst ht1 ht1

theorem Spares.takeRefs {w : Nat} {l : List EngOp} {d} (h : Spares k s t) (hk : k.OutsideFaults) :
    Spares k s (takeRefs w l (t, d)).1 := by
  induction l generalizing t d with
  | nil => exact h
  | cons o l ih => exact ih (h.takeRef hk)

theorem Spares.adoptEntries {l : List Word} (h : Spares k s t) (hk : ¬k.stores) :
    Spares k s (l.foldl (fun u e => adoptEntry e u) t) :=
  .foldl h fun _ _ _ h1 => .ite (h1.setCell hk) (h1.setCell hk)

theorem Spares.adoptWheel {w : Nat} (h : Spares k s t) (hw : ¬k.wheel w) (hk : ¬k.stores) :
    Spares k s (adoptWheel w t) := by
  unfold Machine.adoptWheel
  split
  · split
    · exact h
    · split
      · exact h
      · exact (h.adoptEntries hk).setWheel hw hk
  · exact h

theorem Spares.staleRef {w : Nat} (h : Spares k s t) (hk : k.OutsideEngines) (hw : k.OutsideWheel w) :
    Spares k s (staleRef w t) :=
  .occur (.fset (.bump (.bump (h.setWheel hw.wheel hk.noStores) hw.escStale) hw.staleCnt) hw.status) hk.toOutsideFaults
    (show 15 < 64 by decide)

theorem Spares.wheelRefPoint {w : Nat} (h : Spares k s t) (hk : k.OutsideEngines) (hw : k.OutsideWheel w) :
    Spares k s (wheelRefPoint w t) := by
  have hset {u : State} {x : Wheel} (hu : Spares k s u) : Spares k s (Machine.setWheel w x u) :=
    hu.setWheel hw.wheel hk.noStores
  unfold Machine.wheelRefPoint
  extract_lets t1 q
  have ht1 : Spares k s t1 := h.adoptWheel hw.wheel hk.noStores
  split
  next t2 d done hp =>
    have ht2 : Spares k s t2 := .fst_of_eq hp (ht1.takeRefs hk.toOutsideFaults)
    extract_lets x t3 x1 t4 x2 i c t5 t6
    have ht3 : Spares k s t3 := hset ht2
    have ht4 : Spares k s t4 := by
      unfold t4
      split
      · exact ht3
      · split
        · extract_lets start t5 t6
          have ht6 : Spares k s t6 := ((hset ht3).clearCond.fset hw.status).fset hw.status
          exact .ite (.foldl ht6 fun _ _ _ h1 => h1.setCell hk.noStores) ht6
        · exact .ite (hset ht3) ((hset ht3).staleRef hk hw)
    have ht5 : Spares k s t5 := .ite ht4 (hset ht4)
    have ht6 : Spares k s t6 := .foldl ht5 fun _ _ _ h1 => h1.finishWheelOp hk hw.queue
    split
    · exact ht6.memWriteBytes fun x hx => absurd hx (hk.noByte x)
    · exact ht6

theorem Spares.lateRefs {w : Nat} (h : Spares k s t) (hk : k.OutsideEngines) (hq : ¬k.queue (engKey 1 w 0))
    (hlate : ¬k.reg (Reg.WHL_LATE_CNT w)) (hesc : ¬k.reg Reg.ESC_LATE_REF_CNT) : Spares k s (lateRefs w t) := by
  unfold Machine.lateRefs
  refine .foldl h fun _ _ _ h1 => ?_
  split
  next t1 _ _ hp =>
    have ht1 : Spares k s t1 := .fst_of_eq hp (h1.takeRef hk.toOutsideFaults)
    exact .ite (ht1.finishWheelOp hk hq) (((ht1.bump hesc).bump hlate).finishWheelOp hk hq)

/-! ## What becomes of a wheel -/

/-- The planning stores of a wheel are empty (R175). -/
def Wheel.Unplanned (x : Wheel) : Prop :=
  x.spec = none ∧ x.conf = false ∧ x.checks = none ∧ x.final = none ∧ x.fall = none

theorem Wheel.unplanned_clear (x : Wheel) : x.clear.Unplanned := ⟨rfl, rfl, rfl, rfl, rfl⟩

theorem wheel_setWheel_self (w : Nat) (x : Wheel) (s : State) : wheel (setWheel w x s) w = x := by
  rw [wheel_setWheel, if_pos rfl]

/-- The wheel alone. -/
def planScope (w : Nat) : Scope where
  wheel := (· = w)

/-- What the work on a wheel of its own leaves of it: the wheel, its configuration and its status. -/
def ownScope (w : Nat) : Scope where
  reg a := a = Reg.WHL_STATUS w ∨ a = Reg.WHL_CFG w
  wheel := (· = w)

/-- What the work on other wheels leaves of a wheel: its queue as well. -/
def wheelScope (w : Nat) : Scope := { ownScope w with queue := (· = engKey 1 w 0) }

theorem Spares.plan {w : Nat} (h : Spares k s t) (hk : k.wheel w) : Spares (planScope w) s t :=
  { h with
    regs := fun _ => False.elim
    bytes := fun _ => False.elim
    wheels := fun x hx => h.wheels x (hx ▸ hk)
    cores := fun _ => False.elim
    queues := fun _ => False.elim
    stores := False.elim }

theorem Spares.own {w : Nat} (h : Spares (wheelScope w) s t) : Spares (ownScope w) s t :=
  { h with queues := fun _ hq => hq.elim }

theorem ownReg_block {w a : Nat} (hw : w < 12) (ha : a = Reg.WHL_STATUS w ∨ a = Reg.WHL_CFG w) :
    a / 0x10000 = 0x4004 := by
  unfold Reg.WHL_STATUS Reg.WHL_CFG at ha
  omega

theorem ownScope_outsideEngines {w : Nat} (hw : w < 12) : (ownScope w).OutsideEngines where
  regs a ha := by
    rw [ownReg_block hw ha]
    decide
  bytes _ ha := ha.elim
  noByte _ := id
  noCore _ := id
  noStores := id

theorem wheelScope_outsideEngines {w : Nat} (hw : w < 12) : (wheelScope w).OutsideEngines :=
  { ownScope_outsideEngines hw with }

theorem wheelScope_outsideWheel {v w : Nat} (hv : v < 12) (hne : w ≠ v) : (wheelScope v).OutsideWheel w := by
  constructor <;>
    simp only [wheelScope, ownScope, engKey_wheel, Reg.WHL_STATUS, Reg.WHL_CFG, Reg.WHL_STALE_CNT, Reg.WHL_LATE_CNT,
      Reg.ESC_STALE_CNT, Reg.ESC_LATE_REF_CNT] <;>
    omega

/-- The wheel's reference did not come: it keeps the one before, counts one more stale cycle, and plans BLOCK where the
mode, a short cycle or BLOCK_ARM asks for it (R51, R53). -/
def KeepsRef (w : Nat) (s t : State) : Prop :=
  (wheel t w).staleRun = (wheel s w).staleRun + 1 ∧ (wheel t w).ref = (wheel s w).ref ∧
    fbit t (Fld.WHL_STATUS_STALE_REF w) = true ∧
    (wheel t w).block = (!inRun s || s.esc.short || (wheel s w).ref.blockArm)

theorem Spares.wheel_eq {w : Nat} (h : Spares (ownScope w) s t) : wheel t w = wheel s w := h.wheels w rfl

theorem Spares.status_eq {w : Nat} (h : Spares (ownScope w) s t) :
    regGet t (Reg.WHL_STATUS w) = regGet s (Reg.WHL_STATUS w) := h.regs _ (.inl rfl)

theorem fget_of_regGet_eq {f : Field} (h : regGet t f.reg = regGet s f.reg) : fget t f = fget s f := by
  rw [fget, fget, h]

theorem fbit_of_regGet_eq {f : Field} (h : regGet t f.reg = regGet s f.reg) : fbit t f = fbit s f := by
  rw [fbit, fbit, fget_of_regGet_eq h]

theorem wheelOn_of_cfg_eq {w : Nat} (h : regGet t (Reg.WHL_CFG w) = regGet s (Reg.WHL_CFG w)) :
    wheelOn t w = wheelOn s w := fbit_of_regGet_eq (f := Fld.WHL_CFG_EN w) h

theorem Spares.inRun_eq (h : Spares k s t) : inRun t = inRun s := by
  unfold inRun
  rw [h.sys]

theorem KeepsRef.after {w : Nat} (h : KeepsRef w t u) (hs : Spares (ownScope w) s t) : KeepsRef w s u := by
  unfold KeepsRef at h ⊢
  rwa [hs.wheel_eq, hs.inRun_eq, hs.esc] at h

theorem KeepsRef.before {w : Nat} (h : KeepsRef w s t) (hu : Spares (ownScope w) t u) : KeepsRef w s u := by
  have hbit : fbit u (Fld.WHL_STATUS_STALE_REF w) = fbit t (Fld.WHL_STATUS_STALE_REF w) :=
    fbit_of_regGet_eq hu.status_eq
  unfold KeepsRef at h ⊢
  rwa [hu.wheel_eq, hbit]

/-! ## The wheel's own work -/

theorem planScope_outsideEngines (w : Nat) : (planScope w).OutsideEngines :=
  ⟨⟨fun _ => False.elim, fun _ => False.elim⟩, fun _ => id, fun _ => id, id⟩

/-- The planning stores of wheel `w` are empty. -/
def unplanned (w : Nat) (s : State) : Prop := (wheel s w).Unplanned

theorem unplanned_setWheel {w : Nat} {x : Wheel} : unplanned w (setWheel w x s) ↔ x.Unplanned := by
  rw [unplanned, wheel_setWheel_self]

theorem unplanned.before {w : Nat} (h : unplanned w s) (ht : Spares (planScope w) s t) : unplanned w t := by
  unfold unplanned
  rwa [ht.wheels w rfl]

/-- A stale cycle is counted on the wheel itself (R53). -/
def countedStale (w : Nat) (s : State) : State :=
  setWheel w { wheel s w with staleRun := (wheel s w).staleRun + 1 } s

theorem staleRef_spares (w : Nat) (s : State) : Spares (planScope w) (countedStale w s) (staleRef w s) :=
  .occur (.fset (.bump (.bump (.refl ..) id) id) id) (planScope_outsideEngines w).toOutsideFaults
    (show 15 < 64 by decide)

theorem unplanned.staleRef {w : Nat} (h : unplanned w s) : unplanned w (staleRef w s) :=
  have hcounted : unplanned w (countedStale w s) := unplanned_setWheel.mpr h
  hcounted.before (staleRef_spares w s)

theorem wheel_staleRef (w : Nat) (s : State) :
    wheel (staleRef w s) w = { wheel s w with staleRun := (wheel s w).staleRun + 1 } := by
  rw [(staleRef_spares w s).wheels w rfl]
  exact wheel_setWheel_self ..

/-- The reference point empties a wheel's planning (R51, R175). -/
theorem unplanned_wheelRefPoint (w : Nat) (s : State) : unplanned w (wheelRefPoint w s) := by
  have hk := planScope_outsideEngines w
  unfold wheelRefPoint
  extract_lets t1 q
  split
  next t2 d done hp =>
    extract_lets x t3 x1 t4 x2 i c t5 t6
    have ht3 : unplanned w t3 := unplanned_setWheel.mpr x.unplanned_clear
    have ht4 : unplanned w t4 := by
      unfold t4
      split
      · exact ht3
      · split
        next r _ =>
          extract_lets start t7 t8
          have ht7 : unplanned w t7 := unplanned_setWheel.mpr ht3
          have ht8 : Spares (planScope w) t7 t8 := .fset (.fset (.clearCond (.refl ..)) id) id
          exact ht7.before (.ite (.foldl ht8 fun _ _ _ h1 => h1.setCell id) ht8)
        · split
          · exact unplanned_setWheel.mpr ht3
          · exact unplanned.staleRef (unplanned_setWheel.mpr ht3)
    have ht5 : unplanned w t5 := by
      unfold t5
      split
      · exact ht4
      · exact unplanned_setWheel.mpr ht4
    have ht6 : Spares (planScope w) t5 t6 := .foldl (.refl ..) fun _ _ _ h1 => h1.finishWheelOp hk id
    split
    · exact ht5.before (ht6.memWriteBytes fun _ => False.elim)
    · exact ht5.before ht6

theorem staleRef_status {w : Nat} (hw : w < 12) (s : State) :
    fbit (staleRef w s) (Fld.WHL_STATUS_STALE_REF w) = true := by
  unfold staleRef
  extract_lets x s1 s2
  have hstep : FaultStep s2 (occur (detect 15 w (0x18 + w) 0) s2) := .occur (.refl s2) (show 15 < 64 by decide)
  have hreg : (Fld.WHL_STATUS_STALE_REF w).reg / 0x10000 = 0x4004 := ownReg_block hw (.inl rfl)
  calc fbit (occur _ s2) (Fld.WHL_STATUS_STALE_REF w) = fbit s2 (Fld.WHL_STATUS_STALE_REF w) :=
        fbit_of_regGet_eq (hstep.otherBlocks (by rw [hreg]; decide))
    _ = true := fbit_fset_bit (Fld.WHL_STATUS_STALE_REF w) true _ rfl (show 1 < 32 by decide)

theorem adoptWheel_ref (w : Nat) (s : State) :
    (wheel (adoptWheel w s) w).staleRun = (wheel s w).staleRun ∧ (wheel (adoptWheel w s) w).ref = (wheel s w).ref := by
  unfold adoptWheel
  split
  · split
    · exact ⟨rfl, rfl⟩
    · split
      · exact ⟨rfl, rfl⟩
      next r _ =>
        have hu : Spares (planScope w) s ((r.deltas ++ r.refresh).foldl (fun s e => adoptEntry e s) s) :=
          (Spares.refl _ s).adoptEntries id
        simp only [wheel_setWheel_self, hu.wheels w rfl, and_self]
  · exact ⟨rfl, rfl⟩

/-- The registers and the queue of a wheel, without the wheel. -/
def portScope (w : Nat) : Scope := { wheelScope w with wheel := fun _ => False }

theorem keepsRef_wheelRefPoint {w : Nat} (hw : w < 12) (hon : wheelOn s w = true)
    (href : fbit s (Fld.WHL_STATUS_NO_REF w) = false) (hq : engQueue s (engKey 1 w 0) = []) :
    KeepsRef w s (wheelRefPoint w s) := by
  have ht1 : Spares (portScope w) s (adoptWheel w s) := (Spares.refl _ s).adoptWheel id id
  have hq1 : engQueue (adoptWheel w s) (engKey 1 w 0) = [] := (ht1.queues _ rfl).trans hq
  obtain ⟨hstale, hkept⟩ := adoptWheel_ref w s
  unfold wheelRefPoint
  extract_lets t1 q
  rw [show q = [] from hq1]
  split
  next t2 d done hp =>
    obtain ⟨rfl, rfl, rfl⟩ : t1 = t2 ∧ none = d ∧ [] = done := by simpa [takeRefs] using hp
    extract_lets x t3 x1 t4 x2 i c t5 t6
    have ht3 : Spares (portScope w) s t3 := ht1.setWheel id id
    have hon3 : wheelOn t3 w = true := (wheelOn_of_cfg_eq (ht3.regs _ (.inr rfl))).trans hon
    have href3 : fbit t3 (Fld.WHL_STATUS_NO_REF w) = false := (fbit_of_regGet_eq (ht3.regs _ (.inl rfl))).trans href
    have hx1 : x1 = x.clear := wheel_setWheel_self ..
    have ht4 : t4 = staleRef w (setWheel w { x1 with block := !inRun t3 || t3.esc.short || x1.ref.blockArm } t3) := by
      unfold t4
      rw [hon3, href3]
      rfl
    have hx2 : x2 = { x1 with
        block := !inRun t3 || t3.esc.short || x1.ref.blockArm, staleRun := x1.staleRun + 1 } := by
      unfold x2
      rw [ht4, wheel_staleRef, wheel_setWheel_self]
    have hx5 : wheel t5 w = { x2 with vhat := (wheel t5 w).vhat } := by
      unfold t5
      split
      · rfl
      · rw [wheel_setWheel_self]
    have hbit : fbit t5 (Fld.WHL_STATUS_STALE_REF w) = true := by
      have hbit4 : fbit t4 (Fld.WHL_STATUS_STALE_REF w) = true := by
        rw [ht4]
        exact staleRef_status hw _
      unfold t5
      split
      · exact hbit4
      · exact hbit4
    suffices h : KeepsRef w s t5 from h
    unfold KeepsRef
    rw [hx5, hx2, hx1, ht3.inRun_eq, ht3.esc]
    exact ⟨congrArg (· + 1) hstale, hkept, hbit,
      congrArg (fun r : WheelRef => !inRun s || s.esc.short || r.blockArm) hkept⟩

/-! ## All wheels -/

/-- Work on each wheel in turn: before and after a wheel's own only that of others. -/
theorem foldl_own {f : Nat → State → State} {v n : Nat} (hv : v < n) (s : State)
    (hother : ∀ w, w ≠ v → ∀ u, Spares (wheelScope v) u (f w u)) :
    ∃ t, Spares (wheelScope v) s t ∧ Spares (wheelScope v) (f v t) ((List.range n).foldl (fun u w => f w u) s) := by
  have hspares {l : List Nat} (hl : v ∉ l) (u : State) : Spares (wheelScope v) u (l.foldl (fun u w => f w u) u) :=
    .foldl (.refl ..) fun u' w hw h => h.trans (hother w (fun he => hl (he ▸ hw)) u')
  obtain ⟨l, r, hlr⟩ := List.append_of_mem (List.mem_range.mpr hv)
  have hnd : (l ++ v :: r).Nodup := hlr ▸ List.nodup_range
  have hnot : v ∉ l ++ r := (List.nodup_middle.mp hnd).notMem
  rw [hlr, List.foldl_append, List.foldl_cons]
  exact ⟨_, hspares (fun h => hnot (List.mem_append_left _ h)) s, hspares (fun h => hnot (List.mem_append_right _ h)) _⟩

/-- The reference point has come, and no wheel has taken its reference yet. -/
def atReferencePoint (s : State) : State :=
  setEsc { s.esc with refDone := true } (reach (s.esc.tk + fget s Fld.ESC_REFPT_REFPT) s)

/-- The work of the reference point on wheel `w`. -/
def refWork (w : Nat) (s : State) : State := lateRefs w (wheelRefPoint w s)

theorem referencePoint_eq (hrun : escRunning s = true) (href : s.esc.refDone = false) (hcut : s.esc.cutDone = false) :
    referencePoint s = sendEngines ((List.range 12).foldl (fun u w => refWork w u) (atReferencePoint s)) := by
  unfold referencePoint
  rw [if_neg (by simp [hrun, href, hcut])]
  rfl

theorem Spares.refWork {w : Nat} (h : Spares k s t) (hk : k.OutsideEngines) (hw : k.OutsideWheel w) :
    Spares k s (refWork w t) := (h.wheelRefPoint hk hw).lateRefs hk hw.queue hw.lateCnt hw.escLate

theorem Spares.sendEngines (h : Spares k s t) : Spares k s (sendEngines t) := .ite h.update h

theorem lateRefs_own {w : Nat} (hw : w < 12) (s : State) : Spares (ownScope w) s (lateRefs w s) := by
  refine (Spares.refl _ s).lateRefs (ownScope_outsideEngines hw) id ?_ ?_ <;>
    simp only [ownScope, Reg.WHL_STATUS, Reg.WHL_CFG, Reg.WHL_LATE_CNT, Reg.ESC_LATE_REF_CNT] <;>
    omega

theorem referencePoint_spares (s : State) :
    Spares {} (atReferencePoint s)
      (sendEngines ((List.range 12).foldl (fun u w => refWork w u) (atReferencePoint s))) :=
  .sendEngines (.foldl (.refl ..) fun _ _ _ h =>
    h.refWork ⟨⟨fun _ => False.elim, fun _ => False.elim⟩, fun _ => id, fun _ => id, id⟩
    ⟨id, id, id, id, id, id, id⟩)

/-- A wheel at the reference point: its own work is all that reaches it. -/
theorem referencePoint_wheel {w : Nat} (hw : w < 12) (s : State) :
    ∃ t, Spares (wheelScope w) (atReferencePoint s) t ∧ Spares (ownScope w) (wheelRefPoint w t)
      (sendEngines ((List.range 12).foldl (fun u w => refWork w u) (atReferencePoint s))) := by
  obtain ⟨t, hbefore, hafter⟩ := foldl_own hw (atReferencePoint s) fun x hx u =>
    (Spares.refl (wheelScope w) u).refWork (wheelScope_outsideEngines hw) (wheelScope_outsideWheel hw hx)
  exact ⟨t, hbefore, (lateRefs_own hw _).trans hafter.sendEngines.own⟩

theorem referencePoint_does (hrun : escRunning s = true) (href : s.esc.refDone = false) (hcut : s.esc.cutDone = false) :
    let t := referencePoint s
    t.esc = { s.esc with refDone := true } ∧ t.time.cnt = max s.time.cnt (s.esc.tk + fget s Fld.ESC_REFPT_REFPT) ∧
      t.sys = s.sys ∧ ∀ w, w < 12 → unplanned w t ∧
        (wheelOn s w = true → fbit s (Fld.WHL_STATUS_NO_REF w) = false → engQueue s (engKey 1 w 0) = [] →
          KeepsRef w s t) := by
  rw [referencePoint_eq hrun href hcut]
  have hall := referencePoint_spares s
  refine ⟨hall.esc, congrArg TimeBase.cnt hall.time, hall.sys, fun w hw => ?_⟩
  obtain ⟨t, hbefore, hafter⟩ := referencePoint_wheel hw s
  refine ⟨(unplanned_wheelRefPoint w t).before (hafter.plan rfl), fun hon hnoRef hq => ?_⟩
  have hkept : KeepsRef w t (wheelRefPoint w t) :=
    keepsRef_wheelRefPoint hw ((wheelOn_of_cfg_eq (hbefore.regs _ (.inr rfl))).trans hon)
      ((fbit_of_regGet_eq (hbefore.regs _ (.inl rfl))).trans hnoRef) ((hbefore.queues _ rfl).trans hq)
  exact (hkept.after hbefore.own).before hafter

end Sys2Proof.Machine
end

section
namespace Sys2Proof.Machine

/-! # The cutoff (R55 to R58, R174, R175, R370) -/

variable {s t u : State}

/-! ## What the planes do at the cutoff -/

/-- Registers of block ESC, FCO_STATUS_0, and every WHL_CFG. -/
def cutReg (a : Nat) : Bool :=
  a / 0x10000 == 0x4002 || a == Reg.FCO_STATUS_0 || (a / 0x1000 == 0x40041 && a % 0x100 == 0)

/-- What the cutoff's work on the planes leaves alone beside the wheels of `W`: the cores and the registers of
`cutReg`. -/
def cutScope (W : Nat → Prop) : Scope where
  reg a := cutReg a = true
  wheel := W
  core _ := True

variable {W : Nat → Prop}

theorem cutScope_free {a : Nat} (h : cutReg a = false) : ¬(cutScope W).reg a := by
  unfold cutScope
  simp [h]

/-- The registers of a wheel behind WHL_CFG. -/
theorem wheelReg_free {w o : Nat} (hw : w < 12) (ho : 0 < o ∧ o < 0x100 := by decide) :
    ¬(cutScope W).reg (o + 0x40041000 + 0x100 * w) := by
  refine cutScope_free ?_
  simp only [cutReg, Reg.FCO_STATUS_0, Bool.or_eq_false_iff, Bool.and_eq_false_iff, beq_eq_false_iff_ne]
  omega

theorem cellReg_free {slot : Nat} (h : slot < 4096) : ¬(cutScope W).reg (Reg.WHL_CSTATE slot) := by
  refine cutScope_free ?_
  simp only [cutReg, Reg.FCO_STATUS_0, Reg.WHL_CSTATE, Bool.or_eq_false_iff, Bool.and_eq_false_iff, beq_eq_false_iff_ne]
  omega

theorem relayReg_free (n : Nat) : ¬(cutScope W).reg (Reg.MIR_RLY n) := by
  refine cutScope_free ?_
  simp only [cutReg, Reg.FCO_STATUS_0, Reg.MIR_RLY, Bool.or_eq_false_iff, Bool.and_eq_false_iff, beq_eq_false_iff_ne]
  omega

theorem cutReg_cfg {w : Nat} (hw : w < 12) : cutReg (Reg.WHL_CFG w) = true := by
  simp only [cutReg, Reg.FCO_STATUS_0, Reg.WHL_CFG, Bool.or_eq_true, Bool.and_eq_true, beq_iff_eq]
  omega

/-! ### A wheel's trace and counters (R180 to R183) -/

theorem Spares.wheelTrace {w0 w1 w2 w3 : Nat} (h : Spares (cutScope W) s t) :
    Spares (cutScope W) s (wheelTrace w0 w1 w2 w3 t) := by
  unfold Machine.wheelTrace
  split
  · exact (h.fset (cutScope_free rfl)).fset (cutScope_free rfl)
  · extract_lets p a t1 t2 t3 _ t4
    have ht1 : Spares (cutScope W) s t1 := .ite (h.fset (cutScope_free rfl)) h
    have ht2 : Spares (cutScope W) s t2 := ht1.putBytes (cutScope_free rfl) fun _ => False.elim
    have ht3 : Spares (cutScope W) s t3 := ht2.fset (cutScope_free rfl)
    have ht4 : Spares (cutScope W) s t4 := ht3.update
    exact .ite (.ite (ht4.fset (cutScope_free rfl)) ht4) ht3

theorem Spares.planTrace {w tag cause failed : Nat} {q : Plan} {moves time : Nat} (h : Spares (cutScope W) s t) :
    Spares (cutScope W) s (planTrace w tag cause failed q moves time t) := h.wheelTrace

theorem Spares.traceWheel {w tag cause : Nat} {q : Plan} {time : Nat} (h : Spares (cutScope W) s t) :
    Spares (cutScope W) s (traceWheel w tag cause q time t) := by
  unfold Machine.traceWheel
  extract_lets x t1
  have ht1 : Spares (cutScope W) s t1 := by
    unfold t1
    split
    · exact .ite h h.planTrace
    · exact h
  exact .ite h ht1.planTrace

theorem Spares.bumpHalf {f : Field} {b : Bool} (h : Spares (cutScope W) s t) (hf : ¬(cutScope W).reg f.reg) :
    Spares (cutScope W) s (bumpHalf f b t) := .ite (h.fset hf) h

/-! ### A wheel's plan is committed (R174, R175) -/

theorem Spares.countThresholds {w n : Nat} (h : Spares (cutScope W) s t) (hW : ¬W w) :
    Spares (cutScope W) s (countThresholds w n t) := .ite (h.setWheel hW id) h

section
variable {w : Nat} (hw : w < 12) (hW : ¬W w)
include hw

theorem Spares.commitCell {q : Plan} {slot : Nat} (h : Spares (cutScope W) s t) (hslot : slot < 4096) :
    Spares (cutScope W) s (commitCell w q slot t) :=
  .regSet (.setCell (.ite (h.bump (wheelReg_free hw)) h) id) (cellReg_free hslot)

theorem Spares.wheelFlags {q : Plan} {block : Bool} (h : Spares (cutScope W) s t) :
    Spares (cutScope W) s (wheelFlags w q block t) := by
  have hstatus : ¬(cutScope W).reg (Reg.WHL_STATUS w) := wheelReg_free hw
  unfold Machine.wheelFlags
  extract_lets x deb t1 t2 t3 t4 t5
  have ht4 : Spares (cutScope W) s t4 :=
    ((((((h.fset hstatus).fset hstatus).fset hstatus).fset hstatus).fset hstatus).fset hstatus).fset hstatus
  exact (ht4.regSet (wheelReg_free hw)).regSet (wheelReg_free hw)

include hW

theorem Spares.wheelOutput {n : Nat} (h : Spares (cutScope W) s t) : Spares (cutScope W) s (wheelOutput w n t) := by
  have hregs {e sp v p : Word} : Spares (cutScope W) s
      (Machine.regSet (Reg.WHL_ENERGY w) e (Machine.regSet (Reg.WHL_SPREAD w) sp (Machine.regSet (Reg.WHL_VSUM w) v
        (Machine.regSet (Reg.WHL_POOL w) p t)))) :=
    (((h.regSet (wheelReg_free hw)).regSet (wheelReg_free hw)).regSet (wheelReg_free hw)).regSet (wheelReg_free hw)
  exact (hregs.countThresholds hW).update

theorem Spares.countOutcome {tag cause : Nat} (h : Spares (cutScope W) s t) :
    Spares (cutScope W) s (countOutcome w tag cause t) := by
  unfold Machine.countOutcome
  extract_lets x failed t1 t2 t3 fb t4 t5
  have ht1 : Spares (cutScope W) s t1 := .ite (h.bump (wheelReg_free hw)) h
  have ht2 : Spares (cutScope W) s t2 :=
    .ite ht1 (.ite (ht1.bump (wheelReg_free hw)) (.ite (ht1.bump (wheelReg_free hw)) (ht1.bump (wheelReg_free hw))))
  have ht3 : Spares (cutScope W) s t3 :=
    .bumpHalf (.bumpHalf (.bumpHalf (.bumpHalf ht2 (wheelReg_free hw)) (wheelReg_free hw)) (wheelReg_free hw))
      (wheelReg_free hw)
  have ht4 : Spares (cutScope W) s t4 := ht3.setWheel hW id
  have ht5 : Spares (cutScope W) s t5 := .ite ht4 ht4.clearCond
  exact ht5.regSet (wheelReg_free hw)

theorem Spares.latchWheel {cut : Bool} (h : Spares (cutScope W) s t) : Spares (cutScope W) s (latchWheel w cut t) := by
  unfold Machine.latchWheel
  split
  extract_lets q _ t1 x t0 t2 stale t3 t4 t5 t6 t7 t8 t9 t10 x2
  have ht1 : Spares (cutScope W) s t1 := h.setWheel hW id
  have ht2 : Spares (cutScope W) s t2 := ht1.traceWheel
  have ht3 : Spares (cutScope W) s t3 := .ite (ht2.bumpBy (wheelReg_free hw)) ht2
  have ht4 : Spares (cutScope W) s t4 := .foldl ht3 fun _ i hi h1 =>
    h1.commitCell hw (by simpa using (List.mem_filter.mp hi).2)
  have ht5 : Spares (cutScope W) s t5 := ht4.setWheel hW id
  have ht6 : Spares (cutScope W) s t6 := ht5.bumpBy (wheelReg_free hw)
  have ht7 : Spares (cutScope W) s t7 := .ite (ht6.bump (wheelReg_free hw)) ht6
  have ht8 : Spares (cutScope W) s t8 := .ite (ht7.bump (wheelReg_free hw)) ht7
  have ht9 : Spares (cutScope W) s t9 := (ht8.wheelFlags hw).countOutcome hw hW
  have ht10 : Spares (cutScope W) s t10 := ht9.wheelOutput hw hW
  exact ht10.setWheel hW id

end

/-- A latched wheel starts its next planning empty. -/
theorem unplanned_latchWheel (w : Nat) (cut : Bool) (s : State) : unplanned w (latchWheel w cut s) := by
  unfold latchWheel
  split
  extract_lets q _ t1 x t0 t2 stale t3 t4 t5 t6 t7 t8 t9 t10 x2
  exact unplanned_setWheel.mpr (wheel t10 w).unplanned_clear

/-! ### Output entries, relay grants, records and the comparison (R161, R208, R370, R372, R378) -/

theorem Spares.takeEvidence {k : Scope} (h : Spares k s t) : Spares k s (takeEvidence t) := .ite h h.update

theorem Spares.loopOutput {k : Scope} {cut : Bool} {e : Nat} (h : Spares k s t) : Spares k s (loopOutput cut e t) :=
  h.update

theorem Spares.cellTableEntry {k : Scope} {slot : Nat} (h : Spares k s t) : Spares k s (cellTableEntry slot t) :=
  .ite h.update h.drawFree.drawFree.drawFree.update

theorem Spares.grantChain {num : Nat} {r : Nat × State} (h : Spares (cutScope W) s r.2) :
    Spares (cutScope W) s (grantChain num r).2 := by
  have hrelay := relayReg_free (W := W) num
  unfold Machine.grantChain
  split
  · exact h
  · extract_lets n reach left g state cause t1 t2
    have ht1 : Spares (cutScope W) s t1 := (((h.fset hrelay).fset hrelay).fset hrelay).fset hrelay
    have ht2 : Spares (cutScope W) s t2 :=
      ((ht1.bumpBy (cutScope_free rfl)).fset (cutScope_free rfl)).fset (cutScope_free rfl)
    exact ht2.update

theorem Spares.relayGrants (h : Spares (cutScope W) s t) : Spares (cutScope W) s (relayGrants t) := by
  unfold Machine.relayGrants
  extract_lets _ t1 t2 t3
  have ht2 : Spares (cutScope W) s t2 := by
    refine .foldl h.update fun u c _ h1 => ?_
    have hrelay := relayReg_free (W := W) c.num
    exact (((h1.fset hrelay).fset hrelay).fset hrelay).fset hrelay
  have ht3 : Spares (cutScope W) s t3 := (ht2.fset (cutScope_free rfl)).fset (cutScope_free rfl)
  have hstranded : Spares (cutScope W) s (updateStranded t3) := ht3.update
  exact .ite (.foldl_snd hstranded fun _ _ _ h1 => h1.grantChain) ht3

theorem Spares.noteRecordSize {k : Scope} {n : Nat} (h : Spares k s t) (hk : ¬k.reg Reg.MIR_BUDGET) :
    Spares k s (noteRecordSize n t) := (h.fset hk).fset hk

theorem Spares.wheelRecs {blocked : List Nat} (h : Spares (cutScope W) s t) (hW : ∀ w, ¬W w) :
    Spares (cutScope W) s (wheelRecs blocked t).2 :=
  .foldl_snd h fun _ w _ h1 => (h1.setWheel (hW w) id).bumpBy (cutScope_free rfl)

theorem Spares.sendRecords {cut : Bool} {blocked : List Nat} (h : Spares (cutScope W) s t) (hW : ∀ w, ¬W w) :
    Spares (cutScope W) s (sendRecords cut blocked t) := by
  unfold Machine.sendRecords
  split
  · exact h
  · split
    · exact ((h.wheelRecs hW).noteRecordSize (cutScope_free rfl)).update
    · exact .noteRecordSize h.update (cutScope_free rfl)
    · exact h

theorem Spares.compareCycle {outDiff skip : Bool} (h : Spares (cutScope W) s t) :
    Spares (cutScope W) s (compareCycle outDiff skip t) :=
  .ite h (.ite (.bump h.update (cutScope_free rfl)) (.ite (.bump h.update (cutScope_free rfl))
    (.update (.ite (h.bump (cutScope_free rfl)) h))))

theorem Spares.compareShadow (h : Spares (cutScope W) s t) : Spares (cutScope W) s (compareShadow t) := h.compareCycle

theorem Spares.keepShadow {k : Scope} {cut : Bool} {blocked : List Nat} (h : Spares k s t) :
    Spares k s (keepShadow cut blocked t) := h.update

theorem Spares.keepOutputs {k : Scope} (h : Spares k s t) : Spares k s (keepOutputs t) := h.update

/-- A record takes from a wheel what it sends of it, and none of its planning. -/
theorem unplanned_wheelRecs {w : Nat} {blocked : List Nat} (h : unplanned w s) :
    unplanned w (wheelRecs blocked s).2 := by
  unfold wheelRecs
  refine List.foldlRecOn _ _ (motive := fun r : List WheelRec × State => unplanned w r.2) h fun r hr x _ => ?_
  by_cases hx : x = w
  · subst hx
    exact unplanned_setWheel.mpr hr
  · have hother : Spares (planScope w) r.2 (setWheel x (wheelRec x (blocked.contains x) r.2).2 r.2) :=
      (Spares.refl _ _).setWheel hx id
    exact hr.before (hother.bumpBy id)

theorem unplanned_sendRecords {w : Nat} {cut : Bool} {blocked : List Nat} (h : unplanned w s) :
    unplanned w (sendRecords cut blocked s) := by
  unfold sendRecords
  split
  · exact h
  · split
    · exact (unplanned_wheelRecs h).before (.update ((Spares.refl ..).noteRecordSize id))
    · exact h.before (.noteRecordSize (Spares.refl ..).update id)
    · exact h

/-! ## The cores and the run of cut cycles (R55, R56, R58) -/

/-- A core at the cutoff: it has ended its cycle, or it stops. -/
def Core.atCutoff (x : Core) : Core := if x.run = .ended then x else { x with run := .stopped }

theorem Core.atCutoff_atCutoff (x : Core) : x.atCutoff.atCutoff = x.atCutoff := by
  unfold Core.atCutoff
  split <;> simp [*]

theorem core_stopOne (c x : Nat) (s : State) :
    core (if (core s c).run = .ended then s else setCore c { core s c with run := .stopped } s) x =
      if x = c then (core s x).atCutoff else core s x := by
  unfold Core.atCutoff
  by_cases hx : x = c
  · subst hx
    rw [if_pos rfl, apply_ite (core · x), core_setCore_self]
  · rw [if_neg hx, apply_ite (core · x), core_setCore_other _ _ hx, ite_self]

theorem core_stopAll (l : List Nat) (x : Nat) (s : State) :
    core (l.foldl (fun s c => if (core s c).run = .ended then s else setCore c { core s c with run := .stopped } s) s) x =
      if x ∈ l then (core s x).atCutoff else core s x := by
  induction l generalizing s with
  | nil => rfl
  | cons c l ih =>
    rw [List.foldl_cons, ih, core_stopOne]
    by_cases hx : x = c <;> by_cases hl : x ∈ l <;> simp [hx, hl, Core.atCutoff_atCutoff]

theorem core_stopCores (c : Nat) (s : State) :
    core (stopCores s) c = if c < 4 then (core s c).atCutoff else core s c := by
  simp only [stopCores, core_stopAll, List.mem_range]

theorem Spares.stopCores {k : Scope} (h : Spares k s t) (hcore : ∀ c, ¬k.core c) (hk : ¬k.stores) :
    Spares k s (stopCores t) := .foldl h fun _ c _ h1 => .ite h1 (h1.setCore (hcore c) hk)

/-- What the count of a cut cycle leaves alone of what the planes need: the wheels, their registers and the cycle's
number. -/
def countScope : Scope where
  reg a := a = Reg.ESC_CYCLE ∨ a / 0x10000 = 0x4004
  wheel _ := True

theorem countScope_outsideFaults : countScope.OutsideFaults where
  regs a ha := by
    rcases ha with rfl | ha
    · decide
    · rw [ha]
      decide
  bytes _ ha := ha.elim

theorem Spares.countCut {k : Scope} {cut : Bool} (h : Spares k s t) (hk : k.OutsideFaults)
    (hstatus : ¬k.reg Reg.ESC_STATUS) (hcnt : ¬k.reg Reg.ESC_CUT_CNT) : Spares k s (countCut cut t) := by
  have hcut : Spares k s (Machine.fset Fld.ESC_STATUS_CUT (boolNat cut) t) := h.fset hstatus
  exact .ite (((hcut.setChr.fset hstatus).bump hcnt).occur hk (show 12 < 64 by decide)) (hcut.fset hstatus).clearCond

/-- A cut cycle is marked and counted, and CUT has not occurred yet (R58). -/
def cutCounted (s : State) : State :=
  bump Reg.ESC_CUT_CNT (fset Fld.ESC_STATUS_CUT_RUN (min 255 (fget s Fld.ESC_STATUS_CUT_RUN + 1))
    (chrCut (fset Fld.ESC_STATUS_CUT 1 s)))

theorem cutRun_fset_cut (v : Nat) (s : State) :
    fget (fset Fld.ESC_STATUS_CUT v s) Fld.ESC_STATUS_CUT_RUN = fget s Fld.ESC_STATUS_CUT_RUN :=
  fget_fset_other Fld.ESC_STATUS_CUT Fld.ESC_STATUS_CUT_RUN v s (by decide) (by decide) rfl

theorem cut_fset_cutRun (v : Nat) (s : State) :
    fget (fset Fld.ESC_STATUS_CUT_RUN v s) Fld.ESC_STATUS_CUT = fget s Fld.ESC_STATUS_CUT :=
  fget_fset_other Fld.ESC_STATUS_CUT_RUN Fld.ESC_STATUS_CUT v s (by decide) (by decide) rfl

theorem countCut_true_eq (s : State) : countCut true s = occur (detect 12 0 0x3F 0) (cutCounted s) := by
  unfold countCut cutCounted
  rw [← cutRun_fset_cut 1 s]
  exact if_pos rfl

/-- A cycle was cut: the run of cut cycles is one longer, and CUT has occurred (R58). -/
theorem countCut_true (s : State) :
    let t := countCut true s
    fbit t Fld.ESC_STATUS_CUT = true ∧ fget t Fld.ESC_STATUS_CUT_RUN = min 255 (fget s Fld.ESC_STATUS_CUT_RUN + 1) ∧
      (regGet t Reg.FCO_STATUS_0).getLsbD 12 = true ∧ countedUp Reg.ESC_CUT_CNT s t := by
  have hstep : FaultStep (cutCounted s) (occur (detect 12 0 0x3F 0) (cutCounted s)) := .occur (.refl _) (by decide)
  have hstatus := hstep.otherBlocks (a := Reg.ESC_STATUS) (by decide)
  have hcnt := hstep.otherBlocks (a := Reg.ESC_CUT_CNT) (by decide)
  rw [countCut_true_eq]
  refine ⟨?_, ?_, (occur_occurred (detect 12 0 0x3F 0) (cutCounted s) (by decide)).1, ?_⟩
  · rw [fbit_of_regGet_eq hstatus]
    unfold fbit cutCounted
    rw [bump, bumpBy, fget_regSet_other _ _ (by decide), cut_fset_cutRun]
    exact congrArg (· == 1) (fget_fset_self Fld.ESC_STATUS_CUT 1 s (by decide) (by decide))
  · rw [fget_of_regGet_eq hstatus]
    unfold cutCounted
    rw [bump, bumpBy, fget_regSet_other _ _ (by decide), fget_fset_self _ _ _ (by decide) (by decide)]
    exact Nat.mod_eq_of_lt (by simp [Fld.ESC_STATUS_CUT_RUN])
  · have hbump := countedUp_bump Reg.ESC_CUT_CNT
      (fset Fld.ESC_STATUS_CUT_RUN (min 255 (fget s Fld.ESC_STATUS_CUT_RUN + 1)) (chrCut (fset Fld.ESC_STATUS_CUT 1 s)))
    have hbefore (v : Nat) :
        regGet (fset Fld.ESC_STATUS_CUT_RUN v (chrCut (fset Fld.ESC_STATUS_CUT 1 s))) Reg.ESC_CUT_CNT =
        regGet s Reg.ESC_CUT_CNT := (regGet_fset_other _ _ (by decide)).trans (regGet_fset_other _ s (by decide))
    unfold countedUp at hbump ⊢
    rw [hbefore] at hbump
    rw [hcnt]
    exact hbump

theorem countCut_false_eq (s : State) :
    countCut false s = clearCond 13 0 (fset Fld.ESC_STATUS_CUT_RUN 0 (fset Fld.ESC_STATUS_CUT 0 s)) := by
  unfold countCut
  exact if_neg Bool.false_ne_true

theorem countCut_false (s : State) :
    let t := countCut false s
    fbit t Fld.ESC_STATUS_CUT = false ∧ fget t Fld.ESC_STATUS_CUT_RUN = 0 ∧
      regGet t Reg.ESC_CUT_CNT = regGet s Reg.ESC_CUT_CNT := by
  have hregs (u : State) (f : Field) : fget (clearCond 13 0 u) f = fget u f := rfl
  rw [countCut_false_eq]
  refine ⟨?_, ?_, ?_⟩
  · rw [fbit, hregs, cut_fset_cutRun, fget_fset_self Fld.ESC_STATUS_CUT 0 s (by decide) (by decide)]
    rfl
  · rw [hregs]
    exact fget_fset_self Fld.ESC_STATUS_CUT_RUN 0 _ (by decide) (by decide)
  · exact (regGet_fset_other 0 (fset Fld.ESC_STATUS_CUT 0 s) (by decide)).trans (regGet_fset_other 0 s (by decide))

/-! ## The whole cutoff -/

theorem unplanned_latchWheels {v : Nat} {cut : Bool} {l : List Nat} (hl : ∀ w ∈ l, w < 12)
    (h : unplanned v s ∨ v ∈ l) : unplanned v (l.foldl (fun u w => latchWheel w cut u) s) := by
  induction l generalizing s with
  | nil => exact h.resolve_right List.not_mem_nil
  | cons w l ih =>
    refine ih (fun x hx => hl x (List.mem_cons_of_mem _ hx)) ?_
    by_cases hw : v = w
    · exact .inl (hw ▸ unplanned_latchWheel w cut s)
    · have hother : Spares (cutScope (· = v)) s (latchWheel w cut s) :=
        (Spares.refl _ s).latchWheel (hl w (List.mem_cons_self ..)) fun he => hw he.symm
      refine h.imp (fun hs => ?_) fun hin => (List.mem_cons.mp hin).resolve_left hw
      unfold unplanned
      rwa [hother.wheels v rfl]

/-- What follows at the cutoff of a cycle that was cut, or was not, once its cores have stopped and it is counted. -/
def cutPlanes (cut : Bool) (s : State) : State :=
  let blocked := (wheelsOn s).filter (fun w => (wheel s w).block)
  let s := takeEvidence s
  let s := (wheelsOn s).foldl (fun s w => latchWheel w cut s) s
  let s := (List.range 8).foldl (fun s e => loopOutput cut e s) s
  let s := s.sys.comm.cells.foldl (fun s m => cellTableEntry m.slot s) s
  let s := sendRecords cut blocked (relayGrants s)
  keepOutputs (keepShadow cut blocked (compareShadow s))

theorem cutPlanes_spares (cut : Bool) (s : State) : Spares (cutScope fun _ => False) s (cutPlanes cut s) := by
  unfold cutPlanes
  extract_lets blocked t1 t2 t3 t4 t5
  have ht1 : Spares (cutScope fun _ => False) s t1 := (Spares.refl _ s).takeEvidence
  have ht2 : Spares (cutScope fun _ => False) s t2 := .foldl ht1 fun _ w hw h =>
    h.latchWheel (List.mem_range.mp (List.mem_filter.mp hw).1) id
  have ht3 : Spares (cutScope fun _ => False) s t3 := .foldl ht2 fun _ _ _ h => h.loopOutput
  have ht4 : Spares (cutScope fun _ => False) s t4 := .foldl ht3 fun _ _ _ h => h.cellTableEntry
  have ht5 : Spares (cutScope fun _ => False) s t5 := ht4.relayGrants.sendRecords fun _ => id
  exact ht5.compareShadow.keepShadow.keepOutputs

theorem unplanned_cutPlanes {w : Nat} (hw : w < 12) (cut : Bool) (hon : wheelOn s w = true) :
    unplanned w (cutPlanes cut s) := by
  unfold cutPlanes
  extract_lets blocked t1 t2 t3 t4 t5
  have ht1 : Spares (cutScope fun _ => False) s t1 := (Spares.refl _ s).takeEvidence
  have hin : w ∈ wheelsOn t1 :=
    List.mem_filter.mpr ⟨List.mem_range.mpr hw, (wheelOn_of_cfg_eq (ht1.regs _ (cutReg_cfg hw))).trans hon⟩
  have ht2 : unplanned w t2 :=
    unplanned_latchWheels (fun x hx => List.mem_range.mp (List.mem_filter.mp hx).1) (.inr hin)
  have ht4 : Spares (cutScope (· = w)) t2 (relayGrants t4) :=
    .relayGrants (.foldl (.foldl (.refl ..) fun _ _ _ h => h.loopOutput) fun _ _ _ h => h.cellTableEntry)
  have ht5 : unplanned w t5 := unplanned_sendRecords (ht2.before (ht4.plan rfl))
  have hkept : Spares (cutScope (· = w)) t5 (keepOutputs (keepShadow cut blocked (compareShadow t5))) :=
    (Spares.refl _ t5).compareShadow.keepShadow.keepOutputs
  exact ht5.before (hkept.plan rfl)

/-- At instant `n` the cores have stopped and the cycle is counted. -/
def cutStopped (n : Nat) (s : State) : State := countCut (coreUnended s) (stopCores (reach n s))

theorem cutStopped_spares (n : Nat) (s : State) : Spares countScope (reach n s) (cutStopped n s) :=
  ((Spares.refl _ _).stopCores (fun _ => id) id).countCut countScope_outsideFaults (by unfold countScope; decide)
    (by unfold countScope; decide)

theorem cutStopped_esc (n : Nat) (s : State) : (cutStopped n s).esc = s.esc := (cutStopped_spares n s).esc

theorem cutStopped_cnt (n : Nat) (s : State) : (cutStopped n s).time.cnt = max s.time.cnt n :=
  congrArg TimeBase.cnt (cutStopped_spares n s).time

theorem regGet_cutStopped {a : Nat} (ha : countScope.reg a) (n : Nat) (s : State) :
    regGet (cutStopped n s) a = regGet s a := (cutStopped_spares n s).regs a ha

theorem core_cutStopped (n c : Nat) (s : State) :
    core (cutStopped n s) c = if c < 4 then (core s c).atCutoff else core s c := by
  have hcount : Spares { core := fun _ => True } (stopCores (reach n s)) (cutStopped n s) :=
    (Spares.refl _ _).countCut ⟨fun _ => False.elim, fun _ => False.elim⟩ id id
  rw [hcount.cores c trivial]
  exact core_stopCores c _

theorem cutoff_eq (hrun : escRunning s = true) (hcut : s.esc.cutDone = false) :
    cutoff s =
      let t := cutPlanes (coreUnended s) (cutStopped (s.esc.tk + s.esc.wlen - Config.cutTicks) s)
      setEsc { t.esc with cutDone := true, pubDue := some (cycleNo t) } t := by
  unfold cutoff
  rw [if_neg (by simp [hrun, hcut])]
  rfl

theorem cutoff_does (hrun : escRunning s = true) (hcut : s.esc.cutDone = false) :
    ∃ n, n = s.esc.tk + s.esc.wlen - Config.cutTicks ∧ (cutoff s).time.cnt = max s.time.cnt n ∧
      (cutoff s).esc = { s.esc with cutDone := true, pubDue := some (cycleNo s) } ∧
      (∀ c, core (cutoff s) c = if c < 4 then (core s c).atCutoff else core s c) ∧
      (∀ a, cutReg a = true → regGet (cutoff s) a = regGet (cutStopped n s) a) ∧
      ∀ w, w < 12 → wheelOn s w = true → unplanned w (cutoff s) := by
  rw [cutoff_eq hrun hcut]
  generalize s.esc.tk + s.esc.wlen - Config.cutTicks = n
  have hplanes := cutPlanes_spares (coreUnended s) (cutStopped n s)
  have hunplanned {w : Nat} (hw : w < 12) (hon : wheelOn s w = true) :
      unplanned w (cutPlanes (coreUnended s) (cutStopped n s)) := by
    have hcfg : countScope.reg (Reg.WHL_CFG w) := .inr (ownReg_block hw (.inr rfl))
    exact unplanned_cutPlanes hw _ ((wheelOn_of_cfg_eq (regGet_cutStopped hcfg n s)).trans hon)
  generalize cutPlanes (coreUnended s) (cutStopped n s) = t at hplanes hunplanned
  have hcycle : cycleNo t = cycleNo s := (hplanes.regs Reg.ESC_CYCLE rfl).trans (regGet_cutStopped (.inl rfl) n s)
  refine ⟨n, rfl, (congrArg TimeBase.cnt hplanes.time).trans (cutStopped_cnt n s), ?_, fun c => ?_, hplanes.regs,
    fun w hw hon => hunplanned hw hon⟩
  · simp only [hcycle, hplanes.esc.trans (cutStopped_esc n s), setEsc]
  · exact (hplanes.cores c trivial).trans (core_cutStopped n c s)

end Sys2Proof.Machine
end

section
namespace Sys2Proof.Machine

/-! # The publications (R17, R41, R161, R208, R247, R447) -/

variable {k : Scope} {s t u : State}

/-- What a publication leaves alone once it has written its tables: memory below DRAM, the cores, the cells and the
wheels. -/
def published : Scope where
  byte := (· < Config.dramBase)
  stores := True

theorem published_outsideFaults : published.OutsideFaults := ⟨fun _ => False.elim, fun _ => id⟩

/-! ## Words of memory -/

theorem Memory.read_writeList_at (m : Memory) (a j : Nat) (bs : List Byte) :
    Memory.read (Memory.writeList m a bs) (a + j) = bs[j]?.getD (Memory.read m (a + j)) := by
  rw [Memory.read_writeList]
  by_cases hj : j < bs.length
  · rw [dif_pos (by omega)]
    simp [hj]
  · rw [dif_neg (by omega)]
    simp [hj]

theorem getElem?_wordsBytes (ws : List Word) (i : Nat) {j : Nat} (hj : j < 4) :
    (wordsBytes ws)[4 * i + j]? = ws[i]?.bind (fun w => (wordBytes w)[j]?) := by
  induction ws generalizing i with
  | nil => simp [wordsBytes]
  | cons w ws ih =>
    rw [wordsBytes, List.flatMap_cons]
    cases i with
    | zero =>
      rw [List.getElem?_append_left (by rw [wordBytes_length]; omega)]
      simp
    | succ i =>
      rw [List.getElem?_append_right (by rw [wordBytes_length]; omega), wordBytes_length,
        show 4 * (i + 1) + j - 4 = 4 * i + j by omega]
      exact ih i

/-- A word of memory is the word whose bytes stand there. -/
theorem memReadWord_of_bytes {a : Nat} {w : Word} (h : ∀ j, j < 4 → some (memRead s (a + j)) = (wordBytes w)[j]?) :
    memReadWord s a = w := by
  have hbytes : wordBytes (memReadWord s a) = wordBytes w := by
    unfold memReadWord
    rw [wordBytes_append]
    refine List.ext_getElem? fun j => ?_
    match j with
    | 0 => exact h 0 (by decide)
    | 1 => exact h 1 (by decide)
    | 2 => exact h 2 (by decide)
    | 3 => exact h 3 (by decide)
    | j + 4 => rfl
  refine BitVec.eq_of_toNat_eq ?_
  rw [← bytesNat_wordBytes, ← bytesNat_wordBytes w, hbytes]

theorem memReadWord_putBytes {a x i : Nat} {ws : List Word} {w : Word} (hx : x = a + 4 * i) (h : ws[i]? = some w)
    (s : State) : memReadWord (putBytes a (wordsBytes ws) s) x = w := by
  subst hx
  refine memReadWord_of_bytes fun j hj => ?_
  have hread : memRead (putBytes a (wordsBytes ws) s) (a + 4 * i + j) = 
      (wordBytes w)[j]?.getD (Memory.read s.mem (a + (4 * i + j))) := by
    rw [putBytes_frame, Nat.add_assoc]
    refine (Memory.read_writeList_at s.mem a (4 * i + j) (wordsBytes ws)).trans ?_
    rw [getElem?_wordsBytes ws i hj, h]
    rfl
  rw [hread]
  have hlen : j < (wordBytes w).length := hj
  simp [hlen]

theorem Spares.memReadWord_eq {a : Nat} (h : Spares k s t) (ha : ∀ j, j < 4 → k.byte (a + j)) :
    memReadWord t a = memReadWord s a := by
  have h0 := h.bytes a (ha 0 (by decide))
  have h1 := h.bytes _ (ha 1 (by decide))
  have h2 := h.bytes _ (ha 2 (by decide))
  have h3 := h.bytes _ (ha 3 (by decide))
  unfold memReadWord
  rw [h0, h1, h2, h3]

/-! ## The chronograph evaluates the outputs (R313 to R317) -/

theorem Spares.setSplitRegs {a : Nat} {v : Split} (h : Spares published s t) :
    Spares published s (setSplitRegs a v t) := ((h.regSet id).regSet id).regSet id

theorem Spares.setSeq {n : Option Nat} (h : Spares published s t) : Spares published s (setSeq n t) := h.setChr.fset id

theorem Spares.falseStart {sp : Split} (h : Spares published s t) : Spares published s (falseStart sp t) :=
  h.setChr.bump id

theorem Spares.takeTrigger {code : Nat} {sp : Split} (h : Spares published s t) :
    Spares published s (takeTrigger code sp t) := by
  unfold Machine.takeTrigger
  extract_lets c out
  split
  · exact h
  · exact (h.setChr.fset id).setSplitRegs

theorem Spares.trigger {code : Nat} {sp : Split} (h : Spares published s t) :
    Spares published s (trigger code sp t).2 := by
  unfold Machine.trigger
  extract_lets c
  split
  · exact h.takeTrigger
  · exact .ite_snd (.ite_snd h.setChr.setSplitRegs h.setChr) h.falseStart
  · exact h.setChr.falseStart
  · exact h.falseStart
  · exact h

theorem Spares.recognised {code : Nat} {sp : Split} (h : Spares published s t) :
    Spares published s (recognised code sp t) :=
  .ite_snd h (.ite_snd (.ite_snd h.trigger h) (.ite_snd (.ite_snd h.setSeq.trigger h) (.ite_snd h.setSeq h)))

theorem Spares.maskStop {m : Nat} {sp : Split} (h : Spares published s t) : Spares published s (maskStop m sp t) := by
  unfold Machine.maskStop
  split
  · exact h.takeTrigger.setChr
  · exact h.setChr
  · exact h.fset id
  · exact h.fset id
  · exact h

theorem Spares.filtMasks {n j : Nat} {o : GridOut} (h : Spares published s t) :
    Spares published s (filtMasks n j o t) :=
  .foldl h fun _ _ _ h1 => .ite (.ite h1.maskStop h1.recognised) h1

theorem Spares.evalUnit {n i : Nat} {o : GridOut} (h : Spares published s t) :
    Spares published s (evalUnit n o t i) := by
  unfold Machine.evalUnit
  split
  · exact h
  · extract_lets x dx waiting put _ t1
    have ht1 : Spares published s t1 := h.setChr
    split
    exact .ite ht1.setChr (.ite ht1.setChr.recognised ht1)

theorem Spares.testOutput {n : Nat} {e : GridOut × Nat} (h : Spares published s t) :
    Spares published s (testOutput n t e) := .ite h (.filtMasks (.foldl h fun _ _ _ h1 => h1.evalUnit))

theorem Spares.chrOutputs (h : Spares published s t) : Spares published s (chrOutputs t) :=
  .foldl h fun _ _ _ h1 => .foldl h1.update fun _ _ _ h2 => h2.testOutput

/-! ## The measurement table publication -/

/-- What the tables before the field image leave alone: the registers that the image shows, the cores, the cells and the
wheels. -/
def imageScope : Scope where
  reg a := a = Reg.ESC_CYCLE ∨ a = Reg.FIO_DI ∨ a = Reg.FIO_DI_VALID
  stores := True

theorem Spares.tableBytes {a : Nat} {bs : List Byte} (h : Spares imageScope s t) :
    Spares imageScope s (Machine.putBytes a bs t) :=
  h.putBytes (by unfold imageScope; decide) fun _ => False.elim

theorem Spares.measXs {n m : Nat} (h : Spares k s t) : Spares k s (measXs n m t).2 :=
  .foldl_snd h fun _ _ _ h1 => .ite_snd h1 h1.drawFree

theorem Spares.measEntry {n : Nat} (h : Spares imageScope s t) : Spares imageScope s (measEntry n t) := by
  unfold Machine.measEntry
  extract_lets m last sp cyc spacing
  split
  next xs t1 hp =>
    have ht1 : Spares imageScope s t1 := .snd_of_eq hp h.measXs
    exact .tableBytes (.ite ht1 ht1.update)

/-- The tables that are published before the field image. -/
def publishOthers (s : State) : State := publishGoose (publishHka (publishMeasurement s))

theorem Spares.publishOthers (h : Spares imageScope s t) : Spares imageScope s (publishOthers t) := by
  have hmeas : Spares imageScope s (publishMeasurement t) := .foldl h fun _ _ _ h1 => h1.measEntry
  have hhka : Spares imageScope s (publishHka (publishMeasurement t)) := .foldl hmeas fun _ _ _ h1 => h1.tableBytes
  exact .foldl hhka.tableBytes fun _ _ _ h1 => h1.tableBytes

/-- The words that the publication of the measurement table shows in the field image, by their offsets in shared
control memory. -/
def imageWords (s : State) : List (Nat × Word) :=
  [(0x20E00, cycleNo s), (0x20E04, regGet s Reg.FIO_DI), (0x20E08, regGet s Reg.FIO_DI_VALID), (0x20E20, cycleNo s)]

theorem forall_mem_imageWords {p : Nat × Word → Prop} :
    (∀ x ∈ imageWords s, p x) ↔
      p (0x20E00, cycleNo s) ∧ p (0x20E04, regGet s Reg.FIO_DI) ∧ p (0x20E08, regGet s Reg.FIO_DI_VALID) ∧
        p (0x20E20, cycleNo s) := by
  simp only [imageWords, List.forall_mem_cons, List.not_mem_nil, false_imp_iff, implies_true, and_true]

theorem publishField_words (s : State) :
    ∀ x ∈ imageWords s, memReadWord (publishField s) (Config.scmBase + x.1) = x.2 := by
  unfold publishField
  rw [forall_mem_imageWords]
  exact ⟨memReadWord_putBytes (i := 0) (by omega) rfl s, memReadWord_putBytes (i := 1) (by omega) rfl s,
    memReadWord_putBytes (i := 2) (by omega) rfl s, memReadWord_putBytes (i := 8) (by omega) rfl s⟩

theorem imageWords_le : ∀ x ∈ imageWords s, x.1 ≤ 0x20E20 := by
  simp [imageWords]

theorem publishField_spares (s : State) : Spares { stores := True } s (publishField s) :=
  (Spares.refl _ s).putBytes id fun _ => False.elim

theorem measurementPublication_eq (hrun : escRunning s = true) :
    measurementPublication s = chrOutputs (publishField (publishOthers (reach (s.esc.tk + 125) s))) := by
  unfold measurementPublication
  rw [if_neg (by simp [hrun])]
  rfl

theorem measurementPublication_does (hrun : escRunning s = true) :
    (measurementPublication s).time.cnt = max s.time.cnt (s.esc.tk + 125) ∧
      (measurementPublication s).sys = s.sys ∧
      ((measurementPublication s).cores = s.cores ∧ (measurementPublication s).cells = s.cells ∧
        (measurementPublication s).wheels = s.wheels) ∧
      ∀ x ∈ imageWords s, memReadWord (measurementPublication s) (Config.scmBase + x.1) = x.2 := by
  rw [measurementPublication_eq hrun]
  generalize s.esc.tk + 125 = n
  have hothers : Spares imageScope (reach n s) (publishOthers (reach n s)) := (Spares.refl ..).publishOthers
  generalize publishOthers (reach n s) = t at hothers
  have hfield := publishField_spares t
  have hout : Spares published (publishField t) (chrOutputs (publishField t)) := (Spares.refl ..).chrOutputs
  obtain ⟨hcores, hcells, hwheels⟩ := hothers.stores trivial
  obtain ⟨hcores', hcells', hwheels'⟩ := hfield.stores trivial
  obtain ⟨hcores'', hcells'', hwheels''⟩ := hout.stores trivial
  have himage : imageWords t = imageWords s := by
    have hcycle : cycleNo t = cycleNo s := hothers.regs _ (.inl rfl)
    have hdi : regGet t Reg.FIO_DI = regGet s Reg.FIO_DI := hothers.regs _ (.inr (.inl rfl))
    have hvalid : regGet t Reg.FIO_DI_VALID = regGet s Reg.FIO_DI_VALID := hothers.regs _ (.inr (.inr rfl))
    rw [imageWords, hcycle, hdi, hvalid, imageWords]
  refine ⟨congrArg TimeBase.cnt (hout.time.trans (hfield.time.trans hothers.time)),
    hout.sys.trans (hfield.sys.trans hothers.sys),
    ⟨hcores''.trans (hcores'.trans hcores), hcells''.trans (hcells'.trans hcells),
      hwheels''.trans (hwheels'.trans hwheels)⟩, fun x hx => ?_⟩
  have hoffset := imageWords_le x hx
  refine (hout.memReadWord_eq fun j hj => ?_).trans (publishField_words t x (himage ▸ hx))
  show Config.scmBase + x.1 + j < Config.dramBase
  unfold Config.scmBase Config.dramBase
  omega

end Sys2Proof.Machine
end

section
namespace Sys2Proof.Machine

/-! # The cell table publication (R17, R161, R208, R247, R348, R362) -/

variable {s t : State}

/-! ## The cycle number in the user output table (R474) -/

/-- The user output table with the cycle number in line `i`. -/
def stampLine (k : Word) (m : Memory) (i : Nat) : Memory :=
  Memory.writeList m (Config.scmBase + 0x24000 + 32 * i) (wordBytes k)

theorem read_stampLines_first {k : Word} {m : Memory} {l : List Nat} {i j : Nat} (hj : j < 4) :
    Memory.read (l.foldl (stampLine k) m) (Config.scmBase + 0x24000 + 32 * i + j) =
      if i ∈ l then (wordBytes k)[j]'hj else Memory.read m (Config.scmBase + 0x24000 + 32 * i + j) := by
  induction l generalizing m with
  | nil => rfl
  | cons x l ih =>
    rw [List.foldl_cons, ih]
    by_cases hl : i ∈ l
    · rw [if_pos hl, if_pos (List.mem_cons_of_mem _ hl)]
    · rw [if_neg hl, stampLine]
      by_cases hx : i = x
      · subst hx
        rw [if_pos (List.mem_cons_self ..), Memory.read_writeList_at, List.getElem?_eq_getElem hj]
        rfl
      · rw [if_neg (by simp [hx, hl]), Memory.read_writeList_other _ _ _ _ (by rw [wordBytes_length]; omega)]

theorem read_stampLines_rest {k : Word} {m : Memory} {l : List Nat} {a : Nat} (ha : Config.scmBase + 0x24000 ≤ a)
    (hrest : 4 ≤ (a - Config.scmBase) % 32) : Memory.read (l.foldl (stampLine k) m) a = Memory.read m a := by
  induction l generalizing m with
  | nil => rfl
  | cons x l ih =>
    rw [List.foldl_cons, ih, stampLine, Memory.read_writeList_other _ _ _ _ (by rw [wordBytes_length]; omega)]

/-! ## The tables -/

@[simp] theorem eccPass_hidden (a n : Nat) (s : State) : (eccPass a n s).hidden = s.hidden := by rw [eccPass_frame]

@[simp] theorem eccPass_userOut (a n : Nat) (s : State) : (eccPass a n s).userOut = s.userOut := by rw [eccPass_frame]

@[simp] theorem eccPass_esc (a n : Nat) (s : State) : (eccPass a n s).esc = s.esc := by rw [eccPass_frame]

/-- The user output table that a publication makes visible, before the cycle number goes into its lines. -/
def userTable (s : State) : Memory := if s.esc.cutDone then s.hidden else s.userOut

theorem publishTables_mem (k : Word) (s : State) :
    (publishTables k s).mem =
      Memory.copyRange (Config.scmBase + 0x24000) 0x4000 (stampUser k (userTable s))
        (Memory.copyRange (Config.scmBase + 0x21200) 0x200 s.hidden
          (Memory.copyRange (Config.scmBase + 0x21000) 0x180 s.hidden
            (Memory.copyRange (Config.scmBase + 0) 0x20000 s.hidden s.mem))) := by
  simp only [publishTables, publishUser, userTable, publish_mem, publish_hidden, publish_userOut, publish_esc,
    eccPass_mem, eccPass_hidden, eccPass_userOut, eccPass_esc]

theorem memRead_publishTables_user (k : Word) (s : State) {a : Nat} (h : Config.scmBase + 0x24000 ≤ a)
    (h' : a < Config.scmBase + 0x28000) :
    memRead (publishTables k s) a = Memory.read ((List.range 512).foldl (stampLine k) (userTable s)) a := by
  show Memory.read (publishTables k s).mem a = _
  rw [publishTables_mem, Memory.read_copyRange, if_pos (by omega)]
  rfl

/-- The tables whose hidden copies become visible: the cell table, the wheel outputs and the engine outputs. -/
def hiddenTable (a : Nat) : Prop :=
  (Config.scmBase ≤ a ∧ a < Config.scmBase + 0x20000) ∨
    (Config.scmBase + 0x21000 ≤ a ∧ a < Config.scmBase + 0x21180) ∨
    (Config.scmBase + 0x21200 ≤ a ∧ a < Config.scmBase + 0x21400)

theorem memRead_publishTables_hidden (k : Word) (s : State) {a : Nat} (h : hiddenTable a) :
    memRead (publishTables k s) a = Memory.read s.hidden a := by
  show Memory.read (publishTables k s).mem a = _
  unfold hiddenTable at h
  rw [publishTables_mem]
  simp only [Memory.read_copyRange]
  rw [if_neg (by omega)]
  split
  · rfl
  · split
    · rfl
    · rw [if_pos (by omega)]

theorem memReadWord_publishTables (k : Word) (s : State) {i : Nat} (hi : i < 512) :
    memReadWord (publishTables k s) (Config.scmBase + 0x24000 + 32 * i) = k := by
  refine memReadWord_of_bytes fun j hj => ?_
  rw [memRead_publishTables_user k s (by omega) (by omega), read_stampLines_first hj,
    if_pos (List.mem_range.mpr hi), List.getElem?_eq_getElem hj]

theorem Spares.publish {k : Scope} {a n : Nat} (h : Spares k s t) (hk : ∀ x, ¬k.byte x) :
    Spares k s (publish a n t) :=
  ⟨h.esc, h.time, h.sys, h.regs, fun x hx => absurd hx (hk x), h.wheels, h.cores, h.queues, h.stores⟩

theorem Spares.publishUser {k : Scope} {w : Word} (h : Spares k s t) (hinj : ¬k.reg Reg.FCO_INJ_STAT)
    (hk : ∀ x, ¬k.byte x) : Spares k s (publishUser w t) := by
  have hpass := h.eccPass hinj (a := Config.scmBase + 0x24000) (n := 0x4000)
  exact ⟨hpass.esc, hpass.time, hpass.sys, hpass.regs, fun x hx => absurd hx (hk x), hpass.wheels, hpass.cores,
    hpass.queues, hpass.stores⟩

theorem publishTables_spares (k : Word) (s : State) : Spares { stores := True } s (publishTables k s) := by
  have hno : ∀ x, ¬Scope.byte { stores := True } x := fun _ => id
  have hpub {a n : Nat} {t : State} (h : Spares { stores := True } s t) :
      Spares { stores := True } s (Machine.publish a n (eccPass a n t)) := (h.eccPass id).publish hno
  exact (hpub (hpub (hpub (.refl ..)))).publishUser id hno

/-! ## What follows the tables -/

theorem Spares.tryClaim (h : Spares published s t) : Spares published s (tryClaim t) :=
  .ite (.ite h.update (h.occur published_outsideFaults (by decide))) h

theorem Spares.renewLease (h : Spares published s t) : Spares published s (renewLease t) := by
  unfold Machine.renewLease
  extract_lets b t1
  have ht1 : Spares published s t1 := .ite h.update h
  exact Spares.tryClaim (.fset ht1.update id)

theorem Spares.setEthPort {n : Nat} {p : EthPort} (h : Spares published s t) :
    Spares published s (setEthPort n p t) := h.update

theorem Spares.ethEmit {n i : Nat} {f : EthOut} (h : Spares published s t) : Spares published s (ethEmit n i f t) :=
  h.setEthPort.bump id

theorem Spares.ethDrain {n : Nat} {fs : List EthOut} (h : Spares published s t) :
    Spares published s (ethDrain n fs t) := by
  induction fs generalizing t with
  | nil => exact h.setEthPort
  | cons f fs ih => exact .ite (ih h.ethEmit) h.setEthPort

theorem Spares.ethSend {n : Nat} {f : EthOut} (h : Spares published s t) : Spares published s (ethSend n f t) :=
  .ite h.ethDrain h

theorem Spares.pairSend {f : EthOut} (h : Spares published s t) : Spares published s (pairSend f t) :=
  .ite h.ethSend.ethSend h.ethSend

theorem Spares.gpubSend {g n : Nat} (h : Spares published s t) : Spares published s (gpubSend g n t) := by
  unfold Machine.gpubSend
  extract_lets x f ps t1 t2 t3
  have ht1 : Spares published s t1 := h.update
  have ht2 : Spares published s t2 := .ite ht1.pairSend ht1
  have ht3 : Spares published s t3 := .ite ht2.ethSend ht2
  exact .ite ht3.ethSend ht3

theorem Spares.goosePublish (h : Spares published s t) : Spares published s (goosePublish t) :=
  .foldl h fun _ _ _ h1 => .ite (.gpubSend (.update ((h1.regSet id).regSet id))) h1

theorem Spares.chrCapture {k : Word} (h : Spares published s t) : Spares published s (chrCapture k t) := by
  unfold Machine.chrCapture
  split
  · exact h.setChr
  · exact h.setChr

theorem noteReadiness_eq (s : State) : noteReadiness s = { s with sys := (noteReadiness s).sys } := by
  unfold noteReadiness
  split <;> rfl

/-- The work that follows the tables of the publication. -/
def afterTables (k : Word) (s : State) : State := chrCapture k (goosePublish (renewLease s))

theorem afterTables_spares (k : Word) (s : State) : Spares published s (afterTables k s) :=
  (Spares.refl _ s).renewLease.goosePublish.chrCapture

theorem lt_dramBase_of_hiddenTable {a : Nat} (h : hiddenTable a) : a < Config.dramBase := by
  unfold hiddenTable Config.scmBase at h
  unfold Config.dramBase
  omega

theorem lt_dramBase_of_userTable {a : Nat} (h : a < Config.scmBase + 0x28000) : a < Config.dramBase := by
  unfold Config.scmBase at h
  unfold Config.dramBase
  omega

/-- What stands after the publication of the tables of cycle `k`, from `s` to `t`. -/
structure CellsPublished (k : Word) (s t : State) : Prop where
  esc : t.esc = s.esc
  stores : t.cores = s.cores ∧ t.cells = s.cells ∧ t.wheels = s.wheels
  hidden : ∀ a, hiddenTable a → memRead t a = Memory.read s.hidden a
  number : ∀ i, i < 512 → memReadWord t (Config.scmBase + 0x24000 + 32 * i) = k
  user : ∀ a, Config.scmBase + 0x24000 ≤ a → a < Config.scmBase + 0x28000 → 4 ≤ (a - Config.scmBase) % 32 →
    memRead t a = Memory.read (userTable s) a

theorem cellsPublished_publishTables (k : Word) (s : State) : CellsPublished k s (publishTables k s) where
  esc := (publishTables_spares k s).esc
  stores := (publishTables_spares k s).stores trivial
  hidden _ := memRead_publishTables_hidden k s
  number _ := memReadWord_publishTables k s
  user _ hlo hhi hrest := (memRead_publishTables_user k s hlo hhi).trans (read_stampLines_rest hlo hrest)

theorem CellsPublished.spares {k : Word} {u : State} (h : CellsPublished k s t) (hu : Spares published t u) :
    CellsPublished k s u where
  esc := hu.esc.trans h.esc
  stores :=
    have ⟨hcores, hcells, hwheels⟩ := h.stores
    have ⟨hcores', hcells', hwheels'⟩ := hu.stores trivial
    ⟨hcores'.trans hcores, hcells'.trans hcells, hwheels'.trans hwheels⟩
  hidden a ha := (hu.bytes a (lt_dramBase_of_hiddenTable ha)).trans (h.hidden a ha)
  number i hi := (hu.memReadWord_eq fun j hj => lt_dramBase_of_userTable (by omega)).trans (h.number i hi)
  user a hlo hhi hrest := (hu.bytes a (lt_dramBase_of_userTable hhi)).trans (h.user a hlo hhi hrest)

theorem CellsPublished.noteReadiness {k : Word} (h : CellsPublished k s t) : CellsPublished k s (noteReadiness t) := by
  rw [noteReadiness_eq]
  exact ⟨h.esc, h.stores, h.hidden, h.number, h.user⟩

/-- The publication of the tables of cycle `k` with all that follows it. -/
def publishCells (k : Word) (s : State) : State := noteReadiness (afterTables k (publishTables k s))

theorem cellsPublished_publishCells (k : Word) (s : State) : CellsPublished k s (publishCells k s) :=
  ((cellsPublished_publishTables k s).spares (afterTables_spares k _)).noteReadiness

theorem cellPublication_eq {k : Word} (h : s.esc.pubDue = some k) :
    ∃ n, cellPublication s = publishCells k (setEsc { s.esc with pubDue := none } (reach n s)) := by
  refine ⟨if s.esc.cutDone then s.esc.tk + s.esc.wlen + 50 else s.esc.tk + 50, ?_⟩
  unfold cellPublication
  rw [h]
  rfl

theorem cellPublication_does {k : Word} (h : s.esc.pubDue = some k) :
    CellsPublished k (setEsc { s.esc with pubDue := none } s) (cellPublication s) := by
  obtain ⟨n, heq⟩ := cellPublication_eq h
  rw [heq]
  obtain ⟨hesc, hstores, hhidden, hnumber, huser⟩ :=
    cellsPublished_publishCells k (setEsc { s.esc with pubDue := none } (reach n s))
  exact ⟨hesc, hstores, hhidden, hnumber, huser⟩

end Sys2Proof.Machine
end

section
namespace Sys2Proof.Machine

/-! # The instants of the cycle (R17, R38, R41, R53 to R58, R447) -/

variable {s t : State}

/-! ## Before its instant each does nothing -/

theorem measurementPublication_idle (h : escRunning s = false) : measurementPublication s = s :=
  if_pos (by simp [h])

theorem referencePoint_idle (h : escRunning s = false ∨ s.esc.refDone = true ∨ s.esc.cutDone = true) :
    referencePoint s = s := by
  refine if_pos ?_
  rcases h with h | h | h <;> simp [h]

theorem cutoff_idle (h : escRunning s = false ∨ s.esc.cutDone = true) : cutoff s = s := by
  refine if_pos ?_
  rcases h with h | h <;> simp [h]

theorem cellPublication_idle (h : s.esc.pubDue = none) : cellPublication s = s := by
  unfold cellPublication
  rw [h]

/-! ## A run of cut cycles (R58) -/

theorem cutRun_idle (h : fget s Fld.ESC_STATUS_CUT_RUN < 3 ∨ isRaised s 13 0) : cutRun s = s := by
  unfold cutRun
  rcases h with h | h
  · exact if_neg (by omega)
  · split
    · exact if_pos h
    · rfl

theorem cutRun_raises (hrun : 3 ≤ fget s Fld.ESC_STATUS_CUT_RUN) (h : ¬isRaised s 13 0) :
    cutRun s = raiseCond 13 0 0x3F 0 s := by
  unfold cutRun
  rw [if_pos hrun]
  exact if_neg h

/-! ## The count of a cut cycle -/

theorem regGet_stopCores (a n : Nat) (s : State) : regGet (stopCores (reach n s)) a = regGet s a := by
  have hstop : Spares { reg := fun _ => True } (reach n s) (stopCores (reach n s)) :=
    (Spares.refl _ _).stopCores (fun _ => id) id
  exact hstop.regs a trivial

theorem cutStopped_cut (n : Nat) (h : coreUnended s = true) :
    fbit (cutStopped n s) Fld.ESC_STATUS_CUT = true ∧
      fget (cutStopped n s) Fld.ESC_STATUS_CUT_RUN = min 255 (fget s Fld.ESC_STATUS_CUT_RUN + 1) ∧
      (regGet (cutStopped n s) Reg.FCO_STATUS_0).getLsbD 12 = true ∧
      (regGet (cutStopped n s) Reg.ESC_CUT_CNT).toNat = min 0xFFFFFFFF ((regGet s Reg.ESC_CUT_CNT).toNat + 1) := by
  obtain ⟨hcut, hrun, hlatched, hcount⟩ := countCut_true (stopCores (reach n s))
  rw [fget_of_regGet_eq (regGet_stopCores _ n s)] at hrun
  unfold countedUp at hcount
  rw [regGet_stopCores] at hcount
  unfold cutStopped
  rw [h]
  exact ⟨hcut, hrun, hlatched, hcount⟩

theorem cutStopped_uncut (n : Nat) (h : coreUnended s = false) :
    fbit (cutStopped n s) Fld.ESC_STATUS_CUT = false ∧ fget (cutStopped n s) Fld.ESC_STATUS_CUT_RUN = 0 ∧
      regGet (cutStopped n s) Reg.ESC_CUT_CNT = regGet s Reg.ESC_CUT_CNT := by
  obtain ⟨hcut, hrun, hcount⟩ := countCut_false (stopCores (reach n s))
  rw [regGet_stopCores] at hcount
  unfold cutStopped
  rw [h]
  exact ⟨hcut, hrun, hcount⟩

theorem Core.run_atCutoff (c : Core) : c.atCutoff.run = if c.run = .ended then .ended else .stopped := by
  unfold Core.atCutoff
  split
  · assumption
  · rfl

/-! ## The obligation -/

/-- Settles O38: each instant's work is followed through what it leaves alone, from the tables, wheels and cores that it
writes to its end. -/
theorem instantsOfTheCycleDoTheirWork : Obligations.InstantsOfTheCycleDoTheirWork := by
  intro s
  refine ⟨fun h => congrArg Host.Outcome.next (measurementPublication_idle h), fun hrun => ⟨_, rfl, ?_⟩,
    fun h => congrArg Host.Outcome.next (referencePoint_idle h), fun hrun href hcut => ⟨_, rfl, ?_⟩,
    fun h => congrArg Host.Outcome.next (cutoff_idle h), fun hrun hcut => ⟨_, rfl, ?_⟩,
    fun h => congrArg Host.Outcome.next (cutRun_idle h),
    fun hrun h => ⟨_, congrArg Host.Outcome.next (cutRun_raises hrun (by simp [isRaised, h])), ?_⟩,
    fun h => congrArg Host.Outcome.next (cellPublication_idle h), fun k hk => ⟨_, rfl, ?_⟩⟩
  · obtain ⟨hcnt, hsys, ⟨hcores, hcells, hwheels⟩, hwords⟩ := measurementPublication_does hrun
    obtain ⟨hcycle, hdi, hvalid, hend⟩ := forall_mem_imageWords.mp hwords
    exact ⟨hcnt, hcycle, hdi, hvalid, hend, hsys, hcores, hcells, hwheels⟩
  · obtain ⟨hesc, hcnt, hsys, hwheel⟩ := referencePoint_does hrun href hcut
    refine ⟨hesc, hcnt, hsys, fun w hw => ?_⟩
    obtain ⟨⟨hspec, hconf, hchecks, hfinal, hfall⟩, hkept⟩ := hwheel w hw
    exact ⟨hspec, hconf, hchecks, hfinal, hfall, hkept⟩
  · obtain ⟨n, hn, hcnt, hesc, hcore, hreg, hwheel⟩ := cutoff_does hrun hcut
    have hstatus := hreg Reg.ESC_STATUS rfl
    have hcount := hreg Reg.ESC_CUT_CNT rfl
    refine ⟨hesc, hcnt.trans (congrArg (max s.time.cnt) hn), fun c hc => ?_, fun c hc => ?_, fun hun => ?_,
      fun hun => ?_, fun w hw hon => ?_⟩
    · rw [hcore, if_pos hc, Core.run_atCutoff]
    · rw [hcore, if_neg (by omega)]
    · rw [fbit_of_regGet_eq hstatus, fget_of_regGet_eq hstatus, hreg Reg.FCO_STATUS_0 rfl, hcount]
      exact cutStopped_cut n hun
    · rw [fbit_of_regGet_eq hstatus, fget_of_regGet_eq hstatus, hcount]
      exact cutStopped_uncut n hun
    · obtain ⟨hspec, hconf, -, hfinal, -⟩ := hwheel w hw hon
      exact ⟨hspec, hfinal, hconf⟩
  · exact ⟨isRaised_raiseCond 13 0 0x3F 0 s, (FaultStep.raiseCond (.refl s) (by decide)).frame⟩
  · obtain ⟨hesc, ⟨hcores, hcells, hwheels⟩, hhidden, hnumber, huser⟩ := cellPublication_does hk
    exact ⟨hesc, hcores, hwheels, hcells, hhidden, hnumber, huser⟩

end Sys2Proof.Machine
end

section
namespace Sys2Proof.Machine

/-! # Sources that follow counts of their wheels (R53, R139, R141, R176) -/

variable {s t u : State}

/-! ## What an occurrence leaves of the raised conditions -/

/-- Whether a condition source is raised for `inst`. -/
def raisedAt (s : State) (src inst : Nat) : Bool := Store.get (fun _ => false) s.fco.raised (Fco.key src inst)

theorem Fco.key_ne {src inst src' inst' : Nat} (hsrc : src ≠ src') (h : inst < 65536) (h' : inst' < 65536) :
    Fco.key src inst ≠ Fco.key src' inst' := by
  unfold Fco.key
  omega

theorem raisedAt_setRaised_self (src inst : Nat) (b : Bool) (s : State) :
    raisedAt (setRaised src inst b s) src inst = b := Store.get_set_self (fun _ => false) s.fco.raised (Fco.key src inst) b

theorem raisedAt_setRaised_other {src inst src' inst' : Nat} (b : Bool) (s : State) (hsrc : src ≠ src')
    (h : inst < 65536) (h' : inst' < 65536) : raisedAt (setRaised src' inst' b s) src inst = raisedAt s src inst :=
  Store.get_set_other (fun _ => false) s.fco.raised b (Fco.key_ne hsrc h h')

theorem SameRaised.raisedAt_eq (h : SameRaised s t) (src inst : Nat) : raisedAt t src inst = raisedAt s src inst := by
  unfold raisedAt
  rw [h]

theorem raisedAt_noteC0Held {src inst : Nat} (hsrc : src ≠ 48) (hinst : inst < 65536) (s : State) :
    raisedAt (noteC0Held s) src inst = raisedAt s src inst := by
  unfold noteC0Held
  split
  · rfl
  · exact ((SameRaised.refl _).occurOnce.raisedAt_eq src inst).trans
      (raisedAt_setRaised_other true _ hsrc hinst (by decide))

/-- Of the conditions an occurrence raises none but SCH_C0_HELD (R393). -/
theorem raisedAt_occur {src inst : Nat} (hsrc : src ≠ 48) (hinst : inst < 65536) (d : Detection) (s : State) :
    raisedAt (occur d s) src inst = raisedAt s src inst := by
  have honce : raisedAt (occurOnce d s).1 src inst = raisedAt s src inst :=
    (SameRaised.refl s).occurOnce.raisedAt_eq src inst
  unfold occur
  dsimp only
  split
  · exact (raisedAt_noteC0Held hsrc hinst _).trans honce
  · exact honce

theorem raisedAt_raiseCond_other {src inst src' inst' : Nat} (master access : Nat) (s : State) (hsrc : src ≠ src')
    (hheld : src ≠ 48) (h : inst < 65536) (h' : inst' < 65536) :
    raisedAt (raiseCond src' inst' master access s) src inst = raisedAt s src inst := by
  have hset := raisedAt_setRaised_other true s hsrc h h'
  unfold raiseCond
  split
  · exact hset
  · exact (raisedAt_occur hheld h _ _).trans hset

theorem raisedAt_condIs_self (src inst master : Nat) (b : Bool) (s : State) :
    raisedAt (condIs b src inst master s) src inst = b := by
  unfold condIs
  split
  next hb =>
    rw [hb]
    split
    · assumption
    · exact isRaised_raiseCond src inst master 0 s
  next hb =>
    rw [Bool.not_eq_true] at hb
    rw [hb]
    exact raisedAt_setRaised_self src inst false s

theorem raisedAt_condIs_other {src inst src' inst' : Nat} (b : Bool) (master : Nat) (s : State) (hsrc : src ≠ src')
    (hheld : src ≠ 48) (h : inst < 65536) (h' : inst' < 65536) :
    raisedAt (condIs b src' inst' master s) src inst = raisedAt s src inst := by
  unfold condIs
  split
  · split
    · rfl
    · exact raisedAt_raiseCond_other master 0 s hsrc hheld h h'
  · exact raisedAt_setRaised_other false s hsrc h h'

theorem FaultStep.condIs {b : Bool} {src inst master : Nat} (h : FaultStep s t) (hsrc : src < 64) :
    FaultStep s (condIs b src inst master t) :=
  .ite (.ite h (h.raiseCond hsrc)) h.fco

/-! ## Runs that raise a source once (R53, R176) -/

theorem staleRefRun_idle {w : Nat} (h : (wheel s w).staleRun ≤ fget s Fld.ESC_STALE_MAX_STALE_MAX ∨ raisedAt s 16 w = true) :
    staleRefRun w s = s := by
  refine if_neg fun ⟨hrun, hraised⟩ => ?_
  rcases h with h | h
  · omega
  · unfold raisedAt at h
    rw [h] at hraised
    cases hraised

theorem staleRefRun_raises {w : Nat} (hrun : fget s Fld.ESC_STALE_MAX_STALE_MAX < (wheel s w).staleRun)
    (h : raisedAt s 16 w = false) : staleRefRun w s = raiseCond 16 w (0x18 + w) 0 s :=
  if_pos ⟨hrun, by unfold raisedAt at h; rw [h]; rfl⟩

theorem whlFallbackRun_idle {w : Nat} (h : (wheel s w).fbRun < 16 ∨ raisedAt s 26 w = true) : whlFallbackRun w s = s := by
  unfold whlFallbackRun
  rcases h with h | h
  · exact if_neg (by omega)
  · split
    · exact if_pos h
    · rfl

theorem whlFallbackRun_raises {w : Nat} (hrun : 16 ≤ (wheel s w).fbRun) (h : raisedAt s 26 w = false) :
    whlFallbackRun w s = raiseCond 26 w (0x18 + w) 0 s := by
  unfold whlFallbackRun
  rw [if_pos hrun]
  unfold raisedAt at h
  unfold condIs
  rw [h]
  rfl

theorem onlyFault_raiseCond {src : Nat} (inst master access : Nat) (s : State) (hsrc : src < 64) :
    onlyFault s (raiseCond src inst master access s) := (FaultStep.raiseCond (.refl s) hsrc).frame

/-! ## The thresholds of a pool (R139) -/

theorem onlyFault.trans {as : List Nat} (h : onlyFault s t) (hregs : Reg.SCH_TRC_BASE ∉ as ∧ Reg.SCH_REF_BASE ∉ as) (hbut : regsBut as s t)
    (h' : onlyFault t u) : onlyFault s u := by
  obtain ⟨hframe, hsaf, hchr, hmem⟩ := h
  obtain ⟨hframe', hsaf', hchr', hmem'⟩ := h'
  have hring (x : Nat) (hx : ringsApart s x) : ringsApart t x := by
    have htrc : fget t Fld.SCH_TRC_BASE_BASE_MIB = fget s Fld.SCH_TRC_BASE_BASE_MIB := hbut.fget_eq hregs.1
    have href : fget t Fld.SCH_REF_BASE_BASE_KIB = fget s Fld.SCH_REF_BASE_BASE_KIB := hbut.fget_eq hregs.2
    unfold ringsApart
    rw [htrc, href]
    exact hx
  refine ⟨?_, ?_, ?_, fun x hx => (hmem' x (hring x hx)).trans (hmem x hx)⟩
  · rw [hframe', hframe]
  · rw [hsaf', hsaf]
  · rw [hchr', hchr]

/-- One threshold of wheel `w` with hold `h`: its source, the counts of cycles below and at or above it, and its flag. -/
def settleThreshold (w h src on off : Nat) (f : Field) (s : State) : State :=
  if h ≤ on then condIs true src w (0x18 + w) (fset f 1 s)
  else if h ≤ off then clearCond src w (fset f 0 s)
  else s

theorem poolThreshold_eq (w : Nat) (s : State) : poolThreshold w s =
    settleThreshold w (fget s (Fld.WHL_THR_THR_HOLD w)) 25 (wheel s w).minRun (wheel s w).minOk (Fld.WHL_STATUS_POOL_MIN w)
      (settleThreshold w (fget s (Fld.WHL_THR_THR_HOLD w)) 24 (wheel s w).lowRun (wheel s w).lowOk
        (Fld.WHL_STATUS_POOL_LOW w) s) := rfl

/-- What a threshold leads to: a flag written, or not, and what an occurrence changes. -/
theorem settleThreshold_cases (w h src on off : Nat) (f : Field) (s : State) :
    (h ≤ on ∧ settleThreshold w h src on off f s = condIs true src w (0x18 + w) (fset f 1 s)) ∨
    (on < h ∧ h ≤ off ∧ settleThreshold w h src on off f s = condIs false src w (0x18 + w) (fset f 0 s)) ∨
    (on < h ∧ off < h ∧ settleThreshold w h src on off f s = s) := by
  unfold settleThreshold
  by_cases hon : h ≤ on
  · exact .inl ⟨hon, if_pos hon⟩
  · rw [if_neg hon]
    by_cases hoff : h ≤ off
    · exact .inr (.inl ⟨by omega, hoff, if_pos hoff⟩)
    · exact .inr (.inr ⟨by omega, by omega, if_neg hoff⟩)

/-- The flag `f` and source `src` of a threshold stand. -/
def thresholdKept (w src : Nat) (f : Field) (s t : State) : Prop :=
  fget t f = fget s f ∧ raisedAt t src w = raisedAt s src w

/-- The flag `f` and source `src` of a threshold follow its counts. -/
def thresholdSettled (w h src on off : Nat) (f : Field) (s t : State) : Prop :=
  (h ≤ on → fbit t f = true ∧ raisedAt t src w = true) ∧
  (on < h → h ≤ off → fbit t f = false ∧ raisedAt t src w = false) ∧
  (on < h → off < h → thresholdKept w src f s t)

theorem thresholdSettled.after {w h src on off : Nat} {f : Field} (hset : thresholdSettled w h src on off f t u)
    (hkept : thresholdKept w src f s t) : thresholdSettled w h src on off f s u := by
  obtain ⟨hon, hoff, hnone⟩ := hset
  refine ⟨hon, hoff, fun h1 h2 => ?_⟩
  obtain ⟨hf, hr⟩ := hnone h1 h2
  exact ⟨hf.trans hkept.1, hr.trans hkept.2⟩

theorem thresholdSettled.before {w h src on off : Nat} {f : Field} (hset : thresholdSettled w h src on off f s t)
    (hkept : thresholdKept w src f t u) : thresholdSettled w h src on off f s u := by
  unfold thresholdSettled thresholdKept fbit at *
  rw [hkept.1, hkept.2]
  exact hset

/-- The rings lie where neither a wheel's status nor an occurrence moves them. -/
theorem ringBases_ne_status (w : Fin 12) :
    Reg.SCH_TRC_BASE ∉ Reg.WHL_STATUS w :: (reactRegs ++ latchRegs) ∧
      Reg.SCH_REF_BASE ∉ Reg.WHL_STATUS w :: (reactRegs ++ latchRegs) := by
  revert w
  decide

theorem statusField_outside (w : Fin 12) {f : Field} (hf : f.reg = Reg.WHL_STATUS w) :
    f.reg / 0x10000 ∉ [0x400C, 0x400D, 0x4011] := by
  rw [hf]
  clear hf
  revert w
  decide

/-- What a threshold's source does leaves the status register of the wheel as its flag made it. -/
theorem fget_condIs_status {w : Fin 12} {g : Field} (hg : g.reg = Reg.WHL_STATUS w) (b : Bool) {src : Nat} (inst master : Nat)
    (hsrc : src < 64) (s : State) : fget (condIs b src inst master s) g = fget s g :=
  fget_of_regGet_eq ((FaultStep.condIs (.refl s) hsrc).otherBlocks (statusField_outside w hg))

section
variable {w : Fin 12} {src : Nat} {f : Field} (hf : f.reg = Reg.WHL_STATUS w) (hsrc : src < 64)
include hf hsrc

theorem settleThreshold_settles (h on off : Nat) (s : State) (hbit : f.lo = f.hi) (hhi : f.hi < 32) :
    thresholdSettled w h src on off f s (settleThreshold w h src on off f s) := by
  have hflag (b : Bool) : fbit (condIs b src w (0x18 + w) (fset f (boolNat b) s)) f = b := by
    unfold fbit
    rw [fget_condIs_status hf b w _ hsrc]
    exact fbit_fset_bit f b s hbit hhi
  rcases settleThreshold_cases w h src on off f s with ⟨hon, heq⟩ | ⟨hon, hoff, heq⟩ | ⟨hon, hoff, heq⟩
  · rw [heq]
    exact ⟨fun _ => ⟨hflag true, raisedAt_condIs_self ..⟩, fun hlt => absurd hlt (by omega), fun hlt => absurd hlt (by omega)⟩
  · rw [heq]
    exact ⟨fun hle => absurd hle (by omega), fun _ _ => ⟨hflag false, raisedAt_condIs_self ..⟩,
      fun _ hlt => absurd hlt (by omega)⟩
  · rw [heq]
    exact ⟨fun hle => absurd hle (by omega), fun _ hle => absurd hle (by omega), fun _ _ => ⟨rfl, rfl⟩⟩

/-- The other threshold's flag stands in other bits of the register. -/
theorem settleThreshold_keeps (h on off : Nat) (s : State) {g : Field} {src' : Nat} (hg : g.reg = f.reg)
    (hfg : f.lo ≤ f.hi ∧ f.hi < 32 ∧ g.lo ≤ g.hi) (hd : g.hi < f.lo ∨ f.hi < g.lo) (hne : src' ≠ src) (hheld : src' ≠ 48) :
    thresholdKept w src' g s (settleThreshold w h src on off f s) := by
  have hw : w.val < 65536 := by omega
  have hcond (b : Bool) (v : Nat) : thresholdKept w src' g s (condIs b src w (0x18 + w) (fset f v s)) :=
    ⟨(fget_condIs_status (hg.trans hf) b w _ hsrc _).trans (fget_fset_other f g v s hfg hd hg),
      raisedAt_condIs_other b _ _ hne hheld hw hw⟩
  rcases settleThreshold_cases w h src on off f s with ⟨-, heq⟩ | ⟨-, -, heq⟩ | ⟨-, -, heq⟩
  · rw [heq]
    exact hcond true 1
  · rw [heq]
    exact hcond false 0
  · rw [heq]
    exact ⟨rfl, rfl⟩

theorem settleThreshold_frame (h on off : Nat) (s : State) :
    onlyFault s (settleThreshold w h src on off f s) ∧
      regsBut (f.reg :: (reactRegs ++ latchRegs)) s (settleThreshold w h src on off f s) := by
  have hbases : Reg.SCH_TRC_BASE ∉ [f.reg] ∧ Reg.SCH_REF_BASE ∉ [f.reg] := by
    rw [hf]
    have hsub : [Reg.WHL_STATUS w] ⊆ Reg.WHL_STATUS w :: (reactRegs ++ latchRegs) :=
      List.cons_subset_cons _ (List.nil_subset _)
    exact (ringBases_ne_status w).imp (fun h hin => h (hsub hin)) (fun h hin => h (hsub hin))
  have hcond (b : Bool) (v : Nat) : onlyFault s (condIs b src w (0x18 + w) (fset f v s)) ∧
      regsBut (f.reg :: (reactRegs ++ latchRegs)) s (condIs b src w (0x18 + w) (fset f v s)) := by
    have hstep : FaultStep (fset f v s) (condIs b src w (0x18 + w) (fset f v s)) := FaultStep.condIs (.refl _) hsrc
    exact ⟨hstep.onlyFault_of_onlyRegs ((onlyRegs.refl [f.reg] s).fset (List.mem_singleton_self _)) hbases,
      (regsBut_regSet _ s (List.mem_cons_self ..)).trans (hstep.regs.mono (List.subset_cons_self ..))⟩
  rcases settleThreshold_cases w h src on off f s with ⟨-, heq⟩ | ⟨-, -, heq⟩ | ⟨-, -, heq⟩
  · rw [heq]
    exact hcond true 1
  · rw [heq]
    exact hcond false 0
  · rw [heq]
    exact ⟨.refl s, .refl _ s⟩
end

theorem poolThreshold_does (w : Fin 12) (s : State) :
    let h := fget s (Fld.WHL_THR_THR_HOLD w)
    onlyFault s (poolThreshold w s) ∧
    thresholdSettled w h 24 (wheel s w).lowRun (wheel s w).lowOk (Fld.WHL_STATUS_POOL_LOW w) s (poolThreshold w s) ∧
    thresholdSettled w h 25 (wheel s w).minRun (wheel s w).minOk (Fld.WHL_STATUS_POOL_MIN w) s (poolThreshold w s) := by
  intro h
  rw [poolThreshold_eq]
  obtain ⟨hframe, hregs⟩ := settleThreshold_frame (src := 24) (f := Fld.WHL_STATUS_POOL_LOW w) rfl (by decide) h
    (wheel s w).lowRun (wheel s w).lowOk s
  have hlow := settleThreshold_settles (src := 24) (f := Fld.WHL_STATUS_POOL_LOW w) rfl (by decide) h
    (wheel s w).lowRun (wheel s w).lowOk s rfl (show 8 < 32 by decide)
  have hkept := settleThreshold_keeps (src := 24) (f := Fld.WHL_STATUS_POOL_LOW w) rfl (by decide) h
    (wheel s w).lowRun (wheel s w).lowOk s (g := Fld.WHL_STATUS_POOL_MIN w) (src' := 25) rfl
    (show 8 ≤ 8 ∧ 8 < 32 ∧ 9 ≤ 9 by decide) (.inr (show 8 < 9 by decide)) (by decide) (by decide)
  generalize settleThreshold w h 24 (wheel s w).lowRun (wheel s w).lowOk (Fld.WHL_STATUS_POOL_LOW w) s = t at *
  have hmin := settleThreshold_settles (src := 25) (f := Fld.WHL_STATUS_POOL_MIN w) rfl (by decide) h
    (wheel s w).minRun (wheel s w).minOk t rfl (show 9 < 32 by decide)
  have hkept' := settleThreshold_keeps (src := 25) (f := Fld.WHL_STATUS_POOL_MIN w) rfl (by decide) h
    (wheel s w).minRun (wheel s w).minOk t (g := Fld.WHL_STATUS_POOL_LOW w) (src' := 24) rfl
    (show 9 ≤ 9 ∧ 9 < 32 ∧ 8 ≤ 8 by decide) (.inl (show 8 < 9 by decide)) (by decide) (by decide)
  obtain ⟨hframe', -⟩ := settleThreshold_frame (src := 25) (f := Fld.WHL_STATUS_POOL_MIN w) rfl (by decide) h
    (wheel s w).minRun (wheel s w).minOk t
  exact ⟨hframe.trans (ringBases_ne_status w) hregs hframe', hlow.before hkept', hmin.after hkept⟩

/-! ## The wait of a bypass sequence (R141) -/

theorem bypassConfirmTimeout_fails {slot n w : Nat} (hbyp : (cell s slot).byp = some n) (hn : 10 ≤ n)
    (hw : wheelOf s slot = some w) : bypassConfirmTimeout slot s = bypassFail w slot s := by
  unfold bypassConfirmTimeout
  rw [hbyp, hw]
  exact if_pos hn

theorem bypassConfirmTimeout_idle {slot : Nat} (h : (∀ k, (cell s slot).byp = some k → k < 10) ∨ wheelOf s slot = none) :
    bypassConfirmTimeout slot s = s := by
  unfold bypassConfirmTimeout
  split
  next k w hk hw =>
    rcases h with h | h
    · exact if_neg (by have := h k hk; omega)
    · rw [h] at hw
      cases hw
  · rfl

theorem wheelOf_lt {slot w : Nat} (h : wheelOf s slot = some w) : w < 12 := by
  have hmem := List.mem_of_find?_eq_some h
  exact List.mem_range.mp (List.mem_of_mem_filter hmem)

/-- The cell of a sequence that has failed (R141). -/
def Cell.bypassFailed (x : Cell) : Cell := { x with byp := none, faulted := true, bypFailed := true }

/-- A sequence fails: its cell takes the fault, and the rest is an occurrence and its count. -/
theorem bypassFail_does {w : Nat} (hw : w < 12) (slot : Nat) (s : State) :
    cell (bypassFail w slot s) slot = (cell s slot).bypassFailed ∧
    (∀ i, i ≠ slot → cell (bypassFail w slot s) i = cell s i) ∧
    occurred 23 slot (0x18 + w) s { bypassFail w slot s with cells := s.cells } ∧
    countedUp (Reg.WHL_BYPFAIL_CNT w) s (bypassFail w slot s) := by
  let u := setCell slot (cell s slot).bypassFailed s
  let v := bump (Reg.WHL_BYPFAIL_CNT w) u
  have hfail : bypassFail w slot s = occur (detect 23 slot (0x18 + w) 0) v := rfl
  have hsrc : (detect 23 slot (0x18 + w) 0).src < 64 := show 23 < 64 by decide
  have hstep : FaultStep v (bypassFail w slot s) := FaultStep.occur (.refl v) hsrc
  obtain ⟨hbit, hlog, -⟩ := occur_occurred (detect 23 slot (0x18 + w) 0) v hsrc
  rw [← hfail] at hbit hlog
  have hcell (i : Nat) : cell (bypassFail w slot s) i = cell u i := by
    rw [cell, hstep.frame.1]
    rfl
  have hbases : Reg.SCH_TRC_BASE ∉ [Reg.WHL_BYPFAIL_CNT w] ∧ Reg.SCH_REF_BASE ∉ [Reg.WHL_BYPFAIL_CNT w] := by
    simp only [List.mem_singleton, Reg.WHL_BYPFAIL_CNT, Reg.SCH_TRC_BASE, Reg.SCH_REF_BASE]
    omega
  refine ⟨?_, fun i hi => ?_, ⟨hbit, hlog, ?_⟩, ?_⟩
  · rw [hcell, cell_setCell, if_pos rfl]
  · rw [hcell, cell_setCell, if_neg hi]
  · obtain ⟨hframe, hsaf, hchr, hmem⟩ :=
      hstep.onlyFault_of_onlyRegs ((onlyRegs.refl [Reg.WHL_BYPFAIL_CNT w] u).bump (List.mem_singleton_self _)) hbases
    exact ⟨by rw [hframe]; rfl, hsaf, hchr, hmem⟩
  · have hcount : countedUp (Reg.WHL_BYPFAIL_CNT w) u v := countedUp_bump _ u
    unfold countedUp at hcount ⊢
    rw [hstep.otherBlocks (a := Reg.WHL_BYPFAIL_CNT w)]
    · exact hcount
    · simp only [Reg.WHL_BYPFAIL_CNT, List.mem_cons, List.not_mem_nil, or_false]
      omega

/-! ## The obligation -/

/-- Settles O41: a run raises its source once, a threshold settles its flag and source and leaves the other's, and a
sequence that waits in vain fails. -/
theorem wheelSourcesFollowTheirCounts : Obligations.WheelSourcesFollowTheirCounts := by
  intro s w slot
  refine ⟨fun h => congrArg Host.Outcome.next (staleRefRun_idle h),
    fun hrun h => ⟨_, congrArg Host.Outcome.next (staleRefRun_raises hrun h), onlyFault_raiseCond _ _ _ s (by decide),
      isRaised_raiseCond ..⟩,
    fun h => congrArg Host.Outcome.next (whlFallbackRun_idle h),
    fun hrun h => ⟨_, congrArg Host.Outcome.next (whlFallbackRun_raises hrun h), onlyFault_raiseCond _ _ _ s (by decide),
      isRaised_raiseCond ..⟩, ⟨_, rfl, ?_⟩, fun k v hk hle hv => ⟨_, rfl, ?_⟩,
    fun h => congrArg Host.Outcome.next (bypassConfirmTimeout_idle h)⟩
  · obtain ⟨hframe, hlow, hmin⟩ := poolThreshold_does w s
    refine ⟨hframe, fun p hp => ?_⟩
    rcases List.mem_pair.mp hp with rfl | rfl
    · exact hlow
    · exact hmin
  · rw [bypassConfirmTimeout_fails hk hle hv]
    exact bypassFail_does (wheelOf_lt hv) slot.val s

end Sys2Proof.Machine
end

section
namespace Sys2Proof.Machine

/-! # Staged timing values (R49, R457) -/

variable {s t u : State}

/-- The checks that ESC_CHECK and the timing registers share: who writes, and the mode. -/
def commissionChecks (s : State) (o : Origin) : List (Bool × Status) :=
  [(roleOrCore .operator o, .notPermitted), (s.sys.mode == .commission, .illegalInMode)]

theorem escTiming_other {a : Nat} (h : isTiming a = false) (o : Origin) (v : Word) (s : State) :
    (escTiming o a v s).1 = s := by
  unfold escTiming
  rw [h]
  rfl

theorem escTiming_timing {a : Nat} (h : isTiming a = true) (o : Origin) (v : Word) (s : State) :
    escTiming o a v s = checkWrite a o (commissionChecks s o ++ [(timingLegal s a (timingValue a v), .badParam)])
      (stageTiming a (timingValue a v)) s := by
  unfold escTiming
  rw [h]
  rfl

/-- A legal value is staged, a failing one is refused (R49). -/
theorem escTiming_does {a : Nat} {o : Origin} {v : Word} (h : isTiming a = true) :
    let checks := commissionChecks s o ++ [(timingLegal s a (timingValue a v), Status.badParam)]
    (firstFail checks = none → (escTiming o a v s).1 = stageTiming a (timingValue a v) s) ∧
    (∀ st, firstFail checks = some st → refusedWrite [] st s (escTiming o a v s).1) := by
  intro checks
  rw [escTiming_timing h]
  exact ⟨fun hnone => by rw [checkWrite_of_none hnone], fun st hsome => refusedWrite_checkWrite hsome s⟩

/-- The four registers with what a write of each stages. -/
def timingStages (g : StagedTiming) (v : Word) : List (Nat × StagedTiming) :=
  [(Reg.ESC_PERIOD, { g with period := some (fieldGet v 14 0) }), (Reg.ESC_LEAD, { g with lead := some (fieldGet v 11 0) }),
    (Reg.ESC_REFPT, { g with refpt := some (fieldGet v 14 0) }), (Reg.ESC_REPAIR, { g with repair := some (fieldGet v 11 0) })]

theorem stageTiming_stages {p : Nat × StagedTiming} {v : Word} (hp : p ∈ timingStages s.esc.staged v) :
    isTiming p.1 = true ∧ stageTiming p.1 (timingValue p.1 v) s =
      { s with esc := { s.esc with staged := p.2, checkOk := false, checkVoid := true } } := by
  simp only [timingStages, List.mem_cons, List.not_mem_nil, or_false] at hp
  rcases hp with rfl | rfl | rfl | rfl
  all_goals exact ⟨rfl, rfl⟩

/-- ESC_CHECK.GO takes the terms as they stand (R46). -/
def checkStarted (s : State) : State :=
  fset Fld.ESC_STATUS_CHECKING 1 (fset Fld.ESC_BUDGET_STAT_STATUS Status.busy.code
    { s with esc := { s.esc with checking := some (termsNow s), checkVoid := false } })

theorem escCheckGo_eq (o : Origin) (s : State) :
    escCheckGo o s = checkWrite Reg.ESC_CHECK o (commissionChecks s o) checkStarted s := rfl

theorem escCheckGo_starts {o : Origin} (h : firstFail (commissionChecks s o) = none) :
    escCheckGo o s = (checkStarted s, .ok) := by
  rw [escCheckGo_eq, checkWrite_of_none h]

theorem checkStarted_does (s : State) :
    checkStarted s = { s with
      regs := (checkStarted s).regs, esc := { s.esc with checking := some (termsNow s), checkVoid := false } } ∧
    regsBut [Reg.ESC_STATUS, Reg.ESC_BUDGET_STAT] s (checkStarted s) ∧
    fbit (checkStarted s) Fld.ESC_STATUS_CHECKING = true ∧
    fget (checkStarted s) Fld.ESC_BUDGET_STAT_STATUS = Status.busy.code := by
  refine ⟨rfl, ?_, fbit_fset_bit Fld.ESC_STATUS_CHECKING true _ rfl (by decide), ?_⟩
  · exact (regsBut.fset (.of_regs_eq (.refl _ s) rfl) (by decide)).fset (by decide)
  · unfold checkStarted
    rw [fget_of_regGet_eq (regGet_fset_other _ _ (by decide)), fget_fset_self _ _ _ (by decide) (by decide)]
    rfl

/-! # What the budget check reads (R46, R132, R158) -/

/-- The registers in which the budget check and the map check show their results. -/
def reportRegs : List Nat :=
  [Reg.ESC_STATUS, Reg.ESC_BUDGET_STAT, Reg.ESC_BUDGET_LAP, Reg.ESC_BUDGET_SPEC, Reg.ESC_BUDGET_CONF, Reg.ESC_BUDGET_WREF,
   Reg.ESC_BUDGET_WTOT, Reg.ESC_BUDGET_SLACK, Reg.ESC_BUDGET_NCELL, Reg.WHL_MAP_STAT]

/-- What the checks read is the same: the system, and every register that shows no result of theirs. -/
structure SameInputs (s t : State) : Prop where
  sys : t.sys = s.sys
  regs : regsBut reportRegs s t

/-- Registers of the wheels and the ports stand outside. -/
theorem not_mem_reportRegs {a : Nat} (h : 0x40031000 ≤ a) (hmap : a ≠ Reg.WHL_MAP_STAT) : a ∉ reportRegs := by
  simp only [reportRegs, Reg.ESC_STATUS, Reg.ESC_BUDGET_STAT, Reg.ESC_BUDGET_LAP, Reg.ESC_BUDGET_SPEC,
    Reg.ESC_BUDGET_CONF, Reg.ESC_BUDGET_WREF, Reg.ESC_BUDGET_WTOT, Reg.ESC_BUDGET_SLACK, Reg.ESC_BUDGET_NCELL,
    List.mem_cons, List.not_mem_nil, or_false]
  omega

theorem SameInputs.fget_wheel (h : SameInputs s t) {f : Field} (hf : 0x40041000 ≤ f.reg) : fget t f = fget s f :=
  h.regs.fget_eq (not_mem_reportRegs (by omega) (by unfold Reg.WHL_MAP_STAT; omega))

theorem SameInputs.wheelOn (h : SameInputs s t) : wheelOn t = wheelOn s := by
  funext w
  unfold Machine.wheelOn fbit
  rw [h.fget_wheel (Nat.le_add_right ..)]

theorem SameInputs.slotFirst (h : SameInputs s t) : slotFirst t = slotFirst s := by
  funext w
  exact h.fget_wheel (f := Fld.WHL_SLOTS_FIRST w) (by simp only [Fld.WHL_SLOTS_FIRST, Reg.WHL_SLOTS]; omega)

theorem SameInputs.slotCount (h : SameInputs s t) : slotCount t = slotCount s := by
  funext w
  exact h.fget_wheel (f := Fld.WHL_SLOTS_COUNT w) (by simp only [Fld.WHL_SLOTS_COUNT, Reg.WHL_SLOTS]; omega)

theorem SameInputs.nMin (h : SameInputs s t) (w : Nat) :
    fget t (Fld.WHL_COUNT_N_MIN w) = fget s (Fld.WHL_COUNT_N_MIN w) :=
  h.fget_wheel (by simp only [Fld.WHL_COUNT_N_MIN, Reg.WHL_COUNT]; omega)

theorem SameInputs.nReq (h : SameInputs s t) (w : Nat) :
    fget t (Fld.WHL_COUNT_N_REQ w) = fget s (Fld.WHL_COUNT_N_REQ w) :=
  h.fget_wheel (by simp only [Fld.WHL_COUNT_N_REQ, Reg.WHL_COUNT]; omega)

theorem SameInputs.lapOf (h : SameInputs s t) : lapOf t = lapOf s := by
  funext p
  refine h.regs.fget_eq (f := Fld.RING_PLAP_LAP p) (not_mem_reportRegs ?_ ?_)
  all_goals simp only [Fld.RING_PLAP_LAP, Reg.RING_PLAP, Reg.WHL_MAP_STAT]
  all_goals omega

theorem SameInputs.wheelsOn (h : SameInputs s t) : wheelsOn t = wheelsOn s := by
  unfold Machine.wheelsOn
  rw [h.wheelOn]

theorem SameInputs.rounds (h : SameInputs s t) : rounds t = rounds s := by
  unfold Machine.rounds
  rw [h.wheelsOn]

theorem SameInputs.budgetSlack (h : SameInputs s t) (tm : Terms) : budgetSlack t tm = budgetSlack s tm := by
  unfold Machine.budgetSlack specTicks confTicks
  rw [h.rounds]

theorem SameInputs.budgetFirstFail (h : SameInputs s t) (tm : Terms) : budgetFirstFail t tm = budgetFirstFail s tm := by
  unfold Machine.budgetFirstFail budgetConditions specTicks confTicks
  rw [h.rounds, h.sys, h.budgetSlack]

theorem SameInputs.mapReason (h : SameInputs s t) : mapReason t = mapReason s := by
  funext w
  unfold Machine.mapReason slotsOverlap
  rw [h.slotFirst, h.slotCount, h.wheelOn, h.nMin, h.nReq]

theorem SameInputs.wheelSlots (h : SameInputs s t) : wheelSlots t = wheelSlots s := by
  funext w
  have hcount := congrFun h.slotCount w
  have hfirst := congrFun h.slotFirst w
  unfold Machine.slotCount at hcount
  unfold Machine.slotFirst at hfirst
  unfold Machine.wheelSlots
  rw [hcount, hfirst]

theorem SameInputs.wheelOrder (h : SameInputs s t) (laps : Nat → Nat) : wheelOrder laps t = wheelOrder laps s := by
  have hlap : wheelLap laps t = wheelLap laps s := by
    funext w
    unfold wheelLap ownEnds
    rw [h.wheelSlots, h.sys]
  unfold Machine.wheelOrder
  rw [h.wheelsOn, hlap]

theorem SameInputs.lapsVoid (h : SameInputs s t) (laps : List (Nat × Nat)) : lapsVoid laps t = lapsVoid laps s := by
  have hin : lapIn laps t = lapIn laps s := by
    funext p
    unfold lapIn
    rw [h.lapOf]
  unfold Machine.lapsVoid
  rw [h.lapOf, hin, h.wheelOrder, h.wheelOrder]

/-! # The end of the check (R46, R48) -/

/-- The check no longer runs, and its terms are shown. -/
def budgetShown (tm : Terms) (s : State) : State :=
  showBudget tm (fset Fld.ESC_STATUS_CHECKING 0 { s with esc := { s.esc with checking := none } })

/-- Its result is shown beside them. -/
def budgetReported (tm : Terms) (s : State) : State :=
  fset Fld.ESC_BUDGET_STAT_FIRST_FAIL (budgetFirstFail (budgetShown tm s) tm)
    (fset Fld.ESC_BUDGET_STAT_STATUS
      (if budgetFirstFail (budgetShown tm s) tm = 0 then Status.ok else Status.tooLong).code (budgetShown tm s))

/-- What the check leaves of its verdict `ok`, if nothing has voided it. -/
def judged (tm : Terms) (ok void : Bool) (u : State) : State :=
  { u with esc := { u.esc with
      checkOk := ok && !void, checkVoid := false, usedLaps := if ok then tm.laps else u.esc.usedLaps } }

/-- The accepted terms wait for their boundary, and what the check admits follows (R45, R49, R158). -/
def budgetAccepted (tm : Terms) (s : State) : State :=
  admitChains tm.laps (setRota (lapIn tm.laps s) { s with esc := { s.esc with accepted := some tm } })

theorem onlyRegs.showBudget (h : onlyRegs reportRegs s t) (tm : Terms) : onlyRegs reportRegs s (showBudget tm t) :=
  (((((((h.fset (by decide)).fset (by decide)).fset (by decide)).fset (by decide)).fset (by decide)).regSet
    (by decide)).fset (by decide)).fset (by decide)

/-- The first wheel that the map check refuses. -/
def refusedWheel (s : State) : Option Nat := (List.range 12).find? (fun w => mapReason s w != 0)

/-- What WHL_MAP_STAT shows of the map check. -/
def mapWord (s : State) : Word :=
  match refusedWheel s with
  | some w => BitVec.ofNat 32 (mapReason s w * 65536 + w * 4096 + Status.badParam.code)
  | none => 0

/-- The map check shows its result in one register. -/
theorem mapCheck_eq (s : State) :
    mapCheck s = ((refusedWheel s).isNone, regSet Reg.WHL_MAP_STAT (mapWord s) s) := by
  fun_cases mapCheck s
  case case1 w hw =>
    have hrefused : refusedWheel s = some w := hw
    rw [mapWord, hrefused]
    rfl
  case case2 hnone =>
    have hrefused : refusedWheel s = none := hnone
    rw [mapWord, hrefused]
    rfl

theorem refusedWheel_isNone (s : State) : (refusedWheel s).isNone = true ↔ ∀ w, w < 12 → mapReason s w = 0 := by
  rw [Option.isNone_iff_eq_none, refusedWheel, List.find?_eq_none]
  simp [List.mem_range]

/-- The check runs no more. -/
def unchecked (s : State) : State := { s with esc := { s.esc with checking := none } }

theorem onlyRegs_budgetShown (tm : Terms) (s : State) : onlyRegs reportRegs (unchecked s) (budgetShown tm s) :=
  ((onlyRegs.refl _ (unchecked s)).fset (by decide)).showBudget tm

theorem onlyRegs_budgetReported (tm : Terms) (s : State) : onlyRegs reportRegs (unchecked s) (budgetReported tm s) :=
  ((onlyRegs_budgetShown tm s).fset (by decide)).fset (by decide)

/-- The state that the verdict finds: the results are shown. -/
def budgetMapped (tm : Terms) (s : State) : State :=
  regSet Reg.WHL_MAP_STAT (mapWord (budgetReported tm s)) (budgetReported tm s)

theorem onlyRegs_budgetMapped (tm : Terms) (s : State) : onlyRegs reportRegs (unchecked s) (budgetMapped tm s) :=
  (onlyRegs_budgetReported tm s).regSet (by decide)

theorem SameInputs.of_unchecked (h : onlyRegs reportRegs (unchecked s) t) : SameInputs s t where
  sys := by
    rw [h.1]
    rfl
  regs := h.2

/-- Every condition, the map and the mode let the terms be accepted. -/
def budgetHolds (tm : Terms) (s : State) : Bool :=
  budgetFirstFail s tm == 0 && (refusedWheel s).isNone && s.sys.mode == .commission

theorem SameInputs.refusedWheel (h : SameInputs s t) : refusedWheel t = refusedWheel s := by
  unfold Machine.refusedWheel
  rw [h.mapReason]

theorem budgetHolds_iff (tm : Terms) (s : State) : budgetHolds tm s = true ↔
    budgetFirstFail s tm = 0 ∧ (∀ w, w < 12 → mapReason s w = 0) ∧ s.sys.mode = .commission := by
  unfold budgetHolds
  rw [Bool.and_eq_true, Bool.and_eq_true, refusedWheel_isNone, beq_iff_eq, beq_iff_eq, and_assoc]

/-- The state after the check, from the answer of the map check. -/
def budgetVerdict (tm : Terms) (fail : Nat) (mapOk : Bool) (u : State) : State :=
  let ok := fail == 0 && mapOk && u.sys.mode == .commission
  let v := judged tm ok (u.esc.checkVoid || lapsVoid tm.laps u) u
  if ok then budgetAccepted tm v else v

theorem budgetDone_some {tm : Terms} (h : s.esc.checking = some tm) :
    budgetDone s = budgetVerdict tm (budgetFirstFail (budgetShown tm s) tm) (refusedWheel (budgetReported tm s)).isNone
      (budgetMapped tm s) := by
  fun_cases budgetDone
  case case1 hnone =>
    rw [h] at hnone
    cases hnone
  case case2 tm' htm _ _ _ _ _ mapOk u hmap ok _ _ hok =>
    obtain rfl : tm = tm' := Option.some.inj (h.symm.trans htm)
    obtain ⟨rfl, rfl⟩ := Prod.mk.inj ((mapCheck_eq (budgetReported tm s)).symm.trans hmap)
    exact (if_pos hok).symm
  case case3 tm' htm _ _ _ _ _ mapOk u hmap ok _ _ hok =>
    obtain rfl : tm = tm' := Option.some.inj (h.symm.trans htm)
    obtain ⟨rfl, rfl⟩ := Prod.mk.inj ((mapCheck_eq (budgetReported tm s)).symm.trans hmap)
    exact (if_neg hok).symm

/-- The check ends with its verdict, and what an accepted one admits. -/
theorem budgetDone_eq {tm : Terms} (h : s.esc.checking = some tm) :
    budgetDone s = 
      let v := judged tm (budgetHolds tm s) (s.esc.checkVoid || lapsVoid tm.laps s) (budgetMapped tm s)
      if budgetHolds tm s then budgetAccepted tm v else v := by
  have hframe := onlyRegs_budgetMapped tm s
  have hmapped := SameInputs.of_unchecked hframe
  have hok : (budgetFirstFail (budgetShown tm s) tm == 0 && (refusedWheel (budgetReported tm s)).isNone &&
      (budgetMapped tm s).sys.mode == .commission) = budgetHolds tm s := by
    rw [(SameInputs.of_unchecked (onlyRegs_budgetShown tm s)).budgetFirstFail,
      (SameInputs.of_unchecked (onlyRegs_budgetReported tm s)).refusedWheel, hmapped.sys]
    rfl
  have hvoid : (budgetMapped tm s).esc.checkVoid = s.esc.checkVoid := by
    rw [hframe.1]
    rfl
  rw [budgetDone_some h, budgetVerdict, hok, hvoid, hmapped.lapsVoid]

theorem budgetFirstFail_le (tm : Terms) (s : State) : budgetFirstFail s tm ≤ 9 := by
  unfold budgetFirstFail
  split
  next n b hfind =>
    have hmem := List.mem_of_find?_eq_some hfind
    simp only [budgetConditions, List.mem_cons, Prod.mk.injEq, List.not_mem_nil, or_false] at hmem
    omega
  · exact Nat.zero_le _

/-! ## The results that are shown (R48) -/

/-- The terms of the check as far as they stand before the slack. -/
def budgetTerms (tm : Terms) (s : State) : State :=
  let s := fset Fld.ESC_BUDGET_LAP_LAP (longestLap tm.laps / 20) (fset Fld.ESC_STATUS_CHECKING 0 (unchecked s))
  let s := fset Fld.ESC_BUDGET_SPEC_SPEC (tm.refpt + specTicks s) s
  let s := fset Fld.ESC_BUDGET_CONF_CONF (confTicks s) s
  let c := s.sys.prog.cert
  fset Fld.ESC_BUDGET_WTOT_WTOT c.wtot (fset Fld.ESC_BUDGET_WREF_WREF c.wref s)

theorem onlyRegs_budgetTerms (tm : Terms) (s : State) : onlyRegs reportRegs (unchecked s) (budgetTerms tm s) :=
  ((((((onlyRegs.refl _ (unchecked s)).fset (by decide)).fset (by decide)).fset (by decide)).fset
    (by decide)).fset (by decide)).fset (by decide)

theorem budgetShown_eq (tm : Terms) (s : State) : ∃ n, budgetShown tm s =
    fset Fld.ESC_BUDGET_NCELL_NMAX (cellMax tm.period) (fset Fld.ESC_BUDGET_NCELL_NCELL n
      (regSet Reg.ESC_BUDGET_SLACK (BitVec.ofInt 32 ((budgetSlack (budgetTerms tm s) tm).fdiv 20)) (budgetTerms tm s))) :=
  ⟨_, rfl⟩

/-- The terms leave the flag of the check as it is. -/
theorem budgetTerms_checking (tm : Terms) (s : State) : fget (budgetTerms tm s) Fld.ESC_STATUS_CHECKING = 0 := by
  unfold budgetTerms
  iterate 5 rw [fget_of_regGet_eq (regGet_fset_other _ _ (by decide))]
  exact fget_fset_self _ _ _ (by decide) (by decide)

/-- What the registers of the check show of the terms `tm` in state `s`. -/
structure ShowsBudget (tm : Terms) (s t : State) : Prop where
  checking : fbit t Fld.ESC_STATUS_CHECKING = false
  firstFail : fget t Fld.ESC_BUDGET_STAT_FIRST_FAIL = budgetFirstFail s tm
  status : fget t Fld.ESC_BUDGET_STAT_STATUS = if budgetFirstFail s tm = 0 then Status.ok.code else Status.tooLong.code
  slack : regGet t Reg.ESC_BUDGET_SLACK = BitVec.ofInt 32 ((budgetSlack s tm).fdiv 20)
  nmax : fget t Fld.ESC_BUDGET_NCELL_NMAX = cellMax tm.period % 65536

/-- The registers in which they stand. -/
def shownRegs : List Nat := [Reg.ESC_STATUS, Reg.ESC_BUDGET_STAT, Reg.ESC_BUDGET_SLACK, Reg.ESC_BUDGET_NCELL]

theorem ShowsBudget.of_regs {tm : Terms} (h : ShowsBudget tm s t) (hu : ∀ a ∈ shownRegs, regGet u a = regGet t a) :
    ShowsBudget tm s u where
  checking := (fbit_of_regGet_eq (hu _ (by decide))).trans h.checking
  firstFail := (fget_of_regGet_eq (hu _ (by decide))).trans h.firstFail
  status := (fget_of_regGet_eq (hu _ (by decide))).trans h.status
  slack := (hu _ (by decide)).trans h.slack
  nmax := (fget_of_regGet_eq (hu _ (by decide))).trans h.nmax

theorem budgetShown_shows (tm : Terms) (s : State) :
    fget (budgetShown tm s) Fld.ESC_STATUS_CHECKING = 0 ∧
    regGet (budgetShown tm s) Reg.ESC_BUDGET_SLACK = BitVec.ofInt 32 ((budgetSlack s tm).fdiv 20) ∧
    fget (budgetShown tm s) Fld.ESC_BUDGET_NCELL_NMAX = cellMax tm.period % 65536 := by
  obtain ⟨n, hn⟩ := budgetShown_eq tm s
  rw [hn, (SameInputs.of_unchecked (onlyRegs_budgetTerms tm s)).budgetSlack]
  refine ⟨?_, ?_, fget_fset_self _ _ _ (by decide) (by decide)⟩
  · iterate 2 rw [fget_of_regGet_eq (regGet_fset_other _ _ (by decide))]
    rw [fget_of_regGet_eq (regGet_regSet_other _ _ (by decide))]
    exact budgetTerms_checking tm s
  · iterate 2 rw [regGet_fset_other _ _ (by decide)]
    exact regGet_regSet_self ..

theorem budgetReported_shows (tm : Terms) (s : State) : ShowsBudget tm s (budgetReported tm s) := by
  obtain ⟨hchecking, hslack, hnmax⟩ := budgetShown_shows tm s
  have hfail := (SameInputs.of_unchecked (onlyRegs_budgetShown tm s)).budgetFirstFail tm
  have hother {x : Nat} (hx : x ≠ Reg.ESC_BUDGET_STAT) : regGet (budgetReported tm s) x = regGet (budgetShown tm s) x :=
    (regGet_fset_other _ _ hx).trans (regGet_fset_other _ _ hx)
  refine ⟨?_, ?_, ?_, (hother (by decide)).trans hslack, (fget_of_regGet_eq (hother (by decide))).trans hnmax⟩
  · rw [fbit_of_regGet_eq (hother (by decide)), fbit, hchecking]
    rfl
  · rw [budgetReported, fget_fset_self _ _ _ (by decide) (by decide), hfail]
    exact Nat.mod_eq_of_lt (Nat.lt_of_le_of_lt (budgetFirstFail_le tm s) (by decide))
  · rw [budgetReported, fget_fset_other Fld.ESC_BUDGET_STAT_FIRST_FAIL Fld.ESC_BUDGET_STAT_STATUS _ _ (by decide)
      (by decide) rfl, fget_fset_self _ _ _ (by decide) (by decide), hfail]
    split
    · rfl
    · rfl

theorem budgetMapped_shows (tm : Terms) (s : State) : ShowsBudget tm s (budgetMapped tm s) :=
  (budgetReported_shows tm s).of_regs fun a ha => regGet_regSet_other _ _ fun he => by
    subst he
    exact absurd ha (by decide)

/-! ## What an accepted check admits (R45, R158) -/

/-- The registers of the escapement, the cores, the cells and the wheels. -/
def escScope : Scope := { reg := fun a => a / 0x10000 = 0x4002, stores := True }

theorem escScope_outsideFaults : escScope.OutsideFaults where
  regs a ha hin := by
    rw [show a / 0x10000 = 0x4002 from ha] at hin
    exact absurd hin (by decide)
  bytes _ ha := ha.elim

theorem not_escScope {a : Nat} (ha : 0x40030000 ≤ a) : ¬escScope.reg a := by
  simp only [escScope]
  omega

theorem Spares.setPort {k : Scope} {p : Nat} {x : Port} (h : Spares k s t) : Spares k s (setPort p x t) := h.update

theorem Spares.sendMgmt {k : Scope} {m : MgmtMsg} (h : Spares k s t) : Spares k s (sendMgmt m t) := .ite h.update h

theorem Spares.setPortState {p st fold : Nat} (h : Spares escScope s t) :
    Spares escScope s (setPortState p st fold t) := by
  have hreg : ¬escScope.reg (Reg.RING_PSTAT p) := not_escScope (by unfold Reg.RING_PSTAT; omega)
  have hset : Spares escScope s
      (Machine.fset (Fld.RING_PSTAT_STATE p) st (Machine.fset (Fld.RING_PSTAT_FOLD_POS p) fold t)) :=
    (h.regSet hreg).regSet hreg
  exact .ite hset (hset.faultStep escScope_outsideFaults
    (FaultStep.post (.refl _) (show srcClass _ 3 false < 4 from srcClass_lt ..)))

theorem Spares.setReached {p n : Nat} (h : Spares escScope s t) : Spares escScope s (setReached p n t) :=
  .ite h (h.fset (not_escScope (by simp only [Fld.RING_PSTAT_REACHED, Reg.RING_PSTAT]; omega))).sendMgmt

theorem Spares.readmitPort {p : Nat} (h : Spares escScope s t) : Spares escScope s (readmitPort p t) :=
  .ite h (.ite h.setReached.setPortState h.setPortState)

theorem Spares.admitChains {laps : List (Nat × Nat)} (h : Spares escScope s t) : Spares escScope s (admitChains laps t) :=
  .foldl h fun _ _ _ h1 => .ite (.foldl h1.clearCond fun _ _ _ h2 => h2.setPort.readmitPort) h1

theorem Spares.setRota {laps : Nat → Nat} (h : Spares escScope s t) : Spares escScope s (setRota laps t) :=
  .foldl h fun _ _ _ h1 => h1.regSet (not_escScope (by unfold Reg.WHL_ROTA; omega))

/-- An accepted check writes nothing of the escapement but the accepted terms. -/
theorem Spares.budgetAccepted (tm : Terms) (s : State) :
    Spares escScope { s with esc := { s.esc with accepted := some tm } } (budgetAccepted tm s) :=
  (Spares.refl escScope { s with esc := { s.esc with accepted := some tm } }).setRota.admitChains

theorem shownRegs_named : ∀ a ∈ shownRegs, escScope.reg a := by
  intro a ha
  have hblock : ∀ a ∈ shownRegs, a / 0x10000 = 0x4002 := by decide
  exact hblock a ha

/-! ## The verdict (R46, R49, R50) -/

/-- What stands in every case: the results are shown, and the check is over. -/
structure BudgetOver (tm : Terms) (s t : State) : Prop where
  shows : ShowsBudget tm s t
  checking : t.esc.checking = none
  checkVoid : t.esc.checkVoid = false
  sys : t.sys = s.sys
  time : t.time = s.time
  cores : t.cores = s.cores
  wheels : t.wheels = s.wheels

theorem onlyRegs.parts {as : List Nat} (h : onlyRegs as s t) : t.esc = s.esc ∧ t.sys = s.sys ∧ t.time = s.time ∧
    t.cores = s.cores ∧ t.wheels = s.wheels ∧ t.ports = s.ports ∧ t.mem = s.mem := by
  rw [h.1]
  exact ⟨rfl, rfl, rfl, rfl, rfl, rfl, rfl⟩

theorem ShowsBudget.judged {tm : Terms} (hshows : ShowsBudget tm s u) (h : onlyRegs reportRegs (unchecked s) u)
    (ok void : Bool) : BudgetOver tm s (judged tm ok void u) := by
  obtain ⟨hesc, hsys, htime, hcores, hwheels, -, -⟩ := h.parts
  have hchecking : u.esc.checking = none := by
    rw [hesc]
    rfl
  exact ⟨hshows.of_regs fun _ _ => rfl, hchecking, rfl, hsys, htime, hcores, hwheels⟩

theorem judged_rejects {tm : Terms} (h : onlyRegs reportRegs (unchecked s) u) (void : Bool) :
    (judged tm false void u).esc.accepted = s.esc.accepted ∧ (judged tm false void u).esc.checkOk = false ∧
      (judged tm false void u).ports = s.ports ∧ (judged tm false void u).mem = s.mem := by
  obtain ⟨hesc, -, -, -, -, hports, hmem⟩ := h.parts
  have haccepted : u.esc.accepted = s.esc.accepted := by
    rw [hesc]
    rfl
  exact ⟨haccepted, rfl, hports, hmem⟩

theorem budgetAccepted_judged {tm : Terms} (void : Bool) (u : State) :
    let t := budgetAccepted tm (judged tm true void u)
    t.esc.accepted = some tm ∧ t.esc.usedLaps = tm.laps ∧ t.esc.checkOk = !void := by
  dsimp only
  rw [(Spares.budgetAccepted tm _).esc]
  exact ⟨rfl, rfl, Bool.true_and _⟩

theorem BudgetOver.accepted {tm : Terms} (h : BudgetOver tm s t) : BudgetOver tm s (budgetAccepted tm t) := by
  have hkeep := Spares.budgetAccepted tm t
  obtain ⟨hcores, -, hwheels⟩ := hkeep.stores trivial
  refine ⟨h.shows.of_regs fun a ha => hkeep.regs a (shownRegs_named a ha), ?_, ?_, hkeep.sys.trans h.sys,
    hkeep.time.trans h.time, hcores.trans h.cores, hwheels.trans h.wheels⟩
  · rw [hkeep.esc]
    exact h.checking
  · rw [hkeep.esc]
    exact h.checkVoid

theorem budgetDone_over {tm : Terms} (h : s.esc.checking = some tm) : BudgetOver tm s (budgetDone s) := by
  have hover := (budgetMapped_shows tm s).judged (onlyRegs_budgetMapped tm s) (budgetHolds tm s)
    (s.esc.checkVoid || lapsVoid tm.laps s)
  rw [budgetDone_eq h]
  split
  · exact hover.accepted
  · exact hover

/-- When every condition held, the terms are accepted (R49, R50). -/
theorem budgetDone_accepts {tm : Terms} (h : s.esc.checking = some tm) (hok : budgetHolds tm s = true) :
    (budgetDone s).esc.accepted = some tm ∧ (budgetDone s).esc.usedLaps = tm.laps ∧
      (budgetDone s).esc.checkOk = !(s.esc.checkVoid || lapsVoid tm.laps s) := by
  rw [budgetDone_eq h, hok]
  exact budgetAccepted_judged _ _

/-- When one failed, nothing of the chains and the memory changes. -/
theorem budgetDone_rejects {tm : Terms} (h : s.esc.checking = some tm) (hok : budgetHolds tm s = false) :
    (budgetDone s).esc.accepted = s.esc.accepted ∧ (budgetDone s).esc.checkOk = false ∧
      (budgetDone s).ports = s.ports ∧ (budgetDone s).mem = s.mem := by
  rw [budgetDone_eq h, hok]
  exact judged_rejects (onlyRegs_budgetMapped tm s) _

/-! # The terms take effect (R49) -/

/-- What follows a change of the period or of the reach: filters, relays and messages, nothing of the escapement. -/
structure FollowsTerms (s t : State) : Prop where
  frame : t = { s with regs := t.regs, btn := t.btn, front := t.front }
  regs : ∀ a, a / 0x10000 = 0x4002 → regGet t a = regGet s a

theorem FollowsTerms.refl (s : State) : FollowsTerms s s := ⟨rfl, fun _ _ => rfl⟩

theorem FollowsTerms.regSet {a : Nat} {v : Word} (h : FollowsTerms s t) (ha : 0x40030000 ≤ a) :
    FollowsTerms s (regSet a v t) where
  frame := by
    rw [Machine.regSet, h.frame]
  regs x hx := (regGet_regSet_other v t (by omega)).trans (h.regs x hx)

theorem FollowsTerms.setChan {n : Nat} {c : Chan} (h : FollowsTerms s t) : FollowsTerms s (setChan n c t) where
  frame := by
    rw [Machine.setChan, h.frame]
  regs := h.regs

theorem FollowsTerms.ite {c : Prop} [Decidable c] (h : FollowsTerms s t) (h' : FollowsTerms s u) :
    FollowsTerms s (if c then t else u) := by
  split
  · exact h
  · exact h'

theorem FollowsTerms.foldl {β : Type} {f : State → β → State} {l : List β} (h : FollowsTerms s t)
    (hf : ∀ u x, FollowsTerms s u → FollowsTerms s (f u x)) : FollowsTerms s (l.foldl f t) := by
  induction l generalizing t with
  | nil => exact h
  | cons x l ih => exact ih (hf t x h)

theorem FollowsTerms.sendMgmt {m : MgmtMsg} (h : FollowsTerms s t) : FollowsTerms s (sendMgmt m t) := by
  refine .ite ⟨?_, h.regs⟩ h
  rw [h.frame]

theorem FollowsTerms.settleReach {p : Nat} (h : FollowsTerms s t) : FollowsTerms s (settleReach p t) := by
  unfold Machine.settleReach
  split
  · exact h
  next ch _ _ =>
    refine .ite h (.sendMgmt (.ite ?_ h))
    have hreg : 0x40030000 ≤ Reg.MIR_RLY ch.num := by
      unfold Reg.MIR_RLY
      omega
    exact (h.regSet hreg).regSet hreg

theorem FollowsTerms.showFilter {n : Nat} (h : FollowsTerms s t) : FollowsTerms s (showFilter n t) := by
  have hfill : FollowsTerms s (fset (Fld.FLT_FILL_N_FILL n) (nFill t n) t) :=
    h.regSet (by simp only [Fld.FLT_FILL_N_FILL, Reg.FLT_FILL]; omega)
  exact .ite hfill ((hfill.regSet (by unfold Reg.FLT_GD_1; omega)).regSet (by unfold Reg.FLT_GD_0; omega))

theorem FollowsTerms.newPeriod (h : FollowsTerms s t) : FollowsTerms s (newPeriod t) :=
  .foldl h fun _ _ h1 => .showFilter (.ite (.ite h1 h1.setChan) h1)

theorem settleReach_alone (h : inPair s = false) (p : Nat) : settleReach p s = s := by
  unfold settleReach
  split
  · rfl
  · rw [if_pos (by simp [h])]

theorem foldl_settleReach_alone (h : inPair s = false) (ps : List Nat) :
    ps.foldl (fun s p => if (port s p).swept then settleReach p s else s) s = s := by
  induction ps with
  | nil => rfl
  | cons p ps ih => rw [List.foldl_cons, settleReach_alone h, ite_self, ih]

/-- The registers of the five terms. -/
def termRegs : List Nat := [Reg.ESC_PERIOD, Reg.ESC_APPLY, Reg.ESC_LEAD, Reg.ESC_REFPT, Reg.ESC_REPAIR]

/-- The terms stand in their registers. -/
def termsWritten (tm : Terms) (s : State) : State :=
  fset Fld.ESC_PERIOD_PERIOD tm.period (fset Fld.ESC_APPLY_APPLY tm.apply (fset Fld.ESC_LEAD_LEAD tm.lead
    (fset Fld.ESC_REFPT_REFPT tm.refpt (fset Fld.ESC_REPAIR_REPAIR tm.repair s))))

theorem onlyRegs_termsWritten (tm : Terms) (s : State) : onlyRegs termRegs s (termsWritten tm s) :=
  (((((onlyRegs.refl _ s).fset (by decide)).fset (by decide)).fset (by decide)).fset (by decide)).fset (by decide)

/-- What the registers of the terms show. -/
structure ShowsTerms (tm : Terms) (t : State) : Prop where
  period : fget t Fld.ESC_PERIOD_PERIOD = tm.period % 2 ^ 15
  apply : fget t Fld.ESC_APPLY_APPLY = tm.apply % 2 ^ 15
  lead : fget t Fld.ESC_LEAD_LEAD = tm.lead % 2 ^ 12
  refpt : fget t Fld.ESC_REFPT_REFPT = tm.refpt % 2 ^ 15
  repair : fget t Fld.ESC_REPAIR_REPAIR = tm.repair % 2 ^ 12

theorem termsWritten_shows (tm : Terms) (s : State) : ShowsTerms tm (termsWritten tm s) := by
  unfold termsWritten
  refine ⟨fget_fset_self _ _ _ (by decide) (by decide), ?_, ?_, ?_, ?_⟩
  · rw [fget_of_regGet_eq (regGet_fset_other _ _ (by decide))]
    exact fget_fset_self _ _ _ (by decide) (by decide)
  · iterate 2 rw [fget_of_regGet_eq (regGet_fset_other _ _ (by decide))]
    exact fget_fset_self _ _ _ (by decide) (by decide)
  · iterate 3 rw [fget_of_regGet_eq (regGet_fset_other _ _ (by decide))]
    exact fget_fset_self _ _ _ (by decide) (by decide)
  · iterate 4 rw [fget_of_regGet_eq (regGet_fset_other _ _ (by decide))]
    exact fget_fset_self _ _ _ (by decide) (by decide)

theorem ShowsTerms.of_regs {tm : Terms} (h : ShowsTerms tm t) (hu : ∀ a ∈ termRegs, regGet u a = regGet t a) :
    ShowsTerms tm u where
  period := (fget_of_regGet_eq (hu _ (by decide))).trans h.period
  apply := (fget_of_regGet_eq (hu _ (by decide))).trans h.apply
  lead := (fget_of_regGet_eq (hu _ (by decide))).trans h.lead
  refpt := (fget_of_regGet_eq (hu _ (by decide))).trans h.refpt
  repair := (fget_of_regGet_eq (hu _ (by decide))).trans h.repair

theorem ShowsTerms.follow {tm : Terms} (h : ShowsTerms tm t) (hu : FollowsTerms t u) : ShowsTerms tm u := by
  have hblock : ∀ a ∈ termRegs, a / 0x10000 = 0x4002 := by decide
  exact h.of_regs fun a ha => hu.regs a (hblock a ha)

/-- The terms are in force, and no accepted ones wait. -/
def termsInForce (tm : Terms) (s : State) : State :=
  let g := s.esc.staged
  let u := termsWritten tm s
  setEsc { u.esc with
    accepted := none, j := cyclesPerSecond u - 1,
    staged := ⟨unstage g.period tm.period, unstage g.lead tm.lead, unstage g.refpt tm.refpt, unstage g.repair tm.repair⟩ } u

theorem termsInForce_shows (tm : Terms) (s : State) : ShowsTerms tm (termsInForce tm s) :=
  (termsWritten_shows tm s).of_regs fun _ _ => rfl

theorem onlyRegs.setEsc {as : List Nat} (h : onlyRegs as s t) (e : Esc) :
    setEsc e t = { s with regs := t.regs, esc := e } ∧ regsBut as s (setEsc e t) := by
  refine ⟨?_, h.2.of_regs_eq rfl⟩
  rw [Machine.setEsc, h.1]

theorem termsInForce_frame (tm : Terms) (s : State) : ∃ e : Esc, e.accepted = none ∧
    termsInForce tm s = { s with regs := (termsWritten tm s).regs, esc := e } ∧ regsBut termRegs s (termsInForce tm s) :=
  ⟨_, rfl, (onlyRegs_termsWritten tm s).setEsc _⟩

/-- Nothing takes effect without accepted terms, outside COMMISSION, or between second boundaries. -/
theorem timingParams_waits
    (h : s.esc.accepted = none ∨ s.sys.mode ≠ .commission ∨ (escRunning s = true ∧ (nextIndex s).2.1 ≠ 0)) :
    timingParams s = s := by
  unfold timingParams
  split
  · rfl
  next tm htm =>
    refine if_pos ?_
    rcases h with hnone | hmode | ⟨hrun, hindex⟩
    · rw [htm] at hnone
      cases hnone
    · simp [hmode]
    · simp [hrun, hindex]

theorem timingParams_takes {tm : Terms} (h : s.esc.accepted = some tm) (hmode : s.sys.mode = .commission)
    (hindex : escRunning s = false ∨ (nextIndex s).2.1 = 0) :
    timingParams s =
      let u := (mappedPorts (termsInForce tm s)).foldl (fun s p => if (port s p).swept then settleReach p s else s)
        (termsInForce tm s)
      if tm.period != periodTicks s then newPeriod u else u := by
  unfold timingParams
  rw [h]
  refine if_neg ?_
  rcases hindex with hrun | hindex
  · simp [hmode, hrun]
  · simp [hmode, hindex]

theorem followsTerms_timingParams {tm : Terms} (h : s.esc.accepted = some tm) (hmode : s.sys.mode = .commission)
    (hindex : escRunning s = false ∨ (nextIndex s).2.1 = 0) : FollowsTerms (termsInForce tm s) (timingParams s) := by
  have hreach : FollowsTerms (termsInForce tm s) ((mappedPorts (termsInForce tm s)).foldl
      (fun s p => if (port s p).swept then settleReach p s else s) (termsInForce tm s)) :=
    .foldl (.refl _) fun _ _ h1 => .ite h1.settleReach h1
  rw [timingParams_takes h hmode hindex]
  exact .ite hreach.newPeriod hreach

theorem timingParams_same {tm : Terms} (h : s.esc.accepted = some tm) (hmode : s.sys.mode = .commission)
    (hindex : escRunning s = false ∨ (nextIndex s).2.1 = 0) (hperiod : tm.period = periodTicks s)
    (hpair : inPair s = false) : timingParams s = termsInForce tm s := by
  rw [timingParams_takes h hmode hindex]
  dsimp only
  rw [hperiod, bne_self_eq_false, if_neg (by decide)]
  exact foldl_settleReach_alone (s := termsInForce tm s) hpair _

/-- Settles O39: staging and the end of the check each have one equation, and the results stand in registers that no
later write of the check reaches. -/
theorem theBudgetCheckDecidesByItsConditions : Obligations.TheBudgetCheckDecidesByItsConditions := by
  intro s o a val commission g
  refine ⟨fun h => congrArg _ (escTiming_other h o val s), fun p hp ha => ?_, fun h => ?_, fun st h => ?_, fun h => ?_,
    fun tm h => ?_, fun h => congrArg _ (timingParams_waits h), fun tm h hmode hindex => ?_⟩
  · intro checks
    obtain ⟨htiming, hstage⟩ := stageTiming_stages (s := s) (v := val) hp
    rw [← ha] at htiming hstage
    obtain ⟨hdoes, hrefuses⟩ := escTiming_does (s := s) (o := o) (v := val) htiming
    exact ⟨fun hnone => congrArg _ ((hdoes hnone).trans hstage), fun st hsome => ⟨_, rfl, hrefuses st hsome⟩⟩
  · exact ⟨_, congrArg (fun r : State × Status => Host.Outcome.next r.1) (escCheckGo_starts h), checkStarted_does s⟩
  · refine ⟨_, rfl, ?_⟩
    rw [escCheckGo_eq]
    exact refusedWrite_checkWrite h s
  · exact congrArg _ (show budgetDone s = s by unfold budgetDone; rw [h])
  · intro fail ok
    have hover := budgetDone_over h
    have hok : budgetHolds tm s = true ↔ ok := budgetHolds_iff tm s
    exact ⟨_, rfl, hover.checking, hover.shows.checking, hover.shows.firstFail, hover.shows.status, hover.shows.slack,
      hover.shows.nmax, fun h1 => budgetDone_accepts h (hok.mpr h1),
      fun h1 => budgetDone_rejects h (Bool.eq_false_iff.mpr fun h2 => h1 (hok.mp h2)), hover.checkVoid, hover.sys,
      hover.time, hover.cores, hover.wheels⟩
  · have hfollow := followsTerms_timingParams h hmode hindex
    have hshows := (termsInForce_shows tm s).follow hfollow
    obtain ⟨e, haccepted, hframe, hregs⟩ := termsInForce_frame tm s
    have hall : timingParams s = { s with
        regs := (timingParams s).regs, esc := e, btn := (timingParams s).btn, front := (timingParams s).front } := by
      rw [hfollow.frame, hframe]
    refine ⟨_, rfl, hshows.period, hshows.apply, hshows.lead, hshows.refpt, hshows.repair, ?_, ?_, ?_, fun hp hpair => ?_⟩
    · rw [hall]
      exact haccepted
    · rw [hall]
    · rw [hall]
    · rw [timingParams_same h hmode hindex hp hpair]
      refine ⟨?_, hregs⟩
      rw [hframe]

end Sys2Proof.Machine
end

section
namespace Sys2Proof.Machine

/-! # What fixes a cycle stands while everything that waits is adopted (R13, R38, R165)

`Calm s t`: the work that leads from `s` to `t` moves neither the clock nor the start, the number and the progress of
the cycle, and brings no report to a cell that has none. One lemma per operation that branches; an operation that does
not is `Calm.update`. -/

variable {s t u : State}

/-- The clock, and what a cycle is from its release on: its second, index and start, and the instants it has passed. -/
structure CycleMark where
  cnt : Nat
  epoch : Epoch
  sec : Nat
  j : Nat
  tk : Nat
  refDone : Bool
  cutDone : Bool

def cycleMark (s : State) : CycleMark :=
  ⟨s.time.cnt, s.time.epoch, s.esc.sec, s.esc.j, s.esc.tk, s.esc.refDone, s.esc.cutDone⟩

/-- No report of the cycle is here, on time or late. -/
def unheard (x : Cell) : Prop := x.here = false ∧ x.late = none

structure Calm (s t : State) : Prop where
  mark : cycleMark t = cycleMark s
  cells : ∀ i, unheard (cell s i) → unheard (cell t i)

theorem Calm.refl (s : State) : Calm s s := ⟨rfl, fun _ => id⟩

theorem Calm.fst_of_eq {β : Type} {p : State × β} {b : β} (hp : p = (u, b)) (h : Calm s p.1) : Calm s u := by
  subst hp
  exact h

theorem Calm.snd_of_eq {β : Type} {p : β × State} {b : β} (hp : p = (b, u)) (h : Calm s p.2) : Calm s u := by
  subst hp
  exact h

theorem Calm.ite {c : Prop} [Decidable c] (h : Calm s t) (h' : Calm s u) : Calm s (if c then t else u) := by
  split
  · exact h
  · exact h'

theorem Calm.ite_fst {β : Type} {c : Prop} [Decidable c] {p q : State × β} (h : Calm s p.1) (h' : Calm s q.1) :
    Calm s (if c then p else q).1 := by
  split
  · exact h
  · exact h'

theorem Calm.ite_snd {β : Type} {c : Prop} [Decidable c] {p q : β × State} (h : Calm s p.2) (h' : Calm s q.2) :
    Calm s (if c then p else q).2 := by
  split
  · exact h
  · exact h'

theorem Calm.foldl {β : Type} {f : State → β → State} {l : List β} (h : Calm s t)
    (hf : ∀ u x, Calm s u → Calm s (f u x)) : Calm s (l.foldl f t) := by
  induction l generalizing t with
  | nil => exact h
  | cons x l ih => exact ih (hf t x h)

theorem Calm.foldl_snd {β γ : Type} {f : γ × State → β → γ × State} {l : List β} {p : γ × State}
    (h : Calm s p.2) (hf : ∀ q x, Calm s q.2 → Calm s (f q x).2) : Calm s (l.foldl f p).2 := by
  induction l generalizing p with
  | nil => exact h
  | cons x l ih => exact ih (hf p x h)

/-- Only the clock, the escapement and the cells count. -/
theorem Calm.update (h : Calm s t)
    {pend fc regs pub latches bank staged mem hidden user sys sch fco saf btn cores eng recent wheels ports svc loops meas
      front chr eth fio} :
    Calm s ⟨pend, fc, regs, pub, latches, bank, staged, mem, hidden, user, sys, t.time, t.esc, sch, fco, saf, btn, cores,
      eng, recent, t.cells, wheels, ports, svc, loops, meas, front, chr, eth, fio⟩ := ⟨h.mark, h.cells⟩

/-- Of the escapement, only the number, the start and the progress of the cycle count. -/
theorem Calm.setEsc {e : Esc} (h : Calm s t) (he :
    (⟨t.time.cnt, t.time.epoch, e.sec, e.j, e.tk, e.refDone, e.cutDone⟩ : CycleMark) = cycleMark t) :
    Calm s (setEsc e t) := ⟨he.trans h.mark, h.cells⟩

theorem Calm.setCell {i : Nat} {x : Cell} (h : Calm s t) (hx : unheard (cell t i) → unheard x) :
    Calm s (setCell i x t) where
  mark := h.mark
  cells j hj := by
    rw [cell_setCell]
    split
    next he =>
      subst he
      exact hx (h.cells _ hj)
    · exact h.cells j hj

/-! ## Registers, memory, occurrences and refusals -/

theorem Calm.regSet {a : Nat} {v : Word} (h : Calm s t) : Calm s (regSet a v t) := h.update

theorem Calm.fset {f : Field} {v : Nat} (h : Calm s t) : Calm s (fset f v t) := h.update

theorem Calm.bump {a : Nat} (h : Calm s t) : Calm s (bump a t) := h.update

theorem Calm.setSplitRegs {a : Nat} {v : Split} (h : Calm s t) : Calm s (setSplitRegs a v t) := h.regSet.regSet.regSet

theorem Calm.memWriteBytes {a : Nat} {bs : List Byte} (h : Calm s t) : Calm s (memWriteBytes a bs t) := h.update

theorem Calm.eccPass {a n : Nat} (h : Calm s t) : Calm s (eccPass a n t) := by
  unfold Machine.eccPass
  extract_lets lo hi
  split
  · exact h.update
  · split
    · exact h.update
    · exact h.update

theorem Calm.putBytes {a : Nat} {bs : List Byte} (h : Calm s t) : Calm s (putBytes a bs t) := h.eccPass.memWriteBytes

theorem Calm.faultStep (h : Calm s t) (hu : FaultStep t u) : Calm s u := by
  obtain ⟨hframe, -, -, -⟩ := hu.frame
  refine ⟨?_, fun i hi => ?_⟩
  · rw [← h.mark, hframe]
    rfl
  · rw [hframe]
    exact h.cells i hi

theorem Calm.occur {d : Detection} (h : Calm s t) (hd : d.src < 64) : Calm s (occur d t) :=
  h.faultStep (.occur (.refl t) hd)

theorem Calm.post {e : Event} (h : Calm s t) (he : e.cls < 4) : Calm s (post e t) := h.faultStep (.post (.refl t) he)

theorem Calm.raiseCond {src inst master access : Nat} (h : Calm s t) (hsrc : src < 64) :
    Calm s (raiseCond src inst master access t) := h.faultStep (.raiseCond (.refl t) hsrc)

theorem Calm.clearCond {src inst : Nat} (h : Calm s t) : Calm s (clearCond src inst t) := h.update

theorem Calm.condIs {b : Bool} {src inst master : Nat} (h : Calm s t) (hsrc : src < 64) :
    Calm s (condIs b src inst master t) := h.faultStep (.condIs (.refl t) hsrc)

theorem Calm.logRefusal {cmd block origin : Nat} {st : Status} {session : Word} (h : Calm s t) :
    Calm s (logRefusal cmd block st origin session t) := h.update

theorem Calm.refuseWrite {a : Nat} {st : Status} {o : Origin} (h : Calm s t) : Calm s (refuseWrite a st o t).1 :=
  h.logRefusal

theorem Calm.checkWrite {a : Nat} {o : Origin} {checks : List (Bool × Status)} {act : State → State} (h : Calm s t)
    (hact : Calm s (act t)) : Calm s (checkWrite a o checks act t).1 := by
  unfold Machine.checkWrite
  split
  · exact h.refuseWrite
  · exact hact

/-! ## Scheduler, time and cores -/

theorem Calm.settleC0Held (h : Calm s t) : Calm s (settleC0Held t) := .ite h h.fset.clearCond

theorem Calm.schedReset (h : Calm s t) : Calm s (schedReset t) := .settleC0Held (.update (.foldl h fun _ _ h1 => h1.fset))

theorem Calm.refState (h : Calm s t) : Calm s (refState t) :=
  .ite h.fset.fset.clearCond (.ite h (h.fset.fset.bump.raiseCond (by decide)))

theorem Calm.selectRef (h : Calm s t) : Calm s (selectRef t) := .ite h.refState h.fset.fset.clearCond

theorem Calm.setServo {n : Nat} (h : Calm s t) : Calm s (setServo n t) := by
  have hgood : Calm s (if n = servoFree then { t with time := { t.time with good := 0 } } else t) :=
    .ite ⟨h.mark, h.cells⟩ h
  exact hgood.fset.fset.condIs (by decide)

theorem Calm.enterCore {c : Nat} (h : Calm s t) : Calm s (enterCore c t) := h.update

/-! ## Cells and wheels -/

theorem Calm.startBypass {w slot : Nat} (h : Calm s t) : Calm s (startBypass w slot t) :=
  .bump (h.setCell fun hx => hx)

theorem Calm.fatalBypass {w slot : Nat} (h : Calm s t) : Calm s (fatalBypass w slot t) := .ite h.startBypass h

theorem Calm.cellCommand {w slot : Nat} {o : Origin} {checks : List (Bool × Status)} {act : State → State}
    (h : Calm s t) (hact : Calm s (act t)) : Calm s (cellCommand w slot o checks act t).1 := (h.checkWrite hact).fset.fset

theorem Calm.whlWithdraw {o : Origin} {w slot : Nat} (h : Calm s t) : Calm s (whlWithdraw o w slot t).1 :=
  h.cellCommand (h.setCell fun hx => hx)

theorem Calm.whlReturn {o : Origin} {w slot : Nat} (h : Calm s t) : Calm s (whlReturn o w slot t).1 :=
  h.cellCommand (h.setCell fun hx => hx)

theorem Calm.whlBypass {o : Origin} {w slot : Nat} (h : Calm s t) : Calm s (whlBypass o w slot t).1 :=
  h.cellCommand h.startBypass

theorem Calm.setWheel {w : Nat} {x : Wheel} (h : Calm s t) : Calm s (setWheel w x t) := h.update

theorem Calm.wheelEnterRun {w : Nat} (h : Calm s t) : Calm s (wheelEnterRun w t) :=
  .foldl h.setWheel.regSet.fset.fset fun _ _ h1 => .fatalBypass (.fset (h1.setCell fun hx => hx))

theorem Calm.whlTrcEnable {o : Origin} {val : Word} (h : Calm s t) : Calm s (whlTrcEnable o val t).1 :=
  h.checkWrite (.regSet (.ite (.regSet (.regSet h.update)) h))

/-! ## The pair -/

theorem Calm.sendMgmt {m : MgmtMsg} (h : Calm s t) : Calm s (sendMgmt m t) := .ite h.update h

theorem Calm.applyRole (h : Calm s t) : Calm s (applyRole t) := by
  unfold Machine.applyRole
  split
  · exact h
  · extract_lets due active ho _ _ s1 s2 s3 s4 s5 s6
    have hs2 : Calm s s2 := .ite h.update h.update
    have hs4 : Calm s s4 := hs2.setSplitRegs.fset.fset
    have hs6 : Calm s s6 := .ite (.bump (.ite hs4.bump hs4)) (.ite hs4.bump hs4)
    exact .ite h (.ite hs6.bump hs6)

theorem Calm.settleLanes (h : Calm s t) : Calm s (settleLanes t) :=
  .condIs (.condIs (.ite h.fset.fset.fset h.fset.fset) (by decide)) (by decide)

theorem Calm.disableLanes (h : Calm s t) : Calm s (disableLanes t) :=
  .foldl h fun _ _ h1 => .ite h1 (.ite h1.fset.settleLanes h1)

/-! ## The front end -/

theorem Calm.showFilter {n : Nat} (h : Calm s t) : Calm s (showFilter n t) := .ite h.fset h.fset.regSet.regSet

theorem Calm.setChan {n : Nat} {c : Chan} (h : Calm s t) : Calm s (setChan n c t) := h.update

theorem Calm.askReset {b n : Nat} (h : Calm s t) : Calm s (askReset b n t) := .ite h h.setChan

theorem Calm.showRatio {span n : Nat} (h : Calm s t) : Calm s (showRatio span n t) := h.regSet.regSet

theorem Calm.showRatios (h : Calm s t) : Calm s (showRatios t) := .foldl h fun _ _ h1 => h1.showRatio

theorem Calm.requestSync (h : Calm s t) : Calm s (requestSync t) := by
  unfold Machine.requestSync
  split
  · exact h
  · exact .fset h.update

theorem Calm.fltSyncGo {o : Origin} (h : Calm s t) : Calm s (fltSyncGo o t).1 := (h.checkWrite h.requestSync).fset

/-- The equation of `adoptFlt` is too large to unfold by; its body is taken as it stands. -/
theorem Calm.adoptFlt {a : Nat} {v : Word} (h : Calm s t) : Calm s (adoptFlt a v t) := by
  generalize hf : @Machine.adoptFlt = f
  delta Machine.adoptFlt at hf
  subst hf
  beta_reduce
  split
  · exact h
  · extract_lets only s1 s2
    have hs2 : Calm s s2 := h.regSet.fset
    exact .ite hs2 hs2.askReset.showFilter

theorem Calm.adoptChans {was : State} (h : Calm s t) : Calm s (adoptChans was t) :=
  .foldl h fun _ _ h1 => .ite (.ite h1 h1.fset) (.showFilter (.askReset (.fset (.ite h1 h1.fset))))

theorem Calm.svRateChanged {st : Nat} (h : Calm s t) : Calm s (svRateChanged st t) :=
  .foldl h.update fun _ _ h1 => .ite h1.setChan.showFilter h1

theorem Calm.fgcalGo {o : Origin} {val : Word} (h : Calm s t) : Calm s (fgcalGo o val t).1 := by
  unfold Machine.fgcalGo
  split
  next s1 _ hp =>
    have hs1 : Calm s s1 := .fst_of_eq hp (h.checkWrite (.foldl (.fset (.fset (.fset h.update))) fun _ _ h1 =>
      .ite h1.setChan h1))
    exact hs1.fset

theorem Calm.adoptChCfg {n : Nat} {v : Word} (h : Calm s t) : Calm s (adoptChCfg n v t) := by
  have hcfg : Calm s (Machine.regSet (Reg.FAD_CH_CFG n) (v &&& (if n % 2 = 0 then 3 else 1)) t) := h.regSet
  exact .showFilter (.setChan (.fset (.ite hcfg.fset hcfg)))

theorem Calm.adoptWin {n off : Nat} {v : Word} (h : Calm s t) : Calm s (adoptWin n off v t) := by
  unfold Machine.adoptWin
  extract_lets s1 _
  have hs1 : Calm s s1 := by
    unfold s1
    split
    · exact h.regSet
    · exact h.regSet
    · exact h.regSet
  exact hs1.setChan

theorem Calm.setHka {x : Hka} (h : Calm s t) : Calm s (setHka x t) := h.update

theorem Calm.showHka (h : Calm s t) : Calm s (showHka t) := h.fset.fset.fset.fset

theorem Calm.calFollows {after : Nat} (h : Calm s t) : Calm s (calFollows after t) := .ite h.setHka h.setHka

theorem Calm.beginScan (h : Calm s t) : Calm s (beginScan t) := h.setHka.setSplitRegs.showHka

theorem Calm.scanStart (h : Calm s t) : Calm s (scanStart t) := by
  unfold Machine.scanStart
  extract_lets h1
  split
  · exact h
  · split
    · exact h.bump
    · split
      · exact .ite h.beginScan h.bump
      · exact h.beginScan

theorem Calm.hkaScanGo {o : Origin} (h : Calm s t) : Calm s (hkaScanGo o t).1 := h.checkWrite (.ite h h.scanStart)

theorem Calm.hkaInjReq {o : Origin} {val : Word} (h : Calm s t) : Calm s (hkaInjReq o val t).1 := by
  unfold Machine.hkaInjReq
  split
  next s1 _ hp =>
    have hs1 : Calm s s1 := .fst_of_eq hp (h.checkWrite h.setHka.fset.fset.showHka)
    exact .ite hs1.bump.fset hs1

theorem Calm.hkaCalGo {o : Origin} (h : Calm s t) : Calm s (hkaCalGo o t).1 := h.checkWrite h.calFollows.showHka

theorem Calm.hkaCommission (h : Calm s t) : Calm s (hkaCommission t) :=
  .ite h.setHka.fset.calFollows.showHka h.setHka.fset

/-! ## Loops -/

theorem Calm.setLoop {e : Nat} {x : Loop} (h : Calm s t) : Calm s (setLoop e x t) := h.update

theorem Calm.winSet {e off : Nat} {v : Word} (h : Calm s t) : Calm s (winSet e off v t) := h.memWriteBytes

theorem Calm.winSetAll {e off : Nat} {vs : List Word} (h : Calm s t) : Calm s (winSetAll e off vs t) := h.memWriteBytes

theorem Calm.setLoopMode {e m : Nat} (h : Calm s t) : Calm s (setLoopMode e m t) := .ite h h.fset.regSet.setLoop.winSet

theorem Calm.loopSetModeTo {e m : Nat} (h : Calm s t) : Calm s (loopSetModeTo e m t).1 :=
  .ite_fst h (.ite_fst h h.setLoopMode)

theorem Calm.adoptBlock {e : Nat} {b : LoopBlock} (h : Calm s t) : Calm s (adoptBlock e b t).1 :=
  .ite_fst h (.ite_fst h.bump (.ite_fst (.winSetAll (.foldl h fun _ _ h1 => h1.winSet)) h))

theorem Calm.adoptLoop {e : Nat} (h : Calm s t) : Calm s (adoptLoop e t) := by
  unfold Machine.adoptLoop
  extract_lets _ s1 _
  have hs1 : Calm s s1 := by
    unfold s1
    split
    · exact .ite h.setLoop.loopSetModeTo h
    · exact h
  split
  · exact hs1
  · split
    · exact hs1
    · split
      next s2 _ hp =>
        have hs2 : Calm s s2 := .fst_of_eq hp hs1.setLoop.adoptBlock
        exact .regSet (.regSet (.ite hs2.update hs2))

theorem Calm.loadEngine {e : Nat} {r : EngineRec} (h : Calm s t) : Calm s (loadEngine e r t) :=
  .foldl h.setLoopMode.winSetAll.winSetAll.winSetAll fun _ _ h1 => .ite h1.winSet h1.setLoop

theorem Calm.adoptEngines (h : Calm s t) : Calm s (adoptEngines t) := by
  unfold Machine.adoptEngines
  split
  · exact h
  · extract_lets k
    split
    · exact h.bump
    · refine .foldl h fun _ _ h1 => ?_
      split
      · exact .ite h1.loadEngine (.ite h1.bump h1)
      · exact h1

theorem Calm.loopFromBoot {e : Nat} (h : Calm s t) : Calm s (loopFromBoot e t) :=
  .winSetAll (.winSetAll (.foldl h.setLoop.setLoopMode fun _ _ h1 => h1.winSet))

/-! ## Ports and sweeps -/

theorem Calm.setPort {p : Nat} {x : Port} (h : Calm s t) : Calm s (setPort p x t) := h.update

theorem Calm.setPortState {p st fold : Nat} (h : Calm s t) : Calm s (setPortState p st fold t) :=
  .ite h.fset.fset (h.fset.fset.post (show srcClass _ 3 false < 4 from srcClass_lt ..))

theorem Calm.setReached {p n : Nat} (h : Calm s t) : Calm s (setReached p n t) := .ite h h.fset.sendMgmt

theorem Calm.startSweep {p : Nat} (h : Calm s t) : Calm s (startSweep p t) := .ite h (.ite h.setPort h.setPort.sendMgmt)

theorem Calm.wanted {p : Nat} (h : Calm s t) : Calm s (wanted p t) := .ite h.startSweep h

theorem Calm.dropRequests {p : Nat} {owner : SvcOwner} (h : Calm s t) : Calm s (dropRequests p owner t) := h.setPort.fset

theorem Calm.endSweep {p : Nat} {broken : Bool} (h : Calm s t) : Calm s (endSweep p broken t) := by
  unfold Machine.endSweep
  split
  · exact h
  · extract_lets _ s1 s2
    have hs2 : Calm s s2 := h.setPort.dropRequests.sendMgmt
    split
    · exact hs2.wanted
    · exact hs2

theorem Calm.breakSweep {p : Nat} (h : Calm s t) : Calm s (breakSweep p t) := by
  unfold Machine.breakSweep
  split
  · exact .ite h.endSweep h
  · exact h

theorem Calm.leaveHeal {p : Nat} (h : Calm s t) : Calm s (leaveHeal t p) :=
  .ite h.setPort.dropRequests.setPortState h.setPort.dropRequests

theorem Calm.abandonHeal {p : Nat} (h : Calm s t) : Calm s (abandonHeal p t) := by
  unfold Machine.abandonHeal
  split
  · exact h.setPort
  · exact .sendMgmt (.foldl h fun _ _ h1 => h1.leaveHeal)

theorem Calm.foldPort {p fold reached : Nat} (h : Calm s t) : Calm s (foldPort p fold reached t) := by
  unfold Machine.foldPort
  extract_lets st was same s1 s2 s3 s4
  have hs1 : Calm s s1 := h.setReached
  have hs2 : Calm s s2 := hs1.breakSweep.abandonHeal
  have hs3 : Calm s s3 := by
    unfold s3
    split
    · exact hs2.abandonHeal
    · exact hs2
  have hs4 : Calm s s4 := .ite hs3 (hs3.bump.raiseCond (by decide))
  exact .ite h (.ite hs1 hs4.setPortState)

theorem Calm.reachNone {p : Nat} (h : Calm s t) : Calm s (reachNone p t) :=
  .ite h.foldPort (.ite h.setReached.setPortState h)

theorem Calm.lightPorts (h : Calm s t) : Calm s (lightPorts t) := .foldl h fun _ _ h1 => h1.setPort.setPortState

theorem Calm.stopSweeps (h : Calm s t) : Calm s (stopSweeps t) := .foldl h fun _ _ h1 => h1.setPort.endSweep

theorem Calm.foldUnreached (h : Calm s t) : Calm s (foldUnreached t) := .foldl h fun _ _ h1 => .ite h1.reachNone h1

/-! ## Modes -/

theorem Calm.setMode {m : Mode} (h : Calm s t) : Calm s (setMode m t) := h.update

theorem Calm.hmpAnswer {session seq : Word} {st : Status} {payload : List Byte} (h : Calm s t) :
    Calm s (hmpAnswer session seq st payload t) := h.update

theorem Calm.decideMode {c : Caller} {st : Status} (h : Calm s t) : Calm s (decideMode c st t) := by
  unfold Machine.decideMode
  extract_lets s1
  have hs1 : Calm s s1 := h.fset
  split
  · exact .ite hs1.hmpAnswer hs1.logRefusal.hmpAnswer
  · exact .ite hs1 hs1.logRefusal

theorem Calm.endWaiting {st : Status} (h : Calm s t) : Calm s (endWaiting st t) := by
  unfold Machine.endWaiting
  split
  · exact h
  · exact .decideMode h.update

theorem Calm.setCore {c : Nat} {k : Core} (h : Calm s t) : Calm s (setCore c k t) := h.update

theorem Calm.startEventCores (h : Calm s t) : Calm s (startEventCores t) :=
  .foldl (.foldl h fun _ _ h1 => h1.setCore) fun _ _ h1 => h1.enterCore

theorem Calm.enterCommission (h : Calm s t) : Calm s (enterCommission t) := by
  unfold Machine.enterCommission
  extract_lets boot _ s1 s2 s3 _ _ s4
  have hs1 : Calm s s1 := .schedReset (.setMode h.update)
  have hs3 : Calm s s3 := .foldl hs1.setServo.hkaCommission fun _ _ h1 => .ite h1.loopFromBoot h1.setLoop
  have hs4 : Calm s s4 := .startEventCores hs3.update
  exact .ite hs4 hs4.lightPorts

theorem Calm.enterRun (h : Calm s t) : Calm s (enterRun t) :=
  .foldUnreached (.foldl h.setMode.stopSweeps fun _ _ h1 => h1.wheelEnterRun)

theorem Calm.enterMode {m : Mode} (h : Calm s t) : Calm s (enterMode m t) := by
  unfold Machine.enterMode
  split
  · exact h.enterCommission
  · exact h.setMode.foldUnreached
  · exact h.enterRun
  · exact h.setMode

theorem Calm.pairCheck (h : Calm s t) : Calm s (pairCheck t).2 := by
  fun_cases Machine.pairCheck
  · exact h.fset.fset
  · exact h.fset.fset

theorem Calm.modeConditions {m : Mode} (h : Calm s t) : Calm s (modeConditions m t).2 := by
  unfold Machine.modeConditions
  split
  · exact h
  · split
    · split
      next _ s1 hp =>
        have hs1 : Calm s s1 := .snd_of_eq hp (.ite_snd (.ite_snd h.pairCheck h) h)
        exact hs1
    · exact h
    · exact h

theorem Calm.followHolder (h : Calm s t) : Calm s (followHolder t) := by
  unfold Machine.followHolder
  split
  · exact h
  · exact .ite h (.ite (.enterMode h.update) h.update)

theorem Calm.readinessLost (h : Calm s t) : Calm s (readinessLost t) := .ite h.enterMode h

theorem Calm.adoptMode (h : Calm s t) : Calm s (adoptMode t) := by
  unfold Machine.adoptMode
  split
  · exact h.followHolder
  next q _ =>
    have hq : Calm s (Machine.modeConditions q.target (if q.target = .run then Machine.readinessLost t else t)).2 :=
      .modeConditions (.ite h.readinessLost h)
    refine .ite h ?_
    split
    next hp => exact .endWaiting (.snd_of_eq hp hq)
    next hp => exact .endWaiting (.enterMode (.snd_of_eq hp hq))

/-! ## The chronicle -/

theorem Calm.setChr {c : Chr} (h : Calm s t) : Calm s (setChr c t) := h.update

theorem Calm.falseStart {sp : Split} (h : Calm s t) : Calm s (falseStart sp t) := h.setChr.bump

theorem Calm.takeTrigger {code : Nat} {sp : Split} (h : Calm s t) : Calm s (takeTrigger code sp t) := by
  unfold Machine.takeTrigger
  extract_lets c out
  split
  · exact h
  · exact h.setChr.fset.setSplitRegs

theorem Calm.trigger {code : Nat} {sp : Split} (h : Calm s t) : Calm s (trigger code sp t).2 := by
  unfold Machine.trigger
  extract_lets c
  split
  · exact h.takeTrigger
  · exact .ite_snd (.ite_snd h.setChr.setSplitRegs h.setChr) h.falseStart
  · exact h.setChr.falseStart
  · exact h.falseStart
  · exact h

theorem Calm.setSeq {n : Option Nat} (h : Calm s t) : Calm s (setSeq n t) := h.setChr.fset

theorem Calm.recognise {code : Nat} {sp : Split} (h : Calm s t) : Calm s (recognise code sp t).2 :=
  .ite_snd h (.ite_snd (.ite_snd h.trigger h) (.ite_snd (.ite_snd h.setSeq.trigger h) (.ite_snd h.setSeq h)))

theorem Calm.imageWrite {c : ChrShape} {off : Nat} {bs : List Byte} (h : Calm s t) : Calm s (imageWrite c off bs t) :=
  .ite h.putBytes.putBytes h.putBytes

theorem Calm.queueSend {c : ChrShape} {off n : Nat} (h : Calm s t) : Calm s (queueSend c off n t) := .ite h.setChr h

theorem Calm.enterHoldoff (h : Calm s t) : Calm s (enterHoldoff t) := .ite h.setChr.fset h.setChr.fset

theorem Calm.closeRecord {flags next : Nat} (h : Calm s t) : Calm s (closeRecord flags next t) := by
  unfold Machine.closeRecord
  split
  · extract_lets t1 total flags ovfIndex fl s1 off
    have hs1 : Calm s s1 := .ite (.foldl h fun _ _ h1 => h1.queueSend) h
    split
    next _ s2 hp =>
      have hs2 : Calm s s2 := .snd_of_eq hp (.ite_snd hs1.update hs1)
      extract_lets s3 s4 g s5 e _ s6 s7
      have hs4 : Calm s s4 := hs2.imageWrite.queueSend.imageWrite.queueSend
      have hs6 : Calm s s6 := hs4.fset.fset.setChr
      have hs7 : Calm s s7 := hs6.bump.post (show fget s5 Fld.CHR_EVT_CLASS < 4 from fieldGet_lt ..)
      exact .ite hs7.enterHoldoff hs7.fset
  · exact h

theorem Calm.armNow (h : Calm s t) : Calm s (armNow t).1 := by
  unfold Machine.armNow
  split
  · exact h.fset
  · split
    · exact h.fset
    · exact h.setChr.setSeq.fset.fset.setChr.fset.fset

theorem Calm.chrCommand {a : Nat} {o : Origin} {body : State → State × Status × Word} (h : Calm s t)
    (hbody : Calm s (body t).1) : Calm s (chrCommand a o body t).1 := by
  unfold Machine.chrCommand
  split
  next s1 _ hp =>
    have hs1 : Calm s s1 := .fst_of_eq hp (h.checkWrite h)
    split
    · exact hs1.fset
    · split
      next s2 _ _ hp =>
        have hs2 : Calm s s2 := .fst_of_eq hp hbody
        exact .ite_fst hs2 hs2.refuseWrite.fset

theorem Calm.ctrlConfig {val : Word} (h : Calm s t) (hu : ctrlConfig val t = some u) : Calm s u := by
  unfold Machine.ctrlConfig at hu
  split at hu
  · obtain rfl := Option.some.inj hu
    exact h
  · split at hu
    · obtain rfl := Option.some.inj hu
      exact h.regSet
    · exact absurd hu nofun

theorem Calm.chrArmReg {o : Origin} {val : Word} (h : Calm s t) : Calm s (chrArmReg o val t).1 := by
  refine h.chrCommand ?_
  split
  next hu => exact .ite_fst (h.ctrlConfig hu).armNow h
  next => exact h

theorem Calm.disarmNow (h : Calm s t) : Calm s (disarmNow t).1 := .fset (.ite h (.ite h.closeRecord h.fset.fset))

theorem Calm.chrDisarmReg {o : Origin} (h : Calm s t) : Calm s (chrDisarmReg o t).1 := h.chrCommand h.disarmNow

theorem Calm.softTrigger (h : Calm s t) : Calm s (softTrigger t).1 := by
  unfold Machine.softTrigger
  extract_lets n stageA
  split
  next _ s1 hp =>
    have hs1 : Calm s s1 := .snd_of_eq hp h.recognise
    exact .ite_fst hs1.fset (.ite_fst hs1.fset hs1.falseStart.fset)

theorem Calm.chrTriggerReg {o : Origin} (h : Calm s t) : Calm s (chrTriggerReg o t).1 := h.chrCommand h.softTrigger

theorem Calm.chrReleaseReg {o : Origin} {val : Word} (h : Calm s t) : Calm s (chrReleaseReg o val t).1 :=
  h.chrCommand (.ite_fst h.fset h.fset.fset)

/-! ## Chains -/

theorem Calm.setChainOut {ch : ChainMap} {count : Bool} (h : Calm s t) : Calm s (setChainOut ch count t) :=
  .foldl h fun _ _ h1 => h1.setPortState.setPort

theorem Calm.readmitPort {p : Nat} (h : Calm s t) : Calm s (readmitPort p t) :=
  .ite h (.ite h.setReached.setPortState h.setPortState)

theorem Calm.setQueue {p : Nat} {q : List SvcReq} (h : Calm s t) : Calm s (setQueue p q t) := h.setPort.fset

theorem Calm.askCells {p : Nat} {rs : List SvcReq} (h : Calm s t) : Calm s (askCells p rs t) :=
  h.setPort.setPort.setPort.setQueue

theorem Calm.sendRequest {p : Nat} {r : SvcReq} (h : Calm s t) : Calm s (sendRequest p r t).2 :=
  .ite_snd h (.bump h.update)

theorem Calm.launchTail {p : Nat} (h : Calm s t) : Calm s (launchTail p t).2 :=
  .foldl_snd h fun _ _ h1 => h1.sendRequest.setQueue

theorem Calm.setOutcome {ch : ChainMap} {posE o : Nat} (h : Calm s t) : Calm s (setOutcome ch posE o t) :=
  .foldl h fun _ _ h1 => h1.fset

theorem Calm.writeParams {ch : ChainMap} {posE : Nat} (h : Calm s t) : Calm s (writeParams ch posE t) := by
  unfold Machine.writeParams
  split
  · exact h
  · split
    · exact h
    · exact h.askCells

theorem Calm.settlePosition {ch : ChainMap} {posE : Nat} (h : Calm s t) : Calm s (settlePosition ch posE t) := by
  unfold Machine.settlePosition
  split
  · exact h.setOutcome
  · extract_lets old o s1
    have hs1 : Calm s s1 := h.setOutcome.condIs (by decide)
    exact .ite hs1.writeParams hs1

theorem Calm.settleChain {ch : ChainMap} (h : Calm s t) : Calm s (settleChain ch t) := by
  unfold Machine.settleChain
  extract_lets s1
  have hs1 : Calm s s1 := .foldl h fun _ _ h1 => h1.settlePosition
  split
  · exact hs1.setChainOut.condIs (by decide)
  · exact .ite (.foldl hs1.clearCond fun _ _ h1 => h1.setPort.readmitPort) hs1

theorem Calm.voidCheckByLap (h : Calm s t) : Calm s (voidCheckByLap t) := .ite (h.setEsc rfl) h

theorem Calm.settleLap {p : Nat} (h : Calm s t) : Calm s (settleLap p t) := by
  unfold Machine.settleLap
  split
  · exact h
  · split
    · exact h.setPort.regSet
    · extract_lets _ s1
      have hs1 : Calm s s1 := h.setPort.regSet.voidCheckByLap
      exact .ite (hs1.setChainOut.condIs (by decide)) hs1

theorem Calm.settleReach {p : Nat} (h : Calm s t) : Calm s (settleReach p t) := by
  unfold Machine.settleReach
  split
  · exact h
  · exact .ite h (.sendMgmt (.ite h.fset.fset h))

theorem Calm.discGo {o : Origin} (h : Calm s t) : Calm s (discGo o t).1 :=
  h.checkWrite (.foldl h fun _ _ h1 => h1.startSweep)

theorem Calm.settleEnd {p : Nat} (h : Calm s t) : Calm s (settleEnd p t) := by
  unfold Machine.settleEnd
  split
  · exact h
  · extract_lets s1 s2
    have hs1 : Calm s s1 := h.settleChain.settleLap
    have hs2 : Calm s s2 := by
      unfold s2
      split
      · exact .ite hs1.settleLap hs1
      · exact hs1
    exact hs2.settleReach

theorem Calm.voidCheck (h : Calm s t) : Calm s (voidCheck t) := h.setEsc rfl

theorem Calm.adoptAccepts (h : Calm s t) : Calm s (adoptAccepts t) := by
  unfold Machine.adoptAccepts
  extract_lets due _ s1 s2
  have hs1 : Calm s s1 := h.update
  have hs2 : Calm s s2 := .ite hs1 hs1.voidCheck
  refine .foldl hs2 fun _ _ h1 => ?_
  split
  · exact h1.setOutcome.clearCond.writeParams
  · exact h1

theorem Calm.launchFrame {withheld : Bool} {p : Nat} (h : Calm s t) : Calm s (launchFrame withheld p t) := by
  unfold Machine.launchFrame
  split
  · exact h
  · exact .ite h (.ite h.setPort.bump (.ite h.setPort h.launchTail.setPort))

theorem Calm.launchFrames {withheld : BitVec 128} (h : Calm s t) : Calm s (launchFrames withheld t) :=
  .foldl h fun _ _ h1 => h1.launchFrame

theorem Calm.setRota {laps : Nat → Nat} (h : Calm s t) : Calm s (setRota laps t) := .foldl h fun _ _ h1 => h1.regSet

/-! ## Staged writes -/

theorem Calm.escCheckGo {o : Origin} (h : Calm s t) : Calm s (escCheckGo o t).1 := by
  have hterms : Calm s { t with esc := { t.esc with checking := some (termsNow t), checkVoid := false } } := h.setEsc rfl
  exact h.checkWrite hterms.fset.fset

theorem Calm.plainWrite {a : Nat} {v : Word} (h : Calm s t) : Calm s (plainWrite a v t) := by
  unfold Machine.plainWrite
  split
  · exact h.regSet
  · exact h

theorem Calm.adoptUpb (h : Calm s t) : Calm s (adoptUpb t) := by
  unfold Machine.adoptUpb
  refine .foldl h fun _ _ h1 => ?_
  split
  · exact h1
  · exact .ite (.regSet (.update h1.putBytes)) h1

theorem Calm.dropSubscription {a : Nat} (h : Calm s t) : Calm s (dropSubscription a t) := .fset (.regSet h.update)

theorem Calm.takeWrite {a : Nat} {v : Word} (h : Calm s t) : Calm s (takeWrite a v t) := by
  unfold Machine.takeWrite
  extract_lets off n s1 _ s2 s3 rate was t1 s4 s5
  have hs1 : Calm s s1 := h.regSet
  have hs2 : Calm s s2 := h.plainWrite
  have hs3 : Calm s s3 := .ite hs2.setServo hs2
  have hs4 : Calm s s4 := .ite h.regSet h
  have hs5 : Calm s s5 := h.plainWrite.disableLanes.settleLanes
  split
  · exact .ite (.ite h.adoptChCfg h.adoptWin) h.plainWrite
  · exact .ite h.adoptFlt h.plainWrite
  · exact .ite hs1.update hs1
  · exact .ite hs3.selectRef hs3
  · exact .ite hs2.dropSubscription (.ite hs2.svRateChanged hs2)
  · exact .ite hs4.plainWrite h.plainWrite
  · exact .ite hs5.selectRef hs5
  · exact .ite h.plainWrite.voidCheck h.plainWrite
  · exact h.plainWrite

theorem Calm.bothThen {f g : State → State × Status} (h : Calm s (f t).1) (hg : ∀ u, Calm s u → Calm s (g u).1) :
    Calm s (bothThen f g t).1 := by
  unfold Machine.bothThen
  split
  next hp => exact hg _ (.fst_of_eq hp h)
  next => exact h

theorem Calm.whenBit {b : Bool} {f : State → State × Status} (h : Calm s t) (hf : Calm s (f t).1) :
    Calm s (whenBit b f t).1 := .ite_fst hf h

theorem Calm.cellCtrl {o : Origin} {w : Nat} {v : Word} (h : Calm s t) : Calm s (cellCtrl o w v t).1 := by
  unfold Machine.cellCtrl
  extract_lets slot
  split
  · exact h.whlWithdraw
  · exact h.whlReturn
  · exact h.whlBypass
  · exact h.cellCommand h

theorem Calm.triggerWrite {o : Origin} {a : Nat} {v : Word} (h : Calm s t) : Calm s (triggerWrite o a v t).1 := by
  unfold Machine.triggerWrite
  extract_lets keep
  have hkeep : ∀ u, Calm s u → Calm s (keep u).1 := fun _ h1 => h1.plainWrite
  refine .ite_fst (h.whenBit h.escCheckGo) ?_
  refine .ite_fst (.bothThen (h.whenBit h.discGo) hkeep) ?_
  refine .ite_fst h.whlTrcEnable ?_
  refine .ite_fst (.bothThen (h.whenBit h.fgcalGo) hkeep) ?_
  refine .ite_fst (.bothThen (h.whenBit h.hkaScanGo) fun _ h1 => .bothThen (h1.whenBit h1.hkaCalGo) hkeep) ?_
  refine .ite_fst h.hkaInjReq ?_
  refine .ite_fst (.bothThen (h.whenBit h.fltSyncGo) hkeep) ?_
  refine .ite_fst (.ite_fst h.chrArmReg (.ite_fst h.chrDisarmReg (.ite_fst h.chrTriggerReg ?_))) ?_
  · split
    next hu => exact h.ctrlConfig hu
    next => exact h.refuseWrite
  · exact .ite_fst (h.whenBit h.chrReleaseReg) h.cellCtrl

theorem Calm.noteDue {w : StagedWrite} {st : Status} (h : Calm s t) : Calm s (noteDue w st t) := by
  unfold Machine.noteDue
  split
  · exact h.update
  · exact h

theorem Calm.adoptWrite {w : StagedWrite} (h : Calm s t) : Calm s (adoptWrite w t) := by
  unfold Machine.adoptWrite
  split
  · exact h.refuseWrite.noteDue
  · split
    · split
      next s1 _ hp =>
        have hs1 : Calm s s1 := .fst_of_eq hp h.triggerWrite
        exact .ite hs1 hs1.noteDue
    · exact .ite h.update h.takeWrite

theorem Calm.adoptWrites (h : Calm s t) : Calm s (adoptWrites t) := .foldl h.update fun _ _ h1 => h1.adoptWrite

theorem Calm.answerDue (h : Calm s t) : Calm s (answerDue t) := .foldl h.update fun _ _ h1 => h1.hmpAnswer

/-! ## Images -/

theorem Calm.setFlashKind {k : ImageKind} {f : FlashKind} (h : Calm s t) : Calm s (setFlashKind k f t) := by
  unfold Machine.setFlashKind
  refine .fset (.fset ?_)
  split
  · exact h.update
  · exact h.update
  · exact h.update

theorem Calm.swapActive {k : ImageKind} (h : Calm s t) : Calm s (swapActive k t) := h.setFlashKind

theorem Calm.loadCore {img : ProgramImage} {c : Nat} (h : Calm s t) : Calm s (loadCore img t c) := by
  unfold Machine.loadCore
  split
  · exact h
  · exact .memWriteBytes (.memWriteBytes h.update)

theorem Calm.loadProgram {img : ProgramImage} (h : Calm s t) : Calm s (loadProgram img t) :=
  .foldl (.voidCheck h.update) fun _ _ h1 => h1.loadCore

theorem Calm.loadReg {e : Nat × Word} (h : Calm s t) : Calm s (loadReg t e) := by
  unfold Machine.loadReg
  split
  · exact h
  · exact .ite h.regSet h.regSet

theorem Calm.winImages {b : SafetyBlock} (h : Calm s t) : Calm s (winImages b t) :=
  .foldl h fun _ _ h1 => .ite h1.fset h1.fset.fset.fset.fset.regSet.regSet

theorem Calm.clearEnd {chain p : Nat} (h : Calm s t) : Calm s (clearEnd chain p t) :=
  .clearCond (.clearCond (.clearCond (.clearCond (.foldl h fun _ _ h1 => h1.fset.fset.fset))))

theorem Calm.installPort {lit : Bool} {p : Nat} (h : Calm s t) : Calm s (installPort lit t p) := by
  unfold Machine.installPort
  split
  · exact h
  · exact h.setPort.clearEnd.regSet.regSet.setReached.setPortState

theorem Calm.removePort {chain p : Nat} (h : Calm s t) : Calm s (removePort chain t p) :=
  h.setPort.regSet.regSet.setReached.setPortState.clearEnd

theorem Calm.installMap {old : CommImage} {lit : Bool} (h : Calm s t) : Calm s (installMap old lit t) := by
  unfold Machine.installMap
  extract_lets _ was ports s1 s2 s3 s4 s5 s6
  have hs1 : Calm s s1 := .foldl h fun _ _ h1 => h1.removePort
  have hs2 : Calm s s2 := .foldl hs1 fun _ _ h1 => h1.installPort
  have hs3 : Calm s s3 := .foldl hs2 fun _ _ h1 => h1.fset
  have hs4 : Calm s s4 := .foldl hs3 fun _ _ h1 => h1.clearCond.clearCond
  have hs5 : Calm s s5 := .foldl hs4 fun _ _ h1 => h1.fset
  have hs6 : Calm s s6 := .foldl hs5 fun _ _ h1 => h1.settleEnd
  exact hs6.setRota

theorem Calm.activateComm {c : CommImage} (h : Calm s t) : Calm s (activateComm c t) := by
  unfold Machine.activateComm
  extract_lets old was regs _ _ s1
  have hs1 : Calm s s1 := .foldl ⟨h.mark, h.cells⟩ fun _ _ h1 => h1.loadReg
  exact hs1.fset.winImages.adoptChans.selectRef.installMap

theorem Calm.adoptImages (h : Calm s t) : Calm s (adoptImages t) := by
  unfold Machine.adoptImages
  extract_lets _ p s1 _ s2
  have hp : Calm s p := h.update
  have hs1 : Calm s s1 := by
    unfold s1
    split
    · split
      · exact .foldl hp.swapActive.loadProgram fun _ _ h1 => h1.enterCore
      · exact hp
    · exact h
  have hs2 : Calm s s2 := hs1.update
  split
  · split
    · exact hs2.swapActive.activateComm
    · exact hs2
  · exact hs1

/-! ## The boundary -/

theorem Calm.adoptAll (h : Calm s t) : Calm s (adoptAll t) := by
  unfold Machine.adoptAll
  extract_lets s1 s2 s3
  have hs2 : Calm s s2 := .foldl h.adoptWrites.adoptUpb fun _ _ h1 => h1.adoptLoop
  have hs3 : Calm s s3 := hs2.adoptAccepts.adoptImages.adoptMode
  exact hs3.applyRole.adoptEngines.answerDue

theorem Calm.measurePhase {n sec : Nat} (h : Calm s t) : Calm s (measurePhase n sec t) := by
  generalize hf : @Machine.measurePhase = f
  delta Machine.measurePhase at hf
  subst hf
  beta_reduce
  extract_lets ticks
  split
  next _ s1 hp =>
    have hs1 : Calm s s1 := .snd_of_eq hp (.ite_snd h h.update)
    exact .regSet (.setSplitRegs (hs1.setEsc rfl))

theorem Calm.settlePhase (h : Calm s t) : Calm s (settlePhase t) :=
  .ite h.fset.fset.clearCond (.ite (h.fset.fset.condIs (by decide)) h.fset.fset)

theorem Calm.setLength (h : Calm s t) : Calm s (setLength t) := by
  unfold Machine.setLength
  extract_lets p _ m d s1 _
  have hs1 : Calm s s1 := .ite h h.bump
  split
  · exact .ite (h.setEsc rfl) (h.setEsc rfl)
  · exact .ite (h.setEsc rfl) (hs1.setEsc rfl)

theorem Calm.startCores (h : Calm s t) : Calm s (startCores t) := .foldl h fun _ _ h1 => h1.enterCore

theorem Calm.publishRegs (h : Calm s t) : Calm s (publishRegs t) := .update (.regSet (.regSet h.regSet))

/-- What a cycle begins with, before anything is adopted. -/
def cycleCleared (n sec j : Nat) (s : State) : State :=
  clearCycle (regSet Reg.ESC_CYCLE (cycleNumber s sec j)
    (setEsc { s.esc with sec := sec, j := j, tk := n, refDone := false, cutDone := false, short := false }
      { s with userOut := s.hidden }))

theorem calm_beginCycle (n sec j : Nat) (sync : Bool) (withheld : BitVec 128) (s : State) :
    Calm (cycleCleared n sec j s) (beginCycle n sec j sync withheld s) := by
  unfold beginCycle
  extract_lets _ s1 s2 s3 s4 s5 s6
  have hs3 : Calm (cycleCleared n sec j s) s3 := (Calm.refl _).adoptAll
  have hs4 : Calm (cycleCleared n sec j s) s4 := .ite hs3.measurePhase hs3
  have hs5 : Calm (cycleCleared n sec j s) s5 := hs4.settlePhase.setLength
  have hs6 : Calm (cycleCleared n sec j s) s6 := .ite hs5.requestSync hs5
  exact hs6.showRatios.startCores.launchFrames.publishRegs

end Sys2Proof.Machine
end

section
namespace Sys2Proof.Machine

variable {s t u : State}

/-! # The end of the cycle before: filters and chronograph (R289 to R317)

`EndWork s t`: the work that leads from `s` to `t` evaluates the cycle that ends. What waits for the boundary stands, and
with it the escapement, the clock, the cells, the loops and the registers below the filters'. -/

structure EndWork (s t : State) : Prop where
  staged : t.staged = s.staged
  sys : t.sys = s.sys
  time : t.time = s.time
  esc : t.esc = s.esc
  cells : t.cells = s.cells
  loops : t.loops = s.loops
  commit : t.btn.commit = s.btn.commit
  regs : ∀ a, a < 0x40080000 → regGet t a = regGet s a

theorem EndWork.refl (s : State) : EndWork s s := ⟨rfl, rfl, rfl, rfl, rfl, rfl, rfl, fun _ _ => rfl⟩

theorem EndWork.ite {c : Prop} [Decidable c] (h : EndWork s t) (h' : EndWork s u) : EndWork s (if c then t else u) := by
  split
  · exact h
  · exact h'

theorem EndWork.ite_snd {β : Type} {c : Prop} [Decidable c] {p q : β × State} (h : EndWork s p.2)
    (h' : EndWork s q.2) : EndWork s (if c then p else q).2 := by
  split
  · exact h
  · exact h'

theorem EndWork.snd_of_eq {β : Type} {p : β × State} {b : β} (hp : p = (b, u)) (h : EndWork s p.2) : EndWork s u := by
  subst hp
  exact h

theorem EndWork.foldl {β : Type} {f : State → β → State} {l : List β} (h : EndWork s t)
    (hf : ∀ u x, EndWork s u → EndWork s (f u x)) : EndWork s (l.foldl f t) := by
  induction l generalizing t with
  | nil => exact h
  | cons x l ih => exact ih (hf t x h)

theorem EndWork.regSet {a : Nat} {v : Word} (h : EndWork s t) (ha : 0x40080000 ≤ a) : EndWork s (regSet a v t) :=
  ⟨h.staged, h.sys, h.time, h.esc, h.cells, h.loops, h.commit, fun x hx =>
    (regGet_regSet_other v t (by omega)).trans (h.regs x hx)⟩

theorem EndWork.fset {f : Field} {v : Nat} (h : EndWork s t) (hf : 0x40080000 ≤ f.reg) : EndWork s (fset f v t) :=
  h.regSet hf

theorem EndWork.bump {a : Nat} (h : EndWork s t) (ha : 0x40080000 ≤ a) : EndWork s (bump a t) := h.regSet ha

theorem EndWork.drawFree (h : EndWork s t) : EndWork s (drawFree t).2 :=
  ⟨h.staged, h.sys, h.time, h.esc, h.cells, h.loops, h.commit, h.regs⟩

theorem EndWork.front (h : EndWork s t) {f : Front} : EndWork s { t with front := f } :=
  ⟨h.staged, h.sys, h.time, h.esc, h.cells, h.loops, h.commit, h.regs⟩

theorem EndWork.setChan {n : Nat} {c : Chan} (h : EndWork s t) : EndWork s (setChan n c t) := h.front

theorem EndWork.setChr {c : Chr} (h : EndWork s t) : EndWork s (setChr c t) :=
  ⟨h.staged, h.sys, h.time, h.esc, h.cells, h.loops, h.commit, h.regs⟩

/-! ## Filters -/

/-- A register of a channel lies among the filters'. -/
theorem le_channelReg {c k n : Nat} (hc : 0x40080000 ≤ c := by decide) : 0x40080000 ≤ c + k * n :=
  Nat.le_add_right_of_le hc

theorem EndWork.svEnter {n idx limit : Nat} (h : EndWork s t) : EndWork s (svEnter n idx limit t) := by
  unfold Machine.svEnter
  extract_lets c got prev t1 copy
  clear_value got
  split
  · exact .ite (h.setChan.bump le_channelReg) h.setChan
  · exact h.setChan.bump le_channelReg

theorem EndWork.resetChan {t' n : Nat} (h : EndWork s t) : EndWork s (resetChan t' n t) :=
  .fset (.ite (h.setChan.regSet le_channelReg) h.setChan) le_channelReg

theorem EndWork.placeOne {n tg limit : Nat} (h : EndWork s t) : EndWork s (placeOne n tg limit t) := by
  unfold Machine.placeOne
  extract_lets s1
  have hs1 : EndWork s s1 := .ite (.foldl h fun _ _ h1 => h1.svEnter) h
  split
  extract_lets cause g
  split
  next _ s2 hp =>
    have hs2 : EndWork s s2 := .snd_of_eq hp (.ite_snd hs1.drawFree hs1)
    extract_lets s3 s4 s5 s6 s7 c
    have hs4 : EndWork s s4 := .fset (.ite (hs2.fset le_channelReg) hs2) le_channelReg
    have hs5 : EndWork s s5 := .ite hs4 (hs4.bump le_channelReg)
    have hs6 : EndWork s s6 := .ite ((hs5.fset le_channelReg).bump le_channelReg) hs5
    have hs7 : EndWork s s7 := .ite ((hs6.regSet le_channelReg).regSet le_channelReg) hs6
    exact hs7.setChan

theorem EndWork.placeUpTo {limit n : Nat} (h : EndWork s t) : EndWork s (placeUpTo limit n t) :=
  .foldl h fun _ _ h1 => .ite h1.placeOne h1

theorem EndWork.dueReset {limit n : Nat} (h : EndWork s t) : EndWork s (dueReset limit n t) := by
  unfold Machine.dueReset
  split
  · exact .ite (.resetChan (.ite h.placeUpTo h)) h
  · exact h

theorem EndWork.placeOutputs {limit : Nat} (h : EndWork s t) : EndWork s (placeOutputs limit t) :=
  .ite (.foldl h.front fun _ _ h1 => h1.dueReset.placeUpTo) h

theorem EndWork.filterBoundary (h : EndWork s t) : EndWork s (filterBoundary t) :=
  .foldl (.foldl h.placeOutputs.front fun _ _ h1 => h1.setChan) fun _ _ h1 => h1.front

theorem EndWork.cycleEvidence (h : EndWork s t) : EndWork s (cycleEvidence t) :=
  .ite ⟨h.staged, h.sys, h.time, h.esc, h.cells, h.loops, h.commit, h.regs⟩ h

/-! ## The chronograph -/

theorem EndWork.setSplitRegs {v : Split} (h : EndWork s t) : EndWork s (setSplitRegs Reg.CHR_TRIG_T_0 v t) :=
  ((h.regSet (by decide)).regSet (by decide)).regSet (by decide)

theorem EndWork.falseStart {sp : Split} (h : EndWork s t) : EndWork s (falseStart sp t) := h.setChr.bump (by decide)

theorem EndWork.takeTrigger {code : Nat} {sp : Split} (h : EndWork s t) : EndWork s (takeTrigger code sp t) := by
  unfold Machine.takeTrigger
  extract_lets c out
  split
  · exact h
  · exact (h.setChr.fset (by decide)).setSplitRegs

theorem EndWork.trigger {code : Nat} {sp : Split} (h : EndWork s t) : EndWork s (trigger code sp t).2 := by
  unfold Machine.trigger
  extract_lets c
  split
  · exact h.takeTrigger
  · exact .ite_snd (.ite_snd h.setChr.setSplitRegs h.setChr) h.falseStart
  · exact h.setChr.falseStart
  · exact h.falseStart
  · exact h

theorem EndWork.setSeq {n : Option Nat} (h : EndWork s t) : EndWork s (setSeq n t) := h.setChr.fset (by decide)

theorem EndWork.recognised {code : Nat} {sp : Split} (h : EndWork s t) : EndWork s (recognised code sp t) :=
  .ite_snd h (.ite_snd (.ite_snd h.trigger h) (.ite_snd (.ite_snd h.setSeq.trigger h) (.ite_snd h.setSeq h)))

theorem EndWork.maskStop {m : Nat} {sp : Split} (h : EndWork s t) : EndWork s (maskStop m sp t) := by
  unfold Machine.maskStop
  split
  · exact h.takeTrigger.setChr
  · exact h.setChr
  · exact h.fset (by decide)
  · exact h.fset (by decide)
  · exact h

theorem EndWork.evalUnit {n i : Nat} {o : GridOut} (h : EndWork s t) : EndWork s (evalUnit n o t i) := by
  unfold Machine.evalUnit
  split
  · exact h
  · extract_lets x dx waiting put _ t1
    have ht1 : EndWork s t1 := h.setChr
    split
    exact .ite ht1.setChr (.ite ht1.setChr.recognised ht1)

theorem EndWork.testOutput {n : Nat} {e : GridOut × Nat} (h : EndWork s t) : EndWork s (testOutput n t e) :=
  .ite h (.foldl (.foldl h fun _ _ h1 => h1.evalUnit) fun _ _ h1 => .ite (.ite h1.maskStop h1.recognised) h1)

theorem EndWork.chrBoundary {k : Word} (h : EndWork s t) : EndWork s (chrBoundary k t) := h.setChr.setChr

theorem EndWork.chrLast (h : EndWork s t) : EndWork s (chrLast t) :=
  .foldl h fun _ _ h1 => .foldl h1.setChan fun _ _ h2 => h2.testOutput

end Sys2Proof.Machine
end

section
namespace Sys2Proof.Machine

variable {s t u : State}

/-! # The cycle begins (R31, R32, R38, R212) -/

theorem Store.get_map {α : Type} {d : Nat → α} {f : α → α} (hd : ∀ i, f (d i) = d i) (m : Store α) (i : Nat) :
    Store.get d (m.map fun e => (e.1, f e.2)) i = f (Store.get d m i) := by
  induction m with
  | nil => exact (hd i).symm
  | cons e m ih =>
    simp only [List.map_cons, Store.get]
    split
    · rfl
    · exact ih

/-! ## What a cycle collects starts empty (R38, R165) -/

theorem Calm.bypassFail {w slot : Nat} (h : Calm s t) : Calm s (bypassFail w slot t) :=
  .occur (.bump (h.setCell fun hx => hx)) (show 23 < 64 by decide)

theorem Calm.noteReport {slot : Nat} {r : DWord} (h : Calm s t) : Calm s (noteReport slot r t) := by
  unfold Machine.noteReport
  extract_lets x a s1
  have hs1 : Calm s s1 := h.setCell fun hx => hx
  split
  · exact hs1
  · extract_lets s2 _
    have hs2 : Calm s s2 := hs1.condIs (by decide)
    split
    · exact hs2.fatalBypass
    · exact .ite (hs2.setCell fun hx => hx) (.ite hs2.bypassFail hs2)

theorem Calm.takeLate {slot : Nat} (h : Calm s t) : Calm s (takeLate slot t) := by
  unfold Machine.takeLate
  split
  · exact h
  · exact .noteReport (h.setCell fun hx => ⟨hx.1, rfl⟩)

theorem takeLate_none {i : Nat} (h : (cell s i).late = none) : takeLate i s = s := by
  unfold takeLate
  rw [h]

/-- What the boundary takes of the late reports (R165). -/
def lateTaken (s : State) : State := s.cells.foldl (fun s e => takeLate e.1 s) s

theorem lateTaken_none (h : ∀ i, (cell s i).late = none) : lateTaken s = s :=
  List.foldl_fixed' (fun e => takeLate_none (h e.1)) _

/-- A cell at the start of a cycle. -/
def cellCleared (x : Cell) : Cell := { x with here := false, late := none, twinCmd := none }

/-- A loop at the start of a cycle. -/
def loopCleared (x : Loop) : Loop := { x with ranNow := false }

theorem clearCycle_eq (s : State) : clearCycle s = { lateTaken s with
    cells := (lateTaken s).cells.map fun e => (e.1, cellCleared e.2)
    loops := (lateTaken s).loops.map fun e => (e.1, loopCleared e.2)
    btn := { (lateTaken s).btn with ownBack := 0, rxTwin := 0, mgmtOut := [] } } := rfl

theorem cycleMark_clearCycle (s : State) : cycleMark (clearCycle s) = cycleMark s :=
  have hlate : Calm s (lateTaken s) := .foldl (.refl s) fun _ _ h1 => h1.takeLate
  hlate.mark

theorem cell_clearCycle (s : State) (i : Nat) : cell (clearCycle s) i = cellCleared (cell (lateTaken s) i) :=
  Store.get_map (d := fun _ => Cell.reset) (f := cellCleared) (fun _ => rfl) _ i

theorem loop_clearCycle (s : State) (e : Nat) : loop (clearCycle s) e = loopCleared (loop (lateTaken s) e) :=
  Store.get_map (d := fun _ => Loop.reset) (f := loopCleared) (fun _ => rfl) _ e

theorem cycleMark_beginCycle (n sec j : Nat) (sync : Bool) (withheld : BitVec 128) (s : State) :
    cycleMark (beginCycle n sec j sync withheld s) = ⟨s.time.cnt, s.time.epoch, sec, j, n, false, false⟩ := by
  rw [(calm_beginCycle n sec j sync withheld s).mark]
  exact cycleMark_clearCycle _

theorem unheard_beginCycle (n sec j : Nat) (sync : Bool) (withheld : BitVec 128) (s : State) (i : Nat) :
    unheard (cell (beginCycle n sec j sync withheld s) i) := by
  refine (calm_beginCycle n sec j sync withheld s).cells i ?_
  unfold cycleCleared
  rw [cell_clearCycle]
  exact ⟨rfl, rfl⟩

/-- A cycle begins with its own number, start and second, at its own instant. -/
structure CycleBegun (n sec j : Nat) (s t : State) : Prop where
  cnt : t.time.cnt = s.time.cnt
  epoch : t.time.epoch = s.time.epoch
  sec : t.esc.sec = sec
  j : t.esc.j = j
  tk : t.esc.tk = n
  refDone : t.esc.refDone = false
  cutDone : t.esc.cutDone = false
  cells : ∀ i, (cell t i).here = false ∧ (cell t i).late = none

theorem beginCycle_begins (n sec j : Nat) (sync : Bool) (withheld : BitVec 128) (s : State) :
    CycleBegun n sec j s (beginCycle n sec j sync withheld s) := by
  obtain ⟨hcnt, hepoch, hsec, hj, htk, href, hcut⟩ :=
    CycleMark.mk.inj (cycleMark_beginCycle n sec j sync withheld s)
  exact ⟨hcnt, hepoch, hsec, hj, htk, href, hcut, unheard_beginCycle n sec j sync withheld s⟩

/-! ## Nothing waits for the boundary -/

theorem adoptWrites_nothing (h : s.staged = []) : adoptWrites s = s := by
  unfold adoptWrites
  rw [h]
  change { s with staged := [] } = s
  rw [← h]

theorem adoptUpb_nothing (h : ∀ b, Store.get (fun _ => none) s.sys.upb b = none) : adoptUpb s = s := by
  unfold adoptUpb
  refine List.foldl_fixed' (fun b => ?_) _
  rw [h b]

theorem adoptLoop_nothing {e : Nat} (hmode : (loop s e).modeCmd = none) (hblock : (loop s e).block = none) :
    adoptLoop e s = s := by
  unfold adoptLoop
  rw [hmode]
  dsimp only
  rw [hblock]

theorem adoptAccepts_nothing (h : s.sys.accepts = []) : adoptAccepts s = s := by
  unfold adoptAccepts
  rw [h]
  change { s with sys := { s.sys with accepts := [] } } = s
  rw [← h]

theorem adoptImages_nothing (hprogram : s.sys.activateProgram = none) (hcommission : s.sys.activateCommission = none) :
    adoptImages s = s := by
  simp [adoptImages, hprogram, hcommission]

theorem applyRole_nothing (h : s.btn.commit = none) : applyRole s = s := by
  unfold applyRole
  rw [h]

theorem adoptEngines_holder (h : s.sys.role ≠ .standby) : adoptEngines s = s := if_pos (.inl h)

theorem answerDue_nothing (h : s.sys.due = []) : answerDue s = s := by
  unfold answerDue
  rw [h]
  change { s with sys := { s.sys with due := [] } } = s
  rw [← h]

/-- The mode to follow is `f`. -/
def withFollow (f : Option (Mode × Nat)) (s : State) : State := { s with btn := { s.btn with follow := f } }

/-- A mode to follow is dropped by a unit that holds the baton. -/
theorem followHolder_holder (h : s.sys.role ≠ .standby) :
    ∃ f, followHolder s = withFollow f s := by
  unfold followHolder
  split
  · exact ⟨_, rfl⟩
  · split
    · exact ⟨_, rfl⟩
    · exact ⟨_, if_neg fun hc => h hc.1⟩

/-- A boundary for which nothing waits adopts nothing. -/
theorem adoptAll_nothing (h : nothingWaits s) : ∃ f, adoptAll s = withFollow f s := by
  obtain ⟨hstaged, hupb, haccepts, hdue, hloops, hprogram, hcommission, hwaiting, hcommit, hrole, -⟩ := h
  have hloop : (List.range 8).foldl (fun s e => adoptLoop e s) s = s :=
    List.foldl_fixed' (fun e => adoptLoop_nothing (hloops e).1 (hloops e).2) _
  have hmode : adoptMode s = followHolder s := by
    unfold adoptMode
    rw [hwaiting]
  obtain ⟨f, hf⟩ := followHolder_holder hrole
  refine ⟨f, ?_⟩
  unfold adoptAll
  rw [adoptWrites_nothing hstaged, adoptUpb_nothing hupb]
  dsimp only
  rw [hloop, adoptAccepts_nothing haccepts, adoptImages_nothing hprogram hcommission, hmode, hf,
    applyRole_nothing (s := withFollow f s) hcommit, adoptEngines_holder (s := withFollow f s) hrole,
    answerDue_nothing (s := withFollow f s) hdue]

/-- What waits for the boundary stands while the cycle before ends. -/
theorem EndWork.stillNothing (h : EndWork s t) (hs : nothingWaits s) : nothingWaits t := by
  have hcell : cell t = cell s := by
    funext i
    unfold cell
    rw [h.cells]
  have hloop : loop t = loop s := by
    funext e
    unfold loop
    rw [h.loops]
  unfold nothingWaits at hs ⊢
  rw [h.staged, h.sys, h.commit, hcell, hloop]
  exact hs

theorem nothingWaits_clearCycle (h : nothingWaits s) : nothingWaits (clearCycle s) := by
  obtain ⟨hstaged, hupb, haccepts, hdue, hloops, hprogram, hcommission, hwaiting, hcommit, hrole, hlate⟩ := h
  have hloop (e : Nat) : loop (clearCycle s) e = loopCleared (loop s e) := by rw [loop_clearCycle, lateTaken_none hlate]
  have hcleared := clearCycle_eq s
  rw [lateTaken_none hlate] at hcleared
  refine ⟨?_, ?_, ?_, ?_, fun e => ?_, ?_, ?_, ?_, ?_, ?_, fun i => ?_⟩
  case refine_5 =>
    rw [hloop]
    exact hloops e
  case refine_11 =>
    rw [cell_clearCycle]
    rfl
  all_goals rw [hcleared]; assumption

/-! ## From the adoption to the release (R33 to R35, R212, R300) -/

theorem Spares.condIs {k : Scope} {b : Bool} {src inst master : Nat} (h : Spares k s t) (hk : k.OutsideFaults)
    (hsrc : src < 64) : Spares k s (condIs b src inst master t) := h.faultStep hk (.condIs (.refl t) hsrc)

theorem Spares.requestSync (h : Spares escScope s t) : Spares escScope s (requestSync t) := by
  unfold Machine.requestSync
  split
  · exact h
  · exact .fset h.update (not_escScope (by decide))

theorem Spares.showRatio {span n : Nat} (h : Spares escScope s t) : Spares escScope s (showRatio span n t) :=
  (h.regSet (not_escScope (by unfold Reg.FLT_RATIO_1; omega))).regSet (not_escScope (by unfold Reg.FLT_RATIO_0; omega))

theorem Spares.showRatios (h : Spares escScope s t) : Spares escScope s (showRatios t) :=
  .foldl h fun _ _ _ h1 => h1.showRatio

theorem Spares.setQueue {p : Nat} {q : List SvcReq} (h : Spares escScope s t) : Spares escScope s (setQueue p q t) :=
  h.setPort.fset (not_escScope (by simp only [Fld.RING_PSVC_DEPTH, Reg.RING_PSVC]; omega))

theorem Spares.sendRequest {p : Nat} {r : SvcReq} (h : Spares escScope s t) : Spares escScope s (sendRequest p r t).2 :=
  .ite_snd h (.bump h.update (not_escScope (by decide)))

theorem Spares.launchTail {p : Nat} (h : Spares escScope s t) : Spares escScope s (launchTail p t).2 :=
  .foldl_snd h fun _ _ _ h1 => h1.sendRequest.setQueue

theorem Spares.launchFrame {withheld : Bool} {p : Nat} (h : Spares escScope s t) :
    Spares escScope s (launchFrame withheld p t) := by
  unfold Machine.launchFrame
  split
  · exact h
  · have hheld : ¬escScope.reg (Reg.RING_PWHELD_CNT p) := not_escScope (by unfold Reg.RING_PWHELD_CNT; omega)
    exact .ite h (.ite (h.setPort.bump hheld) (.ite h.setPort h.launchTail.setPort))

theorem Spares.launchFrames {withheld : BitVec 128} (h : Spares escScope s t) :
    Spares escScope s (launchFrames withheld t) := .foldl h fun _ _ _ h1 => h1.launchFrame

theorem Spares.publishRegs (h : Spares escScope s t) : Spares escScope s (publishRegs t) :=
  .update (((h.regSet (not_escScope (by decide))).regSet (not_escScope (by decide))).regSet (not_escScope (by decide)))

/-! ### The number of the cycle -/

/-- The system, the number of the cycle and RUNNING stand. -/
structure Numbered (s t : State) : Prop where
  sys : t.sys = s.sys
  cycle : regGet t Reg.ESC_CYCLE = regGet s Reg.ESC_CYCLE
  running : escRunning t = escRunning s

theorem Numbered.refl (s : State) : Numbered s s := ⟨rfl, rfl, rfl⟩

theorem Numbered.trans (h : Numbered s t) (h' : Numbered t u) : Numbered s u :=
  ⟨h'.sys.trans h.sys, h'.cycle.trans h.cycle, h'.running.trans h.running⟩

theorem Spares.numbered {k : Scope} (h : Spares k s t) (hk : ∀ a, escScope.reg a → k.reg a := by exact fun _ => id) :
    Numbered s t :=
  ⟨h.sys, h.regs _ (hk _ (show Reg.ESC_CYCLE / 0x10000 = 0x4002 by decide)),
    fbit_of_regGet_eq (h.regs _ (hk _ (show Reg.ESC_STATUS / 0x10000 = 0x4002 by decide)))⟩

theorem Numbered.ite {c : Prop} [Decidable c] (h : Numbered s t) (h' : Numbered s u) :
    Numbered s (if c then t else u) := by
  split
  · exact h
  · exact h'

theorem Numbered.setEsc {e : Esc} (h : Numbered s t) : Numbered s (setEsc e t) := ⟨h.sys, h.cycle, h.running⟩

theorem Numbered.regSet {a : Nat} {v : Word} (h : Numbered s t) (ha : a ∉ [Reg.ESC_CYCLE, Reg.ESC_STATUS]) :
    Numbered s (regSet a v t) := by
  simp only [List.mem_cons, List.not_mem_nil, or_false, not_or] at ha
  exact ⟨h.sys, (regGet_regSet_other _ _ (Ne.symm ha.1)).trans h.cycle,
    (fbit_of_regGet_eq (regGet_regSet_other _ _ (Ne.symm ha.2))).trans h.running⟩

/-- Another bit of ESC_STATUS says nothing of RUNNING. -/
theorem Numbered.statusBit {f : Field} {v : Nat} (h : Numbered s t) (hreg : f.reg = Reg.ESC_STATUS)
    (hf : f.lo ≤ f.hi ∧ f.hi < 32 ∧ 1 < f.lo) : Numbered s (Machine.fset f v t) := by
  obtain ⟨hle, hlt, hlo⟩ := hf
  refine ⟨h.sys, (regGet_fset_other _ _ ?_).trans h.cycle, ?_⟩
  · rw [hreg]
    decide
  · rw [← h.running, escRunning, escRunning, fbit, fbit,
      fget_fset_other f Fld.ESC_STATUS_RUNNING v t ⟨hle, hlt, by decide⟩ (.inl hlo) hreg.symm]

/-- ALIGNED and LOCAL of the cycle that begins (R35, R334). -/
def alignedShown (s : State) : State :=
  let ptp := fbit s Fld.ESC_CTRL_ALIGN_PTP && fbit s Fld.TIM_STATUS_VALID
  fset Fld.ESC_STATUS_LOCAL (boolNat !ptp) (fset Fld.ESC_STATUS_ALIGNED (boolNat (s.esc.phase == 0)) s)

theorem spares_settlePhase (s : State) : Spares escScope (alignedShown s) (settlePhase s) :=
  .ite (.clearCond (.refl ..)) (.ite (.condIs (.refl ..) escScope_outsideFaults (by decide)) (.refl ..))

theorem numbered_settlePhase (s : State) : Numbered s (settlePhase s) :=
  .trans (.statusBit (.statusBit (.refl s) rfl (by decide)) rfl (by decide)) (spares_settlePhase s).numbered

theorem numbered_measurePhase (n sec : Nat) (s : State) : Numbered s (measurePhase n sec s) := by
  generalize hf : @Machine.measurePhase = f
  delta Machine.measurePhase at hf
  subst hf
  beta_reduce
  extract_lets ticks
  split
  next w s1 hp =>
    have hs1 : Numbered s s1 := by
      split at hp
      all_goals
        obtain ⟨-, rfl⟩ := Prod.mk.inj hp
        exact ⟨rfl, rfl, rfl⟩
    exact (((hs1.setEsc.regSet (by decide)).regSet (by decide)).regSet (by decide)).regSet (by decide)

theorem numbered_setLength (s : State) : Numbered s (setLength s) := by
  have h : Numbered s s := .refl s
  unfold setLength
  extract_lets p _ m d s1 _
  have hs1 : Numbered s s1 := .ite h (h.regSet (by decide))
  split
  · exact .ite h.setEsc h.setEsc
  · exact .ite h.setEsc hs1.setEsc

/-- Without a phase error a cycle is P long (R33). -/
theorem setLength_wlen (hphase : s.esc.phase = 0) (hrealign : s.esc.realign = none) :
    (setLength s).esc.wlen = periodTicks s := by
  simp [setLength, hphase, hrealign, setEsc]

theorem settlePhase_esc (s : State) : (settlePhase s).esc = s.esc := (spares_settlePhase s).esc

theorem settlePhase_period (s : State) : periodTicks (settlePhase s) = periodTicks s := by
  have hreg := (spares_settlePhase s).regs Reg.ESC_PERIOD (show Reg.ESC_PERIOD / 0x10000 = 0x4002 by decide)
  unfold periodTicks
  rw [fget_of_regGet_eq (f := Fld.ESC_PERIOD_PERIOD) hreg]
  unfold alignedShown
  iterate 2 rw [fget_of_regGet_eq (regGet_fset_other _ _ (by decide))]

/-! ### The cores at their entry vectors (R212, R243) -/

/-- A cycle core stands at the entry vector of its image. -/
def enteredAt (img : CoreImage) (k : Core) : Prop :=
  k.run = (if img.entry = none then .ended else .running) ∧ k.pc = BitVec.ofNat 32 (img.entry.getD 0) ∧
    (∀ i, k.getS i = 0) ∧ k.fpsr = 0

theorem core_enterCore (c : Nat) (s : State) (x : Nat) : core (enterCore c s) x = if x = c then
    (core s c).enter (coreImage s c) (if (coreImage s c).entry.isNone && !isEventCore c then .ended else .running)
    else core s x := core_setCore c _ s x

theorem enteredAt_enter {c : Nat} (hc : c < 4) (img : CoreImage) (k : Core) :
    enteredAt img (k.enter img (if img.entry.isNone && !isEventCore c then .ended else .running)) := by
  refine ⟨?_, rfl, fun i => ?_, rfl⟩
  · simp [Core.enter, isEventCore, Nat.not_le.mpr hc]
  · simp [Core.getS, Core.enter, Store.get]

theorem enteredAt_foldl {c : Nat} (hc : c < 4) {l : List Nat}
    (h : c ∈ l ∨ enteredAt (coreImage s c) (core s c)) :
    enteredAt (coreImage s c) (core (l.foldl (fun s c => enterCore c s) s) c) := by
  induction l generalizing s with
  | nil => exact h.resolve_left List.not_mem_nil
  | cons d l ih =>
    refine ih (s := enterCore d s) ?_
    by_cases hd : c = d
    · subst hd
      refine .inr ?_
      rw [core_enterCore, if_pos rfl]
      exact enteredAt_enter hc (coreImage s c) _
    · rw [core_enterCore, if_neg hd]
      exact h.imp_left fun hin => (List.mem_cons.mp hin).resolve_left hd

/-- The registers of the escapement alone. -/
def registerScope : Scope := { reg := escScope.reg }

theorem Spares.startCores (h : Spares registerScope s t) : Spares registerScope s (startCores t) :=
  .foldl h fun _ _ _ h1 => .update (h1.setCore id id)

/-- What follows the length of the cycle: resets, ratios, cores, frames and the snapshot. -/
def released (sync : Bool) (withheld : BitVec 128) (s : State) : State :=
  publishRegs (launchFrames withheld (startCores (showRatios (if sync then requestSync s else s))))

theorem released_does (sync : Bool) (withheld : BitVec 128) (s : State) :
    Numbered s (released sync withheld s) ∧ (released sync withheld s).esc = s.esc ∧
      coresEntered (released sync withheld s) := by
  have hready : Spares escScope s (showRatios (if sync then requestSync s else s)) :=
    .showRatios (.ite (.requestSync (.refl ..)) (.refl ..))
  generalize hu : showRatios (if sync then requestSync s else s) = u at hready
  have hlaunch : Spares escScope (startCores u) (released sync withheld s) := by
    unfold released
    rw [hu]
    exact (Spares.refl ..).launchFrames.publishRegs
  have hstart : Spares registerScope u (startCores u) := (Spares.refl ..).startCores
  refine ⟨(hready.numbered.trans hstart.numbered).trans hlaunch.numbered,
    hlaunch.esc.trans (hstart.esc.trans hready.esc), fun c hc => ?_⟩
  have himage : coreImage (released sync withheld s) c = coreImage u c := by
    unfold coreImage
    rw [hlaunch.sys, hstart.sys]
  have hcore : core (released sync withheld s) c = core (startCores u) c := by
    unfold core
    rw [(hlaunch.stores trivial).1]
  rw [himage, hcore]
  exact enteredAt_foldl hc (.inl (List.mem_range.mpr hc))

/-! ## A cycle for whose boundary nothing waits -/

/-- The cycle has its number, before what it collects is cleared. -/
def cycleNumbered (n sec j : Nat) (s : State) : State :=
  regSet Reg.ESC_CYCLE (cycleNumber s sec j)
    (setEsc { s.esc with sec := sec, j := j, tk := n, refDone := false, cutDone := false, short := false }
      { s with userOut := s.hidden })

theorem beginCycle_eq (n sec j : Nat) (sync : Bool) (withheld : BitVec 128) (s : State) :
    beginCycle n sec j sync withheld s =
      let a := adoptAll (cycleCleared n sec j s)
      released sync withheld (setLength (settlePhase (if j = 0 then measurePhase n sec a else a))) := rfl

theorem cycleNumbered_fields (n sec j : Nat) (s : State) :
    (cycleNumbered n sec j s).sys = s.sys ∧
    regGet (cycleNumbered n sec j s) Reg.ESC_CYCLE = cycleNumber s sec j ∧
    escRunning (cycleNumbered n sec j s) = escRunning s ∧
    periodTicks (cycleNumbered n sec j s) = periodTicks s ∧
    (cycleNumbered n sec j s).esc.phase = s.esc.phase ∧ (cycleNumbered n sec j s).esc.realign = s.esc.realign := by
  refine ⟨rfl, regGet_regSet_self .., ?_, ?_, rfl, rfl⟩
  · exact fbit_of_regGet_eq (regGet_regSet_other _ _ (show Reg.ESC_STATUS ≠ Reg.ESC_CYCLE by decide))
  · exact fget_of_regGet_eq (regGet_regSet_other _ _ (show Reg.ESC_PERIOD ≠ Reg.ESC_CYCLE by decide))

/-- Where nothing waits, the boundary clears what the cycle collects and drops the mode to follow. -/
theorem adopted_nothing {n sec j : Nat} (h : nothingWaits s) :
    Spares registerScope (cycleNumbered n sec j s) (adoptAll (cycleCleared n sec j s)) := by
  have hnumbered : nothingWaits (cycleNumbered n sec j s) := h
  have hcleared := clearCycle_eq (cycleNumbered n sec j s)
  obtain ⟨-, -, -, -, -, -, -, -, -, -, hlate⟩ := id hnumbered
  rw [lateTaken_none hlate] at hcleared
  obtain ⟨f, hf⟩ := adoptAll_nothing (nothingWaits_clearCycle hnumbered)
  have hadopt : adoptAll (cycleCleared n sec j s) = withFollow f (clearCycle (cycleNumbered n sec j s)) := hf
  rw [hadopt, hcleared]
  exact ⟨rfl, rfl, rfl, fun _ _ => rfl, fun _ _ => rfl, fun _ _ => rfl, fun _ _ => rfl, fun _ _ => rfl, False.elim⟩

/-- Where nothing waits, the cycle shows its number in the mode that stands, and its cores enter (R31, R33, R212). -/
structure CycleShown (sec j : Nat) (s t : State) : Prop where
  cycle : regGet t Reg.ESC_CYCLE = cycleNumber s sec j
  sys : t.sys = s.sys
  running : escRunning t = escRunning s
  entered : coresEntered t
  wlen : j ≠ 0 → s.esc.phase = 0 → s.esc.realign = none → t.esc.wlen = periodTicks s

theorem beginCycle_shows (n sec j : Nat) (sync : Bool) (withheld : BitVec 128) (h : nothingWaits s) :
    CycleShown sec j s (beginCycle n sec j sync withheld s) := by
  have hadopt := adopted_nothing (n := n) (sec := sec) (j := j) h
  obtain ⟨hsys, hcycle, hrunning, hperiod, hphase, hrealign⟩ := cycleNumbered_fields n sec j s
  rw [beginCycle_eq]
  dsimp only
  generalize adoptAll (cycleCleared n sec j s) = a at hadopt ⊢
  have hmeasure : Numbered a (if j = 0 then measurePhase n sec a else a) :=
    .ite (numbered_measurePhase n sec a) (.refl a)
  have hlength := (hmeasure.trans (numbered_settlePhase _)).trans (numbered_setLength _)
  obtain ⟨hreleased, hesc, hentered⟩ := released_does sync withheld
    (setLength (settlePhase (if j = 0 then measurePhase n sec a else a)))
  obtain ⟨hsys', hcycle', hrunning'⟩ := (hadopt.numbered.trans hlength).trans hreleased
  refine ⟨hcycle'.trans hcycle, hsys'.trans hsys, hrunning'.trans hrunning, hentered, fun hj hphase0 hrealign0 => ?_⟩
  have hphase' : (settlePhase a).esc.phase = 0 := by rw [settlePhase_esc, hadopt.esc, hphase, hphase0]
  have hrealign' : (settlePhase a).esc.realign = none := by rw [settlePhase_esc, hadopt.esc, hrealign, hrealign0]
  have hperiod' : periodTicks a = periodTicks (cycleNumbered n sec j s) :=
    fget_of_regGet_eq (f := Fld.ESC_PERIOD_PERIOD)
      (hadopt.regs _ (show Reg.ESC_PERIOD / 0x10000 = 0x4002 by decide))
  rw [hesc, if_neg hj, setLength_wlen hphase' hrealign', settlePhase_period, hperiod', hperiod]

/-! ## Start, release and stop (R31, R32, R35) -/

theorem escapementStart_idle (h : escRunning s = true ∨ s.sys.mode ≠ .commission) : escapementStart s = s := by
  refine if_pos ?_
  simpa using h

/-- The instant at which the escapement starts. -/
def startInstant (s : State) : Nat := max (tickOf s (startSecond s)) (s.sys.modeAt + msTicks 1)

/-- The state in which its first cycle begins. -/
def startState (s : State) : State := filterStart (fset Fld.ESC_STATUS_RUNNING 1 (reach (startInstant s) s))

theorem escapementStart_starts (hrun : escRunning s = false) (hmode : s.sys.mode = .commission) :
    escapementStart s = beginCycle (startInstant s) (startSecond s) 0 true 0 (startState s) := by
  have hgo : (escRunning s || s.sys.mode != .commission) = false := by simp [hrun, hmode]
  unfold escapementStart
  rw [hgo]
  rfl

theorem startState_running (s : State) : escRunning (startState s) = true :=
  fbit_fset_bit Fld.ESC_STATUS_RUNNING true _ rfl (by decide)

theorem regGet_startState {a : Nat} (ha : a ≠ Reg.ESC_STATUS) (s : State) : regGet (startState s) a = regGet s a :=
  regGet_fset_other (f := Fld.ESC_STATUS_RUNNING) 1 (reach (startInstant s) s) ha

theorem startState_period (s : State) : periodTicks (startState s) = periodTicks s := by
  unfold periodTicks
  exact fget_of_regGet_eq (regGet_startState (by decide) s)

theorem cycleRelease_idle (withheld : BitVec 128) (h : escRunning s = false) : cycleRelease withheld s = s := by
  refine if_pos ?_
  rw [h]
  rfl

/-- The cycle before has ended. -/
def cycleEnded (s : State) : State :=
  let n := nextIndex s
  chrLast (chrBoundary (cycleNumber (cycleEvidence (filterBoundary (reach (s.esc.tk + s.esc.wlen) s))) n.1 n.2.1)
    (cycleEvidence (filterBoundary (reach (s.esc.tk + s.esc.wlen) s))))

theorem endWork_cycleEnded (s : State) : EndWork (reach (s.esc.tk + s.esc.wlen) s) (cycleEnded s) :=
  (EndWork.refl _).filterBoundary.cycleEvidence.chrBoundary.chrLast

theorem cycleRelease_releases (withheld : BitVec 128) (h : escRunning s = true) : ∃ sync, cycleRelease withheld s =
    beginCycle (s.esc.tk + s.esc.wlen) (nextIndex s).1 (nextIndex s).2.1 sync withheld (cycleEnded s) :=
  ⟨_, if_neg (by simp [h])⟩

theorem nextIndex_straight (h : s.esc.realign = none ∨ inRun s = true) :
    ((nextIndex s).1, (nextIndex s).2.1) =
      if s.esc.j + 1 < cyclesPerSecond s then (s.esc.sec, s.esc.j + 1) else (s.esc.sec + 1, 0) := by
  have hnone : (if inRun s then none else s.esc.realign) = none := by
    rcases h with hrealign | hrun
    · rw [hrealign, ite_self]
    · rw [if_pos hrun]
  unfold nextIndex
  rw [hnone]
  dsimp only
  split
  · rfl
  · rfl

theorem cyclesPerSecond_congr (h : periodTicks t = periodTicks s) : cyclesPerSecond t = cyclesPerSecond s := by
  unfold cyclesPerSecond
  rw [h]

theorem cycleEnded_period (s : State) : periodTicks (cycleEnded s) = periodTicks s :=
  fget_of_regGet_eq (f := Fld.ESC_PERIOD_PERIOD) ((endWork_cycleEnded s).regs _ (by decide))

theorem escapementStop_idle (h : escRunning s = false ∨ s.sys.mode ≠ .lockout) : escapementStop s = s := by
  refine if_neg ?_
  rcases h with h | h
  · simp [h]
  · simp [h]

/-- Every cycle core is idle. -/
def coresIdled (s : State) : State := (List.range 4).foldl (fun s c => setCore c { core s c with run := .idle } s) s

/-- The escapement stands, and shows neither alignment nor its source. -/
def escStood (s : State) : State :=
  fset Fld.ESC_STATUS_RUNNING 0 (fset Fld.ESC_STATUS_ALIGNED 0 (fset Fld.ESC_STATUS_LOCAL 0 s))

theorem chrEscStop_setChr (s : State) : ∃ c, chrEscStop s = setChr c s := by
  unfold chrEscStop
  split
  · split
    · exact ⟨s.chr, rfl⟩
    · extract_lets left s1
      split
      · exact ⟨_, rfl⟩
      · exact ⟨_, rfl⟩
  · exact ⟨_, rfl⟩

/-- It waits for no boundary of corrected time. -/
def notRealigned (s : State) : State := setEsc { s.esc with realign := none } s

theorem escapementStop_stops (hrun : escRunning s = true) (hmode : s.sys.mode = .lockout) :
    ∃ c, escapementStop s = setChr c (notRealigned (escStood (coresIdled s))) := by
  obtain ⟨c, hc⟩ := chrEscStop_setChr (notRealigned (escStood (coresIdled s)))
  refine ⟨c, ?_⟩
  rw [← hc]
  exact if_pos (by simp [hrun, hmode])

theorem escStood_status (s : State) : escRunning (escStood s) = false ∧
    fget (escStood s) Fld.ESC_STATUS_ALIGNED = 0 ∧ fget (escStood s) Fld.ESC_STATUS_LOCAL = 0 := by
  refine ⟨fbit_fset_zero _ _ (by decide) (by decide), ?_, ?_⟩
  · rw [escStood, fget_fset_other Fld.ESC_STATUS_RUNNING Fld.ESC_STATUS_ALIGNED _ _ (by decide) (by decide) rfl]
    exact fget_fset_self _ _ _ (by decide) (by decide)
  · rw [escStood, fget_fset_other Fld.ESC_STATUS_RUNNING Fld.ESC_STATUS_LOCAL _ _ (by decide) (by decide) rfl,
      fget_fset_other Fld.ESC_STATUS_ALIGNED Fld.ESC_STATUS_LOCAL _ _ (by decide) (by decide) rfl]
    exact fget_fset_self _ _ _ (by decide) (by decide)

theorem onlyRegs_escStood (s : State) : onlyRegs [Reg.ESC_STATUS] s (escStood s) :=
  (((onlyRegs.refl _ s).fset (by decide)).fset (by decide)).fset (by decide)

/-- A stop changes the cores, ESC_STATUS, the escapement's waiting and the chronograph. -/
theorem stopped_keeps {as : List Nat} (ht : t = { s with cores := t.cores }) (hu : onlyRegs as t u) (c : Chr) :
    let v := setChr c (notRealigned u)
    v.regs = u.regs ∧ v.sys = s.sys ∧ v.mem = s.mem ∧ v.cells = s.cells ∧ v.wheels = s.wheels ∧
      v.ports = s.ports ∧ v.cores = t.cores := by
  rw [hu.1, ht]
  exact ⟨rfl, rfl, rfl, rfl, rfl, rfl, rfl⟩

/-- Idling one core after another changes nothing but the cores named. -/
theorem foldl_idle (l : List Nat) (hl : l.Nodup) (s : State) :
    let t := l.foldl (fun s c => setCore c { core s c with run := .idle } s) s
    t = { s with cores := t.cores } ∧
      ∀ c, core t c = if c ∈ l then { core s c with run := .idle } else core s c := by
  induction l generalizing s with
  | nil => exact ⟨rfl, fun c => (if_neg List.not_mem_nil).symm⟩
  | cons d l ih =>
    obtain ⟨hd, hl⟩ := List.nodup_cons.mp hl
    obtain ⟨hframe, hcore⟩ := ih hl (setCore d { core s d with run := .idle } s)
    refine ⟨hframe, fun c => (hcore c).trans ?_⟩
    by_cases hc : c = d
    · subst hc
      simp [hd]
    · simp [hc, core_setCore]

/-- Settles O37: a cycle that begins has its own number and start whatever is adopted at its boundary; where nothing
waits it shows them, and its cores enter. -/
theorem cyclesStartReleaseAndStop : Obligations.CyclesStartReleaseAndStop := by
  intro s withheld
  refine ⟨fun h => congrArg _ (escapementStart_idle h), fun hrun hmode => ?_,
    fun h => congrArg _ (cycleRelease_idle withheld h), fun hrun => ?_, fun h => congrArg _ (escapementStop_idle h), fun hrun hmode => ?_⟩
  · refine ⟨_, congrArg Host.Outcome.next (escapementStart_starts hrun hmode), ?_⟩
    have hbegun := beginCycle_begins (startInstant s) (startSecond s) 0 true 0 (startState s)
    refine ⟨hbegun.j, hbegun.sec, hbegun.tk, hbegun.refDone, hbegun.cutDone, ?_, hbegun.epoch, fun hwaits => ?_⟩
    · rw [hbegun.cnt, hbegun.tk]
      rfl
    · have hshown := beginCycle_shows (s := startState s) (startInstant s) (startSecond s) 0 true 0 hwaits
      refine ⟨hshown.running.trans (startState_running s), ?_, hshown.entered, ?_⟩
      · rw [hshown.sys]
        exact hmode
      · rw [hshown.cycle, hbegun.sec, cycleNumber, cyclesPerSecond_congr (startState_period s), Nat.add_zero]
  · obtain ⟨sync, hrelease⟩ := cycleRelease_releases withheld hrun
    refine ⟨_, congrArg Host.Outcome.next hrelease, ?_⟩
    have hended := endWork_cycleEnded s
    have hbegun := beginCycle_begins (s.esc.tk + s.esc.wlen) (nextIndex s).1 (nextIndex s).2.1 sync withheld (cycleEnded s)
    refine ⟨hbegun.tk, hbegun.refDone, hbegun.cutDone, ?_, hbegun.cells, fun h => ?_, fun hwaits => ?_⟩
    · rw [hbegun.cnt, hbegun.tk, hended.time]
      rfl
    · rw [hbegun.sec, hbegun.j]
      exact nextIndex_straight h
    · have hshown := beginCycle_shows (s.esc.tk + s.esc.wlen) (nextIndex s).1 (nextIndex s).2.1 sync withheld
        (hended.stillNothing hwaits)
      refine ⟨?_, ?_, hshown.entered, fun hj hphase hrealign => ?_⟩
      · rw [hshown.cycle, hbegun.sec, hbegun.j, cycleNumber, cyclesPerSecond_congr (cycleEnded_period s)]
      · rw [hshown.sys, hended.sys]
        rfl
      · rw [hbegun.j] at hj
        rw [hshown.wlen hj (by rw [hended.esc]; exact hphase) (by rw [hended.esc]; exact hrealign), cycleEnded_period]
  · obtain ⟨c, hstop⟩ := escapementStop_stops hrun hmode
    obtain ⟨hrunning, haligned, hlocal⟩ := escStood_status (coresIdled s)
    obtain ⟨hframe, hcore⟩ := foldl_idle (List.range 4) List.nodup_range s
    obtain ⟨hregs, hsys, hmem, hcells, hwheels, hports, hcores⟩ :=
      stopped_keeps hframe (onlyRegs_escStood (coresIdled s)) c
    have hreg : regGet (setChr c (notRealigned (escStood (coresIdled s)))) Reg.ESC_STATUS =
        regGet (escStood (coresIdled s)) Reg.ESC_STATUS := by rw [regGet, hregs, regGet]
    refine ⟨_, congrArg Host.Outcome.next hstop, ?_, ?_, ?_, hsys, hmem, hcells, hwheels, hports, fun c' hc => ?_⟩
    · exact (fbit_of_regGet_eq (f := Fld.ESC_STATUS_RUNNING) hreg).trans hrunning
    · exact (fget_of_regGet_eq (f := Fld.ESC_STATUS_ALIGNED) hreg).trans haligned
    · exact (fget_of_regGet_eq (f := Fld.ESC_STATUS_LOCAL) hreg).trans hlocal
    · rw [core, hcores]
      exact (hcore c').trans (if_pos (List.mem_range.mpr hc))

end Sys2Proof.Machine
end

section
namespace Sys2Proof.Machine

variable {s t u : State}

/-! # What an occurrence leaves of the baton, of BTN_HEALTH and of the latched bits (R373, R376, R405)

`PairStands`: work that touches neither the baton nor BTN_HEALTH. `Aftermath`: what an occurrence or a posted event may
change, with what stands of the baton: a reaction may start a handover and may set SELFTEST, and no more. -/

structure PairStands (s t : State) : Prop where
  btn : t.btn = s.btn
  health : regGet t Reg.BTN_HEALTH = regGet s Reg.BTN_HEALTH

theorem PairStands.refl (s : State) : PairStands s s := ⟨rfl, rfl⟩

theorem PairStands.trans (h : PairStands s t) (h' : PairStands t u) : PairStands s u :=
  ⟨h'.btn.trans h.btn, h'.health.trans h.health⟩

theorem PairStands.ite {c : Prop} [Decidable c] (h : PairStands s t) (h' : PairStands s u) :
    PairStands s (if c then t else u) := by
  split
  · exact h
  · exact h'

/-- Only the registers and the baton count. -/
theorem PairStands.of_eq (h : PairStands s t) (hbtn : u.btn = t.btn) (hregs : u.regs = t.regs) : PairStands s u :=
  h.trans ⟨hbtn, congrArg (fun m => Store.get regReset m Reg.BTN_HEALTH) hregs⟩

theorem PairStands.regSet {a : Nat} {v : Word} (h : PairStands s t) (ha : Reg.BTN_HEALTH ≠ a) :
    PairStands s (regSet a v t) := h.trans ⟨rfl, regGet_regSet_other v t ha⟩

theorem PairStands.fset {f : Field} {v : Nat} (h : PairStands s t) (hf : Reg.BTN_HEALTH ≠ f.reg) :
    PairStands s (fset f v t) := h.regSet hf

theorem PairStands.bump {a : Nat} (h : PairStands s t) (ha : Reg.BTN_HEALTH ≠ a) : PairStands s (bump a t) := h.regSet ha

theorem PairStands.sch (h : PairStands s t) {x} : PairStands s { t with sch := x } := h.of_eq rfl rfl

theorem PairStands.putBytes {a : Nat} {bs : List Byte} (h : PairStands s t) : PairStands s (putBytes a bs t) :=
  h.trans ⟨by rw [putBytes_frame], putBytes_regsBut a bs t _ (by decide)⟩

theorem PairStands.traceRecord {lo hi : Word} (h : PairStands s t) : PairStands s (traceRecord lo hi t) := by
  unfold Machine.traceRecord
  split
  · exact h
  · split
    · exact (h.fset (by decide)).fset (by decide)
    · extract_lets w a s1 s2 s3 s4
      have hs2 : PairStands s s2 := PairStands.putBytes (.ite (h.fset (by decide)) h)
      have hs3 : PairStands s s3 := hs2.fset (by decide)
      exact .ite (.ite (hs3.sch.fset (by decide)) hs3.sch) hs3

theorem PairStands.traceEvent {reason cls core src flow : Nat} (h : PairStands s t) :
    PairStands s (traceEvent reason cls core src flow t) := h.traceRecord

theorem PairStands.refusalRing {e : Event} (h : PairStands s t) : PairStands s (refusalRing e t) := by
  unfold Machine.refusalRing
  extract_lets p a s1 s2 s3
  have hs2 : PairStands s s2 := PairStands.putBytes (.ite (h.fset (by decide)) h)
  have hs3 : PairStands s s3 := hs2.fset (by decide)
  exact .ite hs3.sch hs3

theorem PairStands.enterReady {e : Event} {res : Bool} (h : PairStands s t) : PairStands s (enterReady e res t) := by
  unfold Machine.enterReady
  exact .ite (h.sch.regSet (by decide)) h.sch

theorem health_ne_refCnt {c : Nat} (h : c < 4) : Reg.BTN_HEALTH ≠ Reg.SCH_REF_CNT c := by
  match c with
  | 0 | 1 | 2 | 3 => decide

theorem PairStands.refuseEvent {e : Event} {reason : Nat} {toRing : Bool} (h : PairStands s t) (he : e.cls < 4) :
    PairStands s (refuseEvent e reason toRing t) := by
  unfold Machine.refuseEvent
  have ht := (h.bump (health_ne_refCnt he)).traceEvent (reason := reason) (cls := e.cls) (core := 7) (src := e.src)
    (flow := e.flow)
  exact .ite ht.refusalRing ht

theorem PairStands.enterNow {e : Event} (h : PairStands s t) (hu : enterNow e t = some u) : PairStands s u := by
  unfold Machine.enterNow at hu
  split at hu
  · obtain rfl := Option.some.inj hu
    exact h.enterReady
  · split at hu
    · cases hu
    · obtain ⟨r, hr, rfl⟩ := Option.map_eq_some_iff.mp hu
      exact ((h.sch.bump (by decide)).refuseEvent (evictable_cls hr)).enterReady

theorem PairStands.arriveCore {e : Event} (h : PairStands s t) (he : e.cls < 4) : PairStands s (arriveCore e t).1 := by
  unfold Machine.arriveCore
  split
  · exact h
  · split
    next held _ =>
      extract_lets m t1
      have ht1 : PairStands s t1 := h.bump (by decide)
      split
      next t2 hin =>
        split at hin
        · exact ht1.sch.enterNow hin
        · cases hin
      · exact ht1.sch
    · split
      next t2 hin => exact h.enterNow hin
      · split
        · exact (h.sch.bump (by decide)).traceEvent
        · exact h.refuseEvent he

theorem PairStands.noteLatch {cls : Nat} (h : PairStands s t) : PairStands s (noteLatch cls t) :=
  .ite h (h.of_eq rfl rfl)

/-- Latching an occurrence writes registers of the fault collector, and nothing of the baton. -/
theorem latchOccurrence_btn (d : Detection) (s : State) : (latchOccurrence d s).btn = s.btn := by
  unfold latchOccurrence
  extract_lets cls st t1 t2 t3 valid rank held out fills now cap1 t4 _ t5 full e log _ t6 t7
  have ht1 : t1.btn = s.btn := by
    unfold t1 noteLatch
    split
    · rfl
    · split <;> rfl
  have ht4 : t4.btn = s.btn := by
    rw [← ht1]
    unfold t4
    split <;> rfl
  have ht5 : t5.btn = s.btn := by
    rw [← ht4]
    unfold t5
    split
    · simp only [setSplitRegs_btn, regSet_btn]
    · rfl
  rw [apply_ite State.btn, fset_btn, ite_self]
  exact (fset_btn ..).trans ht5

theorem pairStands_latchOccurrence {d : Detection} (hd : d.src < 64) (s : State) :
    PairStands s (latchOccurrence d s) := by
  refine ⟨latchOccurrence_btn d s, ?_⟩
  rw [latchOccurrence_regsBut d s _ (by decide), regGet_regSet_other]
  intro he
  have hword : d.src / 32 < 2 := by omega
  simp only [Reg.BTN_HEALTH, Reg.FCO_STATUS_0] at he
  omega

/-- What an occurrence or a posted event may change, and what it leaves of the baton, of its health and of the latched
bits. -/
structure Aftermath (s t : State) : Prop where
  step : FaultStep s t
  btn : t.btn = { s.btn with ho := t.btn.ho, hoOp := t.btn.hoOp, hoCycle := t.btn.hoCycle }
  health : ∀ i, i ≠ 5 → (regGet t Reg.BTN_HEALTH).toNat.testBit i = (regGet s Reg.BTN_HEALTH).toNat.testBit i
  failed : (regGet s Reg.BTN_HEALTH).toNat.testBit 5 = true → (regGet t Reg.BTN_HEALTH).toNat.testBit 5 = true
  latches : ∀ src < 64, latched s src → latched t src

theorem Aftermath.refl (s : State) : Aftermath s s := ⟨.refl s, rfl, fun _ _ => rfl, id, fun _ _ => id⟩

theorem Aftermath.trans (h : Aftermath s t) (h' : Aftermath t u) : Aftermath s u where
  step := h.step.trans h'.step
  btn := by rw [h'.btn, h.btn]
  health i hi := (h'.health i hi).trans (h.health i hi)
  failed hs := h'.failed (h.failed hs)
  latches src hsrc hs := h'.latches src hsrc (h.latches src hsrc hs)

theorem Aftermath.ite {c : Prop} [Decidable c] (h : Aftermath s t) (h' : Aftermath s u) :
    Aftermath s (if c then t else u) := by
  split
  · exact h
  · exact h'

theorem PairStands.aftermath (h : PairStands s t) (hstep : FaultStep s t)
    (hlatch : ∀ src < 64, latched s src → latched t src) : Aftermath s t where
  step := hstep
  btn := by rw [h.btn]
  health _ _ := by rw [h.health]
  failed hs := by rwa [h.health]
  latches := hlatch

theorem Aftermath.arriveCore {e : Event} (he : e.cls < 4) (s : State) : Aftermath s (arriveCore e s).1 :=
  have hreact : Reacts s (Machine.arriveCore e s).1 := .arriveCore (.refl s) he
  (PairStands.arriveCore (.refl s) he).aftermath hreact.toFaultStep fun _ => hreact.latched

theorem Aftermath.latchOccurrence {d : Detection} (hd : d.src < 64) (s : State) : Aftermath s (latchOccurrence d s) :=
  (pairStands_latchOccurrence hd s).aftermath (.latchOccurrence (.refl s) hd) fun _ hsrc hs =>
    latched_latchOccurrence hsrc (.inr hs)

/-- A reaction that sets a register of the scheduler or of the fault collector. -/
theorem Aftermath.fset {f : Field} {v : Nat} (h : Aftermath s t) (hf : f.reg ∈ reactRegs) (hne : Reg.BTN_HEALTH ≠ f.reg) :
    Aftermath s (fset f v t) :=
  have hreact : Reacts t (Machine.fset f v t) := .fset (.refl t) hf
  h.trans ((PairStands.fset (.refl t) hne).aftermath hreact.toFaultStep fun _ => hreact.latched)

theorem Aftermath.assertFaultOut (h : Aftermath s t) : Aftermath s (assertFaultOut t) :=
  (h.fset (by decide) (by decide)).fset (by decide) (by decide)

theorem Aftermath.safetyCause {code : Nat} (h : Aftermath s t) : Aftermath s (safetyCause code t) :=
  have hreact : Reacts t (Machine.safetyCause code t) := .safetyCause (.refl t)
  have hpair : PairStands t (Machine.safetyCause code t) := .of_eq (.refl t) rfl rfl
  h.trans (hpair.aftermath hreact.toFaultStep fun _ => hreact.latched)

/-- A handover that starts is the baton's own (R376). -/
theorem Aftermath.startHandover {cause : Nat} (h : Aftermath s t) : Aftermath s (startHandover cause t) := by
  have hreact : Reacts t (Machine.startHandover cause t) := .startHandover (.refl t)
  have hhealth : regGet (Machine.startHandover cause t) Reg.BTN_HEALTH = regGet t Reg.BTN_HEALTH :=
    regGet_fset_other _ _ (by decide)
  exact h.trans ⟨hreact.toFaultStep, rfl, fun _ _ => by rw [hhealth], fun hs => by rwa [hhealth], fun _ => hreact.latched⟩

/-- A standby notes a failed self-test (R373). -/
theorem Aftermath.failSelftest (h : Aftermath s t) : Aftermath s (Machine.fset Fld.BTN_HEALTH_SELFTEST 1 t) := by
  have hreact : Reacts t (Machine.fset Fld.BTN_HEALTH_SELFTEST 1 t) := .fset (.refl t) (by decide)
  have hbit (i : Nat) : (regGet (Machine.fset Fld.BTN_HEALTH_SELFTEST 1 t) Reg.BTN_HEALTH).toNat.testBit i =
      if 5 ≤ i ∧ i ≤ 5 then Nat.testBit 1 (i - 5) else (regGet t Reg.BTN_HEALTH).toNat.testBit i := by
    rw [show Reg.BTN_HEALTH = Fld.BTN_HEALTH_SELFTEST.reg from rfl, Machine.fset, regGet_regSet_self]
    exact testBit_fieldSet _ 1 i (by decide) (by decide)
  refine h.trans ⟨hreact.toFaultStep, rfl, fun i hi => ?_, fun _ => ?_, fun _ => hreact.latched⟩
  · rw [hbit, if_neg (by omega)]
  · rw [hbit]
    rfl

theorem Aftermath.reactClassAB {src cls : Nat} (h : Aftermath s t) : Aftermath s (reactClassAB src cls t) := by
  unfold Machine.reactClassAB
  extract_lets t1
  have ht1 : Aftermath s t1 := h.assertFaultOut
  refine .ite ht1 (.ite (.ite ht1 ht1.safetyCause) ?_)
  split
  · exact ht1.safetyCause
  · exact .ite ht1.safetyCause (.ite ht1 ht1.startHandover)
  · exact ht1.failSelftest

theorem Aftermath.occurOnce {d : Detection} (h : Aftermath s t) (hd : d.src < 64) : Aftermath s (occurOnce d t).1 := by
  unfold Machine.occurOnce
  extract_lets rc t1
  have ht1 : Aftermath s t1 := h.trans (.latchOccurrence hd t)
  split
  · exact ht1.reactClassAB
  · exact ht1.trans (.arriveCore (faultEvent_cls_lt ..) t1)

theorem Aftermath.setRaised {src inst : Nat} {b : Bool} (h : Aftermath s t) : Aftermath s (setRaised src inst b t) :=
  have hreact : Reacts t (Machine.setRaised src inst b t) := .setRaised (.refl t)
  have hpair : PairStands t (Machine.setRaised src inst b t) := .of_eq (.refl t) rfl rfl
  h.trans (hpair.aftermath hreact.toFaultStep fun _ => hreact.latched)

theorem Aftermath.noteC0Held (h : Aftermath s t) : Aftermath s (noteC0Held t) :=
  .ite h ((h.fset (f := Fld.SCH_STATUS_C0_HELD) (v := 1) (by decide) (by decide)).setRaised.occurOnce
    (show 48 < 64 by decide))

theorem Aftermath.occur {d : Detection} (h : Aftermath s t) (hd : d.src < 64) : Aftermath s (occur d t) := by
  unfold Machine.occur
  exact .ite (h.occurOnce hd).noteC0Held (h.occurOnce hd)

theorem Aftermath.post {e : Event} (h : Aftermath s t) (he : e.cls < 4) : Aftermath s (post e t) := by
  have harrive : Aftermath s (Machine.arriveCore e t).1 := h.trans (.arriveCore he t)
  unfold Machine.post Machine.arrive
  dsimp only
  split
  · exact harrive.noteC0Held
  · exact harrive

theorem Aftermath.raiseCond {src inst master access : Nat} (h : Aftermath s t) (hsrc : src < 64) :
    Aftermath s (raiseCond src inst master access t) := .ite h.setRaised (h.setRaised.occur hsrc)

theorem Aftermath.condIs {b : Bool} {src inst master : Nat} (h : Aftermath s t) (hsrc : src < 64) :
    Aftermath s (condIs b src inst master t) := .ite (.ite h (h.raiseCond hsrc)) h.setRaised

/-- A flag of BTN_HEALTH other than SELFTEST stands. -/
theorem Aftermath.fget_health (h : Aftermath s t) {f : Field} (hreg : f.reg = Reg.BTN_HEALTH) (hlo : f.lo = f.hi)
    (hf : f.lo ≠ 5) : fget t f = fget s f := by
  refine Nat.eq_of_testBit_eq fun i => ?_
  rw [fget, fget, testBit_fieldGet, testBit_fieldGet, hreg]
  by_cases hi : i = 0
  · subst hi
    rw [Nat.zero_add, h.health _ hf]
  · rw [decide_eq_false (by omega), Bool.false_and, Bool.false_and]

theorem fbit_selftest_iff (s : State) :
    fbit s Fld.BTN_HEALTH_SELFTEST = true ↔ (regGet s Reg.BTN_HEALTH).toNat.testBit 5 = true := by
  have hbit := testBit_fieldGet (regGet s Reg.BTN_HEALTH) 5 5 0
  have hlt := fieldGet_lt (regGet s Reg.BTN_HEALTH) 5 5
  rw [decide_eq_true (by omega), Bool.true_and, Nat.zero_add] at hbit
  rw [← hbit]
  show (fieldGet (regGet s Reg.BTN_HEALTH) 5 5 == 1) = true ↔ _
  generalize fieldGet (regGet s Reg.BTN_HEALTH) 5 5 = n at hlt
  have : n < 2 := hlt
  interval_cases n <;> simp

/-- A failed self-test stays so through an occurrence. -/
theorem Aftermath.fbit_selftest (h : Aftermath s t) (hs : fbit s Fld.BTN_HEALTH_SELFTEST = true) :
    fbit t Fld.BTN_HEALTH_SELFTEST = true := (fbit_selftest_iff t).mpr (h.failed ((fbit_selftest_iff s).mp hs))

/-- Posting an event ends and raises no condition but SCH_C0_HELD. -/
theorem raisedAt_post {src inst : Nat} (hsrc : src ≠ 48) (hinst : inst < 65536) (e : Event) (s : State) :
    raisedAt (post e s) src inst = raisedAt s src inst := by
  have hcore : raisedAt (arriveCore e s).1 src inst = raisedAt s src inst :=
    (SameRaised.refl s).arriveCore.raisedAt_eq src inst
  unfold post arrive
  dsimp only
  split
  · exact (raisedAt_noteC0Held hsrc hinst _).trans hcore
  · exact hcore

end Sys2Proof.Machine
end

section
namespace Sys2Proof.Machine

/-! # What the work of the cell chains leaves alone (R61 to R87, R121, R129)

A `ChainScope` names parts of the state. `Serves k s t`: the work that leads from `s` to `t` leaves the parts that `k`
names alone, and with them what no work of the chains changes. One lemma per operation; its hypotheses say which parts
the operation needs outside the scope. -/

/-- Parts of the state: block registers; the latched bits of the fault collector; and port by port the state while the
port does not heal, the results of the last complete sweep, the sweep that runs, and the heal. -/
structure ChainScope where
  reg : Nat → Prop := fun _ => False
  outside : ∀ a, reg a → a / 0x10000 ∉ [0x400C, 0x400D, 0x4011] ∧ ∀ p < 128, a ≠ Reg.RING_PSVC p := by simp
  latch : Prop := False
  state : Nat → Prop := fun _ => False
  results : Nat → Prop := fun _ => False
  sweep : Nat → Prop := fun _ => False
  heal : Nat → Prop := fun _ => False

/-- What stands of port `q` from `x` to `y`; a heal outside the scope may end. -/
structure PortKept (k : ChainScope) (q : Nat) (x y : Port) : Prop where
  comma : y.commaAt = x.commaAt
  results : k.results q → y.swept = x.swept ∧ y.reached = x.reached ∧ y.idents = x.idents
  sweep : k.sweep q → y.sweep = x.sweep ∧ y.broken = x.broken
  heal : y.heal = x.heal ∧ y.echo = x.echo ∨ ¬k.heal q ∧ y.heal = none

/-- What the twin has told, and the parts of its record. -/
def Baton.told (b : Baton) :
    Store (Option Nat) × Option MirrorPart × Option MirrorPart × Option MirrorPart × Option MirrorPart × Bool :=
  (b.twinReached, b.engIn, b.engPrev, b.restIn, b.otherIn, b.pbDiffers)

/-- The parts of a scope stand; of the condition sources only those of cells and chains may be raised and end. -/
structure Serves (k : ChainScope) (s t : State) : Prop where
  frame : t = { s with
    regs := t.regs, mem := t.mem, hidden := t.hidden, freeCtr := t.freeCtr,
    esc := { s.esc with checkOk := t.esc.checkOk }, fco := t.fco, sch := t.sch, saf := t.saf, btn := t.btn, chr := t.chr,
    cells := t.cells, ports := t.ports }
  told : t.btn.told = s.btn.told
  raised : ∀ src inst, 24 ≤ src → src ≠ 48 → inst < 65536 → raisedAt t src inst = raisedAt s src inst
  regs : ∀ a, k.reg a → regGet t a = regGet s a
  latches : k.latch → ∀ src < 64, latched s src → latched t src
  states : ∀ q < 128, k.state q → portState s q ≠ PState.healing → regGet t (Reg.RING_PSTAT q) = regGet s (Reg.RING_PSTAT q)
  here : ∀ i, (cell s i).here = true → (cell t i).here = true
  ports : ∀ q, PortKept k q (port s q) (port t q)

/-- Register `a` lies outside the scope. -/
structure ChainScope.Spare (k : ChainScope) (a : Nat) : Prop where
  reg : ¬k.reg a
  latch : k.latch → a / 0x10000 ≠ 0x400D
  state : ∀ q < 128, k.state q → Reg.RING_PSTAT q ≠ a

variable {k : ChainScope} {s t u : State}

theorem PortKept.refl (k : ChainScope) (q : Nat) (x : Port) : PortKept k q x x :=
  ⟨rfl, fun _ => ⟨rfl, rfl, rfl⟩, fun _ => ⟨rfl, rfl⟩, .inl ⟨rfl, rfl⟩⟩

theorem PortKept.trans {q : Nat} {x y z : Port} (h : PortKept k q x y) (h' : PortKept k q y z) : PortKept k q x z where
  comma := h'.comma.trans h.comma
  results hk := by
    obtain ⟨h1, h2, h3⟩ := h.results hk
    obtain ⟨h1', h2', h3'⟩ := h'.results hk
    exact ⟨h1'.trans h1, h2'.trans h2, h3'.trans h3⟩
  sweep hk := by
    obtain ⟨h1, h2⟩ := h.sweep hk
    obtain ⟨h1', h2'⟩ := h'.sweep hk
    exact ⟨h1'.trans h1, h2'.trans h2⟩
  heal := by
    rcases h'.heal with ⟨h1', h2'⟩ | hends
    · rcases h.heal with ⟨h1, h2⟩ | ⟨hk, hnone⟩
      · exact .inl ⟨h1'.trans h1, h2'.trans h2⟩
      · exact .inr ⟨hk, h1'.trans hnone⟩
    · exact .inr hends

/-- Fields of a port that are no parts of any scope. -/
theorem PortKept.plain {q : Nat} {x : Port} {lit freq queue kept seg meas ready held tx rtx hit block cnt lap next todo tc
    ti tp want} :
    PortKept k q x ⟨lit, x.commaAt, freq, queue, x.sweep, x.broken, x.swept, x.reached, kept, x.idents, seg, meas, x.heal,
      ready, held, tx, rtx, hit, block, x.echo, cnt, lap, next, todo, tc, ti, tp, want⟩ :=
  ⟨rfl, fun _ => ⟨rfl, rfl, rfl⟩, fun _ => ⟨rfl, rfl⟩, .inl ⟨rfl, rfl⟩⟩

theorem Serves.refl (k : ChainScope) (s : State) : Serves k s s :=
  ⟨rfl, rfl, fun _ _ _ _ _ => rfl, fun _ _ => rfl, fun _ _ _ => id, fun _ _ _ _ => rfl, fun _ => id, fun q => .refl k q _⟩

theorem portState_of_pstat {q : Nat} (h : regGet t (Reg.RING_PSTAT q) = regGet s (Reg.RING_PSTAT q)) :
    portState t q = portState s q := fget_of_regGet_eq (f := Fld.RING_PSTAT_STATE q) h

theorem Serves.trans (h : Serves k s t) (h' : Serves k t u) : Serves k s u where
  frame := by rw [h'.frame, h.frame]
  told := h'.told.trans h.told
  raised src inst h1 h2 h3 := (h'.raised src inst h1 h2 h3).trans (h.raised src inst h1 h2 h3)
  regs a ha := (h'.regs a ha).trans (h.regs a ha)
  latches hk src hsrc hs := h'.latches hk src hsrc (h.latches hk src hsrc hs)
  states q hq hk hs := by
    have hst := h.states q hq hk hs
    exact (h'.states q hq hk (by rwa [portState_of_pstat hst])).trans hst
  here i hi := h'.here i (h.here i hi)
  ports q := (h.ports q).trans (h'.ports q)

theorem Serves.ite {c : Prop} [Decidable c] (h : Serves k s t) (h' : Serves k s u) : Serves k s (if c then t else u) := by
  split
  · exact h
  · exact h'

theorem Serves.foldl {β : Type} {f : State → β → State} {l : List β} (h : Serves k s t)
    (hf : ∀ u, ∀ x ∈ l, Serves k s u → Serves k s (f u x)) : Serves k s (l.foldl f t) := by
  induction l generalizing t with
  | nil => exact h
  | cons x l ih => exact ih (hf t x (List.mem_cons_self ..) h) fun u y hy => hf u y (List.mem_cons_of_mem _ hy)

/-! ## Updates -/

theorem Serves.btn {b : Baton} (h : Serves k s t) (hb : b.told = t.btn.told) : Serves k s { t with btn := b } :=
  h.trans ⟨rfl, hb, fun _ _ _ _ _ => rfl, fun _ _ => rfl, fun _ _ _ => id, fun _ _ _ _ => rfl, fun _ => id,
    fun q => .refl k q _⟩

theorem Serves.checkOk {b : Bool} (h : Serves k s t) : Serves k s { t with esc := { t.esc with checkOk := b } } :=
  h.trans ⟨rfl, rfl, fun _ _ _ _ _ => rfl, fun _ _ => rfl, fun _ _ _ => id, fun _ _ _ _ => rfl, fun _ => id,
    fun q => .refl k q _⟩

/-- Hidden buffers and free values are no parts of any scope. -/
theorem Serves.hidden {m : Memory} {n : Nat} (h : Serves k s t) : Serves k s { t with hidden := m, freeCtr := n } :=
  h.trans ⟨rfl, rfl, fun _ _ _ _ _ => rfl, fun _ _ => rfl, fun _ _ _ => id, fun _ _ _ _ => rfl, fun _ => id,
    fun q => .refl k q _⟩

theorem Serves.setPort {p : Nat} {x : Port} (h : Serves k s t) (hx : PortKept k p (port t p) x) :
    Serves k s (setPort p x t) := by
  refine h.trans ⟨rfl, rfl, fun _ _ _ _ _ => rfl, fun _ _ => rfl, fun _ _ _ => id, fun _ _ _ _ => rfl, fun _ => id,
    fun q => ?_⟩
  rw [port_setPort]
  split
  next heq =>
    subst heq
    exact hx
  · exact .refl k q _

theorem Serves.setCell {i : Nat} {x : Cell} (h : Serves k s t) (hx : (cell t i).here = true → x.here = true) :
    Serves k s (setCell i x t) := by
  refine h.trans ⟨rfl, rfl, fun _ _ _ _ _ => rfl, fun _ _ => rfl, fun _ _ _ => id, fun _ _ _ _ => rfl, fun j hj => ?_,
    fun q => .refl k q _⟩
  rw [cell_setCell]
  split
  next heq =>
    subst heq
    exact hx hj
  · exact hj

theorem statusReg_block {src : Nat} (h : src < 64) : (Reg.FCO_STATUS_0 + 4 * (src / 32)) / 0x10000 = 0x400D := by
  simp only [Reg.FCO_STATUS_0]
  omega

theorem Serves.regSet {a : Nat} {v : Word} (h : Serves k s t) (ha : k.Spare a) : Serves k s (regSet a v t) := by
  refine h.trans ⟨rfl, rfl, fun _ _ _ _ _ => rfl, fun x hx => regGet_regSet_other v t (ne_of_named hx ha.reg),
    fun hk src hsrc hs => ?_, fun q hq hk _ => regGet_regSet_other v t (ha.state q hq hk), fun _ => id, fun q => .refl k q _⟩
  unfold latched
  rw [regGet_regSet_other]
  · exact hs
  · intro he
    exact ha.latch hk (he ▸ statusReg_block hsrc)

theorem Serves.fset {f : Field} {v : Nat} (h : Serves k s t) (hf : k.Spare f.reg) : Serves k s (fset f v t) := h.regSet hf

theorem Serves.bumpBy {n a : Nat} (h : Serves k s t) (ha : k.Spare a) : Serves k s (bumpBy n a t) := h.regSet ha

theorem Serves.bump {a : Nat} (h : Serves k s t) (ha : k.Spare a) : Serves k s (bump a t) := h.regSet ha

/-! ## Occurrences and events -/

theorem pstat_block {q : Nat} (h : q < 128) : Reg.RING_PSTAT q / 0x10000 = 0x4003 := by
  simp only [Reg.RING_PSTAT]
  omega

/-- The condition sources of pair and mirror stand. -/
def pairSourcesKept (s t : State) : Prop :=
  ∀ src inst, 24 ≤ src → src ≠ 48 → inst < 65536 → raisedAt t src inst = raisedAt s src inst

theorem Serves.aftermath (h : Serves k s t) (hu : Aftermath t u) (hraised : pairSourcesKept t u) : Serves k s u := by
  obtain ⟨hframe, -, -, -⟩ := hu.step.frame
  refine h.trans ⟨?_, ?_, hraised, fun a ha => hu.step.otherBlocks (k.outside a ha).1, fun _ => hu.latches,
    fun q hq _ _ => hu.step.otherBlocks (by rw [pstat_block hq]; decide), fun i hi => ?_, fun q => ?_⟩
  · rw [hframe]
  · rw [hu.btn]
    rfl
  · rw [hframe]
    exact hi
  · rw [hframe]
    exact .refl k q _

theorem Serves.post {e : Event} (h : Serves k s t) (he : e.cls < 4) : Serves k s (post e t) :=
  h.aftermath (.post (.refl t) he) fun _ _ _ h2 h3 => raisedAt_post h2 h3 e t

theorem Serves.occur {d : Detection} (h : Serves k s t) (hd : d.src < 64) : Serves k s (occur d t) :=
  h.aftermath (.occur (.refl t) hd) fun _ _ _ h2 h3 => raisedAt_occur h2 h3 d t

theorem Serves.raiseCond {src inst master access : Nat} (h : Serves k s t) (hsrc : src < 24) (hinst : inst < 65536) :
    Serves k s (raiseCond src inst master access t) :=
  h.aftermath (.raiseCond (.refl t) (by omega)) fun _ _ h1 h2 h3 =>
    raisedAt_raiseCond_other master access t (by omega) h2 h3 hinst

theorem Serves.condIs {b : Bool} {src inst master : Nat} (h : Serves k s t) (hsrc : src < 24) (hinst : inst < 65536) :
    Serves k s (condIs b src inst master t) :=
  h.aftermath (.condIs (.refl t) (by omega)) fun _ _ h1 h2 h3 =>
    raisedAt_condIs_other b master t (by omega) h2 h3 hinst

theorem Serves.clearCond {src inst : Nat} (h : Serves k s t) (hsrc : src < 24) (hinst : inst < 65536) :
    Serves k s (clearCond src inst t) :=
  h.aftermath (.setRaised (.refl t)) fun _ _ h1 _ h3 => raisedAt_setRaised_other false t (by omega) h3 hinst

/-! ## The ports of this unit -/

theorem endPort_lt (ch : ChainMap) (west : Bool) : endPort ch west < 128 := by
  unfold endPort
  split
  · exact ch.westPort.isLt
  · exact ch.eastPort.isLt

theorem peerPort_lt {p q : Nat} (h : peerPort s p = some q) : q < 128 := by
  unfold peerPort at h
  split at h
  · cases h
  · split at h
    · obtain rfl := Option.some.inj h
      exact endPort_lt _ _
    · cases h

theorem healOwner_lt {p q : Nat} (hp : p < 128) (h : healOwner s p = some q) : q < 128 := by
  unfold healOwner at h
  split at h
  · obtain rfl := Option.some.inj h
    exact hp
  · split at h
    · split at h
      next r hr =>
        split at h
        · obtain rfl := Option.some.inj h
          exact peerPort_lt hr
        · cases h
      · cases h
    · cases h

theorem healPorts_lt {o : Nat} (ho : o < 128) : ∀ i ∈ healPorts s o, i < 128 := by
  unfold healPorts
  intro i hi
  split at hi
  next q hq =>
    split at hi
    · rcases List.mem_pair.mp hi with rfl | rfl
      · exact ho
      · exact peerPort_lt hq
    · obtain rfl := List.mem_singleton.mp hi
      exact ho
  · obtain rfl := List.mem_singleton.mp hi
    exact ho

/-- A port register of the ring block, outside the scope's registers. -/
theorem ChainScope.spare_of_ring {a : Nat} (ha : ¬k.reg a) (hblock : a / 0x10000 = 0x4003)
    (hstate : ∀ q < 128, k.state q → Reg.RING_PSTAT q ≠ a) : k.Spare a :=
  ⟨ha, fun _ => by rw [hblock]; decide, hstate⟩

theorem ChainScope.spare_psvc {p : Nat} (hp : p < 128) : k.Spare (Reg.RING_PSVC p) := by
  refine .mk (fun ha => (k.outside _ ha).2 p hp rfl) ?_ ?_
  all_goals
    simp only [Reg.RING_PSVC, Reg.RING_PSTAT]
    omega

/-- The state register of a port that heals, or whose state is no part of the scope. -/
theorem Serves.pstat {p : Nat} {v : Word} (h : Serves k s t) (hp : p < 128) (hreg : ¬k.reg (Reg.RING_PSTAT p))
    (hstate : k.state p → portState t p = PState.healing) : Serves k s (Machine.regSet (Reg.RING_PSTAT p) v t) := by
  refine h.trans ⟨rfl, rfl, fun _ _ _ _ _ => rfl, fun x hx => regGet_regSet_other v t (ne_of_named hx hreg),
    fun hk src hsrc hs => ?_, fun q hq hk hheal => regGet_regSet_other v t fun he => ?_, fun _ => id, fun q => .refl k q _⟩
  · unfold latched
    rw [regGet_regSet_other]
    · exact hs
    · intro he
      have hblock := statusReg_block hsrc
      rw [he, pstat_block hp] at hblock
      cases hblock
  · obtain rfl : q = p := by
      simp only [Reg.RING_PSTAT] at he
      omega
    exact hheal (hstate hk)

/-! ## Port states, sweeps and heals -/

theorem Serves.sendMgmt {m : MgmtMsg} (h : Serves k s t) : Serves k s (sendMgmt m t) := .ite (h.btn rfl) h

theorem Serves.setPortState {p st fold : Nat} (h : Serves k s t) (hp : p < 128) (hreg : ¬k.reg (Reg.RING_PSTAT p))
    (hstate : k.state p → portState t p = PState.healing) : Serves k s (setPortState p st fold t) := by
  have hfold : Serves k s (Machine.fset (Fld.RING_PSTAT_FOLD_POS p) fold t) := h.pstat hp hreg hstate
  have hset : Serves k s (Machine.fset (Fld.RING_PSTAT_STATE p) st (Machine.fset (Fld.RING_PSTAT_FOLD_POS p) fold t)) := by
    refine hfold.pstat hp hreg fun hk => ?_
    rw [← hstate hk]
    exact fget_fset_other (Fld.RING_PSTAT_FOLD_POS p) (Fld.RING_PSTAT_STATE p) fold t
      (show 24 ≤ 31 ∧ 31 < 32 ∧ 0 ≤ 3 by decide) (.inl (show 3 < 24 by decide)) rfl
  exact .ite hset (hset.post (show srcClass _ 3 false < 4 from srcClass_lt ..))

theorem Serves.setReached {p n : Nat} (h : Serves k s t) (hp : p < 128) (hreg : ¬k.reg (Reg.RING_PSTAT p))
    (hstate : ¬k.state p) : Serves k s (setReached p n t) :=
  .ite h (.sendMgmt (h.pstat hp hreg fun hk => absurd hk hstate))

theorem Serves.startSweep {p : Nat} (h : Serves k s t) (hk : ¬k.sweep p) : Serves k s (startSweep p t) :=
  .ite h (.ite (h.setPort .plain) (.sendMgmt (h.setPort
    ⟨rfl, fun _ => ⟨rfl, rfl, rfl⟩, fun hs => absurd hs hk, .inl ⟨rfl, rfl⟩⟩)))

theorem Serves.wanted {p : Nat} (h : Serves k s t) (hk : ¬k.sweep p) : Serves k s (wanted p t) := .ite (h.startSweep hk) h

theorem Serves.dropRequests {p : Nat} {owner : SvcOwner} (h : Serves k s t) (hp : p < 128) :
    Serves k s (dropRequests p owner t) := (h.setPort .plain).fset (k.spare_psvc hp)

theorem Serves.endSweep {p : Nat} {broken : Bool} (h : Serves k s t) (hp : p < 128) (hk : ∀ q, ¬k.sweep q) :
    Serves k s (endSweep p broken t) := by
  unfold Machine.endSweep
  split
  · exact h
  · extract_lets _ s1 s2
    have hs1 : Serves k s (Machine.setPort p { port t p with sweep := none, broken := broken } t) :=
      h.setPort ⟨rfl, fun _ => ⟨rfl, rfl, rfl⟩, fun hs => absurd hs (hk p), .inl ⟨rfl, rfl⟩⟩
    have hs2 : Serves k s s2 := (hs1.dropRequests hp).sendMgmt
    split
    · exact hs2.wanted (hk _)
    · exact hs2

/-- The first probe of the port's sweep has left: a break counts (R85). -/
def probing (s : State) (p : Nat) : Prop := ∃ w, (port s p).sweep = some w ∧ w.begun = true

theorem breakSweep_idle {p : Nat} (h : ¬probing s p) : breakSweep p s = s := by
  unfold breakSweep
  split
  next w hw => exact if_neg fun hb => h ⟨w, hw, hb⟩
  · rfl

theorem Serves.breakSweep {p : Nat} (h : Serves k s t) (hp : p < 128) (hk : (∀ q, ¬k.sweep q) ∨ ¬probing t p) :
    Serves k s (breakSweep p t) := by
  rcases hk with hk | hidle
  · unfold Machine.breakSweep
    split
    · exact .ite (h.endSweep hp hk) h
    · exact h
  · rw [breakSweep_idle hidle]
    exact h

theorem Serves.leaveHeal {p : Nat} (h : Serves k s t) (hp : p < 128) (hreg : ¬k.reg (Reg.RING_PSTAT p))
    (hk : ¬k.heal p) : Serves k s (leaveHeal t p) := by
  unfold Machine.leaveHeal
  extract_lets _ s1
  have hleft : Serves k s (Machine.setPort p { port t p with heal := none, echo := none, healReady := false } t) :=
    h.setPort ⟨rfl, fun _ => ⟨rfl, rfl, rfl⟩, fun _ => ⟨rfl, rfl⟩, .inr ⟨hk, rfl⟩⟩
  have hs1 : Serves k s s1 := hleft.dropRequests hp
  split
  next hheal => exact hs1.setPortState hp hreg fun _ => hheal
  · exact hs1

/-- The scope holds no state register and no heal: heals may be abandoned. -/
structure ChainScope.FreeHeals (k : ChainScope) : Prop where
  pstat : ∀ p < 128, ¬k.reg (Reg.RING_PSTAT p)
  heal : ∀ p, ¬k.heal p

theorem Serves.abandonHeal {p : Nat} (h : Serves k s t) (hp : p < 128) (hk : k.FreeHeals) :
    Serves k s (abandonHeal p t) := by
  unfold Machine.abandonHeal
  split
  · exact h.setPort .plain
  next o ho =>
    refine .sendMgmt (.foldl h fun u i hi hu => ?_)
    have hlt : i < 128 := healPorts_lt (healOwner_lt hp ho) i hi
    exact hu.leaveHeal hlt (hk.pstat i hlt) (hk.heal i)

/-- The scope holds nothing of port states, folds and heals. -/
structure ChainScope.FreeStates (k : ChainScope) : Prop extends k.FreeHeals where
  pfold : ∀ p < 128, ¬k.reg (Reg.RING_PFOLD_CNT p)
  state : ∀ p, ¬k.state p

theorem ChainScope.FreeStates.spare_pfold (hk : k.FreeStates) {p : Nat} (hp : p < 128) : k.Spare (Reg.RING_PFOLD_CNT p) := by
  refine ChainScope.spare_of_ring (hk.pfold p hp) ?_ fun q _ hs => absurd hs (hk.state q)
  simp only [Reg.RING_PFOLD_CNT]
  omega

theorem probing_of_port {p : Nat} (h : port t p = port s p) : probing t p ↔ probing s p := by
  unfold probing
  rw [h]

theorem port_sendMgmt (m : MgmtMsg) (s : State) (q : Nat) : port (sendMgmt m s) q = port s q := by
  unfold sendMgmt
  split <;> rfl

theorem port_setReached (p n : Nat) (s : State) (q : Nat) : port (setReached p n s) q = port s q := by
  unfold setReached
  split
  · rfl
  · exact port_sendMgmt _ _ q

/-- A new fold, whose port sweeps not if the scope holds sweeps. -/
theorem Serves.foldPort {p fold reached : Nat} (h : Serves k s t) (hp : p < 128) (hk : k.FreeStates)
    (hsw : (∀ q, ¬k.sweep q) ∨ ¬probing t p) : Serves k s (foldPort p fold reached t) := by
  unfold Machine.foldPort
  extract_lets st was same s1 s2 s3 s4
  have hs1 : Serves k s s1 := h.setReached hp (hk.pstat p hp) (hk.state p)
  have hs2 : Serves k s s2 := by
    refine .abandonHeal (hs1.breakSweep hp (hsw.imp_right fun hn => ?_)) hp hk.toFreeHeals
    rwa [probing_of_port (port_setReached ..)]
  have hs3 : Serves k s s3 := by
    unfold s3
    split
    next q hq => exact hs2.abandonHeal (peerPort_lt hq) hk.toFreeHeals
    · exact hs2
  have hs4 : Serves k s s4 := .ite hs3 ((hs3.bump (hk.spare_pfold hp)).raiseCond (by decide) (by omega))
  exact .ite h (.ite hs1 (hs4.setPortState hp (hk.pstat p hp) fun hs => absurd hs (hk.state p)))

theorem Serves.reachNone {p : Nat} (h : Serves k s t) (hp : p < 128) (hk : k.FreeStates)
    (hsw : (∀ q, ¬k.sweep q) ∨ ¬probing t p) : Serves k s (reachNone p t) :=
  .ite (h.foldPort hp hk hsw) (.ite ((h.setReached hp (hk.pstat p hp) (hk.state p)).setPortState hp (hk.pstat p hp)
    fun hs => absurd hs (hk.state p)) h)

/-! ## Service requests -/

theorem Serves.setQueue {p : Nat} {q : List SvcReq} (h : Serves k s t) (hp : p < 128) : Serves k s (setQueue p q t) :=
  (h.setPort .plain).fset (k.spare_psvc hp)

theorem Serves.askCells {p : Nat} {rs : List SvcReq} (h : Serves k s t) (hp : p < 128) : Serves k s (askCells p rs t) :=
  .setQueue (.setPort (.setPort (h.setPort .plain) .plain) .plain) hp

end Sys2Proof.Machine
end

section
namespace Sys2Proof.Machine

variable {k : ChainScope} {s t u : State}

theorem chainInst_lt (ch : ChainMap) : ch.num < 65536 := ch.number.isLt.trans (by decide)

theorem slotInst_lt (m : CellMap) : m.slot < 65536 := m.cellSlot.isLt.trans (by decide)

theorem port_faultStep (h : FaultStep s t) (q : Nat) : port t q = port s q := by
  rw [h.frame.1]
  rfl

theorem port_setPortState (p st fold : Nat) (s : State) (q : Nat) : port (setPortState p st fold s) q = port s q := by
  unfold setPortState
  extract_lets old s1
  have hs1 : port s1 q = port s q := by rw [port, fset_ports, fset_ports, port]
  split
  · exact hs1
  · exact (port_faultStep (.post (.refl s1) (show srcClass s1 3 false < 4 from srcClass_lt ..)) q).trans hs1

/-! # Outcomes, laps and reach (R45, R73 to R78, R380) -/

/-- The scope holds nothing of what discovery writes: cell registers, laps and reach. -/
structure ChainScope.FreeTables (k : ChainScope) : Prop where
  cell : ∀ p i, ¬k.reg (Reg.RING_CELL p i)
  plap : ∀ p < 128, ¬k.reg (Reg.RING_PLAP p)
  relay : ∀ n < 128, ¬k.reg (Reg.MIR_RLY n)
  latch : ¬k.latch
  state : ∀ p, ¬k.state p

theorem ChainScope.FreeTables.spare (hk : k.FreeTables) {a : Nat} (ha : ¬k.reg a) : k.Spare a :=
  ⟨ha, fun hl => absurd hl hk.latch, fun q _ hs => absurd hs (hk.state q)⟩

theorem Serves.setOutcome {ch : ChainMap} {posE o : Nat} (h : Serves k s t) (hk : k.FreeTables) :
    Serves k s (setOutcome ch posE o t) := .foldl h fun _ _ _ hu => hu.fset (hk.spare (hk.cell _ _))

theorem Serves.writeParams {ch : ChainMap} {posE : Nat} (h : Serves k s t) : Serves k s (writeParams ch posE t) := by
  unfold Machine.writeParams
  split
  · exact h
  · split
    · exact h
    · exact h.askCells (endPort_lt ..)

theorem Serves.settlePosition {ch : ChainMap} {posE : Nat} (h : Serves k s t) (hk : k.FreeTables) :
    Serves k s (settlePosition ch posE t) := by
  unfold Machine.settlePosition
  split
  · exact h.setOutcome hk
  next m hm =>
    extract_lets old o s1
    have hs1 : Serves k s s1 := (h.setOutcome hk).condIs (by decide) (slotInst_lt m)
    exact .ite hs1.writeParams hs1

theorem Serves.setChainOut {ch : ChainMap} {count : Bool} (h : Serves k s t) (hk : k.FreeStates) :
    Serves k s (setChainOut ch count t) :=
  .foldl h fun _ _ _ hu => (hu.setPortState (endPort_lt ..) (hk.pstat _ (endPort_lt ..))
    fun hs => absurd hs (hk.state _)).setPort (by rw [port_setPortState]; exact .plain)

theorem Serves.readmitPort {p : Nat} (h : Serves k s t) (hp : p < 128) (hk : k.FreeStates) :
    Serves k s (readmitPort p t) := by
  have hstate {u : State} (hu : Serves k s u) (st fold : Nat) : Serves k s (Machine.setPortState p st fold u) :=
    hu.setPortState hp (hk.pstat p hp) fun hs => absurd hs (hk.state p)
  exact .ite h (.ite (hstate (h.setReached hp (hk.pstat p hp) (hk.state p)) _ _) (hstate h _ _))

theorem Serves.settleChain {ch : ChainMap} (h : Serves k s t) (hk : k.FreeStates) (hk' : k.FreeTables) :
    Serves k s (settleChain ch t) := by
  unfold Machine.settleChain
  extract_lets s1
  have hs1 : Serves k s s1 := .foldl h fun _ _ _ hu => hu.settlePosition hk'
  split
  · exact (hs1.setChainOut hk).condIs (by decide) (chainInst_lt ch)
  · exact .ite (.foldl (hs1.clearCond (by decide) (chainInst_lt ch)) fun _ _ _ hu =>
      (hu.setPort .plain).readmitPort (endPort_lt ..) hk) hs1

theorem Serves.voidCheckByLap (h : Serves k s t) : Serves k s (voidCheckByLap t) := .ite h.checkOk h

theorem Serves.settleLap {p : Nat} (h : Serves k s t) (hp : p < 128) (hk : k.FreeStates) (hk' : k.FreeTables) :
    Serves k s (settleLap p t) := by
  unfold Machine.settleLap
  split
  · exact h
  · split
    · exact (h.setPort .plain).regSet (hk'.spare (hk'.plap p hp))
    · extract_lets _ s1
      have hs1 : Serves k s s1 := ((h.setPort .plain).regSet (hk'.spare (hk'.plap p hp))).voidCheckByLap
      exact .ite ((hs1.setChainOut hk).condIs (by decide) (chainInst_lt _)) hs1

theorem Serves.relayFields {ch : ChainMap} {g r : Nat} (h : Serves k s t) (hk : k.FreeTables) :
    Serves k s (Machine.fset (Fld.MIR_RLY_REACH ch.num) g (Machine.fset (Fld.MIR_RLY_T_RLY ch.num) r t)) :=
  have hrly : k.Spare (Reg.MIR_RLY ch.num) := hk.spare (hk.relay ch.num ch.number.isLt)
  Serves.fset (Serves.fset h hrly) hrly

theorem Serves.settleReach {p : Nat} (h : Serves k s t) (hk : k.FreeTables) : Serves k s (settleReach p t) := by
  unfold Machine.settleReach
  split
  · exact h
  · exact .ite h (.sendMgmt (.ite (h.relayFields hk) h))

theorem Serves.settleEnd {p : Nat} (h : Serves k s t) (hp : p < 128) (hk : k.FreeStates) (hk' : k.FreeTables) :
    Serves k s (settleEnd p t) := by
  unfold Machine.settleEnd
  split
  · exact h
  · extract_lets s1 s2
    have hs1 : Serves k s s1 := (h.settleChain hk hk').settleLap hp hk hk'
    have hs2 : Serves k s s2 := by
      unfold s2
      split
      next q hq => exact .ite (hs1.settleLap (peerPort_lt hq) hk hk') hs1
      · exact hs1
    exact hs2.settleReach hk'

theorem Serves.settleReached {p n : Nat} (h : Serves k s t) (hp : p < 128) (hk : k.FreeStates)
    (hsw : (∀ q, ¬k.sweep q) ∨ ¬probing t p) : Serves k s (settleReached p n t) := by
  have hset : Serves k s (Machine.setReached p n t) := h.setReached hp (hk.pstat p hp) (hk.state p)
  have hzero : Serves k s (Machine.setReached p 0 t) := h.setReached hp (hk.pstat p hp) (hk.state p)
  refine .ite h (.ite hset (.ite (hzero.reachNone hp hk (hsw.imp_right fun hn => ?_))
    (hset.setPortState hp (hk.pstat p hp) fun hs => absurd hs (hk.state p))))
  rwa [probing_of_port (port_setReached ..)]

/-! # Heals (R86, R87) -/

theorem Serves.joinHeal {q : Nat} (h : Serves k s t) (hq : q < 128) (hreg : ¬k.reg (Reg.RING_PSTAT q))
    (hstate : ¬k.state q) : Serves k s (joinHeal q t) :=
  .ite (h.setPortState hq hreg fun hs => absurd hs hstate) h

theorem Serves.shiftPhi {p i0 n : Nat} {west : Bool} {d : Int} (h : Serves k s t) (hp : p < 128) (hk : k.FreeTables) :
    Serves k s (shiftPhi p i0 n west d t) :=
  .foldl h fun _ _ _ hu => .ite hu ((hu.fset (hk.spare (hk.cell _ _))).askCells hp)

theorem Serves.stopFolds {p f n : Nat} {c : Word} (h : Serves k s t) (hp : p < 128) : Serves k s (stopFolds p f n c t) := by
  unfold Machine.stopFolds
  extract_lets stop far faces s1
  have hfar {u : State} (hu : Serves k s u) : Serves k s (far u) := .ite (hu.askCells hp) (.ite (hu.askCells hp) hu)
  have hs1 : Serves k s s1 := .ite h (h.askCells hp)
  split
  next q hq => exact .ite (hfar hs1) (.ite hs1 (hs1.askCells (peerPort_lt hq)))
  · exact hfar hs1

theorem Serves.applyDelay {p delay : Nat} (h : Serves k s t) (hp : p < 128) (hk : k.FreeTables) :
    Serves k s (applyDelay p delay t) := by
  unfold Machine.applyDelay
  split
  · exact h
  · extract_lets f d lap _ s1 s2
    have hlap {q : Nat} {u : State} (hq : q < 128) (hu : Serves k s u) : Serves k s (lap q u) :=
      hu.regSet (hk.spare (hk.plap q hq))
    have hs2 : Serves k s s2 := hlap hp (.shiftPhi (h.setPort .plain) hp hk)
    refine .voidCheckByLap ?_
    split
    next q hq => exact hlap (peerPort_lt hq) (hs2.shiftPhi (peerPort_lt hq) hk)
    · exact hs2.settleReach hk

/-! # Frames and reports that arrive (R81 to R83, R116, R357, R366, R472) -/

/-- The scope holds no register that a report writes. -/
structure ChainScope.FreeReports (k : ChainScope) : Prop where
  dup : ¬k.reg Reg.RING_DUP_CNT
  proto : ¬k.reg Reg.RING_PROTO_CNT
  low : ¬k.reg Reg.RING_EPOCH_LOW_CNT
  byp : ∀ w < 12, ¬k.reg (Reg.WHL_BYP_CNT w) ∧ ¬k.reg (Reg.WHL_BYPFAIL_CNT w)
  slots : ∀ p < 128, ¬k.reg (Reg.RING_PSCRC_CNT p) ∧ ¬k.reg (Reg.RING_PLATE_CNT p)

theorem ChainScope.spare_of_block {a : Nat} (ha : ¬k.reg a) (hb : a / 0x10000 ≠ 0x400D)
    (hs : ∀ q < 128, Reg.RING_PSTAT q ≠ a) : k.Spare a := ⟨ha, fun _ => hb, fun q hq _ => hs q hq⟩

theorem pstat_ne_of_block {a q : Nat} (hq : q < 128) (ha : a / 0x10000 ≠ 0x4003) : Reg.RING_PSTAT q ≠ a :=
  fun he => ha (he ▸ pstat_block hq)

/-- A register of the baton. -/
theorem ChainScope.spare_baton {a : Nat} (ha : a / 0x10000 = 0x4011) : k.Spare a := by
  refine ChainScope.spare_of_block (fun hr => (k.outside a hr).1 ?_) ?_ fun q hq => pstat_ne_of_block hq ?_
  all_goals
    rw [ha]
    decide

theorem Serves.fenceFrom {e : Word} (h : Serves k s t) : Serves k s (fenceFrom e t) := by
  have hepoch : Serves k s (setEpoch e t) := .regSet (h.btn rfl) (ChainScope.spare_baton rfl)
  have hfenced : Serves k s (Machine.fset Fld.BTN_HEALTH_FENCED 1 (setEpoch e t)) := hepoch.fset (ChainScope.spare_baton rfl)
  have hcommit : Serves k s (commitRole .standby e none Chg.fenced (Machine.fset Fld.BTN_HEALTH_FENCED 1 (setEpoch e t))) :=
    hfenced.btn rfl
  exact .ite (hcommit.occur (show 45 < 64 by decide)) h

theorem Serves.noteHeader {h' : Header} (h : Serves k s t) : Serves k s (noteHeader h' t) :=
  .ite h (.ite (Serves.fenceFrom (h.btn rfl)) (h.btn rfl))

theorem Serves.startBypass {w slot : Nat} (h : Serves k s t) (hw : w < 12) (hk : k.FreeReports) :
    Serves k s (startBypass w slot t) := by
  refine .bump (h.setCell id) (ChainScope.spare_of_block (hk.byp w hw).1 ?_ fun q hq => pstat_ne_of_block hq ?_)
  all_goals
    simp only [Reg.WHL_BYP_CNT]
    omega

theorem Serves.fatalBypass {w slot : Nat} (h : Serves k s t) (hw : w < 12) (hk : k.FreeReports) :
    Serves k s (fatalBypass w slot t) := .ite (h.startBypass hw hk) h

theorem Serves.bypassFail {w slot : Nat} (h : Serves k s t) (hw : w < 12) (hk : k.FreeReports) :
    Serves k s (bypassFail w slot t) := by
  have hcell : Serves k s (Machine.setCell slot (cell t slot).bypassFailed t) := h.setCell id
  refine .occur (hcell.bump (ChainScope.spare_of_block (hk.byp w hw).2 ?_ fun q hq => pstat_ne_of_block hq ?_)) (show 23 < 64 by decide)
  all_goals
    simp only [Reg.WHL_BYPFAIL_CNT]
    omega

theorem Serves.noteReport {slot : Nat} {r : DWord} (h : Serves k s t) (hslot : slot < 4096) (hk : k.FreeReports) :
    Serves k s (noteReport slot r t) := by
  unfold Machine.noteReport
  extract_lets x a s1
  have hs1 : Serves k s s1 := h.setCell id
  split
  · exact hs1
  next w hw =>
    extract_lets s2
    have hs2 : Serves k s s2 := hs1.condIs (by decide) (by omega)
    split
    · exact hs2.fatalBypass (wheelOf_lt hw) hk
    · exact .ite (hs2.setCell id) (.ite (hs2.bypassFail (wheelOf_lt hw) hk) hs2)

theorem Serves.seeReport {slot port pos : Nat} {r : DWord} (h : Serves k s t) (hk : k.FreeReports) :
    Serves k s (seeReport slot r port pos t) := by
  unfold Machine.seeReport
  extract_lets s1 s2 s3 x
  have hcnt {a : Nat} {u : State} (hu : Serves k s u) (ha : ¬k.reg a) (hblock : a / 0x10000 = 0x4003)
      (hne : a % 0x40 ≠ 4) : Serves k s (Machine.bump a u) := by
    refine hu.bump (ChainScope.spare_of_ring ha hblock fun q _ _ => ?_)
    simp only [Reg.RING_PSTAT]
    omega
  have hs1 : Serves k s s1 := .ite (hcnt h hk.dup rfl (by decide)) h
  have hs2 : Serves k s s2 := .ite (hcnt hs1 hk.proto rfl (by decide)) hs1
  have hs3 : Serves k s s3 := .ite (hcnt hs2 hk.low rfl (by decide)) hs2
  have hcell : Serves k s (Machine.setCell slot { x with alarm := rptAlarm r } s3) := hs3.setCell id
  exact .ite hcell (hcell.post (show srcClass _ 1 _ < 4 from srcClass_lt ..))

theorem Serves.deliver {slot arrival port pos : Nat} {r : DWord} {west mirrored : Bool} (h : Serves k s t)
    (hslot : slot < 4096) (hk : k.FreeReports) : Serves k s (deliver slot r arrival port pos west mirrored t) := by
  unfold Machine.deliver
  extract_lets late s1 x x' s2
  have hs1 : Serves k s s1 := h.seeReport hk
  have hs2 : Serves k s s2 := by
    refine hs1.setCell fun _ => ?_
    split <;> rfl
  exact .ite (.ite hs1 (hs1.noteReport hslot hk)) (.ite hs2 (hs2.noteReport hslot hk))

theorem Serves.cellTableEntry {slot : Nat} (h : Serves k s t) : Serves k s (cellTableEntry slot t) := .ite h.hidden h.hidden

theorem Serves.takeSlotFrom {p q n lap j : Nat} {ch : ChainMap} {west current : Bool} {frame : List Byte}
    (h : Serves k s t) (hp : p < 128) (hk : k.FreeReports) :
    Serves k s (takeSlotFrom p q n lap ch west current frame t j) := by
  have hcrc : k.Spare (Reg.RING_PSCRC_CNT p) := by
    refine ChainScope.spare_of_block (hk.slots p hp).1 ?_ fun r hr => ?_
    all_goals
      simp only [Reg.RING_PSCRC_CNT, Reg.RING_PSTAT]
      omega
  have hlate : k.Spare (Reg.RING_PLATE_CNT p) := by
    refine ChainScope.spare_of_block (hk.slots p hp).2 ?_ fun r hr => ?_
    all_goals
      simp only [Reg.RING_PLATE_CNT, Reg.RING_PSTAT]
      omega
  unfold Machine.takeSlotFrom
  split
  · exact h
  · refine .ite (h.bump hcrc) ?_
    extract_lets at01
    refine .ite (h.bump hlate) ?_
    split
    · exact h
    next m hm =>
      extract_lets s1
      have hs1 : Serves k s s1 := h.deliver m.cellSlot.isLt hk
      exact .ite hs1.cellTableEntry hs1

theorem Serves.noteCommands {ch : ChainMap} {west : Bool} {frame : List Byte} (h : Serves k s t) :
    Serves k s (noteCommands ch west frame t) := by
  refine .foldl h fun u j _ hu => ?_
  split
  · exact .ite (hu.setCell id) hu
  · exact hu

theorem Serves.noteRelayed {r : RelayWord} (h : Serves k s t) : Serves k s (noteRelayed r t) := by
  unfold Machine.noteRelayed
  split
  · exact h
  · split
    · exact h.setCell id
    · exact h

theorem Serves.deliverMirrored {r : RelayWord} (h : Serves k s t) (hk : k.FreeReports) :
    Serves k s (deliverMirrored r t) := by
  unfold Machine.deliverMirrored
  split
  · exact h
  · extract_lets west posE
    split
    · exact h
    next m hm => exact .ite (h.deliver m.cellSlot.isLt hk) h

end Sys2Proof.Machine
end

section
namespace Sys2Proof.Machine

variable {s t u : State}

/-! # Sweeps begin (R70, R71, R85) -/

/-- What the start of a sweep leaves alone beside the ports: all but the messages to the twin. -/
def onlyPorts (s t : State) : Prop :=
  t = { s with ports := t.ports, btn := { s.btn with mgmtOut := t.btn.mgmtOut } }

theorem onlyPorts.refl (s : State) : onlyPorts s s := rfl

theorem onlyPorts.trans (h : onlyPorts s t) (h' : onlyPorts t u) : onlyPorts s u := by
  unfold onlyPorts at *
  rw [h', h]

theorem onlyPorts.setPort {p : Nat} {x : Port} (h : onlyPorts s t) : onlyPorts s (setPort p x t) :=
  h.trans rfl

theorem onlyPorts.sendMgmt {m : MgmtMsg} (h : onlyPorts s t) : onlyPorts s (sendMgmt m t) := by
  refine h.trans ?_
  unfold Machine.sendMgmt
  split <;> rfl

theorem onlyPorts.startSweep {p : Nat} (h : onlyPorts s t) : onlyPorts s (startSweep p t) := by
  unfold Machine.startSweep
  extract_lets x other
  split
  · exact h
  · split
    · exact h.setPort
    · exact h.setPort.sendMgmt

theorem port_startSweep_other {p q : Nat} (hq : q ≠ p) (s : State) : port (startSweep p s) q = port s q := by
  unfold startSweep
  extract_lets x other
  split
  · rfl
  · split
    · rw [port_setPort, if_neg hq]
    · rw [port_sendMgmt, port_setPort, if_neg hq]

/-- A free end is swept from now on. -/
theorem port_startSweep_of_free {p : Nat} (h : endFree s p) : port (startSweep p s) p = sweeping (port s p) := by
  obtain ⟨hsweep, hmay, hjoin, hchain, hheld, hpeer⟩ := h
  have hblocked : ¬(((port s p).sweep.isSome || !maySweep s || joiningTwin s || (portChain s p).isNone) = true) := by
    simpa [hsweep, hmay, hjoin] using hchain
  have hother : ¬(((port s p).withheld ||
      (match peerPort s p with | some q => (port s q).sweep.isSome | none => false)) = true) := by
    rw [hheld, Bool.false_or]
    split
    next q hq => simp [hpeer q hq]
    · simp
  unfold startSweep
  rw [if_neg hblocked]
  refine (congrArg (fun u => port u p) (if_neg hother)).trans ?_
  rw [port_sendMgmt, port_setPort, if_pos rfl]
  rfl

theorem startSweep_of_not_maySweep {p : Nat} (h : maySweep s = false) : startSweep p s = s :=
  if_pos (by simp [h])

theorem sweepStarts_startSweep {p : Nat} (h : endFree s p) : sweepStarts p s (startSweep p s) :=
  ⟨onlyPorts.startSweep (.refl s), port_startSweep_of_free h, fun _ hq => port_startSweep_other hq s⟩

/-- An end stays free while only other ports change. -/
theorem onlyPorts.endFree {q : Nat} (h : onlyPorts s t) (hq : port t q = port s q)
    (hpeer : ∀ r, peerPort s q = some r → port t r = port s r) (hfree : endFree s q) : endFree t q := by
  obtain ⟨hsweep, hmay, hjoin, hchain, hheld, hother⟩ := hfree
  have hsys : t.sys = s.sys := by rw [h]
  have hjoin' : joiningTwin t = joiningTwin s := by rw [h]; rfl
  have hpeer' : peerPort t q = peerPort s q := by
    unfold peerPort portChain
    rw [hsys]
  refine ⟨by rw [hq, hsweep], by unfold maySweep; rw [hsys]; exact hmay, hjoin'.trans hjoin, ?_, by rw [hq, hheld],
    fun r hr => ?_⟩
  · unfold portChain
    rw [hsys]
    exact hchain
  · rw [hpeer'] at hr
    rw [hpeer r hr, hother r hr]

/-- Sweeps of the ends of a list are asked for, one after the other. -/
def sweepAll (l : List Nat) (s : State) : State := l.foldl (fun s p => startSweep p s) s

theorem onlyPorts.sweepAll {l : List Nat} (h : onlyPorts s t) : onlyPorts s (sweepAll l t) := by
  induction l generalizing t with
  | nil => exact h
  | cons p l ih => exact ih h.startSweep

theorem port_sweepAll_other {l : List Nat} {q : Nat} (hq : q ∉ l) (s : State) : port (sweepAll l s) q = port s q := by
  induction l generalizing s with
  | nil => rfl
  | cons p l ih =>
    rw [List.mem_cons, not_or] at hq
    exact (ih hq.2 _).trans (port_startSweep_other hq.1 s)

/-- A free end of the list whose other end is none of it is swept. -/
theorem port_sweepAll {l : List Nat} {q : Nat} (hl : l.Nodup) (hq : q ∈ l) (hfree : endFree s q)
    (hpeer : ∀ r, peerPort s q = some r → r ∉ l) : port (sweepAll l s) q = sweeping (port s q) := by
  induction l generalizing s with
  | nil => cases hq
  | cons p l ih =>
    rw [List.nodup_cons] at hl
    rcases List.mem_cons.mp hq with rfl | hin
    · exact (port_sweepAll_other hl.1 _).trans (port_startSweep_of_free hfree)
    · have hne : q ≠ p := fun he => hl.1 (he ▸ hin)
      have hport := port_startSweep_other hne s
      have honly : onlyPorts s (startSweep p s) := .startSweep (.refl s)
      have hsame : peerPort (startSweep p s) q = peerPort s q := by
        unfold peerPort portChain
        rw [show (startSweep p s).sys = s.sys by rw [honly]]
      have hrec := ih hl.2 hin
        (honly.endFree hport (fun r hr => port_startSweep_other (fun he => hpeer r hr (List.mem_cons.mpr (.inl he))) s) hfree)
        (fun r hr hrin => hpeer r (hsame ▸ hr) (List.mem_cons_of_mem _ hrin))
      exact hrec.trans (congrArg sweeping hport)

/-- The ends that RING_DISC_MASK names. -/
def discNamed (s : State) : List Nat :=
  (List.range 128).filter (fun p => (regGet s (Reg.RING_DISC_MASK (p / 32))).getLsbD (p % 32))

/-- They are swept east ends first. -/
def discOrder (s : State) : List Nat :=
  let west := fun p => match portChain s p with | some (_, w) => w | none => false
  (discNamed s).filter (fun p => !west p) ++ (discNamed s).filter west

theorem discOrder_perm (s : State) : (discOrder s).Perm (discNamed s) :=
  List.perm_append_comm.trans (List.filter_append_perm _ _)

theorem discOrder_nodup (s : State) : (discOrder s).Nodup :=
  (discOrder_perm s).nodup_iff.mpr (List.nodup_range.filter _)

theorem mem_discOrder {q : Nat} : q ∈ discOrder s ↔
    q < 128 ∧ (regGet s (Reg.RING_DISC_MASK (q / 32))).getLsbD (q % 32) = true := by
  rw [(discOrder_perm s).mem_iff, discNamed, List.mem_filter, List.mem_range]

theorem discGo_of_none {o : Origin}
    (h : firstFail [(roleOrCore .operator o, Status.notPermitted), (s.sys.mode == .ready, .illegalInMode)] = none) :
    (discGo o s).1 = sweepAll (discOrder s) s :=
  congrArg Prod.fst (checkWrite_of_none h)

/-! # Headers noted, and frames without slots (R83, R97, R118, R357) -/

theorem noteHeader_stores (h : Header) (s : State) :
    (noteHeader h s).ports = s.ports ∧ (noteHeader h s).cells = s.cells := by
  have hfence (e : Word) (u : State) : (fenceFrom e u).ports = u.ports ∧ (fenceFrom e u).cells = u.cells := by
    unfold fenceFrom
    split
    · let v := commitRole .standby e none Chg.fenced (fset Fld.BTN_HEALTH_FENCED 1 (setEpoch e u))
      have hstep : FaultStep v (occur (detect 45 0 0x3F 0) v) := .occur (.refl v) (show 45 < 64 by decide)
      dsimp only
      rw [hstep.frame.1]
      exact ⟨rfl, rfl⟩
    · exact ⟨rfl, rfl⟩
  unfold noteHeader
  split
  · exact ⟨rfl, rfl⟩
  · dsimp only
    split
    · exact hfence ..
    · exact ⟨rfl, rfl⟩

theorem port_noteHeader (h : Header) (s : State) (q : Nat) : port (noteHeader h s) q = port s q := by
  unfold port
  rw [(noteHeader_stores h s).1]

/-- A frame of port `p` has arrived, with its code violations. -/
def violationsCounted (n p : Nat) (s : State) : State := bumpBy n (Reg.RING_PCODE_CNT p) s

theorem onlyRegs_violationsCounted (n p : Nat) (s : State) :
    onlyRegs [Reg.RING_PCODE_CNT p] s (violationsCounted n p s) :=
  (onlyRegs.refl _ s).regSet (List.mem_singleton_self _)

/-- A frame has failed its checks: it is counted, and is an occurrence of source 63 (R83, R118). -/
def frameFailed (p : Nat) (s : State) : State := occurInj false 63 p 0x32 8 (bump (Reg.RING_PHCRC_CNT p) s)

theorem armed_violationsCounted {p : Nat} (hp : p < 128) (n c i : Nat) (s : State) :
    armed (violationsCounted n p s) c i = armed s c i := by
  have hinj : injState (violationsCounted n p s) = injState s := by
    refine fget_of_regGet_eq (f := Fld.FCO_INJ_STAT_STATE) (regGet_regSet_other _ _ ?_)
    simp only [Fld.FCO_INJ_STAT_STATE, Reg.FCO_INJ_STAT, Reg.RING_PCODE_CNT]
    omega
  unfold armed
  rw [hinj]
  rfl

theorem frameCheck_of_unarmed {p n : Nat} {bytes : List Byte} (h : armed s 5 p = false) :
    frameCheck p n bytes s =
      (hcrcOk bytes && fcrcOk bytes n, if hcrcOk bytes && fcrcOk bytes n then s else frameFailed p s) := by
  have htake : takeInjection 5 p s = (false, s) := if_neg (by simp [h])
  unfold frameCheck
  rw [htake]
  simp only [Bool.not_false, Bool.and_true, frameFailed]

section
variable {p : Fin 128} {frame : List LinkChar} (harmed : armed s 5 p = false)
include harmed

theorem bareFrame_of_bad (h : ¬(hcrcOk (linkBytes frame) = true ∧ fcrcOk (linkBytes frame) 0 = true)) :
    bareFrame p frame s = (none, frameFailed p (violationsCounted (linkViolations frame) p s)) := by
  have hbad : (hcrcOk (linkBytes frame) && fcrcOk (linkBytes frame) 0) = false := by simpa using h
  have hcheck := frameCheck_of_unarmed (n := 0) (bytes := linkBytes frame)
    ((armed_violationsCounted p.isLt (linkViolations frame) 5 p s).trans harmed)
  unfold bareFrame
  rw [show bumpBy (linkViolations frame) (Reg.RING_PCODE_CNT p) s = violationsCounted (linkViolations frame) p s from rfl,
    hcheck]
  simp only [hbad, Bool.false_eq_true, if_false]

theorem bareFrame_of_good (h : hcrcOk (linkBytes frame) = true ∧ fcrcOk (linkBytes frame) 0 = true) :
    bareFrame p frame s = (readHeader (linkBytes frame), violationsCounted (linkViolations frame) p s) := by
  have hgood : (hcrcOk (linkBytes frame) && fcrcOk (linkBytes frame) 0) = true := by simpa using h
  have hcheck := frameCheck_of_unarmed (n := 0) (bytes := linkBytes frame)
    ((armed_violationsCounted p.isLt (linkViolations frame) 5 p s).trans harmed)
  unfold bareFrame
  rw [show bumpBy (linkViolations frame) (Reg.RING_PCODE_CNT p) s = violationsCounted (linkViolations frame) p s from rfl,
    hcheck]
  simp only [hgood, if_true]
end

theorem ringBases_not_counters {p : Nat} (hp : p < 128) :
    Reg.SCH_TRC_BASE ∉ [Reg.RING_PCODE_CNT p, Reg.RING_PHCRC_CNT p] ∧
      Reg.SCH_REF_BASE ∉ [Reg.RING_PCODE_CNT p, Reg.RING_PHCRC_CNT p] := by
  simp only [List.mem_cons, List.not_mem_nil, or_false, not_or, Reg.SCH_TRC_BASE, Reg.SCH_REF_BASE, Reg.RING_PCODE_CNT,
    Reg.RING_PHCRC_CNT]
  omega

theorem phcrc_block {p : Nat} (hp : p < 128) : Reg.RING_PHCRC_CNT p / 0x10000 = 0x4003 := by
  simp only [Reg.RING_PHCRC_CNT]
  omega

/-- The failed frame of a port is latched, logged and counted, beside its violations. -/
theorem frameFailed_does {p : Nat} (hp : p < 128) (n : Nat) (s : State) :
    occurred 63 p 0x32 s (frameFailed p (violationsCounted n p s)) ∧
      countedUp (Reg.RING_PHCRC_CNT p) s (frameFailed p (violationsCounted n p s)) := by
  let v := bump (Reg.RING_PHCRC_CNT p) (violationsCounted n p s)
  let d : Detection := ⟨63, p, 0x32, 8, false, v.fco.arm.getLsbD 29⟩
  have hfailed : frameFailed p (violationsCounted n p s) = occur d v := rfl
  have hd : d.src < 64 := show 63 < 64 by decide
  have hstep : FaultStep v (occur d v) := .occur (.refl v) hd
  have hregs : onlyRegs [Reg.RING_PCODE_CNT p, Reg.RING_PHCRC_CNT p] s v :=
    ((onlyRegs.refl _ s).regSet (List.mem_cons_self ..)).bump (List.mem_cons_of_mem _ (List.mem_singleton_self _))
  obtain ⟨hbit, ⟨e, he, hsrc, haddr, hmaster, hseq, htime⟩, -⟩ := occur_occurred d v hd
  rw [hfailed]
  refine ⟨⟨hbit, ⟨e, he, hsrc, haddr, hmaster, hseq, htime.trans hregs.nowSplit_eq⟩,
    hstep.onlyFault_of_onlyRegs hregs (ringBases_not_counters hp)⟩, ?_⟩
  unfold countedUp
  rw [hstep.otherBlocks (by rw [phcrc_block hp]; decide)]
  have hcount : countedUp (Reg.RING_PHCRC_CNT p) (violationsCounted n p s) v := countedUp_bump _ _
  unfold countedUp at hcount
  rw [hcount, violationsCounted, bumpBy, regGet_regSet_other]
  simp only [Reg.RING_PHCRC_CNT, Reg.RING_PCODE_CNT]
  omega

/-! # Probes (R71 to R73, R93) -/

theorem port_setQueue (p : Nat) (q : List SvcReq) (s : State) (r : Nat) :
    port (setQueue p q s) r = if r = p then { port s p with queue := q } else port s r := by
  unfold setQueue
  rw [port, fset_ports, ← port, port_setPort]

/-- The module's own requests that the queue of port `p` has room for. -/
def roomFor (p : Nat) (s : State) : List SvcReq :=
  ((port s p).todo.take (32 - (port s p).queue.length)).map (fun r => { r with enq := cycleNo s })

theorem port_pumpQueue (p : Nat) (s : State) (r : Nat) :
    port (pumpQueue p s) r =
      if r = p then { port s p with
        queue := (port s p).queue ++ roomFor p s, todo := (port s p).todo.drop (32 - (port s p).queue.length) }
      else port s r := by
  unfold pumpQueue
  extract_lets x room moved
  rw [port_setQueue, port_setPort, port_setPort, if_pos rfl]
  split <;> rfl

/-- Only the requests of the port differ. -/
def requestsOnly (x y : Port) : Prop := y = { x with queue := y.queue, todo := y.todo, nextReq := y.nextReq }

theorem requestsOnly.trans {x y z : Port} (h : requestsOnly x y) (h' : requestsOnly y z) : requestsOnly x z := by
  unfold requestsOnly at *
  rw [h', h]

theorem requestsOnly_askCells (p : Nat) (rs : List SvcReq) (s : State) :
    requestsOnly (port s p) (port (askCells p rs s) p) := by
  unfold askCells numberRequests
  dsimp only
  rw [port_pumpQueue, if_pos rfl, port_setPort, if_pos rfl, port_setPort, if_pos rfl]
  rfl

theorem port_askCells_other {p q : Nat} (hq : q ≠ p) (rs : List SvcReq) (s : State) :
    port (askCells p rs s) q = port s q := by
  unfold askCells numberRequests
  dsimp only
  rw [port_pumpQueue, if_neg hq, port_setPort, if_neg hq, port_setPort, if_neg hq]

/-- What discovery asks of the cells that its probes reached (R71, R73). -/
def sweepRequests (p : Nat) (w : Sweep) (ch : ChainMap) (west : Bool) (s : State) : List SvcReq :=
  ((List.range w.probes.length).flatMap (fun i =>
    [svcRequest s i Svc.readId [] .sweep,
     svcRequest s i Svc.writePhi (BitVec.ofNat 8 (boolNat west) :: leBytes 2 (min 65535
       (match w.probes[i]? with | some r => probePhi r | none => 0))) .sweep])) ++
  (if ch.n ≤ w.probes.length ∧ 0 < ch.n ∧ !segKnown s p then
    [svcRequest s (ch.n - 1) Svc.segEcho (BitVec.ofNat 8 (boolNat (!west)) :: wordBytes (cycleNo s + 8)) .sweep] else [])

theorem sweepRequests_length (p : Nat) (w : Sweep) (ch : ChainMap) (west : Bool) (s : State) :
    (sweepRequests p w ch west s).length = 2 * w.probes.length ∨
      (sweepRequests p w ch west s).length = 2 * w.probes.length + 1 := by
  have hask : ∀ (n : Nat) (f g : Nat → SvcReq), ((List.range n).flatMap (fun i => [f i, g i])).length = 2 * n := by
    intro n f g
    simp [List.length_flatMap, Nat.mul_comm]
  unfold sweepRequests
  rw [List.length_append, hask]
  split
  · exact .inr rfl
  · exact .inl rfl

theorem sweepRequests_nil {p : Nat} {w : Sweep} (hw : w.probes = []) (ch : ChainMap) (west : Bool) (s : State) :
    sweepRequests p w ch west s = [] := by
  have hecho : ¬(ch.n ≤ 0 ∧ 0 < ch.n ∧ (!segKnown s p) = true) := fun ⟨h, h', _⟩ => by omega
  unfold sweepRequests
  rw [hw]
  simp only [List.length_nil, List.range_zero, List.flatMap_nil, List.nil_append]
  exact if_neg hecho

theorem endProbes_eq {p : Nat} {w : Sweep} {ch : ChainMap} {west : Bool} (h : portChain s p = some (ch, west)) :
    endProbes p w s =
      if (sweepRequests p w ch west s).isEmpty then finishSweep p w s
      else askCells p (sweepRequests p w ch west s)
        (setPort p { port s p with
          sweep := some { w with flying := false, ids := some (sweepRequests p w ch west s).length } } s) := by
  unfold endProbes
  rw [h]
  rfl

/-- A complete sweep's result stands at its port, whatever follows from it. -/
theorem finishSweep_results {p : Nat} (hp : p < 128) (w : Sweep) (s : State) :
    (port (finishSweep p w s) p).swept = true ∧ (port (finishSweep p w s) p).reached = w.probes.length := by
  let k : ChainScope := { results := fun _ => True }
  have hk : k.FreeStates := ⟨⟨fun _ _ => id, fun _ => id⟩, fun _ _ => id, fun _ => id⟩
  have hk' : k.FreeTables := ⟨fun _ _ => id, fun _ _ => id, fun _ _ => id, id, fun _ => id⟩
  have hsw : ∀ q, ¬k.sweep q := fun _ => id
  let v := recordProbes p w s
  let v1 := setPort p { port v p with
    sweep := none, swept := true, reached := w.probes.length, kept := w.lost, idents := w.found } v
  have hport : (port v1 p).swept = true ∧ (port v1 p).reached = w.probes.length := by
    rw [port_setPort, if_pos rfl]
    exact ⟨rfl, rfl⟩
  suffices hserve : Serves k v1 (finishSweep p w s) by
    obtain ⟨hswept, hreached, -⟩ := (hserve.ports p).results trivial
    exact ⟨hswept.trans hport.1, hreached.trans hport.2⟩
  unfold finishSweep
  extract_lets n s1 s2 s3 s4 s5
  have hs3 : Serves k v1 s3 := .settleEnd (.settleReached (.refl k v1) hp hk (.inl hsw)) hp hk hk'
  have hs5 : Serves k v1 s5 := .ite hs3.sendMgmt.sendMgmt hs3.sendMgmt
  split
  · exact hs5.wanted (hsw _)
  · exact hs5

end Sys2Proof.Machine
end

section
namespace Sys2Proof.Machine

variable {s t u : State}

/-! # A sweep from its start to its requests (R70 to R73, R85, R93, R118) -/

theorem discoveryRepeat_starts {p : Nat}
    (h : (s.sys.mode = .commission ∨ s.sys.mode = .charge) ∧ (port s p).broken = false ∧
      (allMatched s p = false ∨ (port s p).countOut = true) ∧ (port s p).lit = true) :
    discoveryRepeat p s = startSweep p s := if_pos (by simpa using h)

theorem discoveryRepeat_idle {p : Nat}
    (h : ¬((s.sys.mode = .commission ∨ s.sys.mode = .charge) ∧ (port s p).broken = false ∧
      (allMatched s p = false ∨ (port s p).countOut = true) ∧ (port s p).lit = true)) :
    discoveryRepeat p s = s := if_neg (by simpa using h)

theorem sweepRestart_idle {p : Nat} (h : (port s p).broken = false ∨ maySweep s = false) : sweepRestart p s = s := by
  unfold sweepRestart
  split
  next hbroken =>
    rcases h with h | h
    · rw [h] at hbroken
      cases hbroken
    · exact startSweep_of_not_maySweep h
  · rfl

theorem onlyPort_setPort (p : Nat) (x : Port) (s : State) : onlyPort p x s (setPort p x s) :=
  ⟨rfl, by rw [port_setPort, if_pos rfl], fun _ hq => by rw [port_setPort, if_neg hq]⟩

theorem probeLaunch_idle {p : Nat} (h : (port s p).sweep = none ∨ portChain s p = none) : probeLaunch p s = s := by
  unfold probeLaunch
  rcases h with h | h
  · rw [h]
  · rw [h]
    split
    next heq => cases heq
    · rfl

section
variable {p : Nat} {w : Sweep} (hw : (port s p).sweep = some w)
include hw

theorem probeLaunch_launches {ch : ChainMap} {west : Bool} (hchain : portChain s p = some (ch, west))
    (hfly : w.flying = false) (hids : w.ids = none) (hlen : w.probes.length < 64) :
    onlyPort p { port s p with
      sweep := some { w with flying := true, begun := true },
      tx := (headerFor s west Frame.probe 0 (BitVec.ofNat 32 (2 ^ 15 + w.probes.length))).bytes ++ [0, 0, 0, 0] }
      s (probeLaunch p s) := by
  have hgo : ¬(w.flying = true ∨ w.ids.isSome = true ∨ 64 ≤ w.probes.length) := by
    rw [hfly, hids]
    simpa using hlen
  unfold probeLaunch
  rw [hw, hchain]
  exact (congrArg (onlyPort p _ s) (if_neg hgo)).mpr (onlyPort_setPort ..)

theorem probeLaunch_waits (h : w.flying = true ∨ w.ids.isSome = true ∨ 64 ≤ w.probes.length) : probeLaunch p s = s := by
  unfold probeLaunch
  rw [hw]
  split
  next hsweep _ =>
    obtain rfl := Option.some.inj hsweep
    exact if_pos h
  · rfl

theorem probeTimeout_idle (h : w.flying = false) : probeTimeout p s = s := by
  unfold probeTimeout
  rw [hw]
  exact if_neg (by simp [h])

theorem probeTimeout_ends (h : w.flying = true) : probeTimeout p s = endProbes p { w with flying := false } s := by
  unfold probeTimeout
  rw [hw]
  exact if_pos h

/-- No probe returned: the sweep is over with no cell. -/
theorem probeTimeout_empty (hp : p < 128) {ch : ChainMap} {west : Bool} (hchain : portChain s p = some (ch, west))
    (hfly : w.flying = true) (hnone : w.probes = []) :
    (port (probeTimeout p s) p).swept = true ∧ (port (probeTimeout p s) p).reached = 0 := by
  have hnil : sweepRequests p { w with flying := false } ch west s = [] := sweepRequests_nil hnone ch west s
  have hends : endProbes p { w with flying := false } s = finishSweep p { w with flying := false } s :=
    (endProbes_eq hchain).trans (if_pos (by rw [hnil]; rfl))
  rw [probeTimeout_ends hw hfly, hends]
  obtain ⟨hswept, hreached⟩ := finishSweep_results hp { w with flying := false } s
  exact ⟨hswept, by rw [hreached, hnone]; rfl⟩

/-- Cells answered: what is asked of them is out. -/
theorem probeTimeout_asks {ch : ChainMap} {west : Bool} (hchain : portChain s p = some (ch, west))
    (hfly : w.flying = true) (hsome : w.probes ≠ []) :
    ∃ w', (port (probeTimeout p s) p).sweep = some w' ∧ w'.probes = w.probes ∧ w'.flying = false ∧
      (w'.ids = some (2 * w.probes.length) ∨ w'.ids = some (2 * w.probes.length + 1)) ∧
      ∀ q, q ≠ p → port (probeTimeout p s) q = port s q := by
  let rs := sweepRequests p { w with flying := false } ch west s
  have hlen : rs.length = 2 * w.probes.length ∨ rs.length = 2 * w.probes.length + 1 := sweepRequests_length ..
  have hpos : 0 < w.probes.length := List.length_pos_iff.mpr hsome
  have hne : ¬(rs.isEmpty = true) := by
    rw [List.isEmpty_iff_length_eq_zero]
    omega
  rw [probeTimeout_ends hw hfly, endProbes_eq hchain, if_neg hne]
  refine ⟨{ w with flying := false, ids := some rs.length }, ?_, rfl, rfl, ?_, fun q hq => ?_⟩
  · rw [requestsOnly_askCells, port_setPort, if_pos rfl]
  · rcases hlen with hlen | hlen
    · exact .inl (congrArg some hlen)
    · exact .inr (congrArg some hlen)
  · rw [port_askCells_other hq, port_setPort, if_neg hq]
end

theorem probeTimeout_none {p : Nat} (h : (port s p).sweep = none) : probeTimeout p s = s := by
  unfold probeTimeout
  rw [h]

theorem probeReturn_dark {p : Nat} {frame : List LinkChar} {rtt : Nat} (h : portLit s p = false) :
    probeReturn p frame rtt s = s := if_pos (by simp [h])

section
variable {p : Fin 128} {frame : List LinkChar} {rtt : Nat} (hlit : portLit s p = true) (harmed : armed s 5 p = false)
include hlit harmed

theorem probeReturn_bad (h : ¬(hcrcOk (linkBytes frame) = true ∧ fcrcOk (linkBytes frame) 0 = true)) :
    probeReturn p frame rtt s = frameFailed p (violationsCounted (linkViolations frame) p s) := by
  unfold probeReturn
  rw [if_neg (by simp [hlit]), bareFrame_of_bad harmed h]

variable (hgood : hcrcOk (linkBytes frame) = true ∧ fcrcOk (linkBytes frame) 0 = true)
include hgood

/-- Only a probe in flight is taken; of another frame only its violations count. -/
theorem probeReturn_other
    (h : (port s p).sweep = none ∨ (∃ w, (port s p).sweep = some w ∧ w.flying = false) ∨
      ∀ h', readHeader (linkBytes frame) = some h' → h'.type ≠ 2) :
    probeReturn p frame rtt s = violationsCounted (linkViolations frame) p s := by
  unfold probeReturn
  rw [if_neg (by simp [hlit]), bareFrame_of_good harmed hgood]
  cases hhead : readHeader (linkBytes frame) with
  | none => rfl
  | some h' =>
    have hport : port (violationsCounted (linkViolations frame) p s) p = port s p := rfl
    dsimp only
    rw [hport]
    rcases h with h | ⟨w, h, hfly⟩ | h
    · rw [h]
    · rw [h]
      exact if_pos (by simp [hfly])
    · split
      · rfl
      · exact if_pos (by simp [show h'.type ≠ Frame.probe from h h' hhead])

/-- A probe in flight adds its round trip and turnarounds (R73). -/
theorem probeReturn_probe {w : Sweep} {h : Header} (hhead : readHeader (linkBytes frame) = some h) (htype : h.type = 2)
    (hw : (port s p).sweep = some w) (hfly : w.flying = true) (hlen : w.probes.length < 63) :
    probeReturn p frame rtt s = noteHeader h (setPort p
      { port s p with sweep := some { w with flying := false, probes := w.probes ++ [⟨rtt, h.tf, h.tr⟩] } }
      (violationsCounted (linkViolations frame) p s)) := by
  have hport : port (violationsCounted (linkViolations frame) p s) p = port s p := rfl
  have htaken : ¬((!w.flying) = true ∨ h.type ≠ Frame.probe) := by
    rw [hfly, htype]
    decide
  have hmore : ¬(w.probes ++ [(⟨rtt, h.tf, h.tr⟩ : Probe)]).length = 64 := by
    rw [List.length_append, List.length_singleton]
    omega
  unfold probeReturn
  rw [if_neg (by simp [hlit]), bareFrame_of_good harmed hgood, hhead]
  dsimp only
  rw [hport, hw]
  dsimp only
  rw [if_neg (by simpa using htaken), if_neg hmore]
end

/-- The probe's own port takes it, and no other port and no cell changes. -/
theorem probeReturn_probe_stores {p : Nat} (h : Header) (x : Port) (n : Nat) (s : State) :
    (noteHeader h (setPort p x (violationsCounted n p s))).cells = s.cells ∧
      port (noteHeader h (setPort p x (violationsCounted n p s))) p = x ∧
      ∀ q, q ≠ p → port (noteHeader h (setPort p x (violationsCounted n p s))) q = port s q := by
  refine ⟨(noteHeader_stores ..).2, ?_, fun q hq => ?_⟩
  · rw [port_noteHeader, port_setPort, if_pos rfl]
  · rw [port_noteHeader, port_setPort, if_neg hq]
    rfl

/-- Settles O43: a sweep starts at a free end, takes its probes one by one, and at the timeout asks the cells reached or
stands with none. -/
theorem discoverySweepsProbeTheirEnd : Obligations.DiscoverySweepsProbeTheirEnd := by
  intro s o p frame rtt named x bytes good checks
  refine ⟨fun hpass => ⟨_, rfl, ?_⟩, fun st hst => ⟨_, rfl, refusedWrite_checkWrite hst s⟩, ⟨fun hdue hfree => ⟨_, rfl, ?_⟩,
    fun hdue => congrArg Host.Outcome.next (discoveryRepeat_idle hdue)⟩, fun hbroken hfree => ⟨_, rfl, ?_⟩,
    fun h => congrArg Host.Outcome.next (sweepRestart_idle h), fun h => congrArg Host.Outcome.next (probeLaunch_idle h),
    fun h => congrArg Host.Outcome.next (probeReturn_dark h), fun hlit harmed hbad => ⟨_, rfl, ?_⟩,
    fun hlit harmed hgood h => ⟨_, rfl, ?_⟩, fun h => congrArg Host.Outcome.next (probeTimeout_none h), fun w hw => ?_⟩
  · rw [discGo_of_none hpass]
    refine ⟨onlyPorts.sweepAll (.refl s), fun q hq hname hfree hpeer => ?_, fun q hname => ?_⟩
    · exact port_sweepAll (discOrder_nodup s) (mem_discOrder.mpr ⟨hq, hname⟩) hfree fun r hr hin =>
        hpeer r hr (mem_discOrder.mp hin).2
    · exact port_sweepAll_other (fun hin => hname (mem_discOrder.mp hin).2) s
  · rw [discoveryRepeat_starts hdue]
    exact sweepStarts_startSweep hfree
  · rw [show sweepRestart p s = startSweep p s from if_pos hbroken]
    exact sweepStarts_startSweep hfree
  · rw [probeReturn_bad hlit harmed hbad]
    exact frameFailed_does p.isLt _ s
  · rw [probeReturn_other hlit harmed hgood (h.imp_right .inr)]
    exact onlyRegs_violationsCounted _ _ s
  · refine ⟨fun ch west hchain => ⟨fun hfly hids hlen => ⟨_, rfl, probeLaunch_launches hw hchain hfly hids hlen⟩,
      fun h => congrArg Host.Outcome.next (probeLaunch_waits hw h),
      fun hfly hnone => ⟨_, rfl, probeTimeout_empty hw p.isLt hchain hfly hnone⟩, fun hfly hsome => ?_⟩,
      fun hfly => congrArg Host.Outcome.next (probeTimeout_idle hw hfly),
      fun h hlit harmed hgood hhead htype => ⟨fun hfly => ⟨_, rfl, ?_⟩, fun hfly hlen => ⟨_, rfl, ?_⟩⟩⟩
    · obtain ⟨w', hasks⟩ := probeTimeout_asks hw hchain hfly hsome
      exact ⟨_, w', rfl, hasks⟩
    · rw [probeReturn_other hlit harmed hgood (.inr (.inl ⟨w, hw, hfly⟩))]
      exact onlyRegs_violationsCounted _ _ s
    · rw [probeReturn_probe hlit harmed hgood hhead htype hw hfly hlen]
      exact probeReturn_probe_stores ..

end Sys2Proof.Machine
end

section
namespace Sys2Proof.Machine

variable {s t u : State}

/-! # The state register of a port (R61, R81) -/

theorem regGet_post_pstat {q : Nat} (hq : q < 128) {e : Event} (he : e.cls < 4) (s : State) :
    regGet (post e s) (Reg.RING_PSTAT q) = regGet s (Reg.RING_PSTAT q) :=
  (FaultStep.post (.refl s) he).otherBlocks (by rw [pstat_block hq]; decide)

/-- The fields STATE and FOLD_POS as `setPortState` writes them. -/
theorem regGet_setPortState {q : Nat} (hq : q < 128) (p st fold : Nat) (s : State) :
    regGet (setPortState p st fold s) (Reg.RING_PSTAT q) =
      regGet (fset (Fld.RING_PSTAT_STATE p) st (fset (Fld.RING_PSTAT_FOLD_POS p) fold s)) (Reg.RING_PSTAT q) := by
  unfold setPortState
  extract_lets old s1
  split
  · rfl
  · exact regGet_post_pstat hq (show srcClass s1 3 false < 4 from srcClass_lt ..) s1

theorem portState_setPortState {p : Nat} (hp : p < 128) (st fold : Nat) (s : State) :
    portState (setPortState p st fold s) p = st % 16 :=
  (portState_of_pstat (regGet_setPortState hp p st fold s)).trans
    (fget_fset_self (Fld.RING_PSTAT_STATE p) st _ (show 0 ≤ 3 by decide) (show 3 < 32 by decide))

theorem foldPos_setPortState {p : Nat} (hp : p < 128) (st fold : Nat) (s : State) :
    fget (setPortState p st fold s) (Fld.RING_PSTAT_FOLD_POS p) = fold % 256 := by
  rw [fget_of_regGet_eq (f := Fld.RING_PSTAT_FOLD_POS p) (regGet_setPortState hp p st fold s),
    fget_fset_other (Fld.RING_PSTAT_STATE p) (Fld.RING_PSTAT_FOLD_POS p) st _
      (show 0 ≤ 3 ∧ 3 < 32 ∧ 24 ≤ 31 by decide) (.inr (show 3 < 24 by decide)) rfl]
  exact fget_fset_self (Fld.RING_PSTAT_FOLD_POS p) fold s (show 24 ≤ 31 by decide) (show 31 < 32 by decide)

theorem reached_setPortState {p : Nat} (hp : p < 128) (st fold : Nat) (s : State) :
    fget (setPortState p st fold s) (Fld.RING_PSTAT_REACHED p) = fget s (Fld.RING_PSTAT_REACHED p) := by
  rw [fget_of_regGet_eq (f := Fld.RING_PSTAT_REACHED p) (regGet_setPortState hp p st fold s),
    fget_fset_other (Fld.RING_PSTAT_STATE p) (Fld.RING_PSTAT_REACHED p) st _
      (show 0 ≤ 3 ∧ 3 < 32 ∧ 16 ≤ 23 by decide) (.inr (show 3 < 16 by decide)) rfl]
  exact fget_fset_other (Fld.RING_PSTAT_FOLD_POS p) (Fld.RING_PSTAT_REACHED p) fold s
    (show 24 ≤ 31 ∧ 31 < 32 ∧ 16 ≤ 23 by decide) (.inl (show 23 < 24 by decide)) rfl

theorem pstat_ne {p q : Nat} (h : q ≠ p) : Reg.RING_PSTAT q ≠ Reg.RING_PSTAT p := by
  simp only [Reg.RING_PSTAT]
  omega

theorem regGet_setPortState_other {p q : Nat} (hq : q < 128) (hne : q ≠ p) (st fold : Nat) (s : State) :
    regGet (setPortState p st fold s) (Reg.RING_PSTAT q) = regGet s (Reg.RING_PSTAT q) :=
  (regGet_setPortState hq p st fold s).trans ((regGet_fset_other _ _ (pstat_ne hne)).trans
    (regGet_fset_other _ _ (pstat_ne hne)))

theorem regGet_sendMgmt (m : MgmtMsg) (s : State) (a : Nat) : regGet (sendMgmt m s) a = regGet s a := by
  unfold sendMgmt
  split <;> rfl

theorem reached_setReached (p n : Nat) (s : State) (hn : n < 256) :
    fget (setReached p n s) (Fld.RING_PSTAT_REACHED p) = n := by
  unfold setReached
  split
  · assumption
  · rw [fget_of_regGet_eq (f := Fld.RING_PSTAT_REACHED p) (regGet_sendMgmt ..),
      fget_fset_self _ _ _ (show 16 ≤ 23 by decide) (show 23 < 32 by decide)]
    exact Nat.mod_eq_of_lt hn

/-- The other fields of the state register stand when REACHED is set. -/
theorem fget_setReached_other {p : Nat} {g : Field} (n : Nat) (s : State) (hg : g.reg = Reg.RING_PSTAT p)
    (hle : g.lo ≤ g.hi) (hd : g.hi < 16 ∨ 23 < g.lo) : fget (setReached p n s) g = fget s g := by
  unfold setReached
  split
  · rfl
  · rw [fget_of_regGet_eq (regGet_sendMgmt ..)]
    exact fget_fset_other (Fld.RING_PSTAT_REACHED p) g n s ⟨show 16 ≤ 23 by decide, show 23 < 32 by decide, hle⟩ hd hg

theorem portState_setReached (p n : Nat) (s : State) : portState (setReached p n s) p = portState s p :=
  fget_setReached_other n s rfl (show 0 ≤ 3 by decide) (.inl (show 3 < 16 by decide))

theorem foldPos_setReached (p n : Nat) (s : State) :
    fget (setReached p n s) (Fld.RING_PSTAT_FOLD_POS p) = fget s (Fld.RING_PSTAT_FOLD_POS p) :=
  fget_setReached_other n s rfl (show 24 ≤ 31 by decide) (.inr (show 23 < 24 by decide))

/-! # Loss of light (R61, R81, R85, R87, R509) -/

/-- The heals in which a port and the chain's other end here take part are abandoned. -/
def healsAbandoned (p : Nat) (s : State) : State :=
  match peerPort s p with
  | some q => abandonHeal q s
  | none => s

theorem Serves.healsAbandoned {k : ChainScope} {p : Nat} (h : Serves k s t) (hk : k.FreeHeals) :
    Serves k s (healsAbandoned p t) := by
  unfold Machine.healsAbandoned
  split
  next q hq => exact h.abandonHeal (peerPort_lt hq) hk
  · exact h

theorem foldPort_eq (p fold reached : Nat) (s : State) :
    foldPort p fold reached s =
      if portState s p = PState.out ∨ portState s p = PState.disabled ∨ portState s p = PState.dark then s
      else if (portState s p == PState.folded || portState s p == PState.healing) &&
          fget s (Fld.RING_PSTAT_FOLD_POS p) == fold then setReached p reached s
      else setPortState p PState.folded fold
        (if portState s p == PState.folded || portState s p == PState.healing then
          healsAbandoned p (abandonHeal p (breakSweep p (setReached p reached s)))
        else raiseCond 18 p 0x32 0 (bump (Reg.RING_PFOLD_CNT p)
          (healsAbandoned p (abandonHeal p (breakSweep p (setReached p reached s)))))) := rfl

/-- The scope of the states of ports that do not heal. -/
def stateScope : ChainScope := { state := fun _ => True }

theorem stateScope_freeHeals : stateScope.FreeHeals := ⟨fun _ _ => id, fun _ => id⟩

/-- A sweep and the heals are ended without a change of the state of a port that does not heal. -/
theorem regGet_healsAbandoned_pstat {p : Nat} (hp : p < 128) (s : State) (h : portState s p ≠ PState.healing) :
    regGet (healsAbandoned p (abandonHeal p (breakSweep p s))) (Reg.RING_PSTAT p) = regGet s (Reg.RING_PSTAT p) := by
  have hserve : Serves stateScope s (healsAbandoned p (abandonHeal p (breakSweep p s))) :=
    (((Serves.refl stateScope s).breakSweep hp (.inl fun _ => id)).abandonHeal hp stateScope_freeHeals).healsAbandoned
      stateScope_freeHeals
  exact hserve.states p hp trivial h

/-- A port in DISCOVERING, IN_SERVICE or FOLDED is FOLDED at the new place. -/
theorem foldPort_folds {p fold reached : Nat} (hp : p < 128) (hfold : fold < 256) (hreached : reached < 256)
    (hlo : 2 ≤ portState s p) (hhi : portState s p ≤ 4) :
    portState (foldPort p fold reached s) p = PState.folded ∧
      fget (foldPort p fold reached s) (Fld.RING_PSTAT_REACHED p) = reached ∧
      fget (foldPort p fold reached s) (Fld.RING_PSTAT_FOLD_POS p) = fold := by
  have hheal : portState (setReached p reached s) p ≠ PState.healing := by
    rw [portState_setReached]
    simp only [PState.healing]
    omega
  rw [foldPort_eq, if_neg (by simp only [PState.out, PState.disabled, PState.dark]; omega)]
  split
  next hsame =>
    rw [Bool.and_eq_true, Bool.or_eq_true, beq_iff_eq, beq_iff_eq, beq_iff_eq] at hsame
    obtain ⟨hstate, hpos⟩ := hsame
    have hfolded : portState s p = PState.folded := hstate.resolve_right (by simp only [PState.healing]; omega)
    exact ⟨(portState_setReached ..).trans hfolded, reached_setReached p reached s hreached,
      (foldPos_setReached ..).trans hpos⟩
  · let v := healsAbandoned p (abandonHeal p (breakSweep p (setReached p reached s)))
    have hpstat : regGet v (Reg.RING_PSTAT p) = regGet (setReached p reached s) (Reg.RING_PSTAT p) :=
      regGet_healsAbandoned_pstat hp _ hheal
    have hraised : regGet (raiseCond 18 p 0x32 0 (bump (Reg.RING_PFOLD_CNT p) v)) (Reg.RING_PSTAT p) =
        regGet v (Reg.RING_PSTAT p) := by
      rw [(FaultStep.raiseCond (.refl _) (by decide)).otherBlocks (by rw [pstat_block hp]; decide)]
      refine regGet_regSet_other _ _ ?_
      simp only [Reg.RING_PSTAT, Reg.RING_PFOLD_CNT]
      omega
    refine ⟨portState_setPortState hp .., ?_, (foldPos_setPortState hp ..).trans (Nat.mod_eq_of_lt hfold)⟩
    refine (reached_setPortState hp ..).trans ((fget_of_regGet_eq (f := Fld.RING_PSTAT_REACHED p) ?_).trans
      (reached_setReached p reached s hreached))
    split
    · exact hpstat
    · exact hraised.trans hpstat

/-- The receiver of a port loses light. -/
def darkened (p : Nat) (s : State) : State :=
  bump (Reg.RING_PLOS_CNT p) (setPort p { port s p with commaAt := none } s)

theorem portLoss_eq {p : Nat} (hchain : portChain s p ≠ none) (hlit : (port s p).lit = true) :
    portLoss p s = reachNone p (healsAbandoned p (abandonHeal p (breakSweep p (darkened p s)))) := by
  refine if_neg ?_
  simpa [hlit] using hchain

theorem port_darkened (p q : Nat) (s : State) :
    port (darkened p s) q = if q = p then { port s p with commaAt := none } else port s q := port_setPort ..

/-- The scope of one register outside what ports that lose light write. -/
def regScope (r : Nat) (hr : r / 0x10000 ∉ [0x400C, 0x400D, 0x4011] ∧ ∀ p < 128, r ≠ Reg.RING_PSVC p) : ChainScope :=
  { reg := fun a => a = r, outside := fun _ ha => ha ▸ hr }

theorem plos_outside (p : Fin 128) :
    Reg.RING_PLOS_CNT p / 0x10000 ∉ [0x400C, 0x400D, 0x4011] ∧ ∀ q < 128, Reg.RING_PLOS_CNT p ≠ Reg.RING_PSVC q := by
  have hp := p.isLt
  refine ⟨?_, fun q hq => ?_⟩
  · rw [show Reg.RING_PLOS_CNT p / 0x10000 = 0x4003 by simp only [Reg.RING_PLOS_CNT]; omega]
    decide
  · simp only [Reg.RING_PLOS_CNT, Reg.RING_PSVC]
    omega

theorem plosScope_freeStates (p : Fin 128) : (regScope (Reg.RING_PLOS_CNT p) (plos_outside p)).FreeStates := by
  refine ⟨⟨fun q _ => ?_, fun _ => id⟩, fun q _ => ?_, fun _ => id⟩
  all_goals
    simp only [regScope, Reg.RING_PSTAT, Reg.RING_PFOLD_CNT, Reg.RING_PLOS_CNT]
    omega

theorem Serves.darkness {k : ChainScope} {p : Nat} (h : Serves k s t) (hp : p < 128) (hk : k.FreeStates)
    (hsw : (∀ q, ¬k.sweep q) ∨ (k.sweep p ∧ ¬probing t p)) :
    Serves k s (Machine.reachNone p (Machine.healsAbandoned p (Machine.abandonHeal p t))) := by
  have habandon : Serves k t (Machine.healsAbandoned p (Machine.abandonHeal p t)) :=
    ((Serves.refl k t).abandonHeal hp hk.toFreeHeals).healsAbandoned hk.toFreeHeals
  refine h.trans (habandon.reachNone hp hk (hsw.imp_right fun ⟨hk', hn⟩ ⟨w, hw, hbegun⟩ => hn ⟨w, ?_, hbegun⟩))
  rw [← ((habandon.ports p).sweep hk').1]
  exact hw

/-! ## What a loss of light leaves -/

/-- The scope of all sweeps. -/
def sweepScope : ChainScope := { sweep := fun _ => True }

theorem sweepScope_freeStates : sweepScope.FreeStates := ⟨⟨fun _ _ => id, fun _ => id⟩, fun _ _ => id, fun _ => id⟩

/-- The scope of nothing but the frame. -/
def noScope : ChainScope := {}

theorem noScope_freeStates : noScope.FreeStates := ⟨⟨fun _ _ => id, fun _ => id⟩, fun _ _ => id, fun _ => id⟩

/-- The whole of a loss of light, in a scope without sweeps. -/
theorem Serves.portLoss {k : ChainScope} {p : Nat} (hp : p < 128) (hk : k.FreeStates) (hsw : ∀ q, ¬k.sweep q)
    (s : State) :
    Serves k (darkened p s)
      (Machine.reachNone p (Machine.healsAbandoned p (Machine.abandonHeal p (Machine.breakSweep p (darkened p s))))) :=
  ((Serves.refl k _).breakSweep hp (.inl hsw)).darkness hp hk (.inl hsw)

theorem healOwner_none {p : Nat} (h : healOwner s p = none) : (port s p).heal = none := by
  unfold healOwner at h
  split at h
  · cases h
  next hnone => simpa using hnone

/-- A port that leaves a heal has none, and no echo. -/
theorem heal_leaveHeal (s : State) (p : Nat) :
    (port (leaveHeal s p) p).heal = none ∧ (port (leaveHeal s p) p).echo = none := by
  have hdrop (u : State) : (port (dropRequests p .heal u) p).heal = (port u p).heal ∧
      (port (dropRequests p .heal u) p).echo = (port u p).echo := by
    unfold dropRequests
    dsimp only
    rw [port, fset_ports, ← port, port_setPort, if_pos rfl]
    exact ⟨rfl, rfl⟩
  unfold leaveHeal
  extract_lets _ s1
  have hs1 : (port s1 p).heal = none ∧ (port s1 p).echo = none := by
    rw [show s1 = dropRequests p .heal _ from rfl, (hdrop _).1, (hdrop _).2, port_setPort, if_pos rfl]
    exact ⟨rfl, rfl⟩
  split
  · rw [port_setPortState]
    exact hs1
  · exact hs1

theorem port_leaveHeal_other {p q : Nat} (h : q ≠ p) (s : State) : port (leaveHeal s p) q = port s q := by
  have hdrop (u : State) : port (dropRequests p .heal u) q = port u q := by
    unfold dropRequests
    dsimp only
    rw [port, fset_ports, ← port, port_setPort, if_neg h]
  unfold leaveHeal
  extract_lets _ s1
  have hs1 : port s1 q = port s q := by
    rw [show s1 = dropRequests p .heal _ from rfl, hdrop, port_setPort, if_neg h]
  split
  · rw [port_setPortState]
    exact hs1
  · exact hs1

/-- What holds of every port that leaves its heal holds of a port of the list that leaves them, and where it held. -/
theorem port_leaveAll {P : Port → Prop} (hleft : ∀ u i, P (port (leaveHeal u i) i)) {l : List Nat} {p : Nat}
    (h : p ∈ l ∨ P (port s p)) : P (port (l.foldl leaveHeal s) p) := by
  induction l generalizing s with
  | nil => exact h.resolve_left List.not_mem_nil
  | cons i l ih =>
    refine ih ?_
    by_cases hi : p = i
    · subst hi
      exact .inr (hleft s p)
    · rw [port_leaveHeal_other hi]
      exact h.imp_left fun hin => (List.mem_cons.mp hin).resolve_left hi

theorem healPorts_self (s : State) (o : Nat) : o ∈ healPorts s o := by
  unfold healPorts
  split
  · split
    · exact List.mem_cons_self ..
    · exact List.mem_singleton_self _
  · exact List.mem_singleton_self _

theorem heal_abandonHeal (p : Nat) (s : State) : (port (abandonHeal p s) p).heal = none := by
  unfold abandonHeal
  split
  next hnone =>
    rw [port_setPort, if_pos rfl]
    exact healOwner_none hnone
  next o ho =>
    rw [port_sendMgmt]
    refine port_leaveAll (P := fun x => x.heal = none) (fun u i => (heal_leaveHeal u i).1) ?_
    by_cases hsome : (port s p).heal.isSome
    · obtain rfl : o = p := by
        rw [healOwner, if_pos hsome] at ho
        exact (Option.some.inj ho).symm
      exact .inl (healPorts_self s o)
    · exact .inr (by simpa using hsome)

/-- A sweep whose first probe has left ends without a result, its port broken (R85). -/
theorem port_breakSweep {p : Nat} {w : Sweep} (hw : (port s p).sweep = some w) (hbegun : w.begun = true)
    (hpeer : peerPort s p ≠ some p) :
    (port (breakSweep p s) p).sweep = none ∧ (port (breakSweep p s) p).broken = true := by
  let v := dropRequests p .sweep (setPort p { port s p with sweep := none, broken := true } s)
  have hv : (port v p).sweep = none ∧ (port v p).broken = true := by
    rw [show port v p = _ from rfl]
    unfold v dropRequests
    dsimp only
    rw [port, fset_ports, ← port, port_setPort, if_pos rfl, port_setPort, if_pos rfl]
    exact ⟨rfl, rfl⟩
  have hend : breakSweep p s = endSweep p true s := by
    unfold breakSweep
    rw [hw]
    exact if_pos hbegun
  let m := sendMgmt (.sweepEnd (Fin.ofNat 128 p) (posInfos v p)) v
  have hm : port m p = port v p := port_sendMgmt _ v p
  have hsys : m.sys = s.sys := by
    unfold m sendMgmt
    split <;> rfl
  have hpeer' : peerPort m p = peerPort s p := by
    unfold peerPort portChain
    rw [hsys]
  rw [hend, endSweep, hw]
  change (port (match peerPort m p with | some q => wanted q m | none => m) p).sweep = none ∧
    (port (match peerPort m p with | some q => wanted q m | none => m) p).broken = true
  rw [hpeer']
  split
  next q hq =>
    have hne : p ≠ q := fun he => hpeer (he ▸ hq)
    have hwanted : port (wanted q m) p = port m p := by
      unfold wanted
      split
      · exact port_startSweep_other hne m
      · rfl
    rwa [hwanted, hm]
  · rwa [hm]

/-- Until its last step a loss of light leaves the state register of a port that does not heal alone. -/
theorem pstat_portLoss {p : Fin 128} (hstate : portState s p ≠ PState.healing) :
    regGet (healsAbandoned p (abandonHeal p (breakSweep p (darkened p s)))) (Reg.RING_PSTAT p) =
      regGet s (Reg.RING_PSTAT p) := by
  have hdark : regGet (darkened p s) (Reg.RING_PSTAT p) = regGet s (Reg.RING_PSTAT p) := by
    refine regGet_regSet_other _ _ ?_
    simp only [Reg.RING_PSTAT, Reg.RING_PLOS_CNT]
    omega
  refine (regGet_healsAbandoned_pstat p.isLt _ ?_).trans hdark
  rwa [portState_of_pstat hdark]

theorem mode_portLoss (p : Fin 128) (s : State) :
    (healsAbandoned p (abandonHeal p (breakSweep p (darkened p s)))).sys.mode = s.sys.mode := by
  have hserve : Serves stateScope (darkened p s) _ :=
    (((Serves.refl stateScope _).breakSweep p.isLt (.inl fun _ => id)).abandonHeal p.isLt stateScope_freeHeals).healsAbandoned
      (p := p) stateScope_freeHeals
  rw [hserve.frame]
  rfl

section
variable {p : Fin 128} {ch : ChainMap} {west : Bool} (hchain : portChain s p = some (ch, west))
  (hlit : (port s p).lit = true)
include hchain hlit

theorem portLoss_unfolds : portLoss p s =
    reachNone p (healsAbandoned p (abandonHeal p (breakSweep p (darkened p s)))) :=
  portLoss_eq (by rw [hchain]; exact Option.some_ne_none _) hlit

theorem commaAt_portLoss : (port (portLoss p s) p).commaAt = none := by
  rw [portLoss_unfolds hchain hlit, ((Serves.portLoss p.isLt noScope_freeStates (fun _ => id) s).ports p).comma,
    port_darkened, if_pos rfl]

theorem heal_portLoss : (port (portLoss p s) p).heal = none := by
  rw [portLoss_unfolds hchain hlit]
  have hserve : Serves noScope _ _ := ((Serves.refl noScope
    (abandonHeal p (breakSweep p (darkened p s)))).healsAbandoned (p := p) noScope_freeStates.toFreeHeals).reachNone p.isLt
      noScope_freeStates (.inl fun _ => id)
  rcases (hserve.ports p).heal with ⟨hsame, -⟩ | ⟨-, hnone⟩
  · exact hsame.trans (heal_abandonHeal p _)
  · exact hnone

theorem plos_portLoss : countedUp (Reg.RING_PLOS_CNT p) s (portLoss p s) := by
  have hserve := Serves.portLoss p.isLt (plosScope_freeStates p) (fun _ => id) s
  rw [portLoss_unfolds hchain hlit]
  unfold countedUp
  rw [hserve.regs _ rfl]
  exact countedUp_bump (Reg.RING_PLOS_CNT p) (setPort p { port s p with commaAt := none } s)

theorem sweep_portLoss {w : Sweep} (hw : (port s p).sweep = some w) (hbegun : w.begun = true)
    (hpeer : peerPort s p ≠ some p) :
    (port (portLoss p s) p).sweep = none ∧ (port (portLoss p s) p).broken = true := by
  have hsweep : (port (darkened p s) p).sweep = some w := by
    rw [port_darkened, if_pos rfl]
    exact hw
  obtain ⟨hnone, hbroken⟩ := port_breakSweep hsweep hbegun hpeer
  have hidle : ¬probing (breakSweep p (darkened p s)) p := fun ⟨v, hv, _⟩ => by
    rw [hnone] at hv
    cases hv
  have hserve := (Serves.refl sweepScope (breakSweep p (darkened p s))).darkness p.isLt sweepScope_freeStates
    (.inr ⟨trivial, hidle⟩)
  obtain ⟨h1, h2⟩ := (hserve.ports p).sweep trivial
  rw [portLoss_unfolds hchain hlit]
  exact ⟨h1.trans hnone, h2.trans hbroken⟩

theorem sweep_portLoss_kept (hidle : (port s p).sweep = none ∨ ∃ w, (port s p).sweep = some w ∧ w.begun = false) :
    (port (portLoss p s) p).sweep = (port s p).sweep := by
  have hsweep : (port (darkened p s) p).sweep = (port s p).sweep := by rw [port_darkened, if_pos rfl]
  have hnot : ¬probing (darkened p s) p := fun ⟨v, hv, hbegun⟩ => by
    rw [hsweep] at hv
    rcases hidle with hnone | ⟨w, hw, hb⟩
    · rw [hnone] at hv
      cases hv
    · rw [hw] at hv
      obtain rfl := Option.some.inj hv
      rw [hb] at hbegun
      cases hbegun
  have hserve := (Serves.refl sweepScope (darkened p s)).darkness p.isLt sweepScope_freeStates (.inr ⟨trivial, hnot⟩)
  rw [portLoss_unfolds hchain hlit, breakSweep_idle hnot, ((hserve.ports p).sweep trivial).1, hsweep]

theorem portLoss_folds (hmode : s.sys.mode = .ready ∨ s.sys.mode = .run) (hlo : 2 ≤ portState s p)
    (hhi : portState s p ≤ 4) :
    portState (portLoss p s) p = PState.folded ∧ fget (portLoss p s) (Fld.RING_PSTAT_REACHED p) = 0 ∧
      fget (portLoss p s) (Fld.RING_PSTAT_FOLD_POS p) = 0xFF := by
  have hheal : portState s p ≠ PState.healing := by
    simp only [PState.healing]
    omega
  have hstate := portState_of_pstat (pstat_portLoss hheal)
  rw [portLoss_unfolds hchain hlit, reachNone, mode_portLoss, if_pos hmode]
  exact foldPort_folds p.isLt (by decide) (by decide) (by rwa [hstate]) (by rwa [hstate])

theorem portLoss_discovers (hready : s.sys.mode ≠ .ready) (hrun : s.sys.mode ≠ .run)
    (hstate : portState s p = PState.inService) :
    portState (portLoss p s) p = PState.discovering ∧ fget (portLoss p s) (Fld.RING_PSTAT_REACHED p) = 0 := by
  have hsame := portState_of_pstat (pstat_portLoss (by rw [hstate]; decide))
  rw [portLoss_unfolds hchain hlit, reachNone, mode_portLoss, if_neg (not_or.mpr ⟨hready, hrun⟩),
    if_pos (hsame.trans hstate)]
  exact ⟨portState_setPortState p.isLt .., (reached_setPortState p.isLt ..).trans (reached_setReached _ _ _ (by decide))⟩
end

end Sys2Proof.Machine
end

section
namespace Sys2Proof.Machine

variable {s t u : State}

/-! # A CYCLE frame returns (R81 to R83, R97, R118) -/

/-- What a header tells before the slots are taken. -/
def headerTaken (p : Nat) (ch : ChainMap) (own : Bool) (frame : List Byte) (h : Header) (s : State) : State :=
  let sound := hcrcOk frame
  let s := if sound then noteHeader h s else s
  let mine := h.west == own
  let folded := sound && mine && h.tr != 0
  let f := (h.hops - 1) / 2
  let s := if folded then foldPort p f (f + 1) s else s
  let bit : BitVec 128 := BitVec.ofNat 128 (2 ^ p)
  let s := if folded then { s with btn := { s.btn with ownBack := s.btn.ownBack ||| bit } } else s
  let twin := sound && !mine && inPair s
  let s := if twin then { s with btn := { s.btn with rxTwin := s.btn.rxTwin ||| bit } } else s
  if twin && h.role == 1 && s.sys.role == .standby then noteCommands ch h.west frame s else s

/-- The lap of a frame with a right HCRC shows. -/
def lapShown (p lap : Nat) (frame : List Byte) (s : State) : State :=
  if hcrcOk frame then regSet (Reg.RING_PLAP_NOW p) (BitVec.ofNat 32 (lap % 2 ^ 17)) s else s

/-- How many slots of a frame are taken. -/
def slotsToTake (ch : ChainMap) (mine : Bool) (h : Header) : Nat := if mine then min ch.n ((h.hops - 1) / 2 + 1) else ch.n

/-- The slots of a frame, one by one. -/
def slotsTaken (p lap : Nat) (ch : ChainMap) (own : Bool) (frame : List Byte) (h : Header) (s : State) : State :=
  let mine := h.west == own
  let q := if mine then p else match peerPort s p with | some q => q | none => p
  (List.range (slotsToTake ch mine h)).foldl (takeSlotFrom p q ch.n lap ch h.west (h.cycle == cycleNo s) frame) s

/-- What a frame does whose checks are counted. -/
def frameTaken (p lap : Nat) (ch : ChainMap) (own : Bool) (frame : List Byte) (s : State) : State :=
  match readHeader frame with
  | none => s
  | some h =>
    if h.type ≠ Frame.cycle then s
    else slotsTaken p lap ch own frame h (lapShown p lap frame (headerTaken p ch own frame h s))

theorem chainFrame_eq {p : Nat} {ch : ChainMap} {own : Bool} (hchain : portChain s p = some (ch, own))
    (hlit : (port s p).lit = true) (chars : List LinkChar) (lap codes : Nat) :
    chainFrame p chars lap codes s = frameTaken p lap ch own (linkBytes chars)
      (frameCheck p ch.n (linkBytes chars) (violationsCounted (codes + linkViolations chars) p s)).2 := by
  unfold chainFrame
  rw [hchain]
  exact if_neg (by rw [hlit]; decide)

theorem Serves.headerTaken {k : ChainScope} {p : Nat} {ch : ChainMap} {own : Bool} {frame : List Byte} {h : Header}
    (hs : Serves k s t) (hp : p < 128) (hk : k.FreeStates) (hsw : ∀ q, ¬k.sweep q) :
    Serves k s (headerTaken p ch own frame h t) := by
  unfold Machine.headerTaken
  extract_lets sound s1 mine folded f s2 bit _ s3 twin _ s4
  have hs1 : Serves k s s1 := .ite hs.noteHeader hs
  have hs2 : Serves k s s2 := .ite (hs1.foldPort hp hk (.inl hsw)) hs1
  have hs3 : Serves k s s3 := .ite (hs2.btn rfl) hs2
  have hs4 : Serves k s s4 := .ite (hs3.btn rfl) hs3
  exact .ite hs4.noteCommands hs4

theorem Serves.lapShown {k : ChainScope} {p lap : Nat} {frame : List Byte} (h : Serves k s t) (hp : p < 128)
    (hk : ¬k.reg (Reg.RING_PLAP_NOW p)) : Serves k s (lapShown p lap frame t) := by
  refine .ite (h.regSet (ChainScope.spare_of_block hk ?_ fun q hq => ?_)) h
  all_goals
    simp only [Reg.RING_PLAP_NOW, Reg.RING_PSTAT]
    omega

theorem Serves.slotsTaken {k : ChainScope} {p lap : Nat} {ch : ChainMap} {own : Bool} {frame : List Byte} {h : Header}
    (hs : Serves k s t) (hp : p < 128) (hk : k.FreeReports) : Serves k s (slotsTaken p lap ch own frame h t) :=
  .foldl hs fun _ _ _ hu => hu.takeSlotFrom hp hk

theorem Serves.frameTaken {k : ChainScope} {p lap : Nat} {ch : ChainMap} {own : Bool} {frame : List Byte}
    (hs : Serves k s t) (hp : p < 128) (hk : k.FreeStates) (hsw : ∀ q, ¬k.sweep q) (hk' : k.FreeReports)
    (hlap : ¬k.reg (Reg.RING_PLAP_NOW p)) : Serves k s (frameTaken p lap ch own frame t) := by
  unfold Machine.frameTaken
  split
  · exact hs
  · exact .ite hs (((hs.headerTaken hp hk hsw).lapShown hp hlap).slotsTaken hp hk')

/-! ## Reports of sound slots arrive -/

theorem noScope_freeReports : noScope.FreeReports := ⟨id, id, id, fun _ _ => ⟨id, id⟩, fun _ _ => ⟨id, id⟩⟩

/-- A report makes its cell present. -/
theorem here_deliver {slot : Nat} (hslot : slot < 4096) (r : DWord) (arrival port pos : Nat) (west mirrored : Bool)
    (s : State) : (cell (deliver slot r arrival port pos west mirrored s) slot).here = true := by
  unfold deliver
  extract_lets late s1 x x' s2
  have hnote {u : State} (hu : (cell u slot).here = true) : (cell (noteReport slot r u) slot).here = true :=
    ((Serves.refl noScope u).noteReport hslot noScope_freeReports).here slot hu
  have hs2 : (cell s2 slot).here = true := by
    rw [cell_setCell, if_pos rfl]
    split <;> rfl
  split
  next hx =>
    split
    · exact hx
    · exact hnote hx
  · split
    · exact hs2
    · exact hnote hs2

section
variable {p q n lap : Nat} {ch : ChainMap} {west : Bool} {frame : List Byte} {j : Nat} {c r : DWord} {m : CellMap}
  (hslot : slotOf frame j = some (c, r)) (hcrc : crc8Ok r = true) (hmap : mapAt s ch.num (posFrom n j west) = some m)
  (htime : lap - ((n - 1 - j) * 128 + 32) * 2 ≤ (s.esc.wlen - Config.cutTicks) * 20)
include hslot hcrc hmap htime

theorem here_takeSlotFrom : (cell (takeSlotFrom p q n lap ch west true frame s j) m.slot).here = true := by
  unfold takeSlotFrom
  rw [hslot]
  dsimp only
  rw [if_neg (by simp [hcrc]), if_neg (by simpa using htime), hmap]
  dsimp only
  split
  · exact ((Serves.refl noScope _).cellTableEntry).here _ (here_deliver m.cellSlot.isLt ..)
  · exact here_deliver m.cellSlot.isLt ..

/-- Every such slot of a list of slots reaches its cell. -/
theorem here_takeSlots (hp : p < 128) {l : List Nat} (hj : j ∈ l) :
    (cell (l.foldl (takeSlotFrom p q n lap ch west true frame) s) m.slot).here = true := by
  obtain ⟨before, after, rfl⟩ := List.append_of_mem hj
  rw [List.foldl_append, List.foldl_cons]
  have hbefore : Serves noScope s (before.foldl (takeSlotFrom p q n lap ch west true frame) s) :=
    .foldl (.refl noScope s) fun _ _ _ hu => hu.takeSlotFrom hp noScope_freeReports
  have hafter {u : State} : Serves noScope u (after.foldl (takeSlotFrom p q n lap ch west true frame) u) :=
    .foldl (.refl noScope u) fun _ _ _ hu => hu.takeSlotFrom hp noScope_freeReports
  refine hafter.here _ (here_takeSlotFrom hslot hcrc ?_ ?_)
  · rw [hbefore.frame]
    exact hmap
  · rw [hbefore.frame]
    exact htime
end

/-! ## The scopes of a frame -/

theorem phcrc_outside (p : Fin 128) : ∀ a, a = Reg.RING_PHCRC_CNT p ∨ a = Reg.ESC_CYCLE →
    a / 0x10000 ∉ [0x400C, 0x400D, 0x4011] ∧ ∀ q < 128, a ≠ Reg.RING_PSVC q := by
  rintro a (rfl | rfl)
  · refine ⟨by rw [phcrc_block p.isLt]; decide, fun q hq => ?_⟩
    simp only [Reg.RING_PHCRC_CNT, Reg.RING_PSVC]
    omega
  · refine ⟨by decide, fun q hq => ?_⟩
    simp only [Reg.ESC_CYCLE, Reg.RING_PSVC]
    omega

/-- The scope of the port's count of bad frames, of the cycle number, and of the latched bits. -/
def frameScope (p : Fin 128) : ChainScope :=
  { reg := fun a => a = Reg.RING_PHCRC_CNT p ∨ a = Reg.ESC_CYCLE, outside := phcrc_outside p, latch := True }

theorem frameScope_freeStates (p : Fin 128) : (frameScope p).FreeStates := by
  refine ⟨⟨fun q _ => ?_, fun _ => id⟩, fun q _ => ?_, fun _ => id⟩
  all_goals
    simp only [frameScope, Reg.RING_PSTAT, Reg.RING_PFOLD_CNT, Reg.RING_PHCRC_CNT, Reg.ESC_CYCLE]
    omega

theorem frameScope_freeReports (p : Fin 128) : (frameScope p).FreeReports := by
  have hp := p.isLt
  refine ⟨?_, ?_, ?_, fun w _ => ⟨?_, ?_⟩, fun q _ => ⟨?_, ?_⟩⟩
  all_goals
    simp only [frameScope, Reg.RING_DUP_CNT, Reg.RING_PROTO_CNT, Reg.RING_EPOCH_LOW_CNT, Reg.WHL_BYP_CNT,
      Reg.WHL_BYPFAIL_CNT, Reg.RING_PSCRC_CNT, Reg.RING_PLATE_CNT, Reg.RING_PHCRC_CNT, Reg.ESC_CYCLE]
    omega

theorem frameScope_lap (p : Fin 128) : ¬(frameScope p).reg (Reg.RING_PLAP_NOW p) := by
  simp only [frameScope, Reg.RING_PLAP_NOW, Reg.RING_PHCRC_CNT, Reg.ESC_CYCLE]
  omega

theorem plapNow_outside (p : Fin 128) : ∀ a, a = Reg.RING_PLAP_NOW p →
    a / 0x10000 ∉ [0x400C, 0x400D, 0x4011] ∧ ∀ q < 128, a ≠ Reg.RING_PSVC q := by
  have hp := p.isLt
  rintro a rfl
  refine ⟨?_, fun q hq => ?_⟩
  · rw [show Reg.RING_PLAP_NOW p / 0x10000 = 0x4003 by simp only [Reg.RING_PLAP_NOW]; omega]
    decide
  · simp only [Reg.RING_PLAP_NOW, Reg.RING_PSVC]
    omega

/-- The scope of the lap that a port shows. -/
def lapScope (p : Fin 128) : ChainScope := { reg := fun a => a = Reg.RING_PLAP_NOW p, outside := plapNow_outside p }

theorem lapScope_freeReports (p : Fin 128) : (lapScope p).FreeReports := by
  have hp := p.isLt
  refine ⟨?_, ?_, ?_, fun w _ => ⟨?_, ?_⟩, fun q _ => ⟨?_, ?_⟩⟩
  all_goals
    simp only [lapScope, Reg.RING_DUP_CNT, Reg.RING_PROTO_CNT, Reg.RING_EPOCH_LOW_CNT, Reg.WHL_BYP_CNT,
      Reg.WHL_BYPFAIL_CNT, Reg.RING_PSCRC_CNT, Reg.RING_PLATE_CNT, Reg.RING_PLAP_NOW]
    omega

section
variable {p : Fin 128} {ch : ChainMap} {own : Bool} {frame : List LinkChar} {lap codes : Nat}
  (hchain : portChain s p = some (ch, own)) (hlit : (port s p).lit = true) (harmed : armed s 5 p = false)
include hchain hlit harmed

theorem chainFrame_of_bad (h : hcrcOk (linkBytes frame) = false ∨ fcrcOk (linkBytes frame) ch.n = false) :
    chainFrame p frame lap codes s = frameTaken p lap ch own (linkBytes frame)
      (frameFailed p (violationsCounted (codes + linkViolations frame) p s)) := by
  have hbad : (hcrcOk (linkBytes frame) && fcrcOk (linkBytes frame) ch.n) = false := Bool.and_eq_false_iff.mpr h
  rw [chainFrame_eq hchain hlit, frameCheck_of_unarmed ((armed_violationsCounted p.isLt _ 5 p s).trans harmed), hbad]
  rfl

theorem chainFrame_of_good (hh : hcrcOk (linkBytes frame) = true) (hf : fcrcOk (linkBytes frame) ch.n = true) :
    chainFrame p frame lap codes s =
      frameTaken p lap ch own (linkBytes frame) (violationsCounted (codes + linkViolations frame) p s) := by
  rw [chainFrame_eq hchain hlit, frameCheck_of_unarmed ((armed_violationsCounted p.isLt _ 5 p s).trans harmed), hh, hf]
  rfl

/-- A frame that fails its checks is an occurrence of source 63, and counts (R83). -/
theorem chainFrame_bad (h : hcrcOk (linkBytes frame) = false ∨ fcrcOk (linkBytes frame) ch.n = false) :
    (regGet (chainFrame p frame lap codes s) Reg.FCO_STATUS_1).getLsbD 31 = true ∧
      countedUp (Reg.RING_PHCRC_CNT p) s (chainFrame p frame lap codes s) := by
  rw [chainFrame_of_bad hchain hlit harmed h]
  obtain ⟨⟨hlatched, -⟩, hcount⟩ := frameFailed_does p.isLt (codes + linkViolations frame) s
  have hserve : Serves (frameScope p) _ _ := (Serves.refl _ (frameFailed p
    (violationsCounted (codes + linkViolations frame) p s))).frameTaken (lap := lap) (ch := ch) (own := own)
      (frame := linkBytes frame) p.isLt (frameScope_freeStates p) (fun _ => id) (frameScope_freeReports p) (frameScope_lap p)
  refine ⟨hserve.latches trivial 63 (by decide) hlatched, ?_⟩
  unfold countedUp
  rw [hserve.regs _ (.inl rfl)]
  exact hcount

variable (hh : hcrcOk (linkBytes frame) = true) (hf : fcrcOk (linkBytes frame) ch.n = true)
include hh hf

theorem chainFrame_serves : Serves (frameScope p) (violationsCounted (codes + linkViolations frame) p s)
    (chainFrame p frame lap codes s) := by
  rw [chainFrame_of_good hchain hlit harmed hh hf]
  exact (Serves.refl _ _).frameTaken p.isLt (frameScope_freeStates p) (fun _ => id) (frameScope_freeReports p)
    (frameScope_lap p)

variable {h : Header} (hhead : readHeader (linkBytes frame) = some h) (htype : h.type = 1)
include hhead htype

/-- A sound CYCLE frame is taken as a whole. -/
theorem chainFrame_sound : chainFrame p frame lap codes s =
    slotsTaken p lap ch own (linkBytes frame) h (lapShown p lap (linkBytes frame)
      (headerTaken p ch own (linkBytes frame) h (violationsCounted (codes + linkViolations frame) p s))) := by
  rw [chainFrame_of_good hchain hlit harmed hh hf, frameTaken, hhead]
  exact if_neg fun hne => hne htype

/-- What a sound CYCLE frame shows, and what it does not touch. -/
theorem chainFrame_shows :
    regGet (chainFrame p frame lap codes s) (Reg.RING_PLAP_NOW p) = BitVec.ofNat 32 (lap % 2 ^ 17) ∧
      regGet (chainFrame p frame lap codes s) (Reg.RING_PHCRC_CNT p) = regGet s (Reg.RING_PHCRC_CNT p) ∧
      (chainFrame p frame lap codes s).wheels = s.wheels ∧ (chainFrame p frame lap codes s).cores = s.cores := by
  have hserve := chainFrame_serves (lap := lap) (codes := codes) hchain hlit harmed hh hf
  refine ⟨?_, (hserve.regs _ (.inl rfl)).trans (regGet_regSet_other _ _ ?_), ?_, ?_⟩
  · have hslots : Serves (lapScope p) _ _ := (Serves.refl _ (lapShown p lap (linkBytes frame)
      (headerTaken p ch own (linkBytes frame) h (violationsCounted (codes + linkViolations frame) p s)))).slotsTaken
        (lap := lap) (ch := ch) (own := own) (frame := linkBytes frame) (h := h) p.isLt (lapScope_freeReports p)
    rw [chainFrame_sound hchain hlit harmed hh hf hhead htype, hslots.regs _ rfl, lapShown, if_pos hh]
    exact regGet_regSet_self ..
  · simp only [Reg.RING_PHCRC_CNT, Reg.RING_PCODE_CNT]
    omega
  · rw [hserve.frame]
    rfl
  · rw [hserve.frame]
    rfl

/-- A sound slot in time makes its cell present (R81, R82). -/
theorem chainFrame_present {j : Nat} {c r : DWord} {m : CellMap} (hcycle : h.cycle = cycleNo s)
    (hj : j < if h.west = own then min ch.n ((h.hops - 1) / 2 + 1) else ch.n)
    (hslot : slotOf (linkBytes frame) j = some (c, r))
    (htime : lap - ((ch.n - 1 - j) * 128 + 32) * 2 ≤ (s.esc.wlen - Config.cutTicks) * 20) (hcrc : crc8Ok r = true)
    (hmap : mapAt s ch.num (posFrom ch.n j h.west) = some m) :
    (cell (chainFrame p frame lap codes s) m.slot).here = true := by
  let v := lapShown p lap (linkBytes frame)
    (headerTaken p ch own (linkBytes frame) h (violationsCounted (codes + linkViolations frame) p s))
  have hserve : Serves (frameScope p) (violationsCounted (codes + linkViolations frame) p s) v :=
    ((Serves.refl _ _).headerTaken p.isLt (frameScope_freeStates p) fun _ => id).lapShown p.isLt (frameScope_lap p)
  have hcurrent : (h.cycle == cycleNo v) = true := by
    rw [beq_iff_eq, hcycle, cycleNo, cycleNo, hserve.regs _ (.inr rfl), violationsCounted, bumpBy, regGet_regSet_other]
    simp only [Reg.ESC_CYCLE, Reg.RING_PCODE_CNT]
    omega
  have hcount : j ∈ List.range (slotsToTake ch (h.west == own) h) := by
    rw [List.mem_range, slotsToTake]
    simpa only [beq_iff_eq] using hj
  rw [chainFrame_sound hchain hlit harmed hh hf hhead htype, slotsTaken, hcurrent]
  refine here_takeSlots (s := v) hslot hcrc ?_ ?_ p.isLt hcount
  · rw [hserve.frame]
    exact hmap
  · rw [hserve.frame]
    exact htime
end

/-! # Ports that take no part; frequency (R62) -/

section
variable {p : Nat}

theorem chainFrame_none (h : portChain s p = none) (frame : List LinkChar) (lap codes : Nat) :
    chainFrame p frame lap codes s = s := by
  unfold chainFrame
  rw [h]

theorem portLoss_none (h : portChain s p = none) : portLoss p s = s := if_pos (.inl (by rw [h]; rfl))

theorem portReturn_none (h : portChain s p = none) : portReturn p s = s := if_pos (.inl (by rw [h]; rfl))

theorem chainFreq_none (h : portChain s p = none) (off : Bool) : chainFreq p off s = s := if_pos (by rw [h]; rfl)

theorem chainFrame_dark (h : (port s p).lit = false) (frame : List LinkChar) (lap codes : Nat) :
    chainFrame p frame lap codes s = s := by
  unfold chainFrame
  rw [h]
  split <;> rfl

theorem portLoss_dark (h : (port s p).lit = false) : portLoss p s = s := if_pos (.inr (by rw [h]; rfl))
end

theorem chainFreq_does {p : Fin 128} (h : portChain s p ≠ none) (off : Bool) :
    port (chainFreq p off s) p = { port s p with freqOff := off } ∧
      (∀ r, r ≠ p.val → port (chainFreq p off s) r = port s r) ∧
      onlyFault s { chainFreq p off s with ports := s.ports } ∧ raisedAt (chainFreq p off s) 17 p = off := by
  let v := setPort p { port s p with freqOff := off } s
  have heq : chainFreq p off s = condIs off 17 p 0x32 v := if_neg (by simpa using h)
  have hstep : FaultStep v (condIs off 17 p 0x32 v) := .condIs (.refl v) (by decide)
  obtain ⟨hframe, hsaf, hchr, hmem⟩ := hstep.frame
  rw [heq]
  refine ⟨?_, fun r hr => ?_, ⟨?_, hsaf, hchr, hmem⟩, raisedAt_condIs_self ..⟩
  · rw [port_faultStep hstep, port_setPort, if_pos rfl]
  · rw [port_faultStep hstep, port_setPort, if_neg hr]
  · rw [hframe]
    rfl

/-- Settles O44: a returning frame changes only what the scope of its header and of its slots lets it, its sound slots
reach their cells one by one, and a loss of light ends sweep and heal before the port folds. -/
theorem chainEndsTakeFramesAndLoss : Obligations.ChainEndsTakeFramesAndLoss := by
  intro s p frame lap codes x bytes
  refine ⟨fun hnone => ?_, fun ch west hchain => ?_⟩
  · exact ⟨congrArg Host.Outcome.next (chainFrame_none hnone ..), congrArg Host.Outcome.next (portLoss_none hnone),
      congrArg Host.Outcome.next (portReturn_none hnone), congrArg Host.Outcome.next (chainFreq_none hnone _),
      congrArg Host.Outcome.next (chainFreq_none hnone _)⟩
  have hsome : portChain s p ≠ none := by
    rw [hchain]
    exact Option.some_ne_none _
  refine ⟨fun hdark => ?_, fun hlit harmed hbad => ⟨_, rfl, chainFrame_bad hchain hlit harmed hbad⟩,
    fun h hlit harmed hh hf hhead htype => ⟨_, rfl, ?_⟩, fun hlit => ⟨_, rfl, ?_⟩, fun hcomma => ⟨_, rfl, ?_⟩,
    fun hcomma => ?_, fun q hq => ?_⟩
  · exact ⟨congrArg Host.Outcome.next (portLoss_dark hdark), congrArg Host.Outcome.next (chainFrame_dark hdark ..)⟩
  · obtain ⟨hlap, hcount, hwheels, hcores⟩ := chainFrame_shows (codes := codes) hchain hlit harmed hh hf hhead htype
    exact ⟨hlap, hcount, hwheels, hcores, fun hcycle j c r m hj hslot htime hcrc hmap =>
      chainFrame_present hchain hlit harmed hh hf hhead htype hcycle hj hslot htime hcrc hmap⟩
  · exact ⟨commaAt_portLoss hchain hlit, heal_portLoss hchain hlit, fun w hw => sweep_portLoss hchain hlit hw,
      sweep_portLoss_kept hchain hlit, plos_portLoss hchain hlit, portLoss_folds hchain hlit,
      portLoss_discovers hchain hlit⟩
  · rw [show portReturn p s = setPort p { port s p with commaAt := some s.time.cnt } s from
      if_neg (not_or.mpr ⟨by simpa using hsome, by rw [hcomma]; decide⟩)]
    exact onlyPort_setPort ..
  · exact congrArg Host.Outcome.next (if_pos (.inr hcomma))
  · rcases List.mem_pair.mp hq with rfl | rfl
    · exact ⟨_, rfl, chainFreq_does hsome true⟩
    · exact ⟨_, rfl, chainFreq_does hsome false⟩

end Sys2Proof.Machine
end

section
namespace Sys2Proof.Machine

variable {s t u : State}

/-! # Heals start (R86) -/

theorem healLeader_lt {p n : Nat} (hp : p < 128) : healLeader s p n < 128 := by
  unfold healLeader
  split
  next q hq =>
    split
    · exact peerPort_lt hq
    · exact hp
  · exact hp

/-- The port that leads the heal of a FOLDED port is FOLDED itself, or heals with the other end. -/
theorem portState_healLeader {p n : Nat} (h : portState s p = PState.folded) :
    portState s (healLeader s p n) = PState.folded ∨ portState s (healLeader s p n) = PState.healing := by
  unfold healLeader
  split
  next q hq =>
    split
    next hc =>
      obtain ⟨hface, -⟩ := Bool.and_eq_true_iff.mp hc
      unfold facing at hface
      rw [hq] at hface
      obtain ⟨hstate, -⟩ := Bool.and_eq_true_iff.mp hface
      rcases Bool.or_eq_true_iff.mp hstate with hs | hs
      · exact .inl (beq_iff_eq.mp hs)
      · exact .inr (beq_iff_eq.mp hs)
    · exact .inl h
  · exact .inl h

theorem portState_joinHeal {q : Nat} (hq : q < 128) (h : portState s q = PState.folded ∨ portState s q = PState.healing) :
    portState (joinHeal q s) q = PState.healing := by
  unfold joinHeal
  split
  · exact portState_setPortState hq PState.healing _ s
  next hne => exact h.resolve_left hne

theorem portState_joinHeal_other {p q : Nat} (hq : q < 128) (h : portState s q = PState.healing) :
    portState (joinHeal p s) q = PState.healing := by
  unfold joinHeal
  split
  next hfold =>
    have hne : q ≠ p := fun he => by
      rw [he, hfold] at h
      cases h
    rw [portState_of_pstat (regGet_setPortState_other hq hne ..)]
    exact h
  · exact h

theorem pstat_outside {q : Nat} (hq : q < 128) : ∀ a, a = Reg.RING_PSTAT q →
    a / 0x10000 ∉ [0x400C, 0x400D, 0x4011] ∧ ∀ p < 128, a ≠ Reg.RING_PSVC p := by
  rintro a rfl
  refine ⟨by rw [pstat_block hq]; decide, fun p hp => ?_⟩
  simp only [Reg.RING_PSTAT, Reg.RING_PSVC]
  omega

/-- The scope of one port's state register and of all heals. -/
def healScope (q : Nat) (hq : q < 128) : ChainScope :=
  { reg := fun a => a = Reg.RING_PSTAT q, outside := pstat_outside hq, heal := fun _ => True }

/-- What a unit does first in a heal that it starts (R86, step 1). -/
def firstStep (s : State) : HealStep :=
  if s.sys.role = .standby then .follow (cycleNo s + 8) else .echo (cycleNo s + 8)

/-- The ports of this unit that heal with port `q` are HEALING. -/
def healJoined (q n : Nat) (s : State) : State :=
  match peerPort (joinHeal q s) q with
  | some r => if facing s q n then joinHeal r (joinHeal q s) else joinHeal q s
  | none => joinHeal q s

def endWest (s : State) (q : Nat) : Bool := match portChain s q with | some (_, w) => w | none => false

/-- The fold cell at `f` is asked for the segment echo, where a cell ends the segment. -/
def segmentAsked (q n f : Nat) (west : Bool) (c : Word) (s : State) : State :=
  if f = 0xFF ∨ (s.sys.comm.pair ∧ f + 1 = n) then s
  else askCells q [svcRequest s f Svc.segEcho (BitVec.ofNat 8 (boolNat (!west)) :: wordBytes c) .heal] s

theorem startHeal_eq {p : Nat} {ch : ChainMap} {own : Bool} (hchain : portChain s p = some (ch, own)) :
    startHeal p s =
      let q := healLeader s p ch.n
      let j := healJoined q ch.n s
      if j.sys.role = .standby then setPort q { port j q with heal := some (.follow (cycleNo s + 8)) } j
      else segmentAsked q ch.n (fget s (Fld.RING_PSTAT_FOLD_POS q)) (endWest s q) (cycleNo s + 8)
        (sendMgmt (.healStart (Fin.ofNat 128 q)) (setPort q { port j q with heal := some (.echo (cycleNo s + 8)) } j)) := by
  unfold startHeal
  rw [hchain]
  rfl

theorem portState_healJoined {q n : Nat} (hq : q < 128)
    (h : portState s q = PState.folded ∨ portState s q = PState.healing) :
    portState (healJoined q n s) q = PState.healing := by
  have hself : portState (joinHeal q s) q = PState.healing := portState_joinHeal hq h
  unfold healJoined
  split
  · split
    · exact portState_joinHeal_other hq hself
    · exact hself
  · exact hself

theorem Serves.healJoined {k : ChainScope} {q n : Nat} (h : Serves k s t) (hq : q < 128)
    (hreg : ∀ r < 128, ¬k.reg (Reg.RING_PSTAT r)) (hstate : ∀ r, ¬k.state r) :
    Serves k s (healJoined q n t) := by
  have hself : Serves k s (Machine.joinHeal q t) := h.joinHeal hq (hreg q hq) (hstate q)
  unfold Machine.healJoined
  split
  next r hr => exact .ite (hself.joinHeal (peerPort_lt hr) (hreg r (peerPort_lt hr)) (hstate r)) hself
  · exact hself

theorem Serves.segmentAsked {k : ChainScope} {q n f : Nat} {west : Bool} {c : Word} (h : Serves k s t) (hq : q < 128) :
    Serves k s (segmentAsked q n f west c t) := .ite h (h.askCells hq)

theorem role_healJoined {q n : Nat} (hq : q < 128) (s : State) : (healJoined q n s).sys.role = s.sys.role := by
  have hjoin : Serves noScope s (healJoined q n s) := (Serves.refl _ s).healJoined hq (fun _ _ => id) fun _ => id
  rw [hjoin.frame]

/-- The port of a started heal that measures is HEALING, with the heal's first step. -/
theorem startHeal_heals {p : Nat} {ch : ChainMap} {own : Bool} (hp : p < 128) (hchain : portChain s p = some (ch, own))
    (hfold : portState s p = PState.folded) :
    portState (startHeal p s) (healLeader s p ch.n) = PState.healing ∧
      (port (startHeal p s) (healLeader s p ch.n)).heal = some (firstStep s) := by
  have hq : healLeader s p ch.n < 128 := healLeader_lt hp
  have hstate : portState (healJoined (healLeader s p ch.n) ch.n s) (healLeader s p ch.n) = PState.healing :=
    portState_healJoined hq (portState_healLeader hfold)
  rw [startHeal_eq hchain]
  generalize healLeader s p ch.n = q at *
  dsimp only
  rw [role_healJoined hq, firstStep]
  split
  · refine ⟨hstate, ?_⟩
    rw [port_setPort, if_pos rfl]
  · let j := healJoined q ch.n s
    let v := setPort q { port j q with heal := some (.echo (cycleNo s + 8)) } j
    have hserve : Serves (healScope q hq) v _ := ((Serves.refl _ v).sendMgmt
      (m := .healStart (Fin.ofNat 128 q))).segmentAsked (n := ch.n) (f := fget s (Fld.RING_PSTAT_FOLD_POS q))
        (west := endWest s q) (c := cycleNo s + 8) hq
    refine ⟨(portState_of_pstat (hserve.regs _ rfl)).trans hstate, ?_⟩
    rcases (hserve.ports q).heal with ⟨hkeep, -⟩ | ⟨hk, -⟩
    · rw [hkeep, port_setPort, if_pos rfl]
    · exact absurd trivial hk

/-! ## Heals complete (R86, step 4) -/

/-- Port `q` has left its fold. -/
structure OutOfFold (faces : Bool) (n q : Nat) (s t : State) : Prop where
  state : portState t q = PState.inService
  heal : (port t q).heal = none
  raised : raisedAt t 18 q = false
  reached : fget t (Fld.RING_PSTAT_REACHED q) = if faces then n % 256 else fget s (Fld.RING_PSTAT_REACHED q)

/-- What the fold of port `q` is told from stands. -/
structure FoldKept (q : Nat) (s t : State) : Prop where
  pstat : regGet t (Reg.RING_PSTAT q) = regGet s (Reg.RING_PSTAT q)
  port : port t q = port s q
  raised : raisedAt t 18 q = raisedAt s 18 q

theorem OutOfFold.kept {faces : Bool} {n q : Nat} (h : OutOfFold faces n q s t) (hk : FoldKept q t u) :
    OutOfFold faces n q s u where
  state := (portState_of_pstat hk.pstat).trans h.state
  heal := by rw [hk.port, h.heal]
  raised := hk.raised.trans h.raised
  reached := (fget_of_regGet_eq (f := Fld.RING_PSTAT_REACHED q) hk.pstat).trans h.reached

theorem FoldKept.before {faces : Bool} {n q : Nat} (hk : FoldKept q s t) (h : OutOfFold faces n q t u) :
    OutOfFold faces n q s u where
  state := h.state
  heal := h.heal
  raised := h.raised
  reached := by rw [h.reached, fget_of_regGet_eq (f := Fld.RING_PSTAT_REACHED q) hk.pstat]

theorem reached_lt (p : Nat) (s : State) : fget s (Fld.RING_PSTAT_REACHED p) < 256 := by
  unfold fget fieldGet
  exact Nat.mod_lt _ (Nat.two_pow_pos 8)

theorem reached_setReached_mod (p n : Nat) (s : State) :
    fget (setReached p n s) (Fld.RING_PSTAT_REACHED p) = n % 256 := by
  unfold setReached
  split
  next hsame =>
    rw [hsame, Nat.mod_eq_of_lt]
    rw [← hsame]
    exact reached_lt p s
  · exact (fget_of_regGet_eq (regGet_sendMgmt ..)).trans
      (fget_fset_self (Fld.RING_PSTAT_REACHED p) n s (show 16 ≤ 23 by decide) (show 23 < 32 by decide))

theorem port_clearCond (src inst : Nat) (s : State) (q : Nat) : port (clearCond src inst s) q = port s q := rfl

theorem regGet_clearCond (src inst : Nat) (s : State) (a : Nat) : regGet (clearCond src inst s) a = regGet s a := rfl

theorem regGet_setReached_other {p q : Nat} (hne : q ≠ p) (n : Nat) (s : State) :
    regGet (setReached p n s) (Reg.RING_PSTAT q) = regGet s (Reg.RING_PSTAT q) := by
  unfold setReached
  split
  · rfl
  · rw [regGet_sendMgmt]
    exact regGet_fset_other _ _ (pstat_ne hne)

theorem raisedAt_fset (f : Field) (v : Nat) (s : State) (src inst : Nat) :
    raisedAt (fset f v s) src inst = raisedAt s src inst := rfl

theorem raisedAt_setPortState {src inst : Nat} (hsrc : src ≠ 48) (hinst : inst < 65536) (p st fold : Nat) (s : State) :
    raisedAt (setPortState p st fold s) src inst = raisedAt s src inst := by
  unfold setPortState
  extract_lets old s1
  have hs1 : raisedAt s1 src inst = raisedAt s src inst := by rw [raisedAt_fset, raisedAt_fset]
  split
  · exact hs1
  · exact (raisedAt_post hsrc hinst ..).trans hs1

theorem raisedAt_setReached (p n : Nat) (s : State) (src inst : Nat) :
    raisedAt (setReached p n s) src inst = raisedAt s src inst := by
  unfold setReached sendMgmt
  split
  · rfl
  · split <;> rfl

/-- A port of a heal that ends, with all cells reached where the chain had one broken segment. -/
def foldLeft (n : Nat) (faces : Bool) (q : Nat) (s : State) : State :=
  let s := setPort q { port s q with heal := none, healReady := false } s
  if faces then setReached q n s else s

theorem leaveFold_eq (n : Nat) (faces : Bool) (s : State) (q : Nat) :
    leaveFold n faces s q = clearCond 18 q (setPortState q PState.inService 0xFF (foldLeft n faces q s)) := rfl

theorem port_foldLeft (n : Nat) (faces : Bool) (p : Nat) (s : State) (q : Nat) :
    port (foldLeft n faces p s) q = if q = p then { port s p with heal := none, healReady := false } else port s q := by
  unfold foldLeft
  dsimp only
  split
  · rw [port_setReached, port_setPort]
  · rw [port_setPort]

theorem reached_foldLeft (n : Nat) (faces : Bool) (q : Nat) (s : State) :
    fget (foldLeft n faces q s) (Fld.RING_PSTAT_REACHED q) =
      if faces then n % 256 else fget s (Fld.RING_PSTAT_REACHED q) := by
  unfold foldLeft
  split
  · exact reached_setReached_mod ..
  · rfl

theorem leaveFold_self {q : Nat} (hq : q < 128) (n : Nat) (faces : Bool) (s : State) :
    OutOfFold faces n q s (leaveFold n faces s q) := by
  rw [leaveFold_eq]
  have hstate := regGet_clearCond 18 q (setPortState q PState.inService 0xFF (foldLeft n faces q s)) (Reg.RING_PSTAT q)
  refine ⟨(portState_of_pstat hstate).trans (portState_setPortState hq ..), ?_, raisedAt_setRaised_self ..,
    (fget_of_regGet_eq (f := Fld.RING_PSTAT_REACHED q) hstate).trans
      ((reached_setPortState hq ..).trans (reached_foldLeft ..))⟩
  rw [port_clearCond, port_setPortState, port_foldLeft, if_pos rfl]

theorem raisedAt_foldLeft (n : Nat) (faces : Bool) (p : Nat) (s : State) (src inst : Nat) :
    raisedAt (foldLeft n faces p s) src inst = raisedAt s src inst := by
  unfold foldLeft
  dsimp only
  split
  · exact raisedAt_setReached ..
  · rfl

theorem leaveFold_other {p q : Nat} (hq : q < 128) (hne : q ≠ p) (n : Nat) (faces : Bool) (s : State) :
    FoldKept q s (leaveFold n faces s p) := by
  have hkey : Fco.key 18 q ≠ Fco.key 18 p := by
    unfold Fco.key
    omega
  rw [leaveFold_eq]
  refine ⟨(regGet_clearCond ..).trans ((regGet_setPortState_other hq hne ..).trans ?_), ?_,
    (Store.get_set_other _ _ false hkey).trans ((raisedAt_setPortState (src := 18) (inst := q) (by decide) (by omega) ..).trans
      (raisedAt_foldLeft ..))⟩
  · unfold foldLeft
    dsimp only
    split
    · exact regGet_setReached_other hne ..
    · rfl
  · rw [port_clearCond, port_setPortState, port_foldLeft, if_neg hne]

theorem leaveFolds_other {l : List Nat} {q : Nat} (hq : q < 128) (hl : q ∉ l) (n : Nat) (faces : Bool) (s : State) :
    FoldKept q s (l.foldl (leaveFold n faces) s) := by
  induction l generalizing s with
  | nil => exact ⟨rfl, rfl, rfl⟩
  | cons p l ih =>
    rw [List.mem_cons, not_or] at hl
    have hstep := leaveFold_other hq hl.1 n faces s
    have hrest := ih hl.2 (leaveFold n faces s p)
    exact ⟨hrest.pstat.trans hstep.pstat, hrest.port.trans hstep.port, hrest.raised.trans hstep.raised⟩

/-- Each port of a list leaves its fold. -/
theorem leaveFolds {l : List Nat} {q : Nat} (hnodup : l.Nodup) (hlt : ∀ i ∈ l, i < 128) (hl : q ∈ l) (n : Nat)
    (faces : Bool) (s : State) : OutOfFold faces n q s (l.foldl (leaveFold n faces) s) := by
  induction l generalizing s with
  | nil => cases hl
  | cons p l ih =>
    obtain ⟨hp, hnodup⟩ := List.nodup_cons.mp hnodup
    obtain ⟨hplt, hlt⟩ := List.forall_mem_cons.mp hlt
    rcases List.mem_cons.mp hl with rfl | hin
    · exact (leaveFold_self hplt n faces s).kept (leaveFolds_other hplt hp n faces _)
    · have hne : q ≠ p := fun he => hp (he ▸ hin)
      exact (leaveFold_other (hlt q hin) hne n faces s).before (ih hnodup hlt hin _)

theorem healPorts_nodup {o : Nat} (h : (port s o).heal.isSome = true) : (healPorts s o).Nodup := by
  unfold healPorts
  split
  next q hq =>
    split
    next hc =>
      obtain ⟨hnone, -⟩ := Bool.and_eq_true_iff.mp hc
      have hne : o ≠ q := fun he => by
        rw [← he, Option.isNone_iff_eq_none] at hnone
        rw [hnone] at h
        cases h
      exact List.nodup_cons.mpr ⟨fun hin => hne (List.mem_singleton.mp hin), List.nodup_singleton _⟩
    · exact List.nodup_singleton _
  · exact List.nodup_singleton _

theorem healComplete_waits {p : Nat} {k : Word} (h : (port s p).heal = some (.stop k))
    (hwait : (cycleNo s).toNat < k.toNat) : healComplete p s = s := by
  unfold healComplete
  rw [h]
  split
  next hstop =>
    obtain rfl := HealStep.stop.inj (Option.some.inj hstop)
    exact if_pos hwait
  · rfl

theorem healComplete_idle {p : Nat} (h : ∀ k, (port s p).heal ≠ some (.stop k)) : healComplete p s = s := by
  unfold healComplete
  split
  next hstop => exact absurd hstop (h _)
  · rfl

theorem healComplete_completes {p : Nat} (hp : p < 128) {ch : ChainMap} {west : Bool} {k : Word}
    (hchain : portChain s p = some (ch, west)) (h : (port s p).heal = some (.stop k))
    (hdue : k.toNat ≤ (cycleNo s).toNat) :
    ∀ q ∈ healPorts s p, OutOfFold (facing s p ch.n) ch.n q s (healComplete p s) := by
  intro q hq
  unfold healComplete
  rw [hchain, h]
  change OutOfFold _ _ _ _ (if (cycleNo s).toNat < k.toNat then s else _)
  rw [if_neg (Nat.not_lt.mpr hdue)]
  exact leaveFolds (healPorts_nodup (by rw [h]; rfl)) (healPorts_lt hp) hq ..

end Sys2Proof.Machine
end

section
namespace Sys2Proof.Machine

variable {s t u : State}

/-! # A segment is measured (R86, steps 2 to 4) -/

/-- The scope of all heals. -/
def healsScope : ChainScope := { heal := fun _ => True }

theorem healsScope_freeTables : healsScope.FreeTables :=
  ⟨fun _ _ => id, fun _ _ => id, fun _ _ => id, id, fun _ => id⟩

theorem echo_abandonHeal {p : Nat} (h : (port s p).heal.isSome = true) : (port (abandonHeal p s) p).echo = none := by
  have howner : healOwner s p = some p := if_pos h
  unfold abandonHeal
  rw [howner]
  dsimp only
  rw [port_sendMgmt]
  exact port_leaveAll (P := fun x => x.echo = none) (fun u i => (heal_leaveHeal u i).2) (.inl (healPorts_self s p))

/-- A heal whose segment is measured names its cycle, or is abandoned; its echo is over. -/
theorem healMeasured_ends {p : Nat} (hp : p < 128) {ch : ChainMap} {west : Bool} {k : Word}
    (hchain : portChain s p = some (ch, west)) (h : (port s p).heal = some (.echo k)) (d : Nat) :
    (port (healMeasured p d s) p).echo = none ∧
      ((port (healMeasured p d s) p).heal = none ∨ (port (healMeasured p d s) p).heal = some (.stop (cycleNo s + 8))) := by
  unfold healMeasured
  rw [hchain, h]
  dsimp only
  split
  · let v := setPort p { port s p with heal := some (.stop (cycleNo s + 8)), echo := none } s
    have hv : (port v p).echo = none ∧ (port v p).heal = some (.stop (cycleNo s + 8)) := by
      rw [port_setPort, if_pos rfl]
      exact ⟨rfl, rfl⟩
    have hserve {w : State} (hw : Serves healsScope v w) :
        (port w p).echo = none ∧ ((port w p).heal = none ∨ (port w p).heal = some (.stop (cycleNo s + 8))) := by
      rcases (hw.ports p).heal with ⟨hheal, hecho⟩ | ⟨hk, -⟩
      · exact ⟨hecho.trans hv.1, .inr (hheal.trans hv.2)⟩
      · exact absurd trivial hk
    have happlied : Serves healsScope v (sendMgmt (.healMeasured (Fin.ofNat 128 p) d (cycleNo s + 8)) (applyDelay p d
        (stopFolds p (fget s (Fld.RING_PSTAT_FOLD_POS p)) ch.n (cycleNo s + 8) v))) :=
      (((Serves.refl _ v).stopFolds hp).applyDelay hp healsScope_freeTables).sendMgmt
    split
    · exact hserve happlied
    · exact hserve (happlied.clearCond (by decide) (chainInst_lt ch))
  · have hstep (v : State) : FaultStep v (condIs true 19 ch.num 0x32 v) := .condIs (.refl v) (by decide)
    rw [port_faultStep (hstep _), port_setPort, if_pos rfl]
    exact ⟨echo_abandonHeal (by rw [h]; rfl), .inl (heal_abandonHeal p s)⟩

/-! # Echoes (R86, R121) -/

theorem echoLaunch_idle {p : Nat} (h : echoCycle (port s p).heal = none ∨ portChain s p = none) : echoLaunch p s = s := by
  unfold echoLaunch
  split
  next hchain hk =>
    rcases h with h | h
    · rw [h] at hk
      cases hk
    · rw [h] at hchain
      cases hchain
  · rfl

section
variable {p : Nat} {ch : ChainMap} {west : Bool} {k : Word} (hchain : portChain s p = some (ch, west))
  (hk : echoCycle (port s p).heal = some k)
include hchain hk

theorem echoLaunch_eq : echoLaunch p s =
    if fget s (Fld.RING_PSTAT_FOLD_POS p) ≠ 0xFF ∨ (port s p).echo.isSome ∨ (cycleNo s).toNat < k.toNat then s
    else setPort p { port s p with
      echo := some (k.toNat % 65536),
      tx := (headerFor s west Frame.echo 0 (BitVec.ofNat 32 (k.toNat % 65536))).bytes ++ [0, 0, 0, 0] } s := by
  unfold echoLaunch
  rw [hchain, hk]
  rfl

theorem echoLaunch_launches (hfold : fget s (Fld.RING_PSTAT_FOLD_POS p) = 0xFF) (hecho : (port s p).echo = none)
    (hdue : k.toNat ≤ (cycleNo s).toNat) :
    onlyPort p { port s p with
      echo := some (k.toNat % 65536),
      tx := (headerFor s west Frame.echo 0 (BitVec.ofNat 32 (k.toNat % 65536))).bytes ++ [0, 0, 0, 0] } s
      (echoLaunch p s) := by
  rw [echoLaunch_eq hchain hk, if_neg]
  · exact onlyPort_setPort ..
  · rintro (h | h | h)
    · exact h hfold
    · rw [hecho] at h
      cases h
    · exact absurd h (Nat.not_lt.mpr hdue)

theorem echoLaunch_waits (h : fget s (Fld.RING_PSTAT_FOLD_POS p) ≠ 0xFF ∨ (port s p).echo.isSome = true ∨
    (cycleNo s).toNat < k.toNat) : echoLaunch p s = s := (echoLaunch_eq hchain hk).trans (if_pos h)
end

theorem echoReceive_dark {p : Nat} {frame : List LinkChar} {n : Nat} (h : portLit s p = false) :
    echoReceive p frame n s = s := if_pos (by rw [h]; rfl)

section
variable {p : Fin 128} {frame : List LinkChar} {n : Nat} (hlit : portLit s p = true) (harmed : armed s 5 p = false)
include hlit harmed

theorem echoReceive_bad (h : ¬(hcrcOk (linkBytes frame) = true ∧ fcrcOk (linkBytes frame) 0 = true)) :
    echoReceive p frame n s = frameFailed p (violationsCounted (linkViolations frame) p s) := by
  unfold echoReceive
  rw [if_neg (by simp [hlit]), bareFrame_of_bad harmed h]

variable (hgood : hcrcOk (linkBytes frame) = true ∧ fcrcOk (linkBytes frame) 0 = true) {h : Header}
  (hhead : readHeader (linkBytes frame) = some h)
include hgood hhead

theorem echoReceive_other (htype : h.type ≠ 3) :
    echoReceive p frame n s = violationsCounted (linkViolations frame) p s := by
  unfold echoReceive
  rw [if_neg (by simp [hlit]), bareFrame_of_good harmed hgood, hhead]
  exact if_pos htype

theorem echoReceive_foreign (htype : h.type = 3) (hecho : (port s p).echo ≠ some (h.range.toNat % 65536)) :
    echoReceive p frame n s =
      setPort p { port s p with tx := Header.bytes { h with tr := min 0xFFFF (h.tr + n) } ++ [0, 0, 0, 0] }
        (violationsCounted (linkViolations frame) p s) := by
  unfold echoReceive
  rw [if_neg (by simp [hlit]), bareFrame_of_good harmed hgood, hhead]
  exact (if_neg fun hne => hne htype).trans (if_neg hecho)

section
variable (htype : h.type = 3) (hecho : (port s p).echo = some (h.range.toNat % 65536))
include htype hecho

theorem echoReceive_measures {k : Word} (hheal : (port s p).heal = some (.echo k)) :
    echoReceive p frame n s = healMeasured p ((n - h.tr) / 2) (violationsCounted (linkViolations frame) p s) := by
  unfold echoReceive
  rw [if_neg (by simp [hlit]), bareFrame_of_good harmed hgood, hhead]
  refine (if_neg fun hne => hne htype).trans ((if_pos hecho).trans ?_)
  dsimp only
  rw [show port (violationsCounted (linkViolations frame) p s) p = port s p from rfl, hheal]

theorem echoReceive_tells (hheal : ∀ k, (port s p).heal ≠ some (.echo k)) :
    echoReceive p frame n s = sendMgmt (.lastSegment (Fin.ofNat 128 p) ((n - h.tr) / 2))
      (setPort p { port s p with echo := none } (violationsCounted (linkViolations frame) p s)) := by
  unfold echoReceive
  rw [if_neg (by simp [hlit]), bareFrame_of_good harmed hgood, hhead]
  refine (if_neg fun hne => hne htype).trans ((if_pos hecho).trans ?_)
  dsimp only
  split
  next k hk => exact absurd hk (hheal k)
  · rfl

theorem echoReceive_ends {ch : ChainMap} {west : Bool} {k : Word} (hchain : portChain s p = some (ch, west))
    (hheal : (port s p).heal = some (.echo k)) :
    (port (echoReceive p frame n s) p).echo = none ∧
      ((port (echoReceive p frame n s) p).heal = none ∨
        (port (echoReceive p frame n s) p).heal = some (.stop (cycleNo s + 8))) := by
  rw [echoReceive_measures hlit harmed hgood hhead htype hecho hheal]
  have hcycle : cycleNo (violationsCounted (linkViolations frame) p s) = cycleNo s := by
    refine regGet_regSet_other _ _ ?_
    simp only [Reg.ESC_CYCLE, Reg.RING_PCODE_CNT]
    omega
  rw [← hcycle]
  exact healMeasured_ends (s := violationsCounted (linkViolations frame) p s) p.isLt hchain hheal _
end
end

/-! # Service requests end (R129) -/

/-- The requests that wait at a port. -/
def requestCount (x : Port) : Nat := x.queue.length + x.todo.length

theorem requestCount_pumpQueue (p : Nat) (s : State) : requestCount (port (pumpQueue p s) p) = requestCount (port s p) := by
  rw [port_pumpQueue, if_pos rfl]
  simp only [requestCount, roomFor, List.length_append, List.length_map, List.length_take, List.length_drop]
  omega

theorem requestCount_erased {p : Nat} {r : SvcReq} (h : r ∈ (port s p).queue) :
    requestCount (port (pumpQueue p (setQueue p ((port s p).queue.erase r) s)) p) + 1 = requestCount (port s p) := by
  have hpos : 0 < (port s p).queue.length := List.length_pos_of_mem h
  rw [requestCount_pumpQueue, port_setQueue, if_pos rfl]
  simp only [requestCount, List.length_erase_of_mem h]
  omega

theorem port_pumped_other {p q : Nat} (hq : q ≠ p) (l : List SvcReq) (s : State) :
    port (pumpQueue p (setQueue p l s)) q = port s q := by
  rw [port_pumpQueue, if_neg hq, port_setQueue, if_neg hq]

/-- The request is one of the mailbox engine, or one that nothing follows from. -/
def plainRequest (r : SvcReq) : Prop := r.owner = .params ∨ ∃ a b d e, r.owner = .mailbox a b d e

theorem port_svcEvent (p : Nat) (r : SvcReq) (st : Status) (payload : List Byte) (s : State) (q : Nat) :
    port (svcEvent p r st payload s) q = port s q := by
  unfold svcEvent
  split
  next ptr _ =>
    extract_lets v
    refine (port_faultStep (.post (.refl v) (show srcClass v 2 false < 4 from srcClass_lt ..)) q).trans ?_
    rw [show v = putBytes _ payload s from rfl, putBytes_frame]
    rfl
  · rfl

/-- A request is out of its queue; one that came late, and was answered, is counted. -/
def requestTaken (p : Nat) (r : SvcReq) (st : Status) (s : State) : State :=
  if decide (0 < svcWait r) && st != .timeout then
    bump Reg.RING_SVC_DLY_CNT (pumpQueue p (setQueue p ((port s p).queue.erase r) s))
  else pumpQueue p (setQueue p ((port s p).queue.erase r) s)

theorem port_requestTaken (p : Nat) (r : SvcReq) (st : Status) (s : State) (q : Nat) :
    port (requestTaken p r st s) q = port (pumpQueue p (setQueue p ((port s p).queue.erase r) s)) q := by
  unfold requestTaken
  generalize pumpQueue p (setQueue p ((port s p).queue.erase r) s) = v
  split
  · rfl
  · rfl

theorem completeSvc_params {p : Nat} {r : SvcReq} {st : Status} {payload : List Byte} (h : r.owner = .params) :
    completeSvc p r st payload s = requestTaken p r st s := by
  unfold completeSvc
  rw [h]
  rfl

theorem completeSvc_mailbox {p : Nat} {r : SvcReq} {st : Status} {payload : List Byte} {a b d e : Nat}
    (h : r.owner = .mailbox a b d e) :
    completeSvc p r st payload s =
      svcEvent p r (if decide (0 < svcWait r) && st == .ok then .delayed else st) payload (requestTaken p r st s) := by
  unfold completeSvc
  rw [h]
  rfl

theorem port_completeSvc {p : Nat} {r : SvcReq} (h : plainRequest r) (st : Status) (payload : List Byte) (q : Nat) :
    port (completeSvc p r st payload s) q = port (pumpQueue p (setQueue p ((port s p).queue.erase r) s)) q := by
  rcases h with h | ⟨a, b, d, e, h⟩
  · rw [completeSvc_params h, port_requestTaken]
  · rw [completeSvc_mailbox h, port_svcEvent, port_requestTaken]

/-- A completed request is out of its queue, and only that port's requests differ. -/
theorem completeSvc_plain {p : Nat} {r : SvcReq} (hr : r ∈ (port s p).queue) (hplain : plainRequest r) (st : Status)
    (payload : List Byte) :
    requestCount (port (completeSvc p r st payload s) p) + 1 = requestCount (port s p) ∧
      ∀ q, q ≠ p → port (completeSvc p r st payload s) q = port s q := by
  refine ⟨?_, fun q hq => ?_⟩
  · rw [port_completeSvc hplain]
    exact requestCount_erased hr
  · rw [port_completeSvc hplain]
    exact port_pumped_other hq ..

/-- A request that timed out leaves the timeout counter alone. -/
theorem regGet_completeSvc_timeout {p : Nat} (hp : p < 128) {r : SvcReq} (h : plainRequest r) (s : State) :
    regGet (completeSvc p r .timeout [] s) Reg.RING_SVC_TMO_CNT = regGet s Reg.RING_SVC_TMO_CNT := by
  have hqueue (l : List SvcReq) (v : State) : regGet (setQueue p l v) Reg.RING_SVC_TMO_CNT =
      regGet v Reg.RING_SVC_TMO_CNT := by
    refine regGet_fset_other _ _ ?_
    simp only [Fld.RING_PSVC_DEPTH, Reg.RING_PSVC, Reg.RING_SVC_TMO_CNT]
    omega
  have htaken : regGet (requestTaken p r .timeout s) Reg.RING_SVC_TMO_CNT = regGet s Reg.RING_SVC_TMO_CNT := by
    unfold requestTaken
    rw [if_neg (by simp)]
    exact (hqueue ..).trans (hqueue ..)
  rcases h with h | ⟨a, b, d, e, h⟩
  · rw [completeSvc_params h, htaken]
  · rw [completeSvc_mailbox h]
    unfold svcEvent
    rw [h]
    refine (FaultStep.otherBlocks (.post (.refl _) (show srcClass _ 2 false < 4 from srcClass_lt ..)) (by decide)).trans
      (Eq.trans ?_ htaken)
    exact putBytes_regsBut _ _ _ _ (by decide)

/-! ## Responses and timeouts -/

theorem svcTimeout_eq (p pos : Nat) (s : State) {r : SvcReq}
    (h : (port s p).queue.find? (fun q => q.pos == pos && q.first.isSome && !q.due) = some r) :
    svcTimeout p pos s =
      if (cycleNo s - r.last).toNat < fget s Fld.RING_SVC_CTRL_TMO then s
      else if r.tries < fget s Fld.RING_SVC_CTRL_RETRY then
        setQueue p ((port s p).queue.map (fun q => if q = r then { r with tries := r.tries + 1, due := true } else q)) s
      else completeSvc p r .timeout [] (bump Reg.RING_SVC_TMO_CNT s) := by
  unfold svcTimeout
  rw [h]

end Sys2Proof.Machine
end

section
namespace Sys2Proof.Machine

variable {s t u : State}

/-! # Requests that are refused by their own rules (R457, R458) -/

/-- An admitted request that its body refuses is answered so. -/
theorem hmpRun_of_refused {r : Req} {k : CmdRule} {x : Session} {st : Status} {p : List Byte}
    {body : Session → State → State × Reply} (h : admitted r k x s) (hst : st ≠ .ok)
    (hbody : body x (acceptSeq r.session r.seq s) = (t, some (st, p))) :
    hmpRun r k body s = hmpRefuse r k.cmd st t := by
  have hrefusal := CmdRule.refusal_of_admitted h
  obtain ⟨hpow, hfind, htag, hseq, -⟩ := h
  have hne : r.seq ≠ x.lastSeq := fun he => by
    rw [he] at hseq
    exact lt_irrefl _ hseq
  unfold hmpRun
  rw [if_neg (by simp [hpow]), hfind]
  simp only [htag, Bool.not_true, Bool.false_eq_true, if_false, if_neg (Nat.not_lt.mpr hseq.le), if_neg hne, hrefusal,
    hbody]

theorem hmpRefuse_answers (r : Req) (cmd : Nat) (st : Status) (s : State) : answers (hmpRefuse r cmd st s) r st [] := by
  unfold hmpRefuse
  exact hmpAnswer_answers ..

theorem logRefusal_comm (cmd block : Nat) (st : Status) (origin : Nat) (session : Word) (s : State) :
    (logRefusal cmd block st origin session s).sys.comm = s.sys.comm := by
  simp only [logRefusal, bump_sys]

theorem hmpAnswer_comm (session seq : Word) (st : Status) (p : List Byte) (s : State) :
    (hmpAnswer session seq st p s).sys.comm = s.sys.comm := rfl

theorem hmpRefuse_comm (r : Req) (cmd : Nat) (st : Status) (s : State) :
    (hmpRefuse r cmd st s).sys.comm = s.sys.comm := by
  unfold hmpRefuse
  rw [hmpAnswer_comm, logRefusal_comm]

/-! ## CHAIN_HEAL (R86) -/

section
variable {r : Req} {x : Session} {p : Fin 128}
  (hadm : admitted r ⟨0x0042, .engineer, false, true, [.commission, .charge, .ready, .run]⟩ x s)
include hadm

theorem chainHeal_unmapped (h : portChain s p = none) :
    answers (chainHeal r p s) r .badParam [] ∧ (chainHeal r p s).ports = s.ports := by
  have hrun : chainHeal r p s = hmpRefuse r 0x0042 .badParam (acceptSeq r.session r.seq s) :=
    hmpRun_of_refused hadm (by decide) (if_pos (.inr (Option.isNone_iff_eq_none.mpr h)))
  rw [hrun]
  exact ⟨hmpRefuse_answers .., rfl⟩

variable (hchain : portChain s p ≠ none)
include hchain

omit hadm in
theorem chainHeal_mapped : ¬(128 ≤ p.val ∨ (portChain (acceptSeq r.session r.seq s) p).isNone = true) :=
  not_or.mpr ⟨Nat.not_le.mpr p.isLt, fun h => hchain (Option.isNone_iff_eq_none.mp h)⟩

theorem chainHeal_early (h : mayHeal s p = false ∨ (port s p).healReady = false) :
    answers (chainHeal r p s) r .checkFail [] ∧ (chainHeal r p s).ports = s.ports := by
  have hwait : (!mayHeal (acceptSeq r.session r.seq s) p || !(port (acceptSeq r.session r.seq s) p).healReady) = true := by
    change (!mayHeal s p || !(port s p).healReady) = true
    rcases h with h | h
    · simp [h]
    · simp [h]
  have hrun : chainHeal r p s = hmpRefuse r 0x0042 .checkFail (acceptSeq r.session r.seq s) :=
    hmpRun_of_refused hadm (by decide) ((if_neg (chainHeal_mapped hchain)).trans (if_pos hwait))
  rw [hrun]
  exact ⟨hmpRefuse_answers .., rfl⟩

theorem chainHeal_starts (hmay : mayHeal s p = true) (hready : (port s p).healReady = true) :
    chainHeal r p s = hmpAnswer r.session r.seq .ok [] (startHeal p (acceptSeq r.session r.seq s)) := by
  have hdue : ¬((!mayHeal (acceptSeq r.session r.seq s) p || !(port (acceptSeq r.session r.seq s) p).healReady) = true) := by
    change ¬((!mayHeal s p || !(port s p).healReady) = true)
    simp [hmay, hready]
  exact hmpRun_of_ok hadm ((if_neg (chainHeal_mapped hchain)).trans (if_neg hdue))
end

theorem portState_of_mayHeal {p : Nat} (h : mayHeal s p = true) : portState s p = PState.folded := by
  unfold mayHeal at h
  simp only [Bool.and_eq_true, beq_iff_eq] at h
  obtain ⟨⟨-, hfold⟩, -⟩ := h
  exact hfold

/-! ## CELL_ACCEPT (R79) -/

/-- The entry that CELL_ACCEPT writes in the command log. -/
def acceptEntry (m : CellMap) (b : List Byte) (session : Word) (s : State) : CmdLogEntry :=
  { time := nowSplit s, cmd := 0x0041, block := 0xFFFF, status := .ok, mode := s.sys.mode, role := s.sys.role,
    origin := 0, session := session, chain := m.chain, pos := m.posE, idCrc := crc32 b }

/-- An accepted identity, with its session in the command log. -/
def identAccepted (m : CellMap) (b : List Byte) (session : Word) (s : State) : State :=
  let s := acceptIdent m b s
  let put := fun (e : CmdLogEntry) => if e.cmd = 0x0041 ∧ e.status = .ok ∧ e.time = nowSplit s then { e with session := session } else e
  { s with sys := { s.sys with cmdLog := s.sys.cmdLog.map put } }

theorem cmdLog_acceptIdent (m : CellMap) (b : List Byte) (s : State) :
    (acceptIdent m b s).sys.cmdLog = ringPush Config.cmdLogCap (acceptEntry m b 0 s) s.sys.cmdLog := by
  simp only [acceptIdent, acceptEntry]

theorem identAccepted_logs (m : CellMap) (b : List Byte) (session : Word) (s : State) :
    acceptEntry m b session s ∈ (identAccepted m b session s).sys.cmdLog := by
  have hring : acceptEntry m b 0 s ∈ ringPush Config.cmdLogCap (acceptEntry m b 0 s) s.sys.cmdLog :=
    mem_ringPush_self (by decide) ..
  have hlog : acceptEntry m b 0 s ∈ (acceptIdent m b s).sys.cmdLog := by
    rw [cmdLog_acceptIdent]
    exact hring
  unfold identAccepted
  extract_lets v put
  have hput : put (acceptEntry m b 0 s) = acceptEntry m b session s := if_pos ⟨rfl, rfl, rfl⟩
  have hmem : put (acceptEntry m b 0 s) ∈ v.sys.cmdLog.map put := List.mem_map_of_mem hlog
  clear_value put v
  rw [hput] at hmem
  exact hmem

section
variable {r : Req} {x : Session} {chain posE : Nat}
  (hadm : admitted r ⟨0x0041, .engineer, false, true, [.commission, .charge, .ready]⟩ x s)
include hadm

theorem cellAccept_unmapped (h : chainOf s chain = none ∨ mapAt s chain posE = none) :
    cellAccept r chain posE s = hmpRefuse r 0x0041 .badParam (acceptSeq r.session r.seq s) := by
  refine hmpRun_of_refused (p := []) hadm (by decide) ?_
  change (match chainOf s chain, mapAt s chain posE with | some ch, some m => _ | _, _ => _) = _
  split
  next hch hm =>
    rcases h with h | h
    · rw [h] at hch
      cases hch
    · rw [h] at hm
      cases hm
  · rfl

variable {ch : ChainMap} {m : CellMap} (hch : chainOf s chain = some ch) (hm : mapAt s chain posE = some m)
include hch hm

theorem cellAccept_refused (h : outcomeOf s m ≠ Outcome.foreign ∨ agreedIdent (viewsOf s ch posE) = none) :
    cellAccept r chain posE s = hmpRefuse r 0x0041 .checkFail (acceptSeq r.session r.seq s) := by
  refine hmpRun_of_refused (p := []) hadm (by decide) ?_
  rw [show chainOf (acceptSeq r.session r.seq s) chain = some ch from hch,
    show mapAt (acceptSeq r.session r.seq s) chain posE = some m from hm]
  by_cases hforeign : outcomeOf s m = Outcome.foreign
  · refine (if_neg fun hne => hne hforeign).trans ?_
    rw [show agreedIdent (viewsOf (acceptSeq r.session r.seq s) ch posE) = none from
      h.resolve_left fun hne => hne hforeign]
  · exact if_pos hforeign

theorem cellAccept_accepts {b : List Byte} (hforeign : outcomeOf s m = Outcome.foreign)
    (hident : agreedIdent (viewsOf s ch posE) = some b) :
    cellAccept r chain posE s =
      hmpAnswer r.session r.seq .ok [] (identAccepted m b x.num (acceptSeq r.session r.seq s)) := by
  refine hmpRun_of_ok hadm ?_
  rw [show chainOf (acceptSeq r.session r.seq s) chain = some ch from hch,
    show mapAt (acceptSeq r.session r.seq s) chain posE = some m from hm]
  refine (if_neg fun hne => hne hforeign).trans ?_
  rw [show agreedIdent (viewsOf (acceptSeq r.session r.seq s) ch posE) = some b from hident]
  rfl
end

end Sys2Proof.Machine
end

section
namespace Sys2Proof.Machine

variable {s t u : State}

/-! # The hold of a heal passes (R86) -/

section
variable {p : Nat} (hmay : mayHeal s p = true)
include hmay

theorem healHoldExpiry_starts (hauto : fbit s Fld.RING_CTRL_AUTO_HEAL = true) :
    healHoldExpiry p s = startHeal p (setPort p { port s p with healReady := true } s) := by
  unfold healHoldExpiry
  rw [if_neg (by simp [hmay])]
  exact if_pos hauto

theorem healHoldExpiry_notes (h : fbit s Fld.RING_CTRL_AUTO_HEAL = false ∨ portChain s p = none) :
    healHoldExpiry p s = setPort p { port s p with healReady := true } s := by
  unfold healHoldExpiry
  rw [if_neg (by simp [hmay])]
  by_cases hauto : fbit s Fld.RING_CTRL_AUTO_HEAL = true
  · have hnone : portChain s p = none := h.resolve_left (by simp [hauto])
    refine (if_pos hauto).trans ?_
    unfold startHeal
    rw [show portChain (setPort p { port s p with healReady := true } s) p = none from hnone]
  · exact if_neg hauto
end

theorem healHoldExpiry_idle {p : Nat} (h : mayHeal s p = false) : healHoldExpiry p s = s := if_pos (by rw [h]; rfl)

/-! # Responses and timeouts (R129) -/

/-- The request of a port that a response answers. -/
def answered (x : Port) (g : Segment) : Option SvcReq :=
  x.queue.find? (fun r => r.pos == g.pos && r.seq == g.seq && r.op == g.op && r.first.isSome)

/-- The request of a position that waits for a response. -/
def unanswered (x : Port) (pos : Nat) : Option SvcReq :=
  x.queue.find? (fun r => r.pos == pos && r.first.isSome && !r.due)

section
variable {p : Nat} {seg : List Byte} {g : Segment} (hseg : segmentOf seg 0 0 = some g)
include hseg

theorem svcResponse_idle
    (h : answered (port s p) g = none ∨ g.kind ≠ 2 ∨ statusOf (g.payload.headD 0).toNat = .busy) :
    svcResponse p seg s = s := by
  unfold svcResponse
  rw [hseg]
  dsimp only
  split
  · rfl
  next r hr =>
    refine if_pos (h.resolve_left fun hnone => ?_)
    unfold answered at hnone
    rw [hr] at hnone
    cases hnone

theorem svcResponse_completes {r : SvcReq} (hr : answered (port s p) g = some r) (hkind : g.kind = 2)
    (hbusy : statusOf (g.payload.headD 0).toNat ≠ .busy) :
    svcResponse p seg s = completeSvc p r (statusOf (g.payload.headD 0).toNat) (g.payload.drop 1) s := by
  unfold answered at hr
  unfold svcResponse
  rw [hseg]
  dsimp only
  rw [hr]
  exact if_neg (not_or.mpr ⟨fun hne => hne hkind, hbusy⟩)
end

theorem svcResponse_none {p : Nat} {seg : List Byte} (h : segmentOf seg 0 0 = none) : svcResponse p seg s = s := by
  unfold svcResponse
  rw [h]

theorem svcTimeout_none {p pos : Nat} (h : unanswered (port s p) pos = none) : svcTimeout p pos s = s := by
  unfold unanswered at h
  unfold svcTimeout
  rw [h]

/-- Another try: the request is due again, and its depth register alone is written. -/
theorem setQueue_frame (p : Nat) (q : List SvcReq) (s : State) :
    setQueue p q s = { s with ports := (setQueue p q s).ports, regs := (setQueue p q s).regs } ∧
      regsBut [Reg.RING_PSVC p] s (setQueue p q s) ∧ (port (setQueue p q s) p).queue = q := by
  refine ⟨rfl, fun a ha => regGet_fset_other _ _ fun he => ha ?_, ?_⟩
  · exact he ▸ List.mem_singleton_self _
  · rw [port_setQueue, if_pos rfl]

/-- The last try has timed out: the request is over, and counted. -/
theorem svcTimeout_over {p : Nat} (hp : p < 128) {r : SvcReq} (hr : r ∈ (port s p).queue) (hplain : plainRequest r) :
    let t := completeSvc p r .timeout [] (bump Reg.RING_SVC_TMO_CNT s)
    requestCount (port t p) + 1 = requestCount (port s p) ∧ countedUp Reg.RING_SVC_TMO_CNT s t := by
  refine ⟨(completeSvc_plain (s := bump Reg.RING_SVC_TMO_CNT s) hr hplain .timeout []).1, ?_⟩
  unfold countedUp
  rw [regGet_completeSvc_timeout hp hplain]
  exact countedUp_bump ..

/-! # An echo of no heal here (R121) -/

theorem portChain_of_portLit {p : Nat} (h : portLit s p = true) : ∃ ch west, portChain s p = some (ch, west) := by
  obtain ⟨hsome, -⟩ := Bool.and_eq_true_iff.mp h
  obtain ⟨⟨ch, west⟩, hchain⟩ := Option.isSome_iff_exists.mp hsome
  exact ⟨ch, west, hchain⟩

/-- The echo of port `p` is over, and the twin is told `m`. -/
theorem echoTold_does (p : Fin 128) (n : Nat) (m : MgmtMsg) (s : State) :
    let t := sendMgmt m (setPort p { port s p with echo := none } (violationsCounted n p s))
    port t p = { port s p with echo := none } ∧ (∀ q, q ≠ p.val → port t q = port s q) ∧
      t = { s with ports := t.ports, regs := t.regs, btn := { s.btn with mgmtOut := t.btn.mgmtOut } } ∧
      regsBut [Reg.RING_PCODE_CNT p] s t := by
  intro t
  refine ⟨?_, fun q hq => ?_, ?_, fun a ha => ?_⟩
  · rw [port_sendMgmt, port_setPort, if_pos rfl]
  · rw [port_sendMgmt, port_setPort, if_neg hq]
    rfl
  · unfold t sendMgmt
    split <;> rfl
  · exact (regGet_sendMgmt ..).trans ((onlyRegs_violationsCounted n p s).2 a ha)

/-! # The obligation -/

theorem hmpAnswer_cmdLog (session seq : Word) (st : Status) (p : List Byte) (s : State) :
    (hmpAnswer session seq st p s).sys.cmdLog = s.sys.cmdLog := rfl

/-- The clauses of CELL_ACCEPT that hold once its identity is agreed (R79). -/
theorem cellAccept_binds {r : Req} {x : Session} {ch : ChainMap} {m : CellMap} {chain posE : Nat} {b : List Byte}
    (hadm : admitted r ⟨0x0041, .engineer, false, true, [.commission, .charge, .ready]⟩ x s)
    (hch : chainOf s chain = some ch) (hm : mapAt s chain posE = some m) (hforeign : outcomeOf s m = Outcome.foreign)
    (hident : agreedIdent (viewsOf s ch posE) = some b) :
    let t := cellAccept r chain posE s
    answers t r .ok [] ∧ t = { s with sys := t.sys } ∧
      t.sys.accepts = s.sys.accepts ++ [(s.time.cnt, m.chain, m.posE)] ∧
      t.sys.comm.cells = s.sys.comm.cells.map (fun k => if k = m then { k with ident := identOf b } else k) ∧
      ∃ e ∈ t.sys.cmdLog, e.cmd = 0x0041 ∧ e.chain = m.chain ∧ e.pos = m.posE ∧ e.idCrc = crc32 b ∧ e.session = x.num := by
  intro t
  have ht : t = hmpAnswer r.session r.seq .ok [] (identAccepted m b x.num (acceptSeq r.session r.seq s)) :=
    cellAccept_accepts hadm hch hm hforeign hident
  rw [ht]
  refine ⟨hmpAnswer_answers .., rfl, rfl, rfl, ?_⟩
  rw [hmpAnswer_cmdLog]
  exact ⟨_, identAccepted_logs m b x.num (acceptSeq r.session r.seq s), rfl, rfl, rfl, rfl, rfl⟩

/-- Settles O45: a heal's state register and step stand through what its start asks of the cells, its ports leave their
folds one by one, and a request that ends is out of its port's queue. -/
theorem healingAndServiceRequestsEnd : Obligations.HealingAndServiceRequestsEnd := by
  intro s p r x frame seg n pos y c bytes good heals waits plain
  refine ⟨fun hmay hauto hchain => ⟨_, rfl, ?_⟩, fun hmay h => ⟨_, rfl, ?_⟩,
    fun hmay => congrArg Host.Outcome.next (healHoldExpiry_idle hmay), fun hadm => ⟨fun hnone => ⟨_, rfl,
    chainHeal_unmapped hadm hnone⟩, fun hchain hearly => ⟨_, rfl, chainHeal_early hadm hchain hearly⟩,
    fun hchain hmay hready => ⟨_, rfl, ?_⟩⟩, fun ch west k hchain hstop => ⟨fun hwait => congrArg Host.Outcome.next
    (healComplete_waits hstop hwait), fun hdue => ⟨_, rfl, fun q hq => ?_⟩⟩,
    fun h => congrArg Host.Outcome.next (healComplete_idle h), fun ch west k hchain hk => ⟨fun hfold hecho hdue =>
    ⟨_, rfl, echoLaunch_launches hchain hk hfold hecho hdue⟩, fun h => congrArg Host.Outcome.next
    (echoLaunch_waits hchain hk h)⟩, fun h => congrArg Host.Outcome.next (echoLaunch_idle h),
    fun h => congrArg Host.Outcome.next (echoReceive_dark h), fun hlit harmed => ⟨fun hbad => ⟨_, rfl, ?_⟩,
    fun h hgood hhead => ⟨fun htype => ⟨_, rfl, ?_⟩, fun htype hecho => ⟨_, rfl, ?_⟩, fun htype hecho => ⟨_, rfl, ?_⟩⟩⟩,
    ?_, ?_, fun chain posE hadm => ⟨fun h => ⟨_, rfl, ?_⟩, fun ch m hch hm => ⟨fun h => ⟨_, rfl, ?_⟩,
    fun b hforeign hident => ⟨_, rfl, cellAccept_binds hadm hch hm hforeign hident⟩⟩⟩⟩
  · intro ch west hch
    rw [healHoldExpiry_starts hmay hauto]
    have hfold : portState s p = PState.folded := portState_of_mayHeal hmay
    exact startHeal_heals (s := setPort p { port s p with healReady := true } s) p.isLt hch hfold
  · rw [healHoldExpiry_notes hmay h]
    exact onlyPort_setPort ..
  · rw [chainHeal_starts hadm hchain hmay hready]
    have hfold : portState s p = PState.folded := portState_of_mayHeal hmay
    exact ⟨hmpAnswer_answers .., fun ch west hch =>
      startHeal_heals (s := acceptSeq r.session r.seq s) p.isLt hch hfold⟩
  · obtain ⟨hstate, hheal, hraised, hreached⟩ := healComplete_completes p.isLt hchain hstop hdue q hq
    exact ⟨hstate, hheal, hraised, hreached⟩
  · rw [echoReceive_bad hlit harmed hbad]
    exact (frameFailed_does p.isLt _ s).1
  · rw [echoReceive_other hlit harmed hgood hhead htype]
    exact onlyRegs_violationsCounted _ _ s
  · rw [echoReceive_foreign hlit harmed hgood hhead htype hecho]
    exact ⟨onlyPort_setPort .., (onlyRegs_violationsCounted _ _ s).2⟩
  · by_cases hstep : ∃ k, (port s p).heal = some (.echo k)
    · obtain ⟨k, hk⟩ := hstep
      obtain ⟨ch, west, hchain⟩ := portChain_of_portLit hlit
      obtain ⟨hnone, hends⟩ := echoReceive_ends (n := n) hlit harmed hgood hhead htype hecho hchain hk
      exact ⟨hnone, fun _ => hends, fun hno => absurd hk (hno k)⟩
    · have hno : ∀ k, (port s p).heal ≠ some (.echo k) := fun k hk => hstep ⟨k, hk⟩
      rw [echoReceive_tells hlit harmed hgood hhead htype hecho hno]
      obtain ⟨hport, hother, hframe, hregs⟩ := echoTold_does p (linkViolations frame)
        (.lastSegment (Fin.ofNat 128 p) ((n - h.tr) / 2)) s
      exact ⟨by rw [hport], fun hk => absurd hk hstep, fun _ => ⟨hport, hother, hframe, hregs⟩⟩
  · refine ⟨fun hnone => congrArg Host.Outcome.next (svcResponse_none hnone), fun v hv => ⟨fun h =>
      congrArg Host.Outcome.next (svcResponse_idle hv h), fun q hq hkind hbusy hplain => ⟨_, rfl, ?_⟩⟩⟩
    rw [svcResponse_completes hv hq hkind hbusy]
    exact completeSvc_plain (List.mem_of_find?_eq_some hq) hplain ..
  · refine ⟨fun hnone => congrArg Host.Outcome.next (svcTimeout_none hnone), fun q hq => ⟨fun hearly =>
      congrArg Host.Outcome.next ((svcTimeout_eq p pos s hq).trans (if_pos hearly)), fun hlate htry => ⟨_, rfl, ?_⟩,
      fun hlate htries hplain => ⟨_, rfl, ?_⟩⟩⟩
    · rw [svcTimeout_eq p pos s hq, if_neg (Nat.not_lt.mpr hlate), if_pos htry]
      exact setQueue_frame ..
    · rw [svcTimeout_eq p pos s hq, if_neg (Nat.not_lt.mpr hlate), if_neg (Nat.not_lt.mpr htries)]
      exact svcTimeout_over p.isLt (List.mem_of_find?_eq_some hq) hplain
  · rw [cellAccept_unmapped hadm h]
    exact ⟨hmpRefuse_answers .., hmpRefuse_comm ..⟩
  · rw [cellAccept_refused hadm hch hm h]
    exact ⟨hmpRefuse_answers .., hmpRefuse_comm ..⟩

end Sys2Proof.Machine
end

section
namespace Sys2Proof.Machine

variable {s t u v w : State}

/-! # Self-tests (R373, R374, R376) -/

/-- Nothing differs but the baton and its health register. -/
def batonOnly (s t : State) : Prop := t = { s with regs := t.regs, btn := t.btn } ∧ regsBut [Reg.BTN_HEALTH] s t

theorem batonOnly.onlyFault (h : batonOnly s t) (hstep : FaultStep t u) : onlyFault s u := by
  obtain ⟨hframe, hregs⟩ := h
  have hfirst : Sys2Proof.Machine.onlyFault s t := by
    refine ⟨?_, ?_, ?_, fun x _ => ?_⟩
    all_goals rw [hframe]
    all_goals rfl
  exact hfirst.trans (by decide) hregs hstep.frame

/-- Both results are known: the test is decided (R373). -/
def testDecided (s : State) : State := { s with btn := { s.btn with stCmd := false, disRun := 0 } }

theorem settleSelftest_of_unknown (h : s.btn.stOwn = 0 ∨ s.btn.stTwin = 0) : settleSelftest s = s := if_pos h

section
variable (hown : s.btn.stOwn ≠ 0) (htwin : s.btn.stTwin ≠ 0)
include hown htwin

theorem settleSelftest_eq : settleSelftest s =
    if s.btn.stCmd then testDecided s
    else if s.sys.role = .active then
      if s.btn.stOwn = 2 ∧ s.btn.stTwin = 1 then
        (if s.btn.ho.isSome then testDecided s else startHandover Chg.selftest (testDecided s))
      else if s.btn.stOwn = 2 ∧ s.btn.stTwin = 2 then occur (detect 47 0 0x3F 0) (testDecided s)
      else if s.btn.stOwn = 1 ∧ s.btn.stTwin = 1 then occur (detect 46 0 0x3F 0) (testDecided s)
      else testDecided s
    else if s.btn.stOwn = 1 ∧ s.btn.stTwin = 1 then
      occur (detect 46 0 0x3F 0) (fset Fld.BTN_HEALTH_DISAGREE 1 (testDecided s))
    else testDecided s := if_neg (not_or.mpr ⟨hown, htwin⟩)

/-- What a decision does, after it has marked the test as decided and, on a standby, the disagreement. -/
theorem settleSelftest_aftermath : ∃ w, (w = testDecided s ∨ w = fset Fld.BTN_HEALTH_DISAGREE 1 (testDecided s)) ∧
    Aftermath w (settleSelftest s) := by
  have hstay : Aftermath (testDecided s) (testDecided s) := .refl _
  have hoccur (n : Nat) (hn : n < 64) (w : State) : Aftermath w (occur (detect n 0 0x3F 0) w) := .occur (.refl w) hn
  rw [settleSelftest_eq hown htwin]
  split
  · exact ⟨_, .inl rfl, hstay⟩
  · split
    · exact ⟨_, .inl rfl, .ite (.ite hstay hstay.startHandover)
        (.ite (hoccur 47 (by decide) _) (.ite (hoccur 46 (by decide) _) hstay))⟩
    · split
      · exact ⟨_, .inr rfl, hoccur 46 (by decide) _⟩
      · exact ⟨_, .inl rfl, hstay⟩
end

theorem latched_occur {n : Nat} (hn : n < 64) (s : State) : latched (occur (detect n 0 0x3F 0) s) n :=
  (occur_occurred (detect n 0 0x3F 0) s hn).1

/-- What an end of a self-test leaves: only the decision's own parts of the baton differ. -/
structure Settled (s t : State) : Prop where
  fault : ∀ r, batonOnly r s → onlyFault r t
  btn : t.btn = { s.btn with
    ho := t.btn.ho, hoOp := t.btn.hoOp, hoCycle := t.btn.hoCycle, stCmd := t.btn.stCmd, disRun := t.btn.disRun }
  failed : fbit s Fld.BTN_HEALTH_SELFTEST = true → fbit t Fld.BTN_HEALTH_SELFTEST = true
  unknown : s.btn.stOwn = 0 ∨ s.btn.stTwin = 0 → t = s
  known : s.btn.stOwn ≠ 0 → s.btn.stTwin ≠ 0 → t.btn.stCmd = false ∧ t.btn.disRun = 0

theorem settled_settleSelftest (s : State) : Settled s (settleSelftest s) := by
  by_cases hopen : s.btn.stOwn = 0 ∨ s.btn.stTwin = 0
  · rw [settleSelftest_of_unknown hopen]
    exact ⟨fun r hr => hr.onlyFault (.refl s), rfl, id, fun _ => rfl, fun h1 h2 => absurd hopen (not_or.mpr ⟨h1, h2⟩)⟩
  · obtain ⟨hown, htwin⟩ := not_or.mp hopen
    obtain ⟨w, hw, hafter⟩ := settleSelftest_aftermath hown htwin
    have hbtn : w.btn = (testDecided s).btn := by rcases hw with rfl | rfl <;> rfl
    have hframe : w = { s with regs := w.regs, btn := w.btn } := by rcases hw with rfl | rfl <;> rfl
    have hregs : regsBut [Reg.BTN_HEALTH] s w := by
      rcases hw with rfl | rfl
      · exact .of_regs_eq (.refl _ s) rfl
      · exact .fset (.of_regs_eq (.refl _ s) rfl) (List.mem_singleton_self _)
    have hself : fbit w Fld.BTN_HEALTH_SELFTEST = fbit s Fld.BTN_HEALTH_SELFTEST := by
      rcases hw with rfl | rfl
      · rfl
      · unfold fbit
        rw [fget_fset_other Fld.BTN_HEALTH_DISAGREE Fld.BTN_HEALTH_SELFTEST 1 _ (by decide) (by decide) rfl]
        rfl
    refine ⟨fun r hr => ?_, ?_, fun hs => hafter.fbit_selftest (hself.trans hs), fun h => absurd h hopen, fun _ _ => ?_⟩
    · have hrw : batonOnly r w := by
        obtain ⟨hr1, hr2⟩ := hr
        refine ⟨?_, hr2.trans hregs⟩
        rw [hframe, hr1]
      exact hrw.onlyFault hafter.step
    · rw [hafter.btn, hbtn]
      rfl
    · rw [hafter.btn, hbtn]
      exact ⟨rfl, rfl⟩

/-- The table of R373, where HMP did not order the test. -/
theorem settleSelftest_table (hcmd : s.btn.stCmd = false) :
    (s.sys.role = .active → s.btn.stOwn = 2 → s.btn.stTwin = 1 → s.btn.ho = none →
      ∃ h, (settleSelftest s).btn.ho = some h ∧ h.cause = Chg.selftest ∧ (settleSelftest s).btn.hoOp = .offer) ∧
    (s.sys.role = .active → s.btn.stOwn = 2 → s.btn.stTwin = 2 → latched (settleSelftest s) 47) ∧
    (s.btn.stOwn = 1 → s.btn.stTwin = 1 → latched (settleSelftest s) 46 ∧
      (s.sys.role ≠ .active → fbit (settleSelftest s) Fld.BTN_HEALTH_DISAGREE = true)) := by
  have hnot : ¬s.btn.stCmd = true := by simp [hcmd]
  refine ⟨fun hrole hown htwin hho => ?_, fun hrole hown htwin => ?_, fun hown htwin => ?_⟩
  · rw [settleSelftest_eq (s := s) (by simp [hown]) (by simp [htwin]), if_neg hnot, if_pos hrole, if_pos ⟨hown, htwin⟩,
      if_neg (by simp [hho])]
    exact ⟨_, rfl, rfl, rfl⟩
  · rw [settleSelftest_eq (s := s) (by simp [hown]) (by simp [htwin]), if_neg hnot, if_pos hrole, if_neg (by simp [htwin]),
      if_pos ⟨hown, htwin⟩]
    exact latched_occur (by decide) _
  · rw [settleSelftest_eq (s := s) (by simp [hown]) (by simp [htwin]), if_neg hnot]
    split
    next hrole =>
      rw [if_neg (by simp [hown]), if_neg (by simp [hown]), if_pos ⟨hown, htwin⟩]
      exact ⟨latched_occur (by decide) _, fun hne => absurd hrole hne⟩
    · rw [if_pos ⟨hown, htwin⟩]
      have hafter : Aftermath (fset Fld.BTN_HEALTH_DISAGREE 1 (testDecided s))
          (occur (detect 46 0 0x3F 0) (fset Fld.BTN_HEALTH_DISAGREE 1 (testDecided s))) := .occur (.refl _) (by decide)
      refine ⟨latched_occur (by decide) _, fun _ => ?_⟩
      unfold fbit
      rw [hafter.fget_health rfl rfl (by decide)]
      exact fbit_fset_bit Fld.BTN_HEALTH_DISAGREE true _ rfl (by decide)

end Sys2Proof.Machine
end

section
namespace Sys2Proof.Machine

variable {s t u v w : State}

/-! # Self-tests begin (R373) -/

/-- A heartbeat carries a self-test newer than this unit's last. -/
def newerTest (b : Baton) (h : Heartbeat) : Prop := h.stSeq ≠ b.stSeq ∧ (h.stSeq + 65536 - b.stSeq) % 65536 < 32768

theorem btnSelftestStart_idle (h : inPair s = false ∨ s.btn.stRun = true) : btnSelftestStart s = s := by
  refine if_pos ?_
  rcases h with h | h
  · simp [h]
  · simp [h]

section
variable (hpair : inPair s = true) (hrun : s.btn.stRun = false)
include hpair hrun

theorem btnSelftestStart_follows {h : Heartbeat} (hb : s.btn.twin = some h) (hnew : newerTest s.btn h) :
    btnSelftestStart s = startSelftest h.stSeq false s := by
  unfold btnSelftestStart
  rw [hb]
  dsimp only
  unfold newerTest at hnew
  rw [if_neg (by simp [hpair, hrun]), if_pos hnew]

theorem btnSelftestStart_disagrees (hold : ∀ h, s.btn.twin = some h → ¬newerTest s.btn h) :
    btnSelftestStart s =
      if fget s Fld.BTN_CFG_DIS_N ≤ s.btn.disRun then startSelftest (s.btn.stSeq + 1) false s else s := by
  unfold btnSelftestStart
  dsimp only
  rw [if_neg (by simp [hpair, hrun])]
  cases htwin : s.btn.twin with
  | none => rfl
  | some h =>
    have hnot := hold h htwin
    unfold newerTest at hnot
    dsimp only
    rw [if_neg hnot]
end

theorem any_newerTest {b : Baton} :
    b.twin.any (fun h => decide (h.stSeq ≠ b.stSeq ∧ (h.stSeq + 65536 - b.stSeq) % 65536 < 32768)) = true ↔
      ∃ h, b.twin = some h ∧ newerTest b h := by
  unfold newerTest
  cases b.twin with
  | none => simp
  | some h => simp

/-! # Commands of the baton (R373) -/

theorem btnCommand_refused {o : Origin} {checks : List (Bool × Status)} {act : State → State} {st : Status}
    (h : firstFail checks = some st) (s : State) :
    refusedWrite [Reg.BTN_CMD_STAT] st s (btnCommand o checks act s).1 ∧
      fget (btnCommand o checks act s).1 Fld.BTN_CMD_STAT_STATUS = st.code := by
  unfold btnCommand
  rw [checkWrite_of_some h]
  refine ⟨refusedWrite_fset (refusedWrite_mono (refusedWrite_refuseWrite ..) (List.nil_subset _))
    (List.mem_singleton_self _) (by decide), ?_⟩
  refine (fget_fset_self Fld.BTN_CMD_STAT_STATUS _ _ (by decide) (by decide)).trans ?_
  change st.code % 256 = st.code
  cases st <;> rfl

theorem btnCmdSelftest_of_none {o : Origin}
    (h : firstFail [(roleAtLeast .engineer o, Status.notPermitted), (s.sys.mode != .boot, .illegalInMode),
      (!s.btn.stRun, .busy)] = none) :
    (btnCmdSelftest o s).1 = fset Fld.BTN_CMD_STAT_STATUS 0
      (sendMgmt (.selftest (Fin.ofNat 65536 (s.btn.stSeq + 1))) (startSelftest (s.btn.stSeq + 1) true s)) := by
  unfold btnCmdSelftest btnCommand
  rw [checkWrite_of_none h]
  rfl

/-- What an order of HMP does: the twin is told, and the test begins here. -/
theorem selftestOrdered_does (m : MgmtMsg) (q : Nat) (s : State) :
    let t := fset Fld.BTN_CMD_STAT_STATUS 0 (sendMgmt m (startSelftest q true s))
    ({ t with regs := s.regs, btn := { t.btn with mgmtOut := s.btn.mgmtOut } } = startSelftest q true s) ∧
      t.btn.mgmtOut = (if inPair s = true then s.btn.mgmtOut ++ [m] else s.btn.mgmtOut) ∧
      regsBut [Reg.BTN_CMD_STAT] s t ∧ fget t Fld.BTN_CMD_STAT_STATUS = 0 := by
  intro t
  have hpair : inPair (startSelftest q true s) = inPair s := rfl
  refine ⟨?_, ?_, fun a ha => ?_, fget_fset_self Fld.BTN_CMD_STAT_STATUS 0 _ (by decide) (by decide)⟩
  · unfold t sendMgmt
    split <;> rfl
  · unfold t sendMgmt
    rw [hpair]
    split <;> rfl
  · have hne : a ≠ Reg.BTN_CMD_STAT := fun he => ha (he ▸ List.mem_singleton_self _)
    refine (regGet_fset_other (f := Fld.BTN_CMD_STAT_STATUS) _ _ hne).trans ?_
    exact regGet_sendMgmt m (startSelftest q true s) a

/-! # Self-tests end (R373, R374) -/

theorem btnSelftestDone_idle (h : s.btn.stRun = false) (pass : Bool) : btnSelftestDone pass s = s := if_pos (by simp [h])

/-- This unit's result stands. -/
def resultSet (pass : Bool) (s : State) : State :=
  fset Fld.BTN_HEALTH_SELFTEST (boolNat (!pass))
    { s with btn := { s.btn with stRun := false, stOwn := if pass then 1 else 2 } }

theorem btnSelftestDone_eq (h : s.btn.stRun = true) (pass : Bool) :
    btnSelftestDone pass s = settleSelftest (resultSet pass s) := if_neg (by simp [h])

theorem batonOnly_resultSet (pass : Bool) (s : State) : batonOnly s (resultSet pass s) :=
  ⟨rfl, .fset (.of_regs_eq (.refl _ s) rfl) (List.mem_singleton_self _)⟩

theorem selftest_resultSet (pass : Bool) (s : State) : fbit (resultSet pass s) Fld.BTN_HEALTH_SELFTEST = !pass :=
  fbit_fset_bit Fld.BTN_HEALTH_SELFTEST (!pass) _ rfl (by decide)

theorem stOwn_resultSet (pass : Bool) (s : State) : (resultSet pass s).btn.stOwn = if pass then 1 else 2 := rfl

theorem stOwn_resultSet_ne (pass : Bool) (s : State) : (resultSet pass s).btn.stOwn ≠ 0 := by
  rw [stOwn_resultSet]
  split <;> decide

/-- A test that is not decided by its end, or by HMP's order, changes no register but BTN_HEALTH. -/
theorem btnSelftestDone_quiet (hrun : s.btn.stRun = true) (pass : Bool) (h : s.btn.stTwin = 0 ∨ s.btn.stCmd = true) :
    onlyRegs [Reg.BTN_HEALTH] s { btnSelftestDone pass s with btn := s.btn } ∧
      fbit (btnSelftestDone pass s) Fld.BTN_HEALTH_SELFTEST = !pass := by
  have hcase : settleSelftest (resultSet pass s) = resultSet pass s ∨
      settleSelftest (resultSet pass s) = testDecided (resultSet pass s) := by
    by_cases htwin : s.btn.stTwin = 0
    · exact .inl (settleSelftest_of_unknown (.inr htwin))
    · refine .inr ((settleSelftest_eq (stOwn_resultSet_ne pass s) htwin).trans (if_pos ?_))
      exact h.resolve_left htwin
  have hregs := (batonOnly_resultSet pass s).2
  have hself := selftest_resultSet pass s
  rw [btnSelftestDone_eq hrun]
  rcases hcase with hcase | hcase
  · rw [hcase]
    exact ⟨⟨rfl, hregs.of_regs_eq rfl⟩, hself⟩
  · rw [hcase]
    exact ⟨⟨rfl, hregs.of_regs_eq rfl⟩, hself⟩

theorem btnSelftestResultTimeout_idle (h : ¬(s.btn.stOwn ≠ 0 ∧ s.btn.stTwin = 0 ∧ inPair s = true)) :
    btnSelftestResultTimeout s = s := if_neg h

theorem btnSelftestResultTimeout_eq (h : s.btn.stOwn ≠ 0 ∧ s.btn.stTwin = 0 ∧ inPair s = true) :
    btnSelftestResultTimeout s = settleSelftest { s with btn := { s.btn with stTwin := 2 } } := if_pos h

/-- A test that HMP ordered, or that this unit passed, decides nothing when the twin's result is missing. -/
theorem settleSelftest_missing (hown : s.btn.stOwn ≠ 0) (htwin : s.btn.stTwin = 2)
    (h : s.btn.stCmd = true ∨ s.btn.stOwn = 1) : settleSelftest s = testDecided s := by
  rw [settleSelftest_eq hown (by simp [htwin])]
  rcases h with hcmd | hpass
  · exact if_pos hcmd
  · simp [htwin, hpass]

/-! # Lanes of the mirror (R358, R374) -/

/-- What the lanes are counted into: the flags of MIR_STATUS, and the flag of BTN_HEALTH. -/
def lanesShown (s : State) : State :=
  let n := lanesUp s
  let s := fset Fld.MIR_STATUS_UP (boolNat (n != 0)) s
  let s := fset Fld.MIR_STATUS_LOCKED (boolNat (n != 0 && mirrorLocked s)) s
  if inPair s then fset Fld.BTN_HEALTH_MIR_DOWN (boolNat (n == 0)) s else s

theorem settleLanes_eq (s : State) : settleLanes s =
    condIs (lanesUp s == 0) 41 0 0x33 (condIs (lanesUp s == 1) 40 0 0x33 (lanesShown s)) := rfl

theorem onlyRegs_lanesShown (s : State) : onlyRegs [Reg.MIR_STATUS, Reg.BTN_HEALTH] s (lanesShown s) := by
  have hflags {n m : Nat} : onlyRegs [Reg.MIR_STATUS, Reg.BTN_HEALTH] s
      (fset Fld.MIR_STATUS_LOCKED n (fset Fld.MIR_STATUS_UP m s)) :=
    ((onlyRegs.refl _ s).fset (List.mem_cons_self ..)).fset (List.mem_cons_self ..)
  exact .ite (hflags.fset (List.mem_cons_of_mem _ (List.mem_singleton_self _))) hflags

theorem aftermath_settleLanes (s : State) : Aftermath (lanesShown s) (settleLanes s) := by
  rw [settleLanes_eq]
  exact ((Aftermath.refl _).condIs (by decide)).condIs (by decide)

theorem laneField_mir (l : Nat) : laneField l = Fld.MIR_STATUS_LANE0 ∨ laneField l = Fld.MIR_STATUS_LANE1 := by
  unfold laneField
  split
  · exact .inl rfl
  · exact .inr rfl

theorem fget_lanesShown_lane (l : Nat) (s : State) : fget (lanesShown s) (laneField l) = fget s (laneField l) := by
  have hother {g : Field} (hg : g = Fld.MIR_STATUS_LANE0 ∨ g = Fld.MIR_STATUS_LANE1) (n m : Nat) :
      fget (fset Fld.MIR_STATUS_LOCKED n (fset Fld.MIR_STATUS_UP m s)) g = fget s g := by
    have hbounds : g.hi < 5 ∧ 0 < g.lo ∧ g.lo ≤ g.hi ∧ g.reg = Reg.MIR_STATUS := by rcases hg with rfl | rfl <;> decide
    obtain ⟨hhi, hlo, hle, hreg⟩ := hbounds
    rw [fget_fset_other Fld.MIR_STATUS_LOCKED g n _ ⟨show 5 ≤ 5 by decide, show 5 < 32 by decide, hle⟩ (.inl hhi) hreg,
      fget_fset_other Fld.MIR_STATUS_UP g m s ⟨show 0 ≤ 0 by decide, show 0 < 32 by decide, hle⟩ (.inr hlo) hreg]
  have hreg : (laneField l).reg ≠ Reg.BTN_HEALTH := by rcases laneField_mir l with h | h <;> rw [h] <;> decide
  unfold lanesShown
  dsimp only
  split
  · exact (fget_of_regGet_eq (regGet_fset_other _ _ hreg)).trans (hother (laneField_mir l) ..)
  · exact hother (laneField_mir l) ..

end Sys2Proof.Machine
end

section
namespace Sys2Proof.Machine

variable {s t u v w : State}

theorem mir_block (f : Field) (h : f.reg = Reg.MIR_STATUS) : f.reg / 0x10000 ∉ [0x400C, 0x400D, 0x4011] := by
  rw [h]
  decide

/-- What `n` lanes up raise and show (R358, R374). -/
structure LanesSettled (n : Nat) (s t : State) : Prop where
  lanes : ∀ l, fget t (laneField l) = fget s (laneField l)
  up : fbit t Fld.MIR_STATUS_UP = decide (n ≠ 0)
  one : raisedAt t 40 0 = decide (n = 1)
  none : raisedAt t 41 0 = decide (n = 0)
  down : inPair s = true → fbit t Fld.BTN_HEALTH_MIR_DOWN = decide (n = 0)

theorem up_lanesShown (s : State) : fbit (lanesShown s) Fld.MIR_STATUS_UP = decide (lanesUp s ≠ 0) := by
  have hup : fbit (fset Fld.MIR_STATUS_UP (boolNat (lanesUp s != 0)) s) Fld.MIR_STATUS_UP = decide (lanesUp s ≠ 0) :=
    (fbit_fset_bit Fld.MIR_STATUS_UP _ s rfl (by decide)).trans (by rw [bne, beq_eq_decide, ← decide_not])
  have hlocked {n m : Nat} : fget (fset Fld.MIR_STATUS_LOCKED n (fset Fld.MIR_STATUS_UP m s)) Fld.MIR_STATUS_UP =
      fget (fset Fld.MIR_STATUS_UP m s) Fld.MIR_STATUS_UP :=
    fget_fset_other _ _ n _ (by decide) (.inl (by decide)) rfl
  rw [← hup]
  unfold fbit lanesShown
  dsimp only
  split
  · rw [fget_of_regGet_eq (regGet_fset_other _ _ (by decide)), hlocked]
  · rw [hlocked]

theorem down_lanesShown (h : inPair s = true) :
    fbit (lanesShown s) Fld.BTN_HEALTH_MIR_DOWN = decide (lanesUp s = 0) := by
  have hpair (n m : Nat) : inPair (fset Fld.MIR_STATUS_LOCKED n (fset Fld.MIR_STATUS_UP m s)) = true := h
  unfold lanesShown
  dsimp only
  rw [if_pos (hpair ..)]
  exact (fbit_fset_bit Fld.BTN_HEALTH_MIR_DOWN _ _ rfl (by decide)).trans (beq_eq_decide ..)

theorem lanesSettled (s : State) : LanesSettled (lanesUp s) s (settleLanes s) := by
  have hafter := aftermath_settleLanes s
  have hmir {f : Field} (hf : f.reg = Reg.MIR_STATUS) : fget (settleLanes s) f = fget (lanesShown s) f :=
    fget_of_regGet_eq (hafter.step.otherBlocks (mir_block f hf))
  refine ⟨fun l => ?_, ?_, ?_, ?_, fun hpair => ?_⟩
  · refine (hmir ?_).trans (fget_lanesShown_lane l s)
    rcases laneField_mir l with h | h
    all_goals
      rw [h]
      rfl
  · unfold fbit
    rw [hmir rfl]
    exact up_lanesShown s
  · rw [settleLanes_eq, raisedAt_condIs_other _ _ _ (by decide) (by decide) (by decide) (by decide), raisedAt_condIs_self]
    exact beq_eq_decide ..
  · rw [settleLanes_eq, raisedAt_condIs_self]
    exact beq_eq_decide ..
  · unfold fbit
    rw [hafter.fget_health rfl rfl (by decide)]
    exact down_lanesShown hpair

/-- A lane is set, and the lanes are counted anew. -/
def laneSet (l n : Nat) (s : State) : State := settleLanes (fset (laneField l) n s)

theorem fget_laneSet_self (l : Fin 2) {n : Nat} (hn : n < 2) (s : State) : fget (fset (laneField l) n s) (laneField l) = n := by
  have hbounds : (laneField l).lo = (laneField l).hi ∧ (laneField l).hi < 32 := by
    rcases laneField_mir l with h | h
    all_goals
      rw [h]
      decide
  obtain ⟨hlo, hhi⟩ := hbounds
  rw [fget_fset_self _ _ _ hlo.le hhi, hlo, Nat.sub_self]
  exact Nat.mod_eq_of_lt hn

theorem fget_laneSet_other (l : Fin 2) (n : Nat) (s : State) :
    fget (fset (laneField l) n s) (laneField (1 - l.val)) = fget s (laneField (1 - l.val)) := by
  match l with
  | 0 => exact fget_fset_other Fld.MIR_STATUS_LANE0 Fld.MIR_STATUS_LANE1 n s (by decide) (.inr (by decide)) rfl
  | 1 => exact fget_fset_other Fld.MIR_STATUS_LANE1 Fld.MIR_STATUS_LANE0 n s (by decide) (.inl (by decide)) rfl

theorem lanesUp_eq (l : Fin 2) (s : State) : lanesUp s = fget s (laneField l) + fget s (laneField (1 - l.val)) := by
  match l with
  | 0 => rfl
  | 1 => exact Nat.add_comm ..

theorem laneSet_does (l : Fin 2) {n : Nat} (hn : n < 2) (s : State) :
    let other := fget s (laneField (1 - l.val))
    let t := laneSet l n s
    onlyFault s t ∧ fget t (laneField l) = n ∧ fget t (laneField (1 - l.val)) = other ∧
      fbit t Fld.MIR_STATUS_UP = decide (n + other ≠ 0) ∧ raisedAt t 40 0 = decide (n + other = 1) ∧
      raisedAt t 41 0 = decide (n + other = 0) ∧
      (inPair s = true → fbit t Fld.BTN_HEALTH_MIR_DOWN = decide (n + other = 0)) := by
  intro other t
  let v := fset (laneField l) n s
  have hself : fget v (laneField l) = n := fget_laneSet_self l hn s
  have hother : fget v (laneField (1 - l.val)) = other := fget_laneSet_other l n s
  have hsettled := lanesSettled v
  rw [lanesUp_eq l v, hself, hother] at hsettled
  have hreg : (laneField l).reg = Reg.MIR_STATUS := by
    rcases laneField_mir l with h | h
    all_goals
      rw [h]
      rfl
  have hregs : onlyRegs [Reg.MIR_STATUS, Reg.BTN_HEALTH] s (lanesShown v) :=
    ((onlyRegs.refl _ s).fset (hreg ▸ List.mem_cons_self ..)).trans (onlyRegs_lanesShown v)
  exact ⟨(aftermath_settleLanes v).step.onlyFault_of_onlyRegs hregs (by decide), (hsettled.lanes _).trans hself,
    (hsettled.lanes _).trans hother, hsettled.up, hsettled.one, hsettled.none, hsettled.down⟩

theorem mirrorLaneLoss_idle {l : Nat} (h : fbit s (laneField l) = false) : mirrorLaneLoss l s = s := if_neg (by simp [h])

theorem mirrorLaneLoss_eq {l : Nat} (h : fbit s (laneField l) = true) : mirrorLaneLoss l s = laneSet l 0 s := if_pos h

theorem mirrorLaneRestore_idle {l : Nat}
    (h : ¬((fget s Fld.MIR_CTRL_LANE_EN).testBit l = true ∧ s.sys.mode ≠ .boot)) : mirrorLaneRestore l s = s :=
  if_neg fun hc => h (by simpa using hc)

theorem mirrorLaneRestore_eq {l : Nat} (h : (fget s Fld.MIR_CTRL_LANE_EN).testBit l = true ∧ s.sys.mode ≠ .boot) :
    mirrorLaneRestore l s = laneSet l 1 s := if_pos (by simpa using h)

/-! # Timeouts of the pair (R374, R456) -/

/-- One flag of BTN_HEALTH is set or cleared. -/
theorem healthSet_does (f : Field) (b : Bool) (s : State) (hreg : f.reg = Reg.BTN_HEALTH) (hlo : f.lo = f.hi)
    (hhi : f.hi < 32) :
    onlyRegs [Reg.BTN_HEALTH] s (fset f (boolNat b) s) ∧ fbit (fset f (boolNat b) s) f = b :=
  ⟨(onlyRegs.refl _ s).fset (hreg ▸ List.mem_singleton_self _), fbit_fset_bit f b s hlo hhi⟩

/-- The holder's mode is another than that of this standby. -/
def modesDiffer (s : State) : Prop :=
  s.sys.role = .standby ∧ ∃ h, s.btn.twin = some h ∧ h.role = .active ∧ h.mode ≠ s.sys.mode

theorem modeDiffTimeout_eq (h : modesDiffer s) : modeDiffTimeout s = fset Fld.BTN_HEALTH_MODE_DIFF 1 s := by
  obtain ⟨hrole, hb, htwin, hact, hmode⟩ := h
  unfold modeDiffTimeout
  rw [htwin]
  exact if_pos ⟨hrole, hact, hmode⟩

theorem modeDiffTimeout_idle (h : ¬modesDiffer s) : modeDiffTimeout s = s := by
  unfold modeDiffTimeout
  split
  next hb htwin => exact if_neg fun ⟨hrole, hact, hmode⟩ => h ⟨hrole, hb, htwin, hact, hmode⟩
  · rfl

/-- A heartbeat of the holder has come since this unit entered COMMISSION. -/
def heardHolder (s : State) : Bool := s.btn.twin.any (fun h => h.role == .active && decide (s.sys.commAt ≤ s.btn.twinAt))

theorem joinTimeout_eq (s : State) : joinTimeout s =
    if inPair s && s.sys.mode != .boot && !heardHolder s then fset Fld.BTN_HEALTH_JOINING 0 s else s := by
  unfold joinTimeout heardHolder
  cases s.btn.twin <;> rfl

end Sys2Proof.Machine
end

section
namespace Sys2Proof.Machine

variable {s t u v w : State}

/-! # Parts of the twin's record (R359, R370, R379) -/

/-- What a published part leaves alone, the latency that the record showed among it. -/
structure MirrorKept (s t : State) : Prop where
  lat : fget t Fld.MIR_STATUS_LAT = fget s Fld.MIR_STATUS_LAT
  slow : raisedAt t 42 0 = raisedAt s 42 0
  count : regGet t Reg.MIR_ERR_CNT = regGet s Reg.MIR_ERR_CNT
  rest : t.sys = s.sys ∧ t.cores = s.cores ∧ t.front = s.front

theorem MirrorKept.trans (h : MirrorKept s t) (h' : MirrorKept t u) : MirrorKept s u := by
  obtain ⟨hsys, hcores, hfront⟩ := h.rest
  obtain ⟨hsys', hcores', hfront'⟩ := h'.rest
  exact ⟨h'.lat.trans h.lat, h'.slow.trans h.slow, h'.count.trans h.count, hsys'.trans hsys, hcores'.trans hcores,
    hfront'.trans hfront⟩

theorem mirrorRegs_outside : ∀ a, a = Reg.MIR_STATUS ∨ a = Reg.MIR_ERR_CNT →
    a / 0x10000 ∉ [0x400C, 0x400D, 0x4011] ∧ ∀ q < 128, a ≠ Reg.RING_PSVC q := by
  rintro a (rfl | rfl)
  all_goals
    refine ⟨by decide, fun q hq => ?_⟩
    simp only [Reg.MIR_STATUS, Reg.MIR_ERR_CNT, Reg.RING_PSVC]
    omega

/-- The scope of the mirror's own registers. -/
def mirrorScope : ChainScope := { reg := fun a => a = Reg.MIR_STATUS ∨ a = Reg.MIR_ERR_CNT, outside := mirrorRegs_outside }

theorem mirrorScope_freeReports : mirrorScope.FreeReports := by
  refine ⟨?_, ?_, ?_, fun w _ => ⟨?_, ?_⟩, fun q _ => ⟨?_, ?_⟩⟩
  all_goals
    simp only [mirrorScope, Reg.RING_DUP_CNT, Reg.RING_PROTO_CNT, Reg.RING_EPOCH_LOW_CNT, Reg.WHL_BYP_CNT,
      Reg.WHL_BYPFAIL_CNT, Reg.RING_PSCRC_CNT, Reg.RING_PLATE_CNT, Reg.MIR_STATUS, Reg.MIR_ERR_CNT]
    omega

theorem Serves.mirrorKept (h : Serves mirrorScope s t) : MirrorKept s t := by
  refine ⟨fget_of_regGet_eq (h.regs _ (.inl rfl)), h.raised 42 0 (by decide) (by decide) (by decide),
    h.regs _ (.inr rfl), ?_⟩
  rw [h.frame]
  exact ⟨rfl, rfl, rfl⟩

theorem Baton.told_parts {b c : Baton} (h : b.told = c.told) : b.twinReached = c.twinReached ∧ b.engIn = c.engIn ∧
    b.engPrev = c.engPrev ∧ b.restIn = c.restIn ∧ b.otherIn = c.otherIn ∧ b.pbDiffers = c.pbDiffers := by
  simpa only [Baton.told, Prod.mk.injEq] using h

/-- The latency of the record shows in MIR_STATUS. -/
def latencyShown (ns : Nat) (s : State) : State :=
  fset Fld.MIR_STATUS_LAT (min ns 65535) (fset Fld.MIR_STATUS_SLOW (boolNat (decide (1200 < ns))) s)

theorem noteLatency_eq (ns : Nat) (s : State) :
    noteLatency ns s = condIs (decide (1200 < ns)) 42 0 0x33 (latencyShown ns s) := rfl

theorem onlyRegs_latencyShown (ns : Nat) (s : State) : onlyRegs [Reg.MIR_STATUS] s (latencyShown ns s) :=
  ((onlyRegs.refl _ s).fset (List.mem_singleton_self _)).fset (List.mem_singleton_self _)

theorem aftermath_noteLatency (ns : Nat) (s : State) : Aftermath (latencyShown ns s) (noteLatency ns s) := by
  rw [noteLatency_eq]
  exact (Aftermath.refl _).condIs (by decide)

theorem mirStatus_noteLatency (ns : Nat) (s : State) :
    regGet (noteLatency ns s) Reg.MIR_STATUS = regGet (latencyShown ns s) Reg.MIR_STATUS :=
  (aftermath_noteLatency ns s).step.otherBlocks (by decide)

theorem lat_noteLatency (ns : Nat) (s : State) : fget (noteLatency ns s) Fld.MIR_STATUS_LAT = min ns 65535 := by
  rw [fget_of_regGet_eq (f := Fld.MIR_STATUS_LAT) (mirStatus_noteLatency ns s)]
  refine (fget_fset_self Fld.MIR_STATUS_LAT _ _ (by decide) (by decide)).trans (Nat.mod_eq_of_lt ?_)
  change min ns 65535 < 65536
  omega

theorem lanesUp_noteLatency (ns : Nat) (s : State) : lanesUp (noteLatency ns s) = lanesUp s := by
  have hlane {g : Field} (hreg : g.reg = Reg.MIR_STATUS) (hhi : g.hi < 3) (hle : g.lo ≤ g.hi) :
      fget (noteLatency ns s) g = fget s g := by
    rw [fget, hreg, mirStatus_noteLatency, ← hreg, ← fget, latencyShown,
      fget_fset_other Fld.MIR_STATUS_LAT g _ _ ⟨by decide, by decide, hle⟩ (.inl (hhi.trans (by decide))) hreg,
      fget_fset_other Fld.MIR_STATUS_SLOW g _ _ ⟨by decide, by decide, hle⟩ (.inl hhi) hreg]
  unfold lanesUp
  rw [hlane rfl (by decide) (by decide), hlane rfl (by decide) (by decide)]

theorem onlyFault_noteLatency (ns : Nat) (s : State) : onlyFault s (noteLatency ns s) :=
  (aftermath_noteLatency ns s).step.onlyFault_of_onlyRegs (onlyRegs_latencyShown ns s) (by decide)

theorem stores_noteLatency (ns : Nat) (s : State) : (noteLatency ns s).sys = s.sys ∧ (noteLatency ns s).cores = s.cores ∧
    (noteLatency ns s).front = s.front := by
  rw [(onlyFault_noteLatency ns s).1]
  exact ⟨rfl, rfl, rfl⟩

theorem block_noteLatency (ns : Nat) (s : State) : (noteLatency ns s).saf.block = s.saf.block := by
  rw [(onlyFault_noteLatency ns s).2.1]

theorem blockIdList_noteLatency (ns : Nat) (s : State) : blockIdList (noteLatency ns s) = blockIdList s := by
  unfold blockIdList
  rw [(stores_noteLatency ns s).1, block_noteLatency]

theorem count_noteLatency (ns : Nat) (s : State) :
    regGet (noteLatency ns s) Reg.MIR_ERR_CNT = regGet s Reg.MIR_ERR_CNT :=
  ((aftermath_noteLatency ns s).step.otherBlocks (by decide)).trans ((onlyRegs_latencyShown ns s).2 _ (by decide))

theorem told_noteLatency (ns : Nat) (s : State) : (noteLatency ns s).btn.told = s.btn.told := by
  rw [(aftermath_noteLatency ns s).btn]
  rfl

/-- The CRC of a part was right. -/
def partSound : MirrorPart → Bool
  | .engine ok _ _ _ => ok
  | .rest ok _ _ _ _ _ _ => ok
  | .standby ok _ _ _ _ => ok

section
variable (hup : ¬(!inPair s || lanesUp s = 0) = true)
include hup

theorem mirrorRecordReceive_bad {p : MirrorPart} (h : partSound p = false) :
    mirrorRecordReceive p s = bump Reg.MIR_ERR_CNT s := by
  unfold mirrorRecordReceive
  rw [if_neg hup]
  cases p
  all_goals
    obtain rfl : _ = false := h
    rfl

theorem mirrorRecordReceive_engine (a b : Word) (c : List EngineRec) :
    mirrorRecordReceive (.engine true a b c) s =
      { s with btn := { s.btn with engIn := some (.engine true a b c), engPrev := s.btn.engIn } } := if_neg hup

/-- The remainder of a record is held, and whether it belongs to the engines' part. -/
def restHeld (p : MirrorPart) (cyc : Word) (s : State) : State :=
  fset Fld.MIR_STATUS_SYNC (boolNat (match s.btn.engIn with
    | some (.engine _ c _ _) => c == cyc | _ => false)) { s with btn := { s.btn with restIn := some p } }

/-- A standby compares the identifiers of the parameter blocks with its own (R374). -/
def blocksCompared (ids : List Word) (s : State) : State :=
  let s := { s with btn := { s.btn with pbDiffers := ids != blockIdList s } }
  if s.btn.pbDiffers then s else fset Fld.BTN_HEALTH_PB_DIFF 0 s

theorem mirrorRecordReceive_rest (cyc ep : Word) (cut : Bool) (ws : List WheelRec) (ids : List Word)
    (rel : List RelayWord) :
    mirrorRecordReceive (.rest true cyc ep cut ws ids rel) s =
      if s.sys.role = .standby then
        rel.foldl (fun s r => noteRelayed r s) (blocksCompared ids (restHeld (.rest true cyc ep cut ws ids rel) cyc s))
      else restHeld (.rest true cyc ep cut ws ids rel) cyc s := if_neg hup

theorem mirrorRecordReceive_standby (cyc ep : Word) (m : BitVec 128) (rpts : List RelayWord) :
    mirrorRecordReceive (.standby true cyc ep m rpts) s =
      rpts.foldl (fun s r => deliverMirrored r s)
        (fset Fld.MIR_STATUS_SYNC 1 { s with btn := { s.btn with otherIn := some (.standby true cyc ep m rpts) } }) :=
  if_neg hup
end

theorem MirrorKept.setSync (n : Nat) {b : Baton} : MirrorKept s (fset Fld.MIR_STATUS_SYNC n { s with btn := b }) :=
  ⟨fget_fset_other Fld.MIR_STATUS_SYNC Fld.MIR_STATUS_LAT n _ (by decide) (.inr (by decide)) rfl, rfl,
    regGet_fset_other _ _ (by decide), rfl, rfl, rfl⟩

theorem blocksCompared_does (ids : List Word) (s : State) : MirrorKept s (blocksCompared ids s) ∧
    (blocksCompared ids s).btn = { s.btn with pbDiffers := ids != blockIdList s } := by
  unfold blocksCompared
  dsimp only
  split
  · exact ⟨⟨rfl, rfl, rfl, rfl, rfl, rfl⟩, rfl⟩
  · exact ⟨⟨fget_of_regGet_eq (regGet_fset_other _ _ (by decide)), rfl, regGet_fset_other _ _ (by decide), rfl, rfl, rfl⟩,
      rfl⟩

/-- What a sound part publishes in the baton. -/
def partPublished (s : State) (part : MirrorPart) (t : State) : Prop :=
  match part with
  | .engine _ _ _ _ => t.btn.engIn = some part ∧ t.btn.engPrev = s.btn.engIn ∧ t.btn.restIn = s.btn.restIn
  | .rest _ _ _ _ _ ids _ => t.btn.restIn = some part ∧ t.btn.engIn = s.btn.engIn ∧
      (s.sys.role = .standby → t.btn.pbDiffers = (ids != blockIdList s))
  | .standby _ _ _ _ _ => t.btn.otherIn = some part ∧ t.btn.engIn = s.btn.engIn ∧ t.btn.restIn = s.btn.restIn

theorem mirrorRecordReceive_publishes (hup : ¬(!inPair s || lanesUp s = 0) = true) {part : MirrorPart}
    (hok : partSound part = true) :
    MirrorKept s (mirrorRecordReceive part s) ∧ partPublished s part (mirrorRecordReceive part s) := by
  cases part with
  | engine ok a b c =>
    obtain rfl : ok = true := hok
    rw [mirrorRecordReceive_engine hup]
    exact ⟨⟨rfl, rfl, rfl, rfl, rfl, rfl⟩, rfl, rfl, rfl⟩
  | rest ok cyc ep cut ws ids rel =>
    obtain rfl : ok = true := hok
    rw [mirrorRecordReceive_rest hup]
    have hheld : MirrorKept s (restHeld (.rest true cyc ep cut ws ids rel) cyc s) := .setSync ..
    split
    · obtain ⟨hkept, hbtn⟩ := blocksCompared_does ids (restHeld (.rest true cyc ep cut ws ids rel) cyc s)
      have hserve : Serves mirrorScope (blocksCompared ids (restHeld (.rest true cyc ep cut ws ids rel) cyc s)) _ :=
        .foldl (l := rel) (f := fun s r => noteRelayed r s) (.refl _ _) fun _ _ _ hu => hu.noteRelayed
      obtain ⟨-, heng, -, hrest, -, hpb⟩ := Baton.told_parts hserve.told
      refine ⟨hheld.trans (hkept.trans hserve.mirrorKept), ?_, ?_, fun _ => ?_⟩
      · rw [hrest, hbtn]
        rfl
      · rw [heng, hbtn]
        rfl
      · rw [hpb, hbtn]
        rfl
    next hrole => exact ⟨hheld, rfl, rfl, fun hstandby => absurd hstandby hrole⟩
  | standby ok cyc ep m rpts =>
    obtain rfl : ok = true := hok
    rw [mirrorRecordReceive_standby hup]
    have hserve : Serves mirrorScope (fset Fld.MIR_STATUS_SYNC 1
        { s with btn := { s.btn with otherIn := some (.standby true cyc ep m rpts) } }) _ :=
      .foldl (l := rpts) (f := fun s r => deliverMirrored r s) (.refl _ _) fun _ _ _ hu =>
        hu.deliverMirrored mirrorScope_freeReports
    obtain ⟨-, heng, -, hrest, hother, -⟩ := Baton.told_parts hserve.told
    exact ⟨(MirrorKept.setSync 1).trans hserve.mirrorKept, hother, heng, hrest⟩

theorem onlyFault.regSet {a : Nat} {x : Word} (h : onlyFault s t) : onlyFault s (regSet a x t) := by
  obtain ⟨hframe, hsaf, hchr, hmem⟩ := h
  refine ⟨?_, hsaf, hchr, hmem⟩
  rw [Machine.regSet, hframe]

/-- What stands and what is published once a part of the record has come, with its latency. -/
theorem recordReceived_does {part : MirrorPart} (hpair : inPair s = true) (hlanes : lanesUp s ≠ 0) (lat : Nat) :
    let t := mirrorRecordReceive part (noteLatency lat s)
    fget t Fld.MIR_STATUS_LAT = min lat 65535 ∧ raisedAt t 42 0 = decide (1200 < lat) ∧ t.sys = s.sys ∧
      t.cores = s.cores ∧ t.front = s.front ∧
      (partSound part = false → onlyFault s t ∧ countedUp Reg.MIR_ERR_CNT s t ∧ t.btn.engIn = s.btn.engIn ∧
        t.btn.restIn = s.btn.restIn ∧ t.btn.otherIn = s.btn.otherIn) ∧
      (partSound part = true → regGet t Reg.MIR_ERR_CNT = regGet s Reg.MIR_ERR_CNT ∧ partPublished s part t) := by
  intro t
  let v := noteLatency lat s
  obtain ⟨hsys, hcores, hfront⟩ := stores_noteLatency lat s
  obtain ⟨-, heng, -, hrest, hother, -⟩ := Baton.told_parts (told_noteLatency lat s)
  have hup : ¬(!inPair v || lanesUp v = 0) = true := by
    have hpairv : inPair v = true := by
      unfold inPair
      rw [hsys]
      exact hpair
    have hlanesv : lanesUp v ≠ 0 := by rwa [lanesUp_noteLatency]
    simp [hpairv, hlanesv]
  have hslow : raisedAt v 42 0 = decide (1200 < lat) := by
    rw [show v = condIs _ 42 0 0x33 (latencyShown lat s) from rfl]
    exact raisedAt_condIs_self ..
  by_cases hok : partSound part = true
  · obtain ⟨hkept, hpub⟩ := mirrorRecordReceive_publishes hup hok
    obtain ⟨hsys', hcores', hfront'⟩ := hkept.rest
    refine ⟨hkept.lat.trans (lat_noteLatency lat s), hkept.slow.trans hslow, hsys'.trans hsys, hcores'.trans hcores,
      hfront'.trans hfront, fun hbad => ?_, fun _ => ⟨hkept.count.trans (count_noteLatency lat s), ?_⟩⟩
    · rw [hok] at hbad
      cases hbad
    · unfold partPublished at hpub ⊢
      rw [heng, hrest, hsys, blockIdList_noteLatency] at hpub
      exact hpub
  · rw [Bool.not_eq_true] at hok
    have ht : t = bump Reg.MIR_ERR_CNT v := mirrorRecordReceive_bad hup hok
    rw [ht]
    refine ⟨(fget_of_regGet_eq (regGet_regSet_other _ _ (by decide))).trans (lat_noteLatency lat s), hslow, hsys, hcores,
      hfront, fun _ => ⟨?_, ?_, heng, hrest, hother⟩, fun h => ?_⟩
    · exact (onlyFault_noteLatency lat s).regSet
    · unfold countedUp
      rw [← count_noteLatency lat s]
      exact countedUp_bump _ v
    · rw [hok] at h
      cases h

end Sys2Proof.Machine
end

section
namespace Sys2Proof.Machine

variable {s t u v w : State}

/-! # Relay frames (R380) -/

theorem relayFrameLaunch_idle {ch : Nat} (h : s.sys.role ≠ .standby ∨ s.btn.restIn = none) : relayFrameLaunch ch s = s := by
  unfold relayFrameLaunch
  split
  next hrole _ hrest =>
    rcases h with h | h
    · exact absurd hrole h
    · rw [h] at hrest
      cases hrest
  · rfl

/-- The command of position `i` in a relay frame: the granted one, or this unit's own. -/
def relayCommand (mine : List RelayWord) (q : Nat) (s : State) (i : Nat) : DWord :=
  match mine.find? (fun r => r.pos == i) with
  | some r => reflag r.word true true
  | none => reflag (slotCommand s q i) false false

section
variable {ch : Nat} {c : ChainMap} {ok : Bool} {cyc ep : Word} {cut : Bool} {ws : List WheelRec} {ids : List Word}
  {rel : List RelayWord} (hrole : s.sys.role = .standby) (hchain : chainOf s ch = some c)
  (hrest : s.btn.restIn = some (.rest ok cyc ep cut ws ids rel))
include hrole hchain hrest

theorem relayFrameLaunch_waits
    (h : ¬(rel.filter (fun r => r.chain == ch) ≠ [] ∧ cyc + 1 = cycleNo s ∧ (port s c.portE).lit = true ∧
      (port s c.portE).withheld = false)) : relayFrameLaunch ch s = s := by
  unfold relayFrameLaunch
  rw [hrole, hchain, hrest]
  refine if_pos ?_
  by_contra hnot
  refine h ?_
  simpa only [Bool.or_eq_true, not_or, bne_iff_ne, not_not, List.isEmpty_iff, Bool.not_eq_true, Bool.not_eq_false',
    and_assoc, ne_eq] using hnot

theorem relayFrameLaunch_sends (hmine : rel.filter (fun r => r.chain == ch) ≠ []) (hcyc : cyc + 1 = cycleNo s)
    (hlit : (port s c.portE).lit = true) (hheld : (port s c.portE).withheld = false) :
    ∃ h tail, h.apply = applyTicks s - tRly01 c.n / 20 ∧ h.lead = fget s Fld.ESC_LEAD_LEAD + tRly01 c.n / 20 ∧
      relayFrameLaunch ch s = setPort c.portE { port s c.portE with
        relayTx := frameBytes h ((List.range c.n).map (relayCommand (rel.filter (fun r => r.chain == ch)) c.portE s)) tail } s := by
  have hable : ¬((rel.filter (fun r => r.chain == ch)).isEmpty || cyc + 1 != cycleNo s || !(port s c.portE).lit ||
      (port s c.portE).withheld) = true := by
    simp only [Bool.or_eq_true, not_or, bne_iff_ne, not_not, List.isEmpty_iff, Bool.not_eq_true, Bool.not_eq_false',
      and_assoc]
    exact ⟨hmine, hcyc, hlit, hheld⟩
  unfold relayFrameLaunch
  rw [hrole, hchain, hrest]
  exact ⟨_, _, rfl, rfl, if_neg hable⟩
end

/-! # Messages of the twin (R70, R73, R361, R380, R383) -/

/-- The twin is not heard: this unit is alone, or no lane is up. -/
def deaf (s : State) : Prop := (!inPair s || lanesUp s = 0) = true

theorem deaf_iff (s : State) : deaf s ↔ inPair s = false ∨ lanesUp s = 0 := by simp [deaf]

theorem management_deaf (h : deaf s) (m : MgmtMsg) : management m s = s := if_pos h

theorem noScope_freeTables : noScope.FreeTables := ⟨fun _ _ => id, fun _ _ => id, fun _ _ => id, id, fun _ => id⟩

/-- What the twin has discovered from its end is taken over (R73). -/
def twinSwept (p : Nat) (cells : List PosInfo) (s : State) : State :=
  let x := port s p
  let seg := match cells with | c :: _ => some c.phi | [] => x.segLast
  let s := setPort p { x with
      withheld := false, twinCount := cells.length, twinIds := infoIds cells, twinInfo := cells, segLast := seg } s
  { s with btn := { s.btn with twinReached := Store.set (fun _ => none) s.btn.twinReached p (some cells.length) } }

theorem port_twinSwept (p : Nat) (cells : List PosInfo) (s : State) (q : Nat) :
    port (twinSwept p cells s) q = if q = p then { port s p with
      withheld := false, twinCount := cells.length, twinIds := infoIds cells, twinInfo := cells,
      segLast := match cells with | c :: _ => some c.phi | [] => (port s p).segLast } else port s q :=
  port_setPort ..

theorem twinReached_twinSwept (p : Nat) (cells : List PosInfo) (s : State) :
    Store.get (fun _ => none) (twinSwept p cells s).btn.twinReached p = some cells.length :=
  Store.get_set_self (fun _ => none) s.btn.twinReached p (some cells.length)

section
variable (hup : ¬deaf s) {p : Fin 128}
include hup

theorem management_sweepStart : management (.sweepStart p) s = setPort p { port s p with withheld := true } s :=
  if_neg hup

theorem management_sweepEnd (cells : List PosInfo) : management (.sweepEnd p cells) s =
    wanted p (if (port s p).swept then settleEnd p (twinSwept p cells s) else twinSwept p cells s) := if_neg hup

/-- What the end of the twin's sweep tells stands, whatever follows from it. -/
theorem sweepEnd_tells (cells : List PosInfo) :
    Store.get (fun _ => none) (management (.sweepEnd p cells) s).btn.twinReached p = some cells.length ∧
      (management (.sweepEnd p cells) s).sys = s.sys ∧ (management (.sweepEnd p cells) s).cores = s.cores := by
  have hserve : Serves noScope (twinSwept p cells s) (management (.sweepEnd p cells) s) := by
    rw [management_sweepEnd hup]
    exact Serves.wanted (.ite ((Serves.refl _ _).settleEnd p.isLt noScope_freeStates noScope_freeTables) (.refl _ _)) id
  obtain ⟨hreached, -⟩ := Baton.told_parts hserve.told
  refine ⟨?_, ?_, ?_⟩
  · rw [hreached]
    exact twinReached_twinSwept ..
  · rw [hserve.frame]
    rfl
  · rw [hserve.frame]
    rfl

/-- An end that waits for the other end's sweep is swept (R70). -/
theorem sweepEnd_starts {cells : List PosInfo} (hswept : (port s p).swept = false) (hwant : (port s p).wantSweep = true)
    (hmay : maySweep s = true) (hjoin : joiningTwin s = false) (hchain : portChain s p ≠ none)
    (hidle : (port s p).sweep = none) (hpeer : ∀ q, peerPort s p = some q → (port s q).sweep = none) :
    ∃ k, (port (management (.sweepEnd p cells) s) p).sweep = some k := by
  let v := twinSwept p cells s
  have hself : (port v p).sweep = none ∧ (port v p).withheld = false ∧ (port v p).wantSweep = true := by
    rw [port_twinSwept, if_pos rfl]
    exact ⟨hidle, rfl, hwant⟩
  obtain ⟨hvidle, hvheld, hvwant⟩ := hself
  have hfree : endFree v p := by
    refine ⟨hvidle, hmay, hjoin, hchain, hvheld, fun q hq => ?_⟩
    rw [port_twinSwept]
    split
    · exact hidle
    · exact hpeer q hq
  rw [management_sweepEnd hup, hswept, if_neg Bool.false_ne_true, wanted, if_pos hvwant, port_startSweep_of_free hfree]
  exact ⟨_, rfl⟩

theorem sweepEnd_quiet {cells : List PosInfo} (hswept : (port s p).swept = false) (hwant : (port s p).wantSweep = false) :
    management (.sweepEnd p cells) s = twinSwept p cells s := by
  have hvwant : (port (twinSwept p cells s) p).wantSweep = false := by
    rw [port_twinSwept, if_pos rfl]
    exact hwant
  rw [management_sweepEnd hup, hswept, if_neg Bool.false_ne_true, wanted, hvwant, if_neg Bool.false_ne_true]

/-- The delay of a segment that no heal here measures is kept. -/
theorem lastSegment_notes {n : Nat} (hswept : (port s p).swept = false)
    (h : (∀ e, (port s p).heal ≠ some (.echo e)) ∨ portChain s p = none) :
    management (.lastSegment p n) s = setPort p { port s p with segLast := some n } s := by
  have hkept : (port (setPort p { port s p with segLast := some n } s) p).swept = false := by
    rw [port_setPort, if_pos rfl]
    exact hswept
  refine (if_neg hup).trans ?_
  dsimp only
  split
  next hchain hheal =>
    rcases h with h | h
    · exact absurd hheal (h _)
    · rw [h] at hchain
      cases hchain
  · exact if_neg (by simp [hkept])

theorem lastSegment_measures {n : Nat} {c : ChainMap} {west : Bool} {k : Word} (hchain : portChain s p = some (c, west))
    (hheal : (port s p).heal = some (.echo k)) : management (.lastSegment p n) s =
      if fget s (Fld.RING_PSTAT_FOLD_POS p) + 1 = c.n then healMeasured p n s else s := by
  refine (if_neg hup).trans ?_
  dsimp only
  rw [hchain, hheal]

theorem management_images (a b c : Word) : management (.images a b c) s =
    fset Fld.BTN_HEALTH_IMAGE_DIFF (boolNat ((a, b, c) != imagesOf s))
      { s with btn := { s.btn with twinImages := some (a, b, c) } } := if_neg hup

theorem management_reach_idle {g n : Nat} (h : s.sys.role = .standby ∨ portChain s p = none) :
    management (.reach p g n) s = s := by
  refine (if_neg hup).trans ?_
  dsimp only
  split
  · rfl
  next hrole =>
    rw [h.resolve_left hrole]

theorem management_reach {g n : Nat} {c : ChainMap} {west : Bool} (hrole : s.sys.role ≠ .standby)
    (hchain : portChain s p = some (c, west)) : management (.reach p g n) s =
      fset (Fld.MIR_RLY_REACH c.num) (min 64 g) (fset (Fld.MIR_RLY_T_RLY c.num) (min 127 n) s) := by
  refine (if_neg hup).trans ?_
  dsimp only
  rw [if_neg hrole, hchain]

theorem management_reached (n : Nat) : management (.reached p n) s =
    { s with btn := { s.btn with twinReached := Store.set (fun _ => none) s.btn.twinReached p (some n) } } := if_neg hup

theorem management_discovery (cells : List PosInfo) (n : Nat) : management (.discovery p cells n) s =
    if s.sys.role = .standby then takeDiscovery p cells n s else s := if_neg hup

theorem management_healStart : management (.healStart p) s =
    if s.sys.role = .standby ∧ mayHeal s p then startHeal p s else s := if_neg hup

theorem management_healMeasured (n : Nat) (a : Word) : management (.healMeasured p n a) s =
    if s.sys.role = .standby then followHeal p n a s else s := if_neg hup

theorem management_healEnd : management (.healEnd p) s = abandonHeal p s := if_neg hup

theorem management_selftest (num : Fin 65536) : management (.selftest num) s =
    if s.btn.stRun then s else startSelftest num true s := if_neg hup
end

/-! ## What reach, discovery and heals of the twin do -/

theorem reachNoted_does (c : ChainMap) (g n : Nat) (s : State) :
    let t := fset (Fld.MIR_RLY_REACH c.num) (min 64 g) (fset (Fld.MIR_RLY_T_RLY c.num) (min 127 n) s)
    onlyRegs [Reg.MIR_RLY c.num] s t ∧ fget t (Fld.MIR_RLY_REACH c.num) = min 64 g ∧
      fget t (Fld.MIR_RLY_T_RLY c.num) = min 127 n := by
  refine ⟨((onlyRegs.refl _ s).fset (List.mem_singleton_self _)).fset (List.mem_singleton_self _), ?_, ?_⟩
  · refine (fget_fset_self (Fld.MIR_RLY_REACH c.num) _ _ (show 7 ≤ 13 by decide) (show 13 < 32 by decide)).trans ?_
    exact Nat.mod_eq_of_lt (show min 64 g < 128 by omega)
  · rw [fget_fset_other (Fld.MIR_RLY_REACH c.num) (Fld.MIR_RLY_T_RLY c.num) _ _ (show 7 ≤ 13 ∧ 13 < 32 ∧ 0 ≤ 6 by decide)
      (.inl (show 6 < 7 by decide)) rfl]
    refine (fget_fset_self (Fld.MIR_RLY_T_RLY c.num) _ _ (show 0 ≤ 6 by decide) (show 6 < 32 by decide)).trans ?_
    exact Nat.mod_eq_of_lt (show min 127 n < 128 by omega)

/-- The holder's discovery results of a joining unit's end are that end's own from now on (R383). -/
theorem takeDiscovery_does {p : Nat} (hp : p < 128) (cells : List PosInfo) (n : Nat) (s : State) :
    (port (takeDiscovery p cells n s) p).swept = true ∧ (port (takeDiscovery p cells n s) p).idents = infoIds cells ∧
      (takeDiscovery p cells n s).sys = s.sys ∧ (takeDiscovery p cells n s).cores = s.cores := by
  let k : ChainScope := { results := fun _ => True }
  have hk : k.FreeStates := ⟨⟨fun _ _ => id, fun _ => id⟩, fun _ _ => id, fun _ => id⟩
  have hk' : k.FreeTables := ⟨fun _ _ => id, fun _ _ => id, fun _ _ => id, id, fun _ => id⟩
  unfold takeDiscovery
  extract_lets s1 m _ s2 s3
  have hs1 : Serves noScope s s1 := by
    refine .foldl (.refl _ s) fun u i _ hu => ?_
    split
    · exact (hu.fset (noScope_freeTables.spare id)).fset (noScope_freeTables.spare id)
    · exact hu
  have hs2 : (port s2 p).swept = true ∧ (port s2 p).idents = infoIds cells := by
    rw [port_setPort, if_pos rfl]
    exact ⟨rfl, rfl⟩
  have hs3 : Serves k s2 s3 := .settleEnd (.settleReached (.refl k s2) hp hk (.inl fun _ => id)) hp hk hk'
  have hlast {v : State} (hv : Serves k s2 v) : (port v p).swept = true ∧ (port v p).idents = infoIds cells ∧
      v.sys = s.sys ∧ v.cores = s.cores := by
    obtain ⟨hswept, -, hidents⟩ := (hv.ports p).results trivial
    refine ⟨hswept.trans hs2.1, hidents.trans hs2.2, ?_, ?_⟩
    · rw [hv.frame]
      change s1.sys = s.sys
      rw [hs1.frame]
    · rw [hv.frame]
      change s1.cores = s.cores
      rw [hs1.frame]
  split
  · exact hlast hs3
  · exact hlast ((Serves.regSet (hs3.setPort .plain) (hk'.spare id)).voidCheckByLap)

theorem healScope_freeTables {q : Nat} (hq : q < 128) : (healScope q hq).FreeTables := by
  refine ⟨fun p i => ?_, fun p _ => ?_, fun n _ => ?_, id, fun _ => id⟩
  all_goals
    simp only [healScope, Reg.RING_PSTAT, Reg.RING_CELL, Reg.RING_PLAP, Reg.MIR_RLY]
    omega

/-- A STANDBY unit follows a heal that the holder has measured (R86). -/
theorem followHeal_follows {p : Nat} (hp : p < 128) (h : portState s p = PState.folded ∨ portState s p = PState.healing)
    (n : Nat) (a : Word) :
    (port (followHeal p n a s) p).heal = some (.stop a) ∧ (port (followHeal p n a s) p).echo = none ∧
      portState (followHeal p n a s) p = PState.healing := by
  have hserve : Serves (healScope p hp) (joinHeal p s) (applyDelay p n (joinHeal p s)) :=
    (Serves.refl _ _).applyDelay hp (healScope_freeTables hp)
  have hstate : portState (applyDelay p n (joinHeal p s)) p = PState.healing :=
    (portState_of_pstat (hserve.regs _ rfl)).trans (portState_joinHeal hp h)
  unfold followHeal
  rw [if_pos h]
  dsimp only
  rw [port_setPort, if_pos rfl]
  exact ⟨rfl, rfl, hstate⟩

theorem followHeal_idle {p : Nat} (h : ¬(portState s p = PState.folded ∨ portState s p = PState.healing)) (n : Nat)
    (a : Word) : followHeal p n a s = s := if_neg h

/-! ## Heals end (R87) -/

theorem regGet_dropRequests_pstat (p q : Nat) (o : SvcOwner) (s : State) :
    regGet (dropRequests p o s) (Reg.RING_PSTAT q) = regGet s (Reg.RING_PSTAT q) := by
  refine regGet_fset_other (f := Fld.RING_PSVC_DEPTH p) _ _ ?_
  simp only [Fld.RING_PSVC_DEPTH, Reg.RING_PSVC, Reg.RING_PSTAT]
  omega

theorem portState_leaveHeal {p : Nat} (hp : p < 128) (s : State) : portState (leaveHeal s p) p ≠ PState.healing := by
  unfold leaveHeal
  extract_lets _ s1
  split
  · rw [portState_setPortState hp]
    decide
  next hne => exact hne

theorem regGet_leaveHeal_other {p q : Nat} (hq : q < 128) (hne : q ≠ p) (s : State) :
    regGet (leaveHeal s p) (Reg.RING_PSTAT q) = regGet s (Reg.RING_PSTAT q) := by
  unfold leaveHeal
  extract_lets _ s1
  have hs1 : regGet s1 (Reg.RING_PSTAT q) = regGet s (Reg.RING_PSTAT q) := regGet_dropRequests_pstat ..
  split
  · exact (regGet_setPortState_other hq hne ..).trans hs1
  · exact hs1

/-- Once ports of a list leave their heals, a port that does not heal, or is of the list, does not heal. -/
theorem portState_leaveAll {l : List Nat} {p : Nat} (hp : p < 128) (hlt : ∀ i ∈ l, i < 128)
    (h : p ∈ l ∨ portState s p ≠ PState.healing) : portState (l.foldl leaveHeal s) p ≠ PState.healing := by
  induction l generalizing s with
  | nil => exact h.resolve_left List.not_mem_nil
  | cons i l ih =>
    obtain ⟨hi, hlt⟩ := List.forall_mem_cons.mp hlt
    refine ih hlt ?_
    by_cases heq : p = i
    · subst heq
      exact .inr (portState_leaveHeal hp s)
    · rw [portState_of_pstat (regGet_leaveHeal_other hp heq s)]
      exact h.imp_left fun hin => (List.mem_cons.mp hin).resolve_left heq

/-- The heal of port `q` is over: none of its ports heals. -/
theorem abandonHeal_ends {p q : Nat} (hp : p < 128) (howner : healOwner s p = some q) :
    ∀ i ∈ healPorts s q, (port (abandonHeal p s) i).heal = none ∧ portState (abandonHeal p s) i ≠ PState.healing := by
  intro i hi
  have hlt := healPorts_lt (s := s) (healOwner_lt hp howner)
  have habandon : abandonHeal p s = sendMgmt (.healEnd (Fin.ofNat 128 q)) ((healPorts s q).foldl leaveHeal s) := by
    unfold abandonHeal
    rw [howner]
  rw [habandon, port_sendMgmt, portState_of_pstat (regGet_sendMgmt ..)]
  exact ⟨port_leaveAll (P := fun x => x.heal = none) (fun u i => (heal_leaveHeal u i).1) (.inl hi),
    portState_leaveAll (hlt i hi) hlt (.inl hi)⟩

theorem abandonHeal_none {p : Nat} (h : healOwner s p = none) :
    abandonHeal p s = setPort p { port s p with healReady := false } s := by
  unfold abandonHeal
  rw [h]

end Sys2Proof.Machine
end

section
namespace Sys2Proof.Machine

variable {s t : State}

/-! # The clauses of the pair's tests, mirrors and joins -/

/-- When a self-test starts by itself (R373). -/
theorem selftestStart_clauses (s : State) :
    let x := s.btn
    let newer := x.twin.any (fun h => decide (h.stSeq ≠ x.stSeq ∧ (h.stSeq + 65536 - x.stSeq) % 65536 < 32768));
    (inPair s = false ∨ x.stRun = true → exec .btnSelftestStart s = .next s) ∧
    (inPair s = true → x.stRun = false →
      (∀ h, x.twin = some h → newer = true → btnSelftestStart s = startSelftest h.stSeq false s) ∧
      (newer = false → fget s Fld.BTN_CFG_DIS_N ≤ x.disRun → btnSelftestStart s = startSelftest (x.stSeq + 1) false s) ∧
      (newer = false → x.disRun < fget s Fld.BTN_CFG_DIS_N → exec .btnSelftestStart s = .next s)) := by
  intro x newer
  have hold (hnew : newer = false) : ∀ h, x.twin = some h → ¬newerTest x h := fun h htwin hnewer => by
    have htrue : newer = true := any_newerTest.mpr ⟨h, htwin, hnewer⟩
    rw [hnew] at htrue
    cases htrue
  refine ⟨fun h => congrArg Host.Outcome.next (btnSelftestStart_idle h), fun hpair hrun => ⟨fun h htwin hnew => ?_,
    fun hnew hdis => ?_, fun hnew hdis => congrArg Host.Outcome.next ?_⟩⟩
  · obtain ⟨h', htwin', hnewer⟩ := any_newerTest.mp hnew
    obtain rfl : h = h' := Option.some.inj (htwin.symm.trans htwin')
    exact btnSelftestStart_follows hpair hrun htwin hnewer
  · exact (btnSelftestStart_disagrees hpair hrun (hold hnew)).trans (if_pos hdis)
  · exact (btnSelftestStart_disagrees hpair hrun (hold hnew)).trans (if_neg (Nat.not_le.mpr hdis))

/-- What the end of this unit's own test does (R373, R374). -/
theorem selftestDone_clauses (hrun : s.btn.stRun = true) (pass : Bool) :
    let x := s.btn
    let t := btnSelftestDone pass s
    onlyFault s t ∧ t.btn.stRun = false ∧
      t.btn.stOwn = (if pass = true then 1 else 2) ∧ (pass = false → fbit t Fld.BTN_HEALTH_SELFTEST = true) ∧
      t.btn.stTwin = x.stTwin ∧ t.btn.stSeq = x.stSeq ∧
      (x.stTwin = 0 ∨ x.stCmd = true → onlyRegs [Reg.BTN_HEALTH] s { t with btn := x } ∧
        fbit t Fld.BTN_HEALTH_SELFTEST = !pass) ∧
      (x.stTwin = 0 → t.btn.disRun = x.disRun ∧ t.btn.stCmd = x.stCmd) ∧
      (x.stTwin ≠ 0 → t.btn.disRun = 0 ∧ t.btn.stCmd = false) ∧
      (x.stCmd = false →
        (s.sys.role = .active → pass = false → x.stTwin = 1 → x.ho = none →
          ∃ h, t.btn.ho = some h ∧ h.cause = Chg.selftest ∧ t.btn.hoOp = .offer) ∧
        (s.sys.role = .active → pass = false → x.stTwin = 2 → latched t 47) ∧
        (pass = true → x.stTwin = 1 → latched t 46 ∧
          (s.sys.role ≠ .active → fbit t Fld.BTN_HEALTH_DISAGREE = true))) := by
  intro x t
  have ht : t = settleSelftest (resultSet pass s) := btnSelftestDone_eq hrun pass
  obtain ⟨hfault, hbtn, hfailed, hunknown, hknown⟩ := settled_settleSelftest (resultSet pass s)
  rw [← ht] at hfault hbtn hfailed hunknown hknown
  have hself := selftest_resultSet pass s
  refine ⟨hfault s (batonOnly_resultSet pass s), by rw [hbtn]; rfl, by rw [hbtn]; rfl, fun hpass => hfailed ?_,
    by rw [hbtn]; rfl, by rw [hbtn]; rfl, btnSelftestDone_quiet hrun pass, fun htwin => ?_, fun htwin => ?_, fun hcmd => ?_⟩
  · rw [hself, hpass]
    rfl
  · rw [hunknown (.inr htwin)]
    exact ⟨rfl, rfl⟩
  · exact (hknown (stOwn_resultSet_ne pass s) htwin).symm
  · obtain ⟨hoffer, hfatal, hagree⟩ := settleSelftest_table (s := resultSet pass s) hcmd
    rw [← ht] at hoffer hfatal hagree
    exact ⟨fun hrole hpass => hoffer hrole (by rw [stOwn_resultSet, hpass]; rfl),
      fun hrole hpass => hfatal hrole (by rw [stOwn_resultSet, hpass]; rfl),
      fun hpass => hagree (by rw [stOwn_resultSet, hpass]; rfl)⟩

/-- What a result of the twin that does not come does (R373). -/
theorem resultTimeout_clauses (hdue : s.btn.stOwn ≠ 0 ∧ s.btn.stTwin = 0 ∧ inPair s = true) :
    let x := s.btn
    let t := btnSelftestResultTimeout s
    onlyFault s t ∧ t.btn.stTwin = 2 ∧ t.btn.disRun = 0 ∧ t.btn.stCmd = false ∧ t.btn.stOwn = x.stOwn ∧
      (x.stCmd = false → s.sys.role = .active → x.stOwn = 2 → latched t 47) ∧
      (x.stCmd = true ∨ x.stOwn = 1 → t = { s with btn := t.btn }) := by
  intro x t
  let v : State := { s with btn := { s.btn with stTwin := 2 } }
  have ht : t = settleSelftest v := btnSelftestResultTimeout_eq hdue
  have hown : v.btn.stOwn ≠ 0 := hdue.1
  have htwin : v.btn.stTwin = 2 := rfl
  obtain ⟨hfault, hbtn, -, -, hknown⟩ := settled_settleSelftest v
  rw [← ht] at hfault hbtn hknown
  obtain ⟨hcmd, hrun⟩ := hknown hown (by rw [htwin]; decide)
  refine ⟨hfault s ⟨rfl, .of_regs_eq (.refl _ s) rfl⟩, by rw [hbtn], hrun, hcmd, by rw [hbtn], fun hno hrole htwo => ?_,
    fun hquiet => ?_⟩
  · rw [ht]
    obtain ⟨-, hfatal, -⟩ := settleSelftest_table (s := v) hno
    exact hfatal hrole htwo htwin
  · rw [ht, settleSelftest_missing hown htwin hquiet]
    rfl

/-- The timeouts of R374 and R456, and the end of joining. -/
theorem pairTimeouts_clauses (s : State) :
    let x := s.btn
    let diff := s.sys.role = .standby ∧ ∃ h, x.twin = some h ∧ h.role = .active ∧ h.mode ≠ s.sys.mode
    let heard := x.twin.any (fun h => h.role == .active && decide (s.sys.commAt ≤ x.twinAt)) = true
    let sets := fun (i : Instr) (f : Field) (v : Bool) => ∃ t, exec i s = .next t ∧ onlyRegs [Reg.BTN_HEALTH] s t ∧ fbit t f = v;
    (diff → sets .modeDiffTimeout Fld.BTN_HEALTH_MODE_DIFF true) ∧ (¬diff → exec .modeDiffTimeout s = .next s) ∧
    (x.pbDiffers = true → sets .pbDiffTimeout Fld.BTN_HEALTH_PB_DIFF true) ∧
    (x.pbDiffers = false → exec .pbDiffTimeout s = .next s) ∧
    (inPair s = true → s.sys.mode ≠ .boot → ¬heard → sets .joinTimeout Fld.BTN_HEALTH_JOINING false) ∧
    (inPair s = false ∨ s.sys.mode = .boot ∨ heard → exec .joinTimeout s = .next s) ∧
    (inPair s = true → s.sys.mode ≠ .boot → sets .joinComplete Fld.BTN_HEALTH_JOINING false) ∧
    (inPair s = false ∨ s.sys.mode = .boot → exec .joinComplete s = .next s) := by
  intro x diff heard sets
  have hset {i : Instr} {u : State} (f : Field) (b : Bool) (hi : exec i s = .next u) (hu : u = fset f (boolNat b) s)
      (hf : f.reg = Reg.BTN_HEALTH ∧ f.lo = f.hi ∧ f.hi < 32) : sets i f b := by
    obtain ⟨hreg, hlo, hhi⟩ := hf
    exact ⟨u, hi, hu ▸ healthSet_does f b s hreg hlo hhi⟩
  have hheard : heard ↔ heardHolder s = true := Iff.rfl
  refine ⟨fun h => hset Fld.BTN_HEALTH_MODE_DIFF true rfl (modeDiffTimeout_eq h) (by decide),
    fun h => congrArg Host.Outcome.next (modeDiffTimeout_idle h),
    fun h => hset Fld.BTN_HEALTH_PB_DIFF true rfl (if_pos h) (by decide),
    fun h => congrArg Host.Outcome.next (if_neg (by rw [h]; decide)), fun hpair hmode hno => ?_,
    fun h => congrArg Host.Outcome.next ?_, fun hpair hmode => ?_, fun h => congrArg Host.Outcome.next (if_neg ?_)⟩
  · rw [hheard, Bool.not_eq_true] at hno
    exact hset Fld.BTN_HEALTH_JOINING false rfl ((joinTimeout_eq s).trans (if_pos (by simp [hpair, hmode, hno]))) (by decide)
  · refine (joinTimeout_eq s).trans (if_neg ?_)
    rcases h with h | h | h
    · simp [h]
    · simp [h]
    · simp [hheard.mp h]
  · exact hset Fld.BTN_HEALTH_JOINING false rfl (if_pos (by simp [hpair, hmode])) (by decide)
  · rcases h with h | h
    · simp [h]
    · simp [h]

theorem twinSwept_does (p : Nat) (cells : List PosInfo) (s : State) :
    let t := twinSwept p cells s
    (port t p).twinCount = cells.length ∧ (port t p).twinInfo = cells ∧
      (∀ k ks, cells = k :: ks → (port t p).segLast = some k.phi) ∧ (port t p).withheld = false ∧
      (port t p).twinIds = infoIds cells ∧ ∀ i, i ≠ p → port t i = port s i := by
  intro t
  rw [show port t p = _ from port_twinSwept .., if_pos rfl]
  refine ⟨rfl, rfl, fun k ks hk => ?_, rfl, rfl, fun i hi => ?_⟩
  · rw [hk]
  · rw [port_twinSwept, if_neg hi]

/-- Settles O55: a decision of a self-test, a count of lanes and a part of the record leave to what follows from them
only what they name, and each message of the twin is one operation of the chains or of the baton. -/
theorem pairTestsMirrorsAndJoins : Obligations.PairTestsMirrorsAndJoins := by
  intro s o pass l part lat ch p n m a b c cells num x begins
  refine ⟨?_, fun hrun => congrArg Host.Outcome.next (btnSelftestDone_idle hrun pass),
    fun hrun => ⟨_, rfl, selftestDone_clauses hrun pass⟩,
    ⟨fun hdue => congrArg Host.Outcome.next (btnSelftestResultTimeout_idle hdue),
      fun hdue => ⟨_, rfl, resultTimeout_clauses hdue⟩⟩, ?_, pairTimeouts_clauses s, ?_,
    fun h => congrArg Host.Outcome.next (relayFrameLaunch_idle h), fun w cyc ok ep cut ws ids rel hrole hch hrest => ?_, ?_⟩
  · obtain ⟨hidle, hstart⟩ := selftestStart_clauses s
    refine ⟨hidle, fun hpair hrun => ?_, fun st hst => ⟨_, rfl, btnCommand_refused hst s⟩, fun hpass => ⟨_, rfl, ?_⟩⟩
    · obtain ⟨hfollow, hdis, hnone⟩ := hstart hpair hrun
      exact ⟨fun h htwin hnew => ⟨_, rfl, hfollow h htwin hnew⟩, fun hnew hn => ⟨_, rfl, hdis hnew hn⟩, hnone⟩
    · rw [btnCmdSelftest_of_none hpass]
      exact selftestOrdered_does ..
  · exact ⟨fun h => congrArg Host.Outcome.next (mirrorLaneLoss_idle h),
      fun h => ⟨_, congrArg Host.Outcome.next (mirrorLaneLoss_eq h), laneSet_does l (by decide) s⟩,
      fun h => congrArg Host.Outcome.next (mirrorLaneRestore_idle h),
      fun h => ⟨_, congrArg Host.Outcome.next (mirrorLaneRestore_eq h), laneSet_does l (by decide) s⟩⟩
  · refine ⟨fun hdead => congrArg Host.Outcome.next (if_pos ((deaf_iff s).mpr hdead)), fun hup => ?_⟩
    obtain ⟨hpair, hlanes⟩ := not_or.mp hup
    rw [Bool.not_eq_false] at hpair
    refine ⟨_, congrArg Host.Outcome.next (if_neg ((deaf_iff s).not.mpr hup)), ?_⟩
    obtain ⟨hlat, hslow, hsys, hcores, hfront, hbad, hgood⟩ := recordReceived_does (part := part) hpair hlanes lat
    cases part
    all_goals exact ⟨hlat, hslow, hsys, hcores, hfront, hbad, hgood⟩
  · refine ⟨fun h => congrArg Host.Outcome.next (relayFrameLaunch_waits hrole hch hrest h), fun hable => ?_⟩
    obtain ⟨hmine, hcyc, hlit, hheld⟩ := hable
    obtain ⟨h, tail, happly, hlead, hsend⟩ := relayFrameLaunch_sends hrole hch hrest hmine hcyc hlit hheld
    exact ⟨_, h, tail, congrArg Host.Outcome.next hsend, happly, hlead, onlyPort_setPort ..⟩
  · refine ⟨fun g hdead => congrArg Host.Outcome.next (management_deaf ((deaf_iff s).mpr hdead) g), fun hup => ?_⟩
    have hears : ¬deaf s := (deaf_iff s).not.mpr hup
    refine ⟨?sweepStart, ⟨_, rfl, ?sweepEnd⟩, fun hswept h => ?segmentNoted, fun w e k hchain hheal => ?segmentMeasured,
      ?images, ?reachIdle, fun w e hrole hchain => ?reach, ?reached, ?discoveryIdle, fun hrole => ?discovery, ?healIdle,
      fun w e hrole hmay hchain => ?healStart, ?healMeasured, fun h => ?healNone, fun q hq => ?healEnd, ?testRuns,
      fun hrun => ?testBegins⟩
    case sweepStart => exact ⟨_, congrArg Host.Outcome.next (management_sweepStart hears), onlyPort_setPort ..⟩
    case sweepEnd =>
      obtain ⟨hknows, hsys, hcores⟩ := sweepEnd_tells hears (p := p) cells
      refine ⟨hknows, hsys, hcores, fun hswept hwant hmay hjoin hchain hidle hpeer =>
        sweepEnd_starts hears hswept hwant hmay hjoin hchain hidle hpeer, fun hswept hwant => ?_⟩
      rw [show management (.sweepEnd p cells) s = twinSwept p cells s from sweepEnd_quiet hears hswept hwant]
      exact twinSwept_does p cells s
    case segmentNoted =>
      exact ⟨_, congrArg Host.Outcome.next (lastSegment_notes hears hswept h), onlyPort_setPort ..⟩
    case segmentMeasured =>
      have heq := lastSegment_measures (n := n) hears hchain hheal
      obtain ⟨-, hends⟩ := healMeasured_ends p.isLt hchain hheal n
      exact ⟨fun hfold => congrArg Host.Outcome.next (heq.trans (if_neg hfold)),
        fun hfold => ⟨_, congrArg Host.Outcome.next (heq.trans (if_pos hfold)), hends⟩⟩
    case images =>
      exact ⟨_, congrArg Host.Outcome.next (management_images hears a b c), rfl, rfl,
        .fset (.of_regs_eq (.refl _ s) rfl) (List.mem_singleton_self _),
        fbit_fset_bit Fld.BTN_HEALTH_IMAGE_DIFF _ _ rfl (by decide)⟩
    case reachIdle => exact fun h => congrArg Host.Outcome.next (management_reach_idle hears h)
    case reach => exact ⟨_, congrArg Host.Outcome.next (management_reach hears hrole hchain), reachNoted_does w n m s⟩
    case reached =>
      exact ⟨_, congrArg Host.Outcome.next (management_reached hears n),
        Store.get_set_self (fun _ => none) s.btn.twinReached p (some n), rfl⟩
    case discoveryIdle =>
      exact fun hrole => congrArg Host.Outcome.next ((management_discovery hears cells n).trans (if_neg hrole))
    case discovery =>
      exact ⟨_, congrArg Host.Outcome.next ((management_discovery hears cells n).trans (if_pos hrole)),
        takeDiscovery_does p.isLt cells n s⟩
    case healIdle =>
      refine fun h => congrArg Host.Outcome.next ((management_healStart hears).trans (if_neg fun ⟨hrole, hmay⟩ => ?_))
      rcases h with h | h
      · exact h hrole
      · rw [h] at hmay
        cases hmay
    case healStart =>
      obtain ⟨hstate, hheal⟩ := startHeal_heals p.isLt hchain (portState_of_mayHeal hmay)
      exact ⟨_, congrArg Host.Outcome.next ((management_healStart hears).trans (if_pos ⟨hrole, hmay⟩)), hstate,
        hheal.trans (congrArg some (if_pos hrole))⟩
    case healMeasured =>
      refine ⟨fun hno => congrArg Host.Outcome.next ((management_healMeasured hears n a).trans ?_), fun ⟨hrole, hstate⟩ =>
        ⟨_, congrArg Host.Outcome.next ((management_healMeasured hears n a).trans (if_pos hrole)),
          followHeal_follows p.isLt hstate n a⟩⟩
      split
      next hrole => exact followHeal_idle (fun hstate => hno ⟨hrole, hstate⟩) n a
      · rfl
    case healNone =>
      exact ⟨_, congrArg Host.Outcome.next ((management_healEnd hears).trans (abandonHeal_none h)), onlyPort_setPort ..⟩
    case healEnd => exact ⟨_, congrArg Host.Outcome.next (management_healEnd hears), abandonHeal_ends p.isLt hq⟩
    case testRuns => exact fun hrun => congrArg Host.Outcome.next ((management_selftest hears num).trans (if_pos hrun))
    case testBegins =>
      exact ⟨_, congrArg Host.Outcome.next ((management_selftest hears num).trans (if_neg (Bool.eq_false_iff.mp hrun))), rfl⟩

end Sys2Proof.Machine
end
